-- ==== Sys2Proof/Word.lean ====
section
/-! DEFINITION. Word.lean: the machine's words, the ranges of its indexes and the plainest arithmetic on them.
Register contents, operand words and addresses under computation are bit vectors; what is stored as a number in a
field of a register is a natural number below `2 ^ width`. -/
namespace Sys2Proof

/-- A 32-bit word: a scalar register, a register of a block, a lane of the vector array. -/
abbrev Word := BitVec 32
/-- One byte of memory or of a message. -/
abbrev Byte := BitVec 8
/-- A tile number, 0 to 7 (R8); which tiles are fitted is the variant's (R2). -/
abbrev TileId := Fin 8
/-- A ring of a tile, 0 to 31 (R8). -/
abbrev RingId := Fin 32
/-- A block of a ring, 0 to 511 (R8). -/
abbrev BlockId := Fin 512
/-- A cell of a block, 0 to 15 (R8). -/
abbrev CellPos := Fin 16
/-- A string of a ring, 0 to 31 (R15). -/
abbrev StringId := Fin 32
/-- A Casda core of a tile, 0 to 3 (R51). -/
abbrev CoreId := Fin 4
/-- A task index of a tile: core × 64 + slot (R53). -/
abbrev TaskId := Fin 256
/-- A loop channel of a tile, 0 to 63 (R266). -/
abbrev ChanId := Fin 64
/-- A CAN port of a tile, 0 to 7 (R378). -/
abbrev PortId := Fin 8

/-- The signed reading of a stored field of `w` bits. -/
def toSigned (w v : Nat) : Int := if v < 2 ^ (w - 1) then (v : Int) else (v : Int) - (2 ^ w : Nat)

/-- The `w`-bit pattern of an integer. -/
def ofSigned (w : Nat) (x : Int) : Nat := (x % (2 ^ w : Nat)).toNat

/-- `x` held within `lo` to `hi`. -/
def clampInt (lo hi x : Int) : Int := if x < lo then lo else if hi < x then hi else x

/-- Saturating count of a `w`-bit field. -/
def satAdd (w a b : Nat) : Nat := if a + b < 2 ^ w then a + b else 2 ^ w - 1

/-- Bit `i` of a number. -/
def bit (v i : Nat) : Bool := v.testBit i

/-- Bits `[lo + w - 1 : lo]` of a number. -/
def bitsOf (v lo w : Nat) : Nat := v / 2 ^ lo % 2 ^ w

/-- `v` with bit `i` set or cleared. -/
def setBit (v i : Nat) (b : Bool) : Nat :=
  if v.testBit i then (if b then v else v - 2 ^ i) else (if b then v + 2 ^ i else v)

/-- A Bool as a one-bit field. -/
def b2n (b : Bool) : Nat := if b then 1 else 0

/-- The bytes of a number, least significant first. -/
def leBytes : (n : Nat) → (v : Nat) → List Byte
  | 0, _ => []
  | n + 1, v => BitVec.ofNat 8 v :: leBytes n (v / 256)

/-- The number that bytes spell, least significant first. -/
def leNat : List Byte → Nat
  | [] => 0
  | b :: bs => b.toNat + 256 * leNat bs

/-- The bytes of a number, most significant first (network payloads, R9). -/
def beBytes (n v : Nat) : List Byte := (leBytes n v).reverse

/-- The number that bytes spell, most significant first. -/
def beNat (bs : List Byte) : Nat := leNat bs.reverse

end Sys2Proof
end

