-- ==== Sys2Proof/Syntax.lean ====
section
/-! DEFINITION. Syntax.lean: the commands of the module, one constructor of Instr per row of spec/opcode_table.json,
and the operand types they use. -/
namespace Sys2Proof

/-- The host roles and the side-band port's role (R41 to R43), numbered as MOD_HOST_VIOL_INFO.ROLE (R49). -/
inductive Role where
  | observer | operator | engineer | safety | management
deriving DecidableEq, Repr

/-- Who makes an access: a Casda task, or a host session with its identity (0 for the side-band port). -/
inductive Origin where
  | casda (t : TileId) (task : TaskId)
  | host (r : Role) (session : Nat)
deriving DecidableEq, Repr

/-- The immediate instructions of R60. -/
inductive ImmOp where
  | addi | andi | ori | xori | slti | sltiu | lui
deriving DecidableEq, Repr

/-- The scalar loads of R60. -/
inductive LoadOp where
  | lb | lbu | lh | lhu | lw | ldp
deriving DecidableEq, Repr

/-- The scalar stores of R60. -/
inductive StoreOp where
  | sb | sh | sw | sdp
deriving DecidableEq, Repr

/-- The conditional branches of R60. -/
inductive BranchOp where
  | beq | bne | blt | bge | bltu | bgeu
deriving DecidableEq, Repr

/-- The conversions of R91. -/
inductive CvtOp where
  | vcvtfi | vcvtfif | vcvtif
deriving DecidableEq, Repr

/-- The vector compares of R91. -/
inductive CmpOp where
  | vclt | vcle | vceq | vcun
deriving DecidableEq, Repr

/-- The predicate logic of R91. -/
inductive PredOp where
  | pand | por | pxor | pnot
deriving DecidableEq, Repr

/-- The reductions of R91. -/
inductive RedOp where
  | vrsum | vrmax | vrmin
deriving DecidableEq, Repr

/-- Element types of the strided vector accesses; 5 to 7 are illegal (R91). -/
abbrev ElemType := Fin 8

/-- What the critical-path monitors of a tile show (R329). -/
inductive Margin where
  | tooSmall | enough | spare
deriving DecidableEq, Repr

/-- An address and port of IPv4, in the low 32 bits, or of IPv6 (R357). -/
structure Endpoint where
  v6 : Bool := false
  ip : BitVec 128
  port : BitVec 16
deriving DecidableEq, Repr

/-- A CHP datagram as it arrives on a path: where it comes from, the address it is sent to, header fields, payload and MAC
(R358). `len` is the header's LEN, the payload the bytes the UDP length leaves for it. TYPE is that of the row that receives
it, or `asType`, one of the module's own types RESP, EVENT and TELEM (R360). `port` is the port it is sent to, `tag` the VLAN of
its tag; `fragment` says that it is an IP fragment, `crcOk` that its frame arrived without error (R357, R377). -/
structure Datagram where
  path : Fin 2
  src : Endpoint
  dst : BitVec 128
  port : BitVec 16 := 47300
  tag : Option (BitVec 12) := none
  fragment : Bool := false
  crcOk : Bool := true
  asType : Option (Fin 3) := none
  magic : BitVec 16
  version : Byte
  seq : Word
  session : Word
  len : BitVec 16
  tile : Byte
  status : Byte
  payload : List Byte
  mac : List Byte
deriving DecidableEq, Repr

/-- Media of a pluggable transceiver (R356). -/
inductive Medium where
  | sr10g | lr10g | sx1g | lx1g | other
deriving DecidableEq, Repr

/-- Address-resolution and echo messages (R357): the address asked for, or what is learned. -/
inductive Lookup where
  | arpRequest (target senderIp : Word) (senderMac : BitVec 48)
  | arpReply (ip : Word) (mac : BitVec 48)
  | ndpSolicit (target senderIp : BitVec 128) (senderMac : BitVec 48)
  | ndpAdvert (ip : BitVec 128) (mac : BitVec 48)
  | routerAdvert (router : BitVec 128) (mac : BitVec 48)
  | echo4 (target : Word)
  | echo6 (target : BitVec 128)
deriving DecidableEq, Repr

/-- What a block measures in one conversion (R124, R125, R159), and the lock of its two links (R123): cell voltages in
100 µV, temperatures in 0.01 °C, stack voltage in 2 mV, die temperature in °C, shunt current in 20 mA, charge since the
previous frame conversion in µC. -/
structure Analog where
  cells : List (BitVec 16)
  temps : List (BitVec 16)
  stack : BitVec 16
  die : Byte
  current : BitVec 16
  charge : BitVec 64
deriving DecidableEq, Repr

/-- The header of a frame of the ring (R120). -/
structure RingHeader where
  type : Byte
  cmd : Byte
  addr : BitVec 16
  seq : Byte
  len : Byte
deriving DecidableEq, Repr

/-- The end of a frame of the ring: its CRC-16, and whether it ends in ABORT (R118, R121). -/
structure RingEnd where
  crc : BitVec 16
  abort : Bool
deriving DecidableEq, Repr

/-- A frame of the ring as a block receives it (R120, R121): header, data bytes and end. -/
structure RingFrame extends RingHeader, RingEnd where
  req : List Byte
deriving DecidableEq, Repr

/-- A block and the frame that reaches it. -/
structure BlockFrame where
  block : BlockId
  frame : RingFrame
deriving DecidableEq, Repr

/-- A block and those of its comparators that clear: bit 0 over-voltage, bit 1 under-voltage, bit 2 over-temperature
(R135). -/
structure BlockComparators where
  block : BlockId
  which : BitVec 3
deriving DecidableEq, Repr

/-- A core and the instruction word it executes (R58). -/
structure CoreWord where
  core : CoreId
  word : Word
deriving DecidableEq, Repr

/-- A core and the three register fields of the word it executes, all unused by TEND (R58). -/
structure CoreFields where
  core : CoreId
  d : Fin 32
  a : Fin 32
  b : Fin 32
deriving DecidableEq, Repr

/-- The second register field a SYS operation uses, and the field of its word that it leaves unused (R58, R64). -/
structure SysFields where
  use : Fin 32
  unused : Fin 32
deriving DecidableEq, Repr

/-- A data receiver of a ring (R117): that of the module's head or tail end, or that of a block toward its upstream or
downstream neighbour. -/
inductive RingReceiver where
  | head
  | tail
  | upstream (b : BlockId)
  | downstream (b : BlockId)
deriving DecidableEq, Repr

/-- A frame on a CAN port (R378, R394): identifier form, FD format, bit-rate switch, error state indicator, remote frame,
identifier, data length code, data bytes, and whether the res bit of an FD frame is recessive. -/
structure CanFrame where
  ext : Bool
  fdf : Bool
  brs : Bool
  esi : Bool
  rtr : Bool
  id : BitVec 29
  dlc : Fin 16
  data : List Byte
  res : Bool := false
deriving DecidableEq, Repr

/-- How a transmission attempt fails (CAN_STATUS.LEC, R389, R394), arbitration lost included. -/
inductive CanFault where
  | arbitration | stuff | form | ack | bit1 | bit0 | crc
deriving DecidableEq, Repr

/-- A failed attempt as ISO 11898-1 counts it: whether a stuff error met a recessive bit of the arbitration field that was
monitored dominant, and how often dominant bits in or after the error flag add a further 8 (R389). -/
structure CanTxFault where
  kind : CanFault
  inArbitration : Bool := false
  more : Nat := 0
deriving DecidableEq, Repr

/-- How VIN_48 falls: below 34 V, below 30 V, or off its contacts (R496, R497). -/
inductive VinDip where
  | below34 | below30 | removed
deriving DecidableEq, Repr

/-- What the check of SDA before a START finds: high, freed by the clear, or still low after nine pulses (R409). -/
inductive BusCheck where
  | high | freed | stuck
deriving DecidableEq, Repr

/-- How a controller job ends: every byte acknowledged, with the bytes read; an address not acknowledged, the first one or that
of the repeated START; a written byte not acknowledged, or SCL held low for 35 ms, after `wdone` acknowledged bytes (R408). -/
inductive JobEnd where
  | ok (read : List Byte) | noAddress (repeated : Bool) | noData (wdone : BitVec 7) | sclLow (wdone : BitVec 7)
deriving DecidableEq, Repr

/-- A target write transfer: its bytes after the address, and whether a STOP ends it or a repeated START (R398 to R400). -/
structure TargetWrite where
  bytes : List Byte
  stop : Bool := true
deriving DecidableEq, Repr

/-- A target read transfer: how many bytes the controller reads, and whether a STOP ends it or a repeated START (R398, R399). -/
structure TargetRead where
  n : BitVec 16
  stop : Bool := true
deriving DecidableEq, Repr


/-- The commands of the module. -/
inductive Instr where
  /-- A CHP READ returns LEN bytes of the module address space as stored (R365). -/
  | hostRead (d : Datagram)
  /-- A CHP WRITE stores LEN bytes into the module address space, applied completely or not at all within one register block
  (R365). -/
  | hostWrite (d : Datagram)
  /-- A write to a register that has no row of its own is checked and applied by the access code of its field (R10). -/
  | registerWrite (t : TileId) (o : Origin) (k : Fin 20) (off : Fin 16384) (w : Word)
  /-- Writing a RESET bit of MOD_TILE_CTRL resets the named tile once, after which it boots (R50). -/
  | tileReset (o : Origin) (t : TileId)
  /-- Setting a HOLD bit of MOD_TILE_CTRL holds the named tile in reset in state HELD (R50). -/
  | tileHold (o : Origin) (t : TileId)
  /-- Clearing a HOLD bit of MOD_TILE_CTRL releases the tile into BOOT (R50). -/
  | tileHoldRelease (o : Origin) (t : TileId)
  /-- An ALU group instruction computes its function of s[a] and s[b] into s[d] (R61). -/
  | aluOp (t : TileId) (k : CoreId) (d a b : Fin 32) (func : Fin 2048)
  /-- ADDI, ANDI, ORI, XORI, SLTI, SLTIU or LUI computes its result with an immediate operand (R60). -/
  | aluImmediate (t : TileId) (k : CoreId) (op : ImmOp) (d a : Fin 32) (imm : BitVec 16)
  /-- A scalar load reads memory or a register into s[d], delivering zero on rejection (R65). -/
  | load (t : TileId) (k : CoreId) (op : LoadOp) (d a : Fin 32) (imm : BitVec 16) (ecc : Bool)
  /-- A scalar store writes s[d] to memory or a register, recording a rejection in TILE_LAST_ERR (R65). -/
  | store (t : TileId) (k : CoreId) (op : StoreOp) (d a : Fin 32) (imm : BitVec 16)
  /-- An AMO performs an atomic read-modify-write of one aligned word at the target memory controller (R63). -/
  | amo (t : TileId) (k : CoreId) (d a b : Fin 32) (func : Fin 2048) (ecc : Bool)
  /-- A conditional branch compares s[a] and s[b] and moves the PC to its target when the condition holds (R59). -/
  | branch (t : TileId) (k : CoreId) (op : BranchOp) (a b : Fin 32) (disp : BitVec 16)
  /-- J moves the PC to its target (R60). -/
  | jump (t : TileId) (k : CoreId) (disp : BitVec 26)
  /-- JAL writes the return address to s31 and moves the PC to its target (R60). -/
  | jal (t : TileId) (k : CoreId) (disp : BitVec 26)
  /-- JALR jumps to a register-relative target and writes the return address to s[d] (R60). -/
  | jalr (t : TileId) (k : CoreId) (d a : Fin 32) (imm : BitVec 16)
  /-- NOP does nothing (R64); the words that spell no operation at all come under it too (R58, R97). -/
  | nop (t : TileId) (w : CoreWord)
  /-- MFS reads a special register into s[d]; its a field is unused (R56, R58). -/
  | mfs (t : TileId) (k : CoreId) (d : Fin 32) (b : SysFields)
  /-- MTS writes s[a] to a special register; its d field is unused (R56, R58). -/
  | mts (t : TileId) (k : CoreId) (a : Fin 32) (b : SysFields)
  /-- TEND ends the current activation, settling it and leaving the task WAITING, READY again if PENDING, or STOPPED if
  ONESHOT (R68). -/
  | tend (t : TileId) (w : CoreFields)
  /-- The trap task resumes a TRAPPED task at a given offset (R74). -/
  | tret (t : TileId) (k : CoreId) (d a b : Fin 32)
  /-- TRIG triggers a named task of the tile; its b field is unused (R58, R69). -/
  | trig (t : TileId) (k : CoreId) (d : Fin 32) (a : SysFields)
  /-- CASDA_TASK_CMD START makes a STOPPED task READY for its first activation (R68). -/
  | taskStart (t : TileId) (o : Origin) (i : TaskId)
  /-- CASDA_TASK_CMD STOP stops a task at its next instruction boundary after its device operations complete (R85). -/
  | taskStop (t : TileId) (o : Origin) (i : TaskId)
  /-- CASDA_TASK_CMD TRIGGER triggers a task, making it READY or setting PENDING (R69). -/
  | taskTrigger (t : TileId) (o : Origin) (i : TaskId)
  /-- CASDA_TASK_CMD KILL stops a task at once and discards its device results (R85). -/
  | taskKill (t : TileId) (o : Origin) (i : TaskId)
  /-- A write to TASK_CFG configures or clears a task slot, subject to state and priority checks (R84). -/
  | taskCfgWrite (t : TileId) (o : Origin) (i : TaskId) (w : Word)
  /-- Setting a HALT bit halts the core at its next instruction boundary (R83). -/
  | coreHalt (t : TileId) (o : Origin) (k : CoreId)
  /-- HALTED is set once every outstanding access of the halted core has completed (R83). -/
  | coreHalted (t : TileId) (k : CoreId)
  /-- Clearing a HALT bit resumes the core's scheduler where it stopped (R83). -/
  | coreResume (t : TileId) (o : Origin) (k : CoreId)
  /-- Setting CASDA_WDOG_CFG.EN starts the system watchdog until the next tile reset (R82). -/
  | wdogEnable (t : TileId) (o : Origin) (period : BitVec 14)
  /-- Writing 0x0000_5A17 to CASDA_WDOG_KICK reloads the watchdog (R82). -/
  | wdogKick (t : TileId) (o : Origin) (w : Word)
  /-- Watchdog expiry restarts the tile with WATCHDOG set, after carry on the SKV7288 (R82). -/
  | wdogExpiry (t : TileId)
  /-- Writing CASDA_TIMERn_PERIOD restarts or stops the timer (R81). -/
  | casdaTimerWrite (t : TileId) (o : Origin) (n : Fin 4) (w : Word)
  /-- A CASDA timer period elapses and triggers its bound task (R81). -/
  | casdaTimerExpiry (t : TileId) (n : Fin 4)
  /-- A write to CASDA_MBOX_POST_m enqueues a word and triggers the mailbox's task (R80). -/
  | mboxPost (t : TileId) (o : Origin) (m : Fin 16) (w : Word)
  /-- A read of CASDA_MBOX_POP_m removes and returns the head word (R80). -/
  | mboxPop (t : TileId) (o : Origin) (m : Fin 16)
  /-- A write to CASDA_MBOX_CFG_m binds the mailbox, and clearing EN empties its FIFO (R84). -/
  | mboxCfgWrite (t : TileId) (o : Origin) (m : Fin 16) (w : Word)
  /-- A write to CASDA_IRQ_ROUTE_s binds an interrupt source to a task, checking FIXED routes (R77). -/
  | irqRouteWrite (t : TileId) (o : Origin) (r : Fin 64) (w : Word)
  /-- A vector arithmetic, unary or clamp instruction computes lane-wise under its predicate (R91). -/
  | vectorArith (t : TileId) (k : CoreId) (vfunc : Fin 2048) (vd va vb : Fin 16) (p : Fin 8)
  /-- VCVTFI, VCVTFIF or VCVTIF converts lanes between FP32 and int32 (R91). -/
  | vectorConvert (t : TileId) (k : CoreId) (op : CvtOp) (vd va vb : Fin 16) (p : Fin 8)
  /-- A vector compare writes a predicate register lane by lane (R91). -/
  | vectorCompare (t : TileId) (k : CoreId) (op : CmpOp) (vd va vb : Fin 16) (p : Fin 8)
  /-- PAND, POR, PXOR or PNOT combines predicate registers (R91). -/
  | predicateLogic (t : TileId) (k : CoreId) (op : PredOp) (vd va vb : Fin 16) (p : Fin 8)
  /-- VSEL selects each lane from va or vb by the predicate (R91). -/
  | vsel (t : TileId) (k : CoreId) (vd va vb : Fin 16) (p : Fin 8)
  /-- VBCAST writes a scalar register's bits into every active lane (R91). -/
  | vbcast (t : TileId) (k : CoreId) (vd va vb : Fin 16) (p : Fin 8)
  /-- VEXT returns one lane of a vector register to a scalar register (R91). -/
  | vext (t : TileId) (k : CoreId) (vd va vb : Fin 16) (p : Fin 8)
  /-- VLANE writes each lane's index as FP32 (R91). -/
  | vlane (t : TileId) (k : CoreId) (vd va vb : Fin 16) (p : Fin 8)
  /-- PFROMS loads a predicate from a scalar register (R91). -/
  | pfroms (t : TileId) (k : CoreId) (vd va vb : Fin 16) (p : Fin 8)
  /-- PTOS returns a predicate as a scalar register (R91). -/
  | ptos (t : TileId) (k : CoreId) (vd va vb : Fin 16) (p : Fin 8)
  /-- VRSUM, VRMAX or VRMIN reduces the active lanes in a fixed pairwise tree (R89). -/
  | vectorReduce (t : TileId) (k : CoreId) (op : RedOp) (vd va vb : Fin 16) (p : Fin 8)
  /-- A strided vector load reads elements of own-tile DRAM into the lanes (R93). -/
  | vlds (t : TileId) (k : CoreId) (e : ElemType) (vd va vb : Fin 16) (p : Fin 8)
  /-- A strided vector store writes the lanes to own-tile DRAM (R93). -/
  | vsts (t : TileId) (k : CoreId) (e : ElemType) (vd va vb : Fin 16) (p : Fin 8)
  /-- A gather load reads FP32 elements at per-lane offsets (R93). -/
  | vldg (t : TileId) (k : CoreId) (vd va vb : Fin 16) (p : Fin 8)
  /-- A scatter store writes FP32 lanes at per-lane offsets (R93). -/
  | vstx (t : TileId) (k : CoreId) (vd va vb : Fin 16) (p : Fin 8)
  /-- An uncorrectable error on vector load data raises VECC and discards queued vector instructions (R112). -/
  | veccTrap (t : TileId) (addr : Word)
  /-- YIELD places the task behind all READY tasks of its priority (R71). -/
  | yield (t : TileId) (k : CoreId) (d a : Fin 32)
  /-- The TRAP device operation raises a SOFT trap with its operand (R100). -/
  | trap (t : TileId) (k : CoreId) (d a : Fin 32)
  /-- FENCE stalls the task until its earlier memory accesses are acknowledged (R100). -/
  | fence (t : TileId) (k : CoreId) (d a : Fin 32)
  /-- The last acknowledgement arrives and a fenced task continues (R100). -/
  | fenceDone (t : TileId) (i : TaskId)
  /-- BUDGET changes the activation's cost class, with the governor deciding the grant again (R111). -/
  | budget (t : TileId) (k : CoreId) (d a : Fin 32)
  /-- VCLAIM requests the vector array claim, at once or by waiting (R87). -/
  | vclaim (t : TileId) (k : CoreId) (d a : Fin 32)
  /-- VRELEASE gives up the vector claim once issued vector instructions complete (R87). -/
  | vrelease (t : TileId) (k : CoreId) (d a : Fin 32)
  /-- VSTAT returns and clears the sticky floating-point flags (R100). -/
  | vstat (t : TileId) (k : CoreId) (d a : Fin 32)
  /-- NS32 returns TIME_NS32 (R102). -/
  | ns32 (t : TileId) (k : CoreId) (d a : Fin 32)
  /-- STATION returns station ns and seconds as one snapshot (R102). -/
  | station (t : TileId) (k : CoreId) (d a : Fin 32)
  /-- FRAME returns the latest frame instant's number and its TIME_NS32 (R102). -/
  | frame (t : TileId) (k : CoreId) (d a : Fin 32)
  /-- OPTIME returns operating time in ms (R102). -/
  | optime (t : TileId) (k : CoreId) (d a : Fin 32)
  /-- RPOST checks a ring transaction descriptor and queues it on its ring (R104). -/
  | rpost (t : TileId) (k : CoreId) (d a : Fin 32)
  /-- RWAIT waits for a ring transaction descriptor to complete (R104). -/
  | rwait (t : TileId) (k : CoreId) (d a : Fin 32)
  /-- SFETCH copies one 64-byte block record of a frame into local memory (R105). -/
  | sfetch (t : TileId) (k : CoreId) (d a : Fin 32)
  /-- The block record copy of SFETCH completes and the task resumes (R105). -/
  | sfetchDone (t : TileId) (i : TaskId)
  /-- SLAST returns the latest complete frame number (R100). -/
  | slast (t : TileId) (k : CoreId) (d a : Fin 32)
  /-- BDUTY writes a checked, die-capped duty command into a block's duty slot (R106). -/
  | bduty (t : TileId) (k : CoreId) (d a : Fin 32)
  /-- LSHW writes a loop parameter into a channel's shadow bank (R107). -/
  | lshw (t : TileId) (k : CoreId) (d a : Fin 32)
  /-- LCOMMIT requests transfer of a channel's shadow bank at its next boundary (R107). -/
  | lcommit (t : TileId) (k : CoreId) (d a : Fin 32)
  /-- EMIT presents an owner or System event record to the recorder (R108). -/
  | emit (t : TileId) (k : CoreId) (d a : Fin 32)
  /-- DQUEUE checks a DMA descriptor and queues it on a channel (R418). -/
  | dqueue (t : TileId) (k : CoreId) (d a : Fin 32)
  /-- DWAIT waits for a DMA job's outcome (R109). -/
  | dwait (t : TileId) (k : CoreId) (d a : Fin 32)
  /-- FWAIT waits for the frame-complete of a given frame (R110). -/
  | fwait (t : TileId) (k : CoreId) (d a : Fin 32)
  /-- IWAIT waits for the frame instant of a given frame (R110). -/
  | iwait (t : TileId) (k : CoreId) (d a : Fin 32)
  /-- Writing RING_CTRL.ENUM acts as ring.enumerate for that ring (R155). -/
  | ringCtrlEnum (t : TileId) (o : Origin) (r : RingId)
  /-- A write to RING_SMAP_COMMIT checks a ring's pending string map and schedules it for the next frame instant (R147). -/
  | ringSmapCommit (t : TileId) (o : Origin) (r : RingId)
  /-- A ring receiver locks to a valid signal, which may start or restart enumeration (R117). -/
  | ringLinkLock (t : TileId) (r : RingId) (rx : RingReceiver) (eq : Byte)
  /-- A ring receiver sees no valid symbol for 50 µs and reports loss of lock (R117). -/
  | ringLinkLoss (t : TileId) (r : RingId) (rx : RingReceiver)
  /-- The tail end receives ASSIGN and records the block count and loop delay (R137). -/
  | assignAtTail (t : TileId) (r : RingId) (count : Fin 513) (acc : BitVec 24)
  /-- No ASSIGN reaches the tail within 5 ms, so a break is handled during enumeration (R137). -/
  | assignTimeout (t : TileId) (r : RingId)
  /-- An enumeration step exceeds its bound and the ring enters FAULT (R149). -/
  | enumStepTimeout (t : TileId) (r : RingId)
  /-- The break position is found and the segments are set up for split operation (R150). -/
  | breakLocated (t : TileId) (r : RingId) (k n : Fin 513) (twoBreaks : Bool)
  /-- A break on a carried ring is located from the tail alone (R529). -/
  | carriedBreakLocate (t : TileId) (r : RingId) (k : Fin 513)
  /-- After the facing links hold lock, a MEASURE_ONLY pass around the whole loop is tried (R151). -/
  | rejoinAttempt (t : TileId) (r : RingId)
  /-- A block missing for 3 consecutive frames with links locked sends the ring to ENUM (R149). -/
  | missingCountReenum (t : TileId) (r : RingId)
  /-- A port reports fault-tone loss within 2 ms and Beryl's SF1 demands (R135). -/
  | toneLossReport (t : TileId) (r : RingId) (tail : Bool)
  /-- A port's tone receiver sees the fault tone again (R135). -/
  | toneRestored (t : TileId) (r : RingId) (tail : Bool)
  /-- A split-state port receives a BEACON that keeps tone supervision alive (R136). -/
  | beaconReceive (t : TileId) (r : RingId) (tail : Bool)
  /-- No BEACON for 2 ms, so the port reports tone loss (R136). -/
  | beaconTimeout (t : TileId) (r : RingId) (tail : Bool)
  /-- COLLECT leaves the driving end 455 µs after the frame instant (R131). -/
  | collectLaunch (t : TileId) (r : RingId)
  /-- A block's sample response is stored as its 64-byte block record of the frame (R125). -/
  | sampleResponseReceive (t : TileId) (r : RingId) (el : List Byte)
  /-- A RETRY pass lists up to 8 missing blocks for a second response (R133). -/
  | retryPassLaunch (t : TileId) (r : RingId)
  /-- A ring's sweep is done or cut at 11 ms, and missing blocks are stored MISSING (R133). -/
  | ringSweepEnd (t : TileId) (r : RingId) (reached : Bool)
  /-- A queued CMD or POST frame is launched when the ring's precedence and timing allow (R129). -/
  | ringTxLaunch (t : TileId) (r : RingId)
  /-- A command response element for a transaction arrives (R132). -/
  | ringTxResponse (t : TileId) (r : RingId) (seq : Byte) (el : List Byte)
  /-- A transaction without a correct response for 1 ms is retried or completes in error (R132). -/
  | ringTxRetryTimeout (t : TileId) (r : RingId) (seq : Byte)
  /-- Filled duty slots are sent as SET_DUTY POST frames in ascending block order (R134). -/
  | dutySlotSend (t : TileId) (r : RingId)
  /-- Each driving end launches QUIET at T − QUIET before the frame instant (R232). -/
  | quietLaunch (t : TileId) (r : RingId)
  /-- A block accepts SYNC and times its conversion from its arrival (R130). -/
  | blockSyncReceive (t : TileId) (r : RingId) (b : BlockId) (h : RingHeader) (req : List Byte) (e : RingEnd)
      (interval : Word)
  /-- A block converts its channels ALIGN − A after SYNC arrived (R130). -/
  | blockConversion (t : TileId) (r : RingId) (b : BlockId) (a : Analog)
  /-- A block appends its sample response to the passing COLLECT train (R124). -/
  | collect (t : TileId) (r : RingId) (b : BlockFrame)
  /-- A listed block appends its sample response to a RETRY frame again (R120). -/
  | retry (t : TileId) (r : RingId) (b : BlockId) (fr : RingFrame)
  /-- A block takes its address and arrival offset from ASSIGN and forwards it updated (R137). -/
  | assign (t : TileId) (r : RingId) (b : BlockId) (h : RingHeader) (req : List Byte) (crc : BitVec 16) (abort : Bool)
      (upstream retime : BitVec 16)
  /-- A block returns its UID, type and steps (R127). -/
  | readId (t : TileId) (r : RingId) (b : BlockId) (fr : RingFrame)
  /-- A block sets its comparator thresholds unless locked (R127). -/
  | setThr (t : TileId) (r : RingId) (b : BlockId) (fr : RingFrame)
  /-- A block locks its thresholds until its next power cycle (R127). -/
  | lockThr (t : TileId) (r : RingId) (b : BlockId) (fr : RingFrame)
  /-- A block returns its thresholds and lock flag (R127). -/
  | readThr (t : TileId) (r : RingId) (b : BlockId) (fr : RingFrame)
  /-- A block starts computing its authentication response to a challenge (R142). -/
  | challenge (t : TileId) (r : RingId) (b : BlockId) (fr : RingFrame)
  /-- A block's authentication response becomes ready to read (R142). -/
  | blockAuthReady (t : TileId) (r : RingId) (b : BlockId)
  /-- A block returns its authentication response, or E_BUSY until ready (R142). -/
  | authRead (t : TileId) (r : RingId) (b : BlockId) (fr : RingFrame)
  /-- A block takes its head and measure-while-balancing roles from its next conversion (R147). -/
  | setRole (t : TileId) (r : RingId) (b : BlockId) (fr : RingFrame)
  /-- A block sets its direction and segment-end role (R127). -/
  | setPos (t : TileId) (r : RingId) (b : BlockId) (fr : RingFrame)
  /-- A block suspends bleeding beside a wire and sinks 100 µA from it (R169). -/
  | openTest (t : TileId) (r : RingId) (b : BlockId) (fr : RingFrame)
  /-- After 200 µs the block answers with the changes of the two neighbouring cells (R169). -/
  | openTestSinkDone (t : TileId) (r : RingId) (b : BlockId) (below above : BitVec 16)
  /-- A block sets its burst mask (R164). -/
  | burst (t : TileId) (r : RingId) (b : BlockId) (fr : RingFrame)
  /-- A block answers with no effect (R127). -/
  | ping (t : TileId) (r : RingId) (b : BlockId) (fr : RingFrame)
  /-- A block returns CRC error counts, die temperature and reset count (R127). -/
  | readStatus (t : TileId) (r : RingId) (b : BlockId) (fr : RingFrame)
  /-- A block takes a duty command as pending, stopping at once for a zero map, and refreshes its bleed watchdog (R228). -/
  | setDuty (t : TileId) (r : RingId) (b : BlockId) (fr : RingFrame)
  /-- A block not set for measure-while-balancing switches every cell off until the end of the cycle (R228). -/
  | quiet (t : TileId) (r : RingId) (b : BlockId) (fr : RingFrame)
  /-- A block enters ship state, stopping conversion, bleeding and tone passing (R146). -/
  | ship (t : TileId) (r : RingId) (b : BlockId) (fr : RingFrame)
  /-- A block that has received K28.5 for 10 ms leaves ship state without an address (R146). -/
  | shipStateExit (t : TileId) (r : RingId) (b : BlockId)
  /-- A block's bleed cycle begins 0.45 ms after the frame instant and applies its pending command (R228). -/
  | bleedCycleStart (t : TileId) (r : RingId) (b : BlockId)
  /-- The cells of a block stop conducting when duty × T has elapsed (R232). -/
  | bleedOnTimeEnd (t : TileId) (r : RingId) (b : BlockId)
  /-- A block without SET_DUTY for 2 s switches every cell off and sets WDOG_STOP (R229). -/
  | bleedWatchdogExpiry (t : TileId) (r : RingId) (b : BlockId)
  /-- A block comparator trips and the block stops passing the fault tone (R135). -/
  | blockComparatorTrip (t : TileId) (r : RingId) (b : BlockId) (which : Fin 3)
  /-- All comparators of a block clear and it passes the tone again (R135). -/
  | blockComparatorClear (t : TileId) (r : RingId) (b : BlockComparators)
  /-- A frame instant advances the frame number and starts the frame on every tile (R156). -/
  | frameInstant
  /-- Frame-complete is raised once every ring's sweep, verdict and record of the frame is done (R163). -/
  | frameComplete (t : TileId)
  /-- A write of SMP_FRAME_CFG.NEXT schedules or cancels a frame-period change (R157). -/
  | framePeriodNextWrite (o : Origin) (next : Fin 4)
  /-- A burst sub-instant launches SYNC with the burst byte set (R164). -/
  | burstSubInstant (t : TileId) (j : Fin 20)
  /-- Burst responses are collected in RETRY frames after the burst conversion (R165). -/
  | burstCollect (t : TileId) (r : RingId) (els : List (List Byte))
  /-- A burst entry completes when all rings deliver or after 5 ms (R167). -/
  | burstEntryComplete (t : TileId)
  /-- SMP_BURST_CTRL.COMMIT checks the burst list for the next frame instant (R166). -/
  | burstListCommit (t : TileId) (o : Origin) (count : Fin 2048)
  /-- The scheduled open-wire test interval elapses for a wire (R169). -/
  | owScheduledTest (t : TileId) (r : RingId) (b : BlockId) (w : Fin 17)
  /-- A confirmed wire is tested again every 60 s (R171). -/
  | owRetestTimer (t : TileId) (r : RingId) (b : BlockId) (w : Fin 17)
  /-- The command launches tests of all 17 wires of a block (R181). -/
  | smpOwTest (d : Datagram)
  /-- LIMIT_COMMIT checks a limit set's pending copy for the next frame instant (R175). -/
  | limitCommitWrite (t : TileId) (o : Origin) (w : Word)
  /-- A write to LIMIT_RING_SEL_r changes a ring's set or temperature mask from the next frame instant (R175). -/
  | limitRingSelWrite (t : TileId) (o : Origin) (r : RingId) (w : Word)
  /-- The estimator task updates every due cell, the string summaries and EST_PASS for one frame (R193). -/
  | estimatorPass (t : TileId)
  /-- At REST_MIN and every 60 s of rest the relaxation fit offers a rest anchor (R196). -/
  | restFit (t : TileId) (r : RingId) (str : StringId)
  /-- A rest request not granted within 60 min is cleared, and renewed 60 min later (R204). -/
  | restRequestExpiry (t : TileId) (r : RingId) (str : StringId)
  /-- EST_LV_CFG.INTERVAL elapses and a commit of all learned values starts (R216). -/
  | lvCommitInterval (t : TileId)
  /-- A learned-value commit finishes writing its journaled records (R217). -/
  | lvCommitComplete (t : TileId) (failAt : Option (BitVec 32)) (reach : Bool)
  /-- A write to EST_STALE_CLEAR ends a block's stale mark from the next frame (R220). -/
  | estStaleClear (t : TileId) (o : Origin) (w : Word)
  /-- The command requests rolling rests for strings (R224). -/
  | estAnchorRequest (d : Datagram)
  /-- The command stores a chemistry profile (R224). -/
  | estProfile (d : Datagram)
  /-- The command applies the adoption rule to cells at the next pass (R224). -/
  | estCellInit (d : Datagram)
  /-- The command commits learned values with cause 8 (R224). -/
  | lvBackup (d : Datagram)
  /-- The command reloads cell records from learned values at the next pass (R224). -/
  | lvRestore (d : Datagram)
  /-- The planner turns the new states into duties within the heat budget for the next cycle (R226). -/
  | balancingPlannerRun (t : TileId)
  /-- A budget older than BUDGET_AGE counts as zero and is marked stale (R233). -/
  | heatBudgetStale (t : TileId) (k : Fin 32)
  /-- MAN_TIMEOUT elapses and balancing returns to its previous mode (R240). -/
  | manualTimeout (t : TileId)
  /-- The command changes the balancing mode (R240). -/
  | balMode (d : Datagram)
  /-- The command sets a block's manual duty (R243). -/
  | balManual (d : Datagram)
  /-- The command starts wire learning on a block (R238). -/
  | balWireTest (d : Datagram)
  /-- At each cycle instant inputs are latched, P_f advanced and string set-points allocated (R257). -/
  | dispatchCycle
  /-- The set-point age exceeds AGE_LIMIT and FOLLOW changes to the ON_AGE mode (R249). -/
  | setpointAgeExpiry
  /-- A tile has not answered an allocation exchange within 300 µs (R255). -/
  | allocationExchangeTimeout (t : TileId)
  /-- Uncoordinated cycles reach AGE_LIMIT and the tile ramps its strings to zero (R256). -/
  | coordinationRamp (t : TileId)
  /-- The cyclic-transmit engine releases each container frame into its transmit buffer (R262). -/
  | cyclicTxRelease (t : TileId)
  /-- A slot unrefreshed for REPEAT_LIMIT stops being sent (R262). -/
  | repeatLimitStop (t : TileId) (k : Fin 32)
  /-- A rolling rest ends on duration, on 30 s without rest, or on the request clearing (R258). -/
  | restEnd (t : TileId) (r : RingId) (str : StringId)
  /-- A perturbation session ends complete after 20 / f s (R260). -/
  | sessionEnd (t : TileId) (i : Fin 4)
  /-- The command supplies a new host set-point (R248). -/
  | bankSetpoint (d : Datagram)
  /-- The command changes the dispatch mode and sets STARTED (R251). -/
  | dispMode (d : Datagram)
  /-- The command stores the LOCAL schedule (R252). -/
  | dispSchedule (d : Datagram)
  /-- The command starts a zero-sum perturbation session (R259). -/
  | dispPerturb (d : Datagram)
  /-- The command ends a perturbation session early (R260). -/
  | dispPerturbStop (d : Datagram)
  /-- A loop channel runs its transfer, health, mode and output steps at its boundary (R267). -/
  | loopSampleBoundary (t : TileId) (ch : ChanId)
  /-- HOLD_TIME elapses in failure HOLD and the channel enters FALLBACK (R276). -/
  | loopHoldTimeExpiry (t : TileId) (ch : ChanId)
  /-- A write to LOOP_COMMIT sets COMMIT_PENDING for a channel (R278). -/
  | loopCommitWrite (t : TileId) (o : Origin) (w : Word)
  /-- A register store to a shadow parameter word lands in the shadow bank (R278). -/
  | loopShadowStore (t : TileId) (o : Origin) (ch : ChanId) (p : Fin 64) (w : Word)
  /-- A store to a SOFT input value replaces it and increments UPDATES (R268). -/
  | loopInputSoftWrite (t : TileId) (o : Origin) (i : Fin 256) (w : Word)
  /-- A write to a gain table is applied unless the table is in use (R271). -/
  | gainTableWrite (t : TileId) (o : Origin) (tab : Fin 32) (j : Fin 33) (gain : Bool) (w : Word)
  /-- An enabled output frame is requested every PERIOD ms (R277). -/
  | loopOutputFrameSend (t : TileId) (f : Fin 16)
  /-- ARM clears a trace unit's capture and makes it ARMED (R280). -/
  | traceArm (t : TileId) (o : Origin) (u : Fin 8)
  /-- STOP returns a trace unit to IDLE (R280). -/
  | traceStop (t : TileId) (o : Origin) (u : Fin 8)
  /-- FORCE triggers a trace unit at once (R280). -/
  | traceForce (t : TileId) (o : Origin) (u : Fin 8)
  /-- A trace unit has captured 4,096 − PRE samples after its trigger and becomes DONE (R280). -/
  | traceDone (t : TileId) (u : Fin 8)
  /-- The command writes and commits a channel's MODE_REQ (R284). -/
  | loopMode (d : Datagram)
  /-- A safety input's filtered state changes after 3 ticks and its verdict is reached (R299). -/
  | safetyInputChange (t : TileId) (i : Fin 8) (a b : Bool)
  /-- The disagreement count reaches DISC_MS and DISC_FAULT latches (R299). -/
  | discrepancyFault (t : TileId) (i : Fin 8)
  /-- A valid reset press is released and a reset of the tile's outputs is taken (R305). -/
  | resetButtonRelease (t : TileId) (openMs pressMs skewMs : BitVec 16) (gone : BitVec 7)
  /-- A press or single channel held over 3,000 ms sets RESET_STUCK (R305). -/
  | resetStuck (t : TileId) (a b : Bool)
  /-- Channel A closes SOx_HS 1 ms after channel B closed SOx_LS (R301). -/
  | outputEnergiseHs (t : TileId) (o : Fin 8)
  /-- Both readbacks must show closed within 5 ms or the output takes a fault (R301). -/
  | outputReadbackCheck (t : TileId) (o : Fin 8) (hs ls : Bool)
  /-- Beryl opens one switch of an energised output every TP_PERIOD (R302). -/
  | testPulseStart (t : TileId) (o : Fin 8)
  /-- After TP_LEN the tested switch closes and the readbacks are judged (R302). -/
  | testPulseEnd (t : TileId) (o : Fin 8) (hs ls : Bool)
  /-- Readback differs from command in 3 consecutive ticks, a test failure (R302). -/
  | readbackMismatch (t : TileId) (o : Fin 8) (hs ls : Bool)
  /-- Channel A checks a consume PDU in its private slot (R312). -/
  | consumePduReceive (t : TileId) (n : Fin 16)
  /-- WD_MS elapses without a valid PDU and the connection demands (R312). -/
  | consumeWatchdogExpiry (t : TileId) (n : Fin 16)
  /-- Beryl sends a status PDU on a produce connection (R311). -/
  | producePduSend (t : TileId) (n : Fin 16)
  /-- An internal fault is detected and SF5 demands, or SAFE_HALT is entered (R296). -/
  | sf5CauseDetect (t : TileId) (cause : Fin 6)
  /-- Beryl completes its power-up self-test with every enabled output in lock-out (R315). -/
  | berylSelfTestComplete (t : TileId) (copy1 copy2 : Bool)
  /-- A write to the pending parameter area within the opening session (R314). -/
  | berylParamWrite (t : TileId) (o : Origin) (k : Fin 96) (w : Word)
  /-- A session without a write for 600 s closes (R314). -/
  | berylSessionTimeout (t : TileId)
  /-- The command carries a reset PDU that resets outputs after validation (R306). -/
  | berylReset (d : Datagram) (gone : BitVec 7)
  /-- The command opens a safety-parameter session (R314). -/
  | berylParamOpen (d : Datagram)
  /-- The command checks and activates the pending parameters (R314). -/
  | berylParamConfirm (d : Datagram)
  /-- The command aborts the safety-parameter session (R314). -/
  | berylParamAbort (d : Datagram)
  /-- The command starts entry into Standby (R322). -/
  | modeStandby (d : Datagram)
  /-- After orderly shutdown power is removed from all but the always-on parts (R322). -/
  | standbyPowerOff
  /-- The command starts entry into Chrysalis with a commit of cause 3 (R324). -/
  | modeChrysalis (d : Datagram)
  /-- After ship and output opening, the module opens its input switch (R324). -/
  | chrysalisInputSwitchOpen
  /-- The command ends Standby, or does nothing in Run (R321). -/
  | modeRun (d : Datagram)
  /-- CHG_DET at or below 16 V for 100 ms arms the wake comparator (R325). -/
  | wakeComparatorArm
  /-- CHG_DET held at or above 20 V wakes the module into a power-up (R325). -/
  | chrysalisWake
  /-- The Standby wake time expires and the module returns to Run (R323). -/
  | standbyWakeTime
  /-- Each 1 ms the bucket is refilled and gated tasks are considered again (R331). -/
  | governorTick (t : TileId) (eHw : Word) (tj : BitVec 16) (mw : Word)
  /-- A clock out of range for 10 µs puts the tile into FAULT (R328). -/
  | clockFault (t : TileId) (clock : Fin 5)
  /-- The core rail moves one step per 10 µs by the timing monitors (R329). -/
  | avsStep (t : TileId) (m : Margin)
  /-- Margin too small at 0.85 V for 1 ms puts the tile into FAULT (R329). -/
  | avsMarginFault (t : TileId)
  /-- T_j at or above 120 °C for 10 ms puts the tile into FAULT (R330). -/
  | tjFault (t : TileId)
  /-- An Announce message feeds the best master clock algorithm (R343). -/
  | ptpAnnounceReceive (path : Fin 2) (domain : Byte) (gm : BitVec 64) (better : Bool)
  /-- A Sync message updates the offset and the station-time state (R344). -/
  | ptpSyncReceive (path : Fin 2) (domain : Byte) (offset : BitVec 64)
  /-- A peer-delay exchange measures the link delay on a path (R343). -/
  | ptpPdelayExchange (path : Fin 2) (delay : Word)
  /-- No valid Sync for 3 intervals takes LOCKED to HOLDOVER (R344). -/
  | ptpSyncTimeout
  /-- HOLDOVER_S elapses and station time returns to ACQUIRE (R344). -/
  | holdoverExpiry
  /-- A 1 ms strobe from tile 0 corrects each tile's station-time rate (R347). -/
  | timeStrobe (t : TileId) (sec : BitVec 48) (ms : Fin 1000)
  /-- No strobe for 3 ms and the tile reports station time not locked (R347). -/
  | strobeLost (t : TileId)
  /-- 10 ms after strobes resume the tile returns to tile 0's state (R347). -/
  | strobeRecovered (t : TileId)
  /-- TIME_NS32 wraps and TIME_WRAP increments (R342). -/
  | timeWrap (t : TileId)
  /-- A read of TIME_STN_NS latches the station seconds (R355). -/
  | timeStnNsRead (t : TileId)
  /-- A read of TIME_OPTIME_LO latches the high part (R355). -/
  | timeOptimeRead (t : TileId)
  /-- The time unit launches a sync frame from buffer 15 (R352). -/
  | canSyncLaunch (t : TileId) (p : PortId)
  /-- A write with SEND to TIME_CAN_FU_p forms and requests the follow-up frame (R353). -/
  | followupSend (t : TileId) (o : Origin) (p : PortId) (seq : Byte)
  /-- A BULK message writes data into a bulk handle's buffer (R370). -/
  | chpBulkReceive (d : Datagram)
  /-- A valid SUPERVISION message is taken on its path (R371). -/
  | supervisionReceive (d : Datagram)
  /-- A host SAFETY message is carried to a Beryl connection's private slot (R369). -/
  | safetyMessageReceive (d : Datagram)
  /-- The module sends SUPERVISION on each path every 10 ms (R371). -/
  | supervisionSend
  /-- No valid SUPERVISION for 25 ms marks a path lost (R372). -/
  | pathSupervisionLoss (p : Fin 2)
  /-- A path in RESYNC for 1 s without a gap becomes STANDBY (R372). -/
  | pathResyncDone (p : Fin 2)
  /-- Under COMPAT, Path A in STANDBY for 10 s becomes ACTIVE again (R372). -/
  | pathCompatRevert
  /-- A path's link comes up (R372). -/
  | pathLinkUp (p : Fin 2) (ten : Bool)
  /-- A path's link goes down and the path is lost (R372). -/
  | pathLinkDown (p : Fin 2) (los : Bool)
  /-- A transceiver is inserted and its medium accepted or marked unsupported (R356). -/
  | sfpInsert (p : Fin 2) (medium : Medium) (rxPower : BitVec 16)
  /-- A session without a valid message for IDLE_S closes (R363). -/
  | sessionIdleTimeout (slot : Fin 16)
  /-- An EVENT message leaves once 20 records wait or 10 ms after its first (R368). -/
  | eventMessageSend (sub : Fin 32)
  /-- TELEM ranges are copied from 100 µs after the trigger and sent (R368). -/
  | telemCopy (sub : Fin 32)
  /-- A bulk handle unused for 60 s is released (R370). -/
  | bulkHandleTimeout (h : Fin 4)
  /-- IP configuration writes take effect 100 ms after the RESP (R377). -/
  | netIpConfigApply
  /-- The command opens an authenticated session for a role (R361). -/
  | netOpen (d : Datagram)
  /-- The command closes the session (R363). -/
  | netClose (d : Datagram)
  /-- The command sets up an EVENT, TELEM or SAFETY stream (R367). -/
  | netSubscribe (d : Datagram)
  /-- The command ends a subscription (R375). -/
  | netUnsubscribe (d : Datagram)
  /-- The command reserves a bulk buffer and returns a handle (R370). -/
  | netBulkOpen (d : Datagram)
  /-- The command makes the session the supervising session (R371). -/
  | netSupervise (d : Datagram)
  /-- The command with EN 0 releases supervision (R372). -/
  | netSuperviseRelease (d : Datagram)
  /-- The command replaces a role key (R364). -/
  | netKey (d : Datagram)
  /-- The command starts enumeration on named rings (R154). -/
  | ringEnumerate (d : Datagram)
  /-- The command writes a ring's RING_CTRL (R154). -/
  | ringMode (d : Datagram)
  /-- The command stores identities into a ring's inventory (R154). -/
  | ringInventoryWrite (d : Datagram)
  /-- The command copies the identities found at the last enumeration (R154). -/
  | ringInventoryAdopt (d : Datagram)
  /-- The command zeroes inventory entries (R154). -/
  | ringInventoryClear (d : Datagram)
  /-- The command ends a block's quarantine until the next enumeration (R143). -/
  | ringTrust (d : Datagram)
  /-- Setting INIT takes the port to INIT after any frame under way (R380). -/
  | canInitSet (t : TileId) (o : Origin) (p : PortId)
  /-- Clearing INIT checks the bit timing and zeroes the error counters (R379). -/
  | canInitClear (t : TileId) (o : Origin) (p : PortId)
  /-- After 11 recessive bits the port enters ERROR_ACTIVE (R380). -/
  | canBusJoin (t : TileId) (p : PortId)
  /-- Writing RECOVER starts bus-off recovery (R380). -/
  | canRecoverWrite (t : TileId) (o : Origin) (p : PortId)
  /-- After 128 idle sequences the port returns to ERROR_ACTIVE (R380). -/
  | canRecoveryComplete (t : TileId) (p : PortId)
  /-- Writing DETECT starts rate detection (R391). -/
  | canDetectStart (t : TileId) (o : Origin) (p : PortId)
  /-- DWELL elapses and detection moves to the next candidate (R391). -/
  | canDetectDwell (t : TileId) (p : PortId)
  /-- Detection ends with a result or at TIMEOUT and the port returns to INIT (R391). -/
  | canDetectEnd (t : TileId) (p : PortId) (timeout : Bool)
  /-- Writing ADOPT loads the found timing into CAN_NBT and CAN_DBT (R391). -/
  | canAdopt (t : TileId) (o : Origin) (p : PortId)
  /-- Writing a TXREQ bit requests transmission of a software buffer (R382). -/
  | canTxreq (t : TileId) (o : Origin) (p : PortId) (w : Word)
  /-- Writing a TXCANCEL bit cancels a pending buffer (R385). -/
  | canTxcancel (t : TileId) (o : Origin) (p : PortId) (w : Word)
  /-- A transmission succeeds and the buffer completes in TXDONE (R386). -/
  | canTxComplete (t : TileId) (p : PortId)
  /-- A transmission attempt fails and is retried or completes in TXFAIL (R386). -/
  | canTxError (t : TileId) (p : PortId) (x : CanTxFault)
  /-- A received frame is matched to Beryl, loop and budget inputs and the filters (R387). -/
  | canFrameReceive (t : TileId) (p : PortId) (frame : CanFrame)
  /-- A receive error raises REC and may cross a warning threshold (R389). -/
  | canRxError (t : TileId) (p : PortId) (kind : CanFault) (eight inData : Bool)
  /-- Writing CAN_RXF_POP removes the head of a FIFO (R388). -/
  | canRxPop (t : TileId) (o : Origin) (p : PortId) (w : BitVec 2)
  /-- A target write transfer's staged bytes are applied at its STOP or repeated START (R400). -/
  | twbTargetWrite (x : TargetWrite)
  /-- A target read returns a snapshot latched at its START (R401). -/
  | twbTargetRead (x : TargetRead)
  /-- Every 1 ms the status page is copied from its sources (R401). -/
  | twbStatusRefresh
  /-- SCL low for 35 ms abandons a target transfer (R411). -/
  | twbTargetTimeout
  /-- SCL and SDA high for 50 µs make the bus free (R398). -/
  | twbBusFree
  /-- Writing GO starts the side-band command in the request area (R405). -/
  | sidebandGo
  /-- The side-band command writes a path's IPv4 configuration (R405). -/
  | sbIp4 (path : Byte) (addr : Word) (pfx : Byte) (gw : Word)
  /-- The side-band command performs a module reset (R405). -/
  | sbModuleReset
  /-- Writing TWB_JOB.GO queues a controller job (R408). -/
  | twbJobGo (o : Origin) (w : Word)
  /-- A controller job starts once the bus is free, clearing the bus first if needed (R408). -/
  | twbJobStart (b : BusCheck)
  /-- The block loses arbitration, stops driving and may serve as target (R410). -/
  | twbArbitrationLoss
  /-- A controller job ends with its outcome in TWB_RESULT (R408). -/
  | twbJobEnd (e : JobEnd)
  /-- A DMA job completes and its outcome is recorded (R421). -/
  | dmaJobComplete (t : TileId) (ch : Fin 16)
  /-- A bus error halts every channel at its next burst boundary (R422). -/
  | dmaBusError (t : TileId) (addr : BitVec 40) (write : Bool)
  /-- Channels 0 and 1 resume by themselves 10 µs after a halt (R423). -/
  | dmaAutoResume (t : TileId)
  /-- Writing DMA_CTRL.RECOVER resumes channels 2 to 15 (R424). -/
  | dmaRecover (t : TileId) (o : Origin)
  /-- Clearing EN ends a channel's jobs and takes it to DISABLED (R425). -/
  | dmaChannelDisable (t : TileId) (o : Origin) (ch : Fin 16)
  /-- Setting EN returns a DISABLED channel to IDLE (R425). -/
  | dmaChannelEnable (t : TileId) (o : Origin) (ch : Fin 16)
  /-- A presented record is rate-limited, numbered and written to the DRAM ring (R432). -/
  | eventRecordAccept (t : TileId)
  /-- A record's write to the non-volatile tail completes (R435). -/
  | eventTailWriteDone (t : TileId)
  /-- A write to EVT_RPTR sets the reader position and re-arms the fill mark (R439). -/
  | evtRptrWrite (t : TileId) (o : Origin) (w : Word)
  /-- A write to EVT_CLASS_k sets the class rate and refills its bucket (R436). -/
  | evtClassWrite (t : TileId) (o : Origin) (k : Fin 16) (w : Word)
  /-- A write to a code-table entry sets its own bucket and refills it (R439). -/
  | codeTableWrite (t : TileId) (o : Origin) (e : Fin 4096) (hi : Fin 2) (w : Word)
  /-- The command starts an image download (R449). -/
  | imgBegin (d : Datagram)
  /-- The command writes image data into the staging area (R449). -/
  | imgChunk (d : Datagram)
  /-- The command starts checking and programming the staged image (R444). -/
  | imgVerify (d : Datagram)
  /-- Verify passes or fails and the response is sent (R444). -/
  | imgVerifyDone (programOk : Bool)
  /-- The command pre-checks banks and starts a paused or rolling activation (R450). -/
  | imgActivate (d : Datagram)
  /-- Activation commits complete and the boot record marks the trial (R450). -/
  | activationCommitsDone
  /-- Every tile has restarted on the new bank and the pause ends (R450). -/
  | imageRestartDone
  /-- The next tile of a rolling activation commits and is carried by its partner (R456). -/
  | rollingStepStart
  /-- A rolling step exceeds its bound and the activation is abandoned (R457). -/
  | rollingStepTimeout
  /-- The command confirms the trial image (R460). -/
  | imgConfirm (d : Datagram)
  /-- A System write of IMG_CTRL.CONFIRM acts as img.confirm (R460). -/
  | imgCtrlConfirm (o : Origin)
  /-- A tile writes PASS to IMG_SELFCHECK (R459). -/
  | selfcheckPass (t : TileId) (o : Origin)
  /-- A tile writes FAIL and a fall-back starts (R461). -/
  | selfcheckFail (t : TileId) (o : Origin)
  /-- The confirm window expires and a fall-back starts (R461). -/
  | confirmWindowExpiry
  /-- A restarted tile sets CARRY_CTRL.READY to take its section back (R455). -/
  | carryReadyWrite (t : TileId) (o : Origin)
  /-- A module power-up resets everything and chooses the boot bank (R467). -/
  | modulePowerUp
  /-- VIN_48 appears and precharge begins (R497). -/
  | vin48Applied
  /-- The capacitance is charged and the input switch closes (R497). -/
  | prechargeComplete
  /-- Precharge, VIN_48 and EJECT_N conditions hold and start-up begins (R496). -/
  | inputPowerGood
  /-- A tile completes boot, loads configuration and enters RUN (R470). -/
  | tileEnterRun (t : TileId)
  /-- A tile not in RUN 2 s after the reference enters FAULT (R472). -/
  | tileRunTimeout (t : TileId)
  /-- Every cell is restored and updated, and balancing AUTO is requested (R470). -/
  | estimationReady
  /-- MRST_N low for 1 ms holds every tile in reset (R473). -/
  | mrstAssert
  /-- MRST_N release starts the start-up timeline as a module reset (R473). -/
  | mrstRelease
  /-- EJECT_N low for 1 ms starts orderly shutdown with cause 7 (R477). -/
  | ejectAssert
  /-- The shutdown commit completes, event 0x0131 is sent and tiles are held (R476). -/
  | shutdownCommitDone
  /-- EJECT_N high for 100 ms after shutdown starts the module as after a reset (R477). -/
  | ejectReleaseRestart
  /-- PFAIL_N or low VIN_48 raises the warning and a commit of cause 4 (R478). -/
  | powerFailWarning
  /-- Supply restored for 100 ms withdraws the warning (R478). -/
  | powerFailWithdrawn
  /-- For a channel in OFF, a pending shadow bank is checked and transferred within 1 ms, which is how the channel leaves
  OFF (R278). -/
  | loopOffChannelTransfer (t : TileId) (ch : ChanId)
  /-- RESET_STUCK clears once both reset channels have been open together for 100 ms (R305). -/
  | resetStuckClear (t : TileId)
  /-- A block powers up from its cells, zeroing its command counter, clearing its bleed command and unlocking its thresholds
  (R128). -/
  | blockPowerCycle (t : TileId) (r : RingId) (b : BlockId)
  /-- In the split state a segment-end block that receives the tone sends BEACON toward its end every 250 µs (R136). -/
  | beaconSend (t : TileId) (r : RingId) (b : BlockId) (tone : Bool)
  /-- VIN_48 falls below its thresholds before input power good or is removed, restarting precharge or the power-good count
  or leaving the module unpowered (R497). -/
  | vin48Dip (d : VinDip)
  /-- Every 60 s operating time and the power-cycle count are written to the configuration store (R351). -/
  | operatingTimeStore
  /-- The Announce receipt timeout of 3 expires and the best master clock algorithm drops the grandmaster or path (R343). -/
  | announceReceiptTimeout (path : Fin 2)
  /-- A received ARP, NDP, Router Advertisement or ICMP echo frame is answered or learned on its path (R357). -/
  | arpNdpEchoReceive (p : Fin 2) (l : Lookup)
deriving DecidableEq, Repr

end Sys2Proof
end

