-- ==== Sys2Proof/Machine/Flags.lean ====
section
/-! DEFINITION. Machine/Flags.lean: binary32 arithmetic of the vector array and its sticky flags (R89, R91, R92):
round to nearest even, subnormal inputs and results replaced by zero of the same sign, every NaN result 0x7FC0_0000. -/
namespace Sys2Proof.Machine

/-- Sticky flags as VSTAT returns them (R100). -/
abbrev fInvalid : Nat := 1
abbrev fDivZero : Nat := 2
abbrev fOverflow : Nat := 4
abbrev fUnderflow : Nat := 8
abbrev fInexact : Nat := 16

/-- A binary32 value taken apart; a subnormal reads as zero of its sign (R89). `fin s m e` is ± m × 2^e. -/
inductive Fp where
  | nan (signalling : Bool)
  | inf (s : Bool)
  | zero (s : Bool)
  | fin (s : Bool) (m : Nat) (e : Int)
deriving DecidableEq, Repr

/-- The NaN every operation returns (R89). -/
def fpNan : Word := 0x7FC00000#32
/-- Infinity of a sign. -/
def fpInf (s : Bool) : Word := if s then 0xFF800000#32 else 0x7F800000#32
/-- Zero of a sign. -/
def fpZero (s : Bool) : Word := if s then 0x80000000#32 else 0#32

/-- A word taken apart. -/
def fpOf (w : Word) : Fp :=
  let n := w.toNat
  let s := n.testBit 31
  let x : Nat := n / 2 ^ 23 % 256
  let f : Nat := n % 2 ^ 23
  if x = 255 then (if f = 0 then .inf s else .nan (decide (f < 2 ^ 22)))
  else if x = 0 then .zero s
  else .fin s (f + 2 ^ 23) ((x : Int) - 150)

/-- Whether a value is a signalling NaN. -/
def Fp.snan : Fp → Bool
  | .nan b => b
  | _ => false

/-- Whether a value is a NaN. -/
def Fp.isNan : Fp → Bool
  | .nan _ => true
  | _ => false

/-- The rounded significand of 24 bits of `m × 2^e` (plus less than one unit of `m` where `sticky`), its exponent, and
whether rounding was inexact. -/
def fpSignificand (m : Nat) (e : Int) (sticky : Bool) : Nat × Int × Bool :=
  let len := Nat.log2 m + 1
  if len ≤ 24 then (m * 2 ^ (24 - len), e - (24 - len : Nat), sticky)
  else
    let sh := len - 24
    let q := m / 2 ^ sh
    let r := m % 2 ^ sh
    let half := 2 ^ (sh - 1)
    let up := decide (half < r) || (r == half && (sticky || q % 2 == 1))
    let q := if up then q + 1 else q
    let inex := r != 0 || sticky
    if q = 2 ^ 24 then (2 ^ 23, e + (sh : Int) + 1, inex) else (q, e + (sh : Int), inex)

/-- ± m × 2^e rounded to binary32, with the flags raised; tininess is judged after rounding. R89 names no flag for a flushed
value: a flushed result raises underflow and inexact, a flushed input none (DESIGN CHOICE, assumption 9). -/
def fpRound (s : Bool) (m : Nat) (e : Int) (sticky : Bool) : Word × Nat :=
  if m = 0 then (fpZero s, if sticky then fUnderflow + fInexact else 0)
  else
    let (q, x, inex) := fpSignificand m e sticky
    if 104 < x then (fpInf s, fOverflow + fInexact)
    else if x < -149 then (fpZero s, fUnderflow + fInexact)
    else
      (BitVec.ofNat 32 ((if s then 2 ^ 31 else 0) + (x + 150).toNat * 2 ^ 23 + (q - 2 ^ 23)),
        if inex then fInexact else 0)

/-- An integer as ± m. -/
def intFp (x : Int) (e : Int) : Word × Nat := fpRound (x < 0) x.natAbs e false

/-- A signed significand. -/
def sgn (s : Bool) (m : Nat) : Int := if s then -(m : Int) else m

/-- The exact sum of two finite values rounded; an exact zero is +0 (round to nearest). -/
def fpSum (sa : Bool) (ma : Nat) (ea : Int) (sb : Bool) (mb : Nat) (eb : Int) : Word × Nat :=
  let e := if ea < eb then ea else eb
  let x := sgn sa ma * 2 ^ (ea - e).toNat + sgn sb mb * 2 ^ (eb - e).toNat
  if x = 0 then (fpZero false, 0) else intFp x e

/-- Addition of values taken apart. -/
def fpAddF (a b : Fp) : Word × Nat :=
  match a, b with
  | .nan x, b => (fpNan, if x || b.snan then fInvalid else 0)
  | _, .nan y => (fpNan, if y then fInvalid else 0)
  | .inf s, .inf r => if s = r then (fpInf s, 0) else (fpNan, fInvalid)
  | .inf s, _ => (fpInf s, 0)
  | _, .inf s => (fpInf s, 0)
  | .zero s, .zero r => (fpZero (s && r), 0)
  | .zero _, .fin s m e => fpRound s m e false
  | .fin s m e, .zero _ => fpRound s m e false
  | .fin s m e, .fin r n f => fpSum s m e r n f

/-- Sign inverted. -/
def Fp.neg : Fp → Fp
  | .nan b => .nan b
  | .inf s => .inf !s
  | .zero s => .zero !s
  | .fin s m e => .fin (!s) m e

/-- VADD. -/
def fpAdd (x y : Word) : Word × Nat := fpAddF (fpOf x) (fpOf y)
/-- VSUB. -/
def fpSub (x y : Word) : Word × Nat := fpAddF (fpOf x) (fpOf y).neg

/-- VFMA, rounded once: a × b + c. Infinity times zero raises invalid whatever c is, a quiet NaN too, which IEEE 754 leaves to
the implementation (DESIGN CHOICE, assumption 9). -/
def fpFmaF (a b c : Fp) : Word × Nat :=
  let inv := a.snan || b.snan || c.snan
  let zeroInf := match a, b with
    | .inf _, .zero _ => true
    | .zero _, .inf _ => true
    | _, _ => false
  if a.isNan || b.isNan then (fpNan, if inv then fInvalid else 0)
  else if zeroInf then (fpNan, fInvalid)
  else if c.isNan then (fpNan, if inv then fInvalid else 0)
  else
    let p : Fp := match a, b with
      | .inf s, .inf r => .inf (s != r)
      | .inf s, .fin r _ _ => .inf (s != r)
      | .fin s _ _, .inf r => .inf (s != r)
      | .fin s m e, .fin r n f => .fin (s != r) (m * n) (e + f)
      | .zero s, .zero r => .zero (s != r)
      | .zero s, .fin r _ _ => .zero (s != r)
      | .fin s _ _, .zero r => .zero (s != r)
      | _, _ => .nan false
    fpAddF p c

/-- VMUL. -/
def fpMul (x y : Word) : Word × Nat :=
  match fpOf x, fpOf y with
  | .fin s m e, .fin r n f => fpRound (s != r) (m * n) (e + f) false
  | .zero s, .fin r _ _ => (fpZero (s != r), 0)
  | .fin s _ _, .zero r => (fpZero (s != r), 0)
  | .zero s, .zero r => (fpZero (s != r), 0)
  | a, b => fpFmaF a b (.zero false)

/-- VFMA: va × vb + vd. -/
def fpFma (x y z : Word) : Word × Nat := fpFmaF (fpOf x) (fpOf y) (fpOf z)
/-- VFNMA: vd − va × vb. -/
def fpFnma (x y z : Word) : Word × Nat := fpFmaF (fpOf x).neg (fpOf y) (fpOf z)

/-- VDIV. -/
def fpDiv (x y : Word) : Word × Nat :=
  match fpOf x, fpOf y with
  | .nan a, b => (fpNan, if a || b.snan then fInvalid else 0)
  | _, .nan b => (fpNan, if b then fInvalid else 0)
  | .inf _, .inf _ => (fpNan, fInvalid)
  | .zero _, .zero _ => (fpNan, fInvalid)
  | .inf s, .zero r => (fpInf (s != r), 0)
  | .inf s, .fin r _ _ => (fpInf (s != r), 0)
  | .zero s, .inf r => (fpZero (s != r), 0)
  | .fin s _ _, .inf r => (fpZero (s != r), 0)
  | .zero s, .fin r _ _ => (fpZero (s != r), 0)
  | .fin s _ _, .zero r => (fpInf (s != r), fDivZero)
  | .fin s m e, .fin r n f =>
    fpRound (s != r) (m * 2 ^ 30 / n) (e - f - 30) (m * 2 ^ 30 % n != 0)

/-- The whole square root of a number below 2^(2 n), one bit at a time. -/
def isqrt : (n : Nat) → (x : Nat) → Nat
  | 0, _ => 0
  | n + 1, x =>
    let r := isqrt n (x / 4)
    if (2 * r + 1) * (2 * r + 1) ≤ x then 2 * r + 1 else 2 * r

/-- VSQRT. -/
def fpSqrt (x : Word) : Word × Nat :=
  match fpOf x with
  | .nan b => (fpNan, if b then fInvalid else 0)
  | .zero s => (fpZero s, 0)
  | .inf s => if s then (fpNan, fInvalid) else (fpInf false, 0)
  | .fin s m e =>
    if s then (fpNan, fInvalid)
    else
      let (m, e) := if e % 2 = 0 then (m * 2 ^ 30, e - 30) else (m * 2 ^ 31, e - 31)
      let r := isqrt 32 m
      fpRound false r (e / 2) (r * r != m)

/-- Whether a value that is no NaN lies below another; −0 lies below +0 only where `zeros` asks (assumption 9). -/
def Fp.lt (zeros : Bool) : Fp → Fp → Bool
  | .nan _, _ => false
  | _, .nan _ => false
  | .inf s, .inf r => s && !r
  | .inf s, _ => s
  | _, .inf r => !r
  | .zero s, .zero r => zeros && s && !r
  | .zero _, .fin r _ _ => !r
  | .fin s _ _, .zero _ => s
  | .fin s m e, .fin r n f =>
    let x := if e < f then e else f
    decide (sgn s m * 2 ^ (e - x).toNat < sgn r n * 2 ^ (f - x).toNat)

/-- A word with a subnormal replaced by zero of its sign. -/
def fpFlush (w : Word) : Word :=
  match fpOf w with
  | .zero s => fpZero s
  | _ => w

/-- VMIN and VMAX: the numeric operand when exactly one is a NaN (R89). -/
def fpMinMax (max : Bool) (x y : Word) : Word × Nat :=
  let a := fpOf x
  let b := fpOf y
  let inv := if a.snan || b.snan then fInvalid else 0
  if a.isNan && b.isNan then (fpNan, inv)
  else if a.isNan then (fpFlush y, inv)
  else if b.isNan then (fpFlush x, inv)
  else if max then (fpFlush (if a.lt true b then y else x), inv)
  else (fpFlush (if b.lt true a then y else x), inv)

/-- VABS and VNEG: the result's NaN and subnormals as R89 says; they raise no flag, as IEEE 754 has it for sign operations. -/
def fpSign (abs : Bool) (x : Word) : Word × Nat :=
  match fpOf x with
  | .nan _ => (fpNan, 0)
  | .zero s => (fpZero (if abs then false else !s), 0)
  | _ => (if abs then x &&& 0x7FFFFFFF#32 else x ^^^ 0x80000000#32, 0)

/-- FP32 to an integer range: nearest even, or toward −∞ where `down`; saturated, NaN gives 0 (R91, R92). A value that is no
integer raises inexact: IEEE 754 has conversions that do and that do not, and R89 names neither (DESIGN CHOICE, assumption
109). -/
def fpToInt (down : Bool) (lo hi : Int) (x : Word) : Int × Nat :=
  match fpOf x with
  | .nan _ => (0, fInvalid)
  | .zero _ => (0, 0)
  | .inf s => (if s then lo else hi, fInvalid)
  | .fin s m e =>
    let v := sgn s m
    let (q, inex) :=
      if 0 ≤ e then (v * 2 ^ e.toNat, false)
      else
        let d : Int := 2 ^ (-e).toNat
        let fl := v / d
        let r := v % d
        if down then (fl, r != 0)
        else (if d < 2 * r ∨ (2 * r = d ∧ fl % 2 = 1) then fl + 1 else fl, r != 0)
    if q < lo then (lo, fInvalid) else if hi < q then (hi, fInvalid) else (q, if inex then fInexact else 0)

end Sys2Proof.Machine
end

