-- ==== Sys2Proof/Config.lean ====
section
/-! DEFINITION. Config.lean: what the spec leaves to a run or to an implementation. Every constant here is opaque:
nothing in Lean can evaluate it, so a statement about it holds whatever it is. -/
namespace Sys2Proof.Config

/-- The n-th free value: a value the spec leaves open (assumption 1). -/
opaque freeValue : Nat → Nat
/-- The n-th physical measurement a command does not carry, in the unit its register gives (assumption 2). -/
opaque measured : Nat → Nat
/-- HMAC-SHA-256 of a key and a message, 32 bytes (R360; assumption 3). -/
opaque hmac : List Byte → List Byte → Vector Byte 32
/-- SHA-384 of a message, 48 bytes (R443; assumption 3). -/
opaque sha : List Byte → Vector Byte 48
/-- The bytes of an HMAC-SHA-256. -/
def hmacSha256 (key m : List Byte) : List Byte := (hmac key m).toList
/-- The bytes of a SHA-384 digest. -/
def sha384 (m : List Byte) : List Byte := (sha m).toList
/-- ECDSA P-384 verification of a public key, a message and a signature (R443; assumption 3). -/
opaque ecdsaP384 : List Byte → List Byte → List Byte → Bool
/-- The vendor public key in the mask ROM of Onyx (R443; assumption 3). -/
opaque vendorKey : List Byte
/-- The plant key K_plant in Onyx (R142; assumption 3). -/
opaque plantKey : List Byte
/-- The key of the block at a ring position, its 64-bit identity and its hardware and firmware steps: data of the block
itself (R127, R142; assumption 3). -/
opaque blockKey : Nat → List Byte
opaque blockUid : Nat → Nat
opaque blockStep : Nat → Nat

/-- Functions of the estimator and of dispatch whose results no finite arithmetic gives exactly (R186, R194, R259;
assumption 17): exponential, natural logarithm, square root, and cosine and sine of an angle in turns; π. -/
opaque exp : Rat → Rat
opaque ln : Rat → Rat
opaque sqrt : Rat → Rat
opaque cos : Rat → Rat
opaque sin : Rat → Rat
opaque pi : Rat
/-- How a program's result is rounded into an FP32 or FP16 field and into an integer field (R194, R212, R214; assumption
17). -/
opaque f32 : Rat → Nat
opaque f16 : Rat → Nat
opaque fix : Rat → Int
/-- A profile table read beyond its state-of-charge range, by table, state of charge and temperature: 0 OCV, 1 its slope,
2 its inverse, 3 HYS, 4 its slope (R187; assumption 18). -/
opaque beyond : Nat → Rat → Rat → Rat
/-- Variances of U_a, U_b and h that a cell starts with, and the diagonal a reset tracker covariance has (R219, R220;
assumption 20). -/
opaque initVar : Nat → Rat
/-- A current-format learned-value record in the confirmed image's format, and back; none where it fails that format's
check (R218; assumption 21). -/
opaque toLegacy : List Byte → List Byte
opaque ofLegacy : List Byte → Option (List Byte)
/-- Whether a setting, by its register key, has a counterpart in the confirmed image's configuration format (R462;
assumption 21). -/
opaque legacyKeeps : Nat → Bool
/-- How far a steady current may stray, in A (R196; assumption 19). -/
opaque steadyTol : Rat
/-- A quotient with divisor zero, by its dividend (assumption 22). -/
opaque divZero : Rat → Rat

end Sys2Proof.Config
end

