-- ==== Sys2Proof/Machine/Tab.lean ====
section
/-! DEFINITION. Machine/Tab.lean: a table of entries by number, in one canonical form (keys strictly rising), the
plain-data stand-in for a function. What an unlisted key reads as is the caller's default. -/
namespace Sys2Proof.Machine

/-- Entries by number, keys strictly rising. -/
abbrev Tab (α : Type) := List (Nat × α)

/-- The entry at `k`, if listed. -/
def tabFind {α : Type} : Tab α → Nat → Option α
  | [], _ => none
  | (j, a) :: t, k => if j = k then some a else tabFind t k

/-- The entry at `k`, or the default. -/
def tabGet {α : Type} (d : α) (t : Tab α) (k : Nat) : α := (tabFind t k).getD d

/-- The table with `a` at `k`. -/
def tabSet {α : Type} : Tab α → Nat → α → Tab α
  | [], k, a => [(k, a)]
  | (j, b) :: t, k, a =>
    if k < j then (k, a) :: (j, b) :: t
    else if k = j then (k, a) :: t
    else (j, b) :: tabSet t k a

/-- The table without the entry at `k`. -/
def tabErase {α : Type} (t : Tab α) (k : Nat) : Tab α := t.filter (fun e => e.1 != k)

/-- The canonical form: keys strictly rising. -/
def tabSorted {α : Type} : Tab α → Bool
  | [] => true
  | [_] => true
  | (j, _) :: (k, b) :: t => decide (j < k) && tabSorted ((k, b) :: t)

end Sys2Proof.Machine
end

