-- ==== Sys2Proof/Machine/Regs.lean ====
section
/-! DEFINITION. Machine/Regs.lean: every register field of the register blocks, one constant per field, and per block
the table of its registers (offset, repetition, fields and their access codes). Written from the register tables of
spec/: the name is REGISTER_FIELD as the spec spells them. -/
namespace Sys2Proof.Machine

/-- A register field: the block k of R34, the byte offset in the block, the strides of its two repetitions, its lowest
bit, its width and its reset value. -/
structure Field where
  blk : Nat
  off : Nat
  s1 : Nat
  s2 : Nat
  lo : Nat
  width : Nat
  reset : Nat
deriving DecidableEq, Repr

/-- The access codes of R10. -/
inductive Acc where
  | ro | rw | w1c | w1s | wo | rc
deriving DecidableEq, Repr

/-- One register: where it lies, how it repeats (`c1` times at `s1`, `c2` times at `s2`), how many bytes it takes (4,
or 2 and 1 for the halves and bytes of a packed table), whether it is a register of tile 0 only, and its fields. -/
structure Reg where
  off : Nat
  s1 : Nat
  c1 : Nat
  s2 : Nat
  c2 : Nat
  bytes : Nat
  tile0 : Bool
  fields : List (Field × Acc)
deriving DecidableEq, Repr

/-- Where a field of tile `t` is kept: tile, block, byte offset and lowest bit in one number. -/
def Field.key (F : Field) (t : Nat) (i : Nat := 0) (j : Nat := 0) : Nat :=
  ((t * 64 + F.blk) * 65536 + (F.off + i * F.s1 + j * F.s2)) * 32 + F.lo

/-- Reset values of the loop parameters (R270). -/
def loopParamReset (p : Nat) : Nat :=
  match p with
  | 0 => 6
  | 1 => 1000
  | 0xC => 0x640000
  | 0x12 => 10000
  | 0x13 => 30000
  | 0x16 => 0x10000
  | _ => 0
/-- Shadow parameter word `p` of a loop channel (R270, R285). -/
def LOOP_SHADOW (p : Nat) : Field := ⟨9, 0x1000 + 4 * p, 0x100, 0, 0, 32, loopParamReset p⟩
/-- Active parameter word `p` of a loop channel (R270, R285). -/
def LOOP_ACTIVE (p : Nat) : Field := ⟨9, 0x5000 + 4 * p, 0x100, 0, 0, 32, loopParamReset p⟩
/-- Data word `k` of a transmit buffer (R394). -/
def CAN_TXB_DATA (k : Nat) : Field := ⟨12, 0x408 + 4 * k, 0x2000, 0x50, 0, 32, 0⟩
/-- The temperature input of cell `j`, 0xF for none (EST_TMAP0 and EST_TMAP1, R225). -/
def EST_TMAP_CELL (j : Nat) : Field := ⟨6, 0x20 + 4 * (j / 8), 0, 0, 4 * (j % 8), 4, 0xF⟩

/-- Loop parameter MODE_REQ (R270). -/
abbrev LP_MODE_REQ : Nat := 0x0
/-- Loop parameter PERIOD (R270). -/
abbrev LP_PERIOD : Nat := 0x1
/-- Loop parameter FB_SEL (R270). -/
abbrev LP_FB_SEL : Nat := 0x2
/-- Loop parameter SP_SRC (R270). -/
abbrev LP_SP_SRC : Nat := 0x3
/-- Loop parameter SP (R270). -/
abbrev LP_SP : Nat := 0x4
/-- Loop parameter MASTER (R270). -/
abbrev LP_MASTER : Nat := 0x5
/-- Loop parameter TRK_SEL (R270). -/
abbrev LP_TRK_SEL : Nat := 0x6
/-- Loop parameter KP_TAB (R270). -/
abbrev LP_KP_TAB : Nat := 0x7
/-- Loop parameter KI_TAB (R270). -/
abbrev LP_KI_TAB : Nat := 0x8
/-- Loop parameter DIR (R270). -/
abbrev LP_DIR : Nat := 0x9
/-- Loop parameter BIAS (R270). -/
abbrev LP_BIAS : Nat := 0xa
/-- Loop parameter OUT_MIN (R270). -/
abbrev LP_OUT_MIN : Nat := 0xb
/-- Loop parameter OUT_MAX (R270). -/
abbrev LP_OUT_MAX : Nat := 0xc
/-- Loop parameter RATE (R270). -/
abbrev LP_RATE : Nat := 0xd
/-- Loop parameter SS_RATE (R270). -/
abbrev LP_SS_RATE : Nat := 0xe
/-- Loop parameter MAN_OUT (R270). -/
abbrev LP_MAN_OUT : Nat := 0xf
/-- Loop parameter FB_OUT (R270). -/
abbrev LP_FB_OUT : Nat := 0x10
/-- Loop parameter HO_TOL (R270). -/
abbrev LP_HO_TOL : Nat := 0x11
/-- Loop parameter HO_TIME (R270). -/
abbrev LP_HO_TIME : Nat := 0x12
/-- Loop parameter HOLD_TIME (R270). -/
abbrev LP_HOLD_TIME : Nat := 0x13
/-- Loop parameter FROZEN_N (R270). -/
abbrev LP_FROZEN_N : Nat := 0x14
/-- Loop parameter OUT_MAP (R270). -/
abbrev LP_OUT_MAP : Nat := 0x15
/-- Loop parameter OUT_SCALE (R270). -/
abbrev LP_OUT_SCALE : Nat := 0x16
/-- R48: Partner tile number. -/
def TILE_ID_PARTNER : Field := ⟨0, 0x0, 0x0, 0x0, 4, 4, 0⟩
/-- R48: Lead tile. -/
def TILE_ID_LEAD : Field := ⟨0, 0x0, 0x0, 0x0, 3, 1, 0⟩
/-- R48: This tile's number. -/
def TILE_ID_NUM : Field := ⟨0, 0x0, 0x0, 0x0, 0, 3, 0⟩
/-- R48: Tile now serving this section's rings: n, or the partner during carry. -/
def TILE_STATUS_SERVED_BY : Field := ⟨0, 0x4, 0x0, 0x0, 4, 4, 0⟩
/-- R48: 0x0 OFF, 0x1 BOOT, 0x2 RUN, 0x3 HELD, 0x4 CARRIED, 0x5 FAULT. -/
def TILE_STATUS_STATE : Field := ⟨0, 0x4, 0x0, 0x0, 0, 4, 1⟩
/-- R48: Restart for image activation or fall-back. -/
def TILE_RESET_CAUSE_IMAGE : Field := ⟨0, 0x8, 0x0, 0x0, 5, 1, 0⟩
/-- R48: Restart after a tile fault. -/
def TILE_RESET_CAUSE_FAULT : Field := ⟨0, 0x8, 0x0, 0x0, 4, 1, 0⟩
/-- R48: Casda system watchdog expired. -/
def TILE_RESET_CAUSE_WATCHDOG : Field := ⟨0, 0x8, 0x0, 0x0, 3, 1, 0⟩
/-- R48: Reset through MOD_TILE_CTRL. -/
def TILE_RESET_CAUSE_TILE_CTRL : Field := ⟨0, 0x8, 0x0, 0x0, 2, 1, 0⟩
/-- R48: Module reset through MRST_N. -/
def TILE_RESET_CAUSE_MRST : Field := ⟨0, 0x8, 0x0, 0x0, 1, 1, 0⟩
/-- R48: Power-up. -/
def TILE_RESET_CAUSE_POWER : Field := ⟨0, 0x8, 0x0, 0x0, 0, 1, 1⟩
/-- R48: k of the register block that rejected, or 0xFF for a memory access. -/
def TILE_LAST_ERR_BLOCK : Field := ⟨0, 0xc, 0x0, 0x0, 8, 8, 0⟩
/-- R48: Latest code recorded under R45. -/
def TILE_LAST_ERR_CODE : Field := ⟨0, 0xc, 0x0, 0x0, 0, 8, 0⟩
/-- R48: Casda privilege violations on this tile. -/
def TILE_VIOL_COUNT_COUNT : Field := ⟨0, 0x10, 0x0, 0x0, 0, 32, 0⟩
/-- R48: Offset bits [31:0] of the first violation since TILE_VIOL_INFO. -/
def TILE_VIOL_ADDR_OFFSET_LO : Field := ⟨0, 0x14, 0x0, 0x0, 0, 32, 0⟩
/-- R48: A violation is captured. -/
def TILE_VIOL_INFO_VALID : Field := ⟨0, 0x18, 0x0, 0x0, 31, 1, 0⟩
/-- R48: 1 write, 0 read. -/
def TILE_VIOL_INFO_WRITE : Field := ⟨0, 0x18, 0x0, 0x0, 30, 1, 0⟩
/-- R48: Issuing core. -/
def TILE_VIOL_INFO_CORE : Field := ⟨0, 0x18, 0x0, 0x0, 28, 2, 0⟩
/-- R48: Issuing task. -/
def TILE_VIOL_INFO_TASK : Field := ⟨0, 0x18, 0x0, 0x0, 22, 6, 0⟩
/-- R48: Tile field of the address, after the 0xF substitution. -/
def TILE_VIOL_INFO_TILE : Field := ⟨0, 0x18, 0x0, 0x0, 4, 4, 0⟩
/-- R48: Offset bits [35:32]. -/
def TILE_VIOL_INFO_OFFSET_HI : Field := ⟨0, 0x18, 0x0, 0x0, 0, 4, 0⟩
/-- R48: No effect on the hardware. -/
def TILE_SCRATCH_VALUE : Field := ⟨0, 0x1c, 0x0, 0x0, 0, 32, 0⟩
/-- R49: Skaova family. -/
def MOD_ID_FAMILY : Field := ⟨19, 0x0, 0x0, 0x0, 16, 16, 23562⟩
/-- R49: Variant. -/
def MOD_ID_PART : Field := ⟨19, 0x0, 0x0, 0x0, 0, 16, 0⟩
/-- R49: Package step. -/
def MOD_STEP_PACKAGE : Field := ⟨19, 0x4, 0x0, 0x0, 8, 8, 0⟩
/-- R49: Die step, the same on every tile. -/
def MOD_STEP_DIE : Field := ⟨19, 0x4, 0x0, 0x0, 0, 8, 0⟩
/-- R49: Bits [31:0] and [63:32] of the 64-bit module identity, fixed at manufacture under Onyx. -/
def MOD_UID_LO_UID : Field := ⟨19, 0x8, 0x0, 0x0, 0, 32, 0⟩
/-- R49: Bits [31:0] and [63:32] of the 64-bit module identity, fixed at manufacture under Onyx. -/
def MOD_UID_HI_UID : Field := ⟨19, 0xc, 0x0, 0x0, 0, 32, 0⟩
/-- R49: Bit t set while tile t is in RUN. -/
def MOD_TILE_PRESENT_RUNNING : Field := ⟨19, 0x10, 0x0, 0x0, 8, 8, 0⟩
/-- R49: Bit t set for each fitted tile. -/
def MOD_TILE_PRESENT_FITTED : Field := ⟨19, 0x10, 0x0, 0x0, 0, 8, 0⟩
/-- R49: Bit 8 + t holds tile t in reset (state HELD) while set. -/
def MOD_TILE_CTRL_HOLD : Field := ⟨19, 0x18, 0x0, 0x0, 9, 7, 0⟩
/-- R49: Reads zero. -/
def MOD_TILE_CTRL_HOLD_T0 : Field := ⟨19, 0x18, 0x0, 0x0, 8, 1, 0⟩
/-- R49: Writing 1 to bit t resets tile t once. -/
def MOD_TILE_CTRL_RESET : Field := ⟨19, 0x18, 0x0, 0x0, 1, 7, 0⟩
/-- R49: Reads zero. -/
def MOD_TILE_CTRL_RESET_T0 : Field := ⟨19, 0x18, 0x0, 0x0, 0, 1, 0⟩
/-- R49: Host privilege violations, all roles. -/
def MOD_HOST_VIOL_COUNT_COUNT : Field := ⟨19, 0x1c, 0x0, 0x0, 0, 32, 0⟩
/-- R49: A violation is captured. -/
def MOD_HOST_VIOL_INFO_VALID : Field := ⟨19, 0x20, 0x0, 0x0, 31, 1, 0⟩
/-- R49: 0 Observer, 1 Operator, 2 Engineer, 3 Safety, 4 Management. -/
def MOD_HOST_VIOL_INFO_ROLE : Field := ⟨19, 0x20, 0x0, 0x0, 28, 3, 0⟩
/-- R49: Bits [15:0] of the CHP session. -/
def MOD_HOST_VIOL_INFO_SESSION : Field := ⟨19, 0x20, 0x0, 0x0, 0, 16, 0⟩
/-- R84: Core c halted with no access outstanding. -/
def CASDA_CORE_CTRL_HALTED : Field := ⟨16, 0x0, 0x0, 0x0, 4, 4, 0⟩
/-- R84: Halt request per core (R83). -/
def CASDA_CORE_CTRL_HALT : Field := ⟨16, 0x0, 0x0, 0x0, 0, 4, 0⟩
/-- R84: Bit c set if core c is a System core. -/
def CASDA_CORE_LEVEL_SYSTEM : Field := ⟨16, 0x4, 0x0, 0x0, 0, 4, 1⟩
/-- R84: Watchdog enabled (R82). -/
def CASDA_WDOG_CFG_EN : Field := ⟨16, 0x8, 0x0, 0x0, 31, 1, 0⟩
/-- R84: Period in ms, 10 to 10,000. -/
def CASDA_WDOG_CFG_PERIOD : Field := ⟨16, 0x8, 0x0, 0x0, 0, 14, 1000⟩
/-- R84: 0x0000_5A17 reloads the watchdog. -/
def CASDA_WDOG_KICK_KICK : Field := ⟨16, 0xc, 0x0, 0x0, 0, 32, 0⟩
/-- R84: Time to expiry in ms. -/
def CASDA_WDOG_REMAIN_MS : Field := ⟨16, 0x10, 0x0, 0x0, 0, 14, 0⟩
/-- R84: 0x01 START, 0x02 STOP, 0x03 TRIGGER, 0x04 KILL. -/
def CASDA_TASK_CMD_CMD : Field := ⟨16, 0x14, 0x0, 0x0, 24, 8, 0⟩
/-- R84: Task index, core × 64 + slot. -/
def CASDA_TASK_CMD_TASK : Field := ⟨16, 0x14, 0x0, 0x0, 0, 8, 0⟩
/-- R85: Traps taken on this tile. -/
def CASDA_TRAP_COUNT_COUNT : Field := ⟨16, 0x18, 0x0, 0x0, 0, 32, 0⟩
/-- R85: Period in µs, 10 to 60,000,000. -/
def CASDA_TIMER_PERIOD_PERIOD : Field := ⟨16, 0x20, 0x4, 0x0, 0, 32, 0⟩
/-- R85: Enqueued (R80). -/
def CASDA_MBOX_POST_WORD : Field := ⟨16, 0x100, 0x8, 0x0, 0, 31, 0⟩
/-- R85: 1 if a word was removed. -/
def CASDA_MBOX_POP_VALID : Field := ⟨16, 0x104, 0x8, 0x0, 31, 1, 0⟩
/-- R85: Head word. -/
def CASDA_MBOX_POP_WORD : Field := ⟨16, 0x104, 0x8, 0x0, 0, 31, 0⟩
/-- R85: Mailbox accepts posts. -/
def CASDA_MBOX_CFG_EN : Field := ⟨16, 0x200, 0x4, 0x0, 31, 1, 0⟩
/-- R85: Words queued, 0 to 16. -/
def CASDA_MBOX_CFG_COUNT : Field := ⟨16, 0x200, 0x4, 0x0, 8, 5, 0⟩
/-- R85: Task triggered on each post. -/
def CASDA_MBOX_CFG_TASK : Field := ⟨16, 0x200, 0x4, 0x0, 0, 8, 0⟩
/-- R85: Route enabled. -/
def CASDA_IRQ_ROUTE_EN : Field := ⟨16, 0x800, 0x4, 0x0, 31, 1, 0⟩
/-- R85: Fixed-latency route (R78). -/
def CASDA_IRQ_ROUTE_FIXED : Field := ⟨16, 0x800, 0x4, 0x0, 30, 1, 0⟩
/-- R85: Bound task index. -/
def CASDA_IRQ_ROUTE_TASK : Field := ⟨16, 0x800, 0x4, 0x0, 0, 8, 0⟩
/-- R85: Slot configured. -/
def TASK_CFG_VALID : Field := ⟨16, 0x1000, 0x10, 0x0, 31, 1, 0⟩
/-- R85: Copy of the core's level. -/
def TASK_CFG_LEVEL : Field := ⟨16, 0x1000, 0x10, 0x0, 30, 1, 0⟩
/-- R85: Default class C0 to C3. -/
def TASK_CFG_COST : Field := ⟨16, 0x1000, 0x10, 0x0, 28, 2, 0⟩
/-- R85: Priority, 0 highest. -/
def TASK_CFG_PRIO : Field := ⟨16, 0x1000, 0x10, 0x0, 24, 4, 15⟩
/-- R85: R70. -/
def TASK_CFG_ONESHOT : Field := ⟨16, 0x1000, 0x10, 0x0, 23, 1, 0⟩
/-- R85: Word offset in local memory of the task's first instruction. -/
def TASK_ENTRY_ENTRY : Field := ⟨16, 0x1004, 0x10, 0x0, 2, 16, 0⟩
/-- R85: Outstanding access or device result (R73). -/
def TASK_STATE_ACCESS : Field := ⟨16, 0x1008, 0x10, 0x0, 11, 1, 0⟩
/-- R85: Grant refused (R72). -/
def TASK_STATE_GATED : Field := ⟨16, 0x1008, 0x10, 0x0, 10, 1, 0⟩
/-- R85: A trigger is latched (R69). -/
def TASK_STATE_PENDING : Field := ⟨16, 0x1008, 0x10, 0x0, 9, 1, 0⟩
/-- R85: 0 trigger, 1 frame, 2 device. -/
def TASK_STATE_WAIT_ON : Field := ⟨16, 0x1008, 0x10, 0x0, 4, 4, 0⟩
/-- R85: 0 EMPTY, 1 STOPPED, 2 WAITING, 3 READY, 4 RUNNING, 5 TRAPPED. -/
def TASK_STATE_STATE : Field := ⟨16, 0x1008, 0x10, 0x0, 0, 4, 0⟩
/-- R85: Activations since START, modulo 2¹⁶. -/
def TASK_STAT_ACTIVATIONS : Field := ⟨16, 0x100c, 0x10, 0x0, 16, 16, 0⟩
/-- R85: Lost triggers (R69, R70). -/
def TASK_STAT_LOST_TRIG : Field := ⟨16, 0x100c, 0x10, 0x0, 0, 16, 0⟩
/-- R155: Bit r set while ring r is in RUN or SPLIT. -/
def RING_UP_UP : Field := ⟨3, 0x0, 0x0, 0x0, 0, 32, 0⟩
/-- R155: Bit r set while every end of ring r that supervises the tone reports it present. -/
def RING_TONE_TONE : Field := ⟨3, 0x4, 0x0, 0x0, 0, 32, 0⟩
/-- R155: Bit r set on every state change of ring r (R149). -/
def RING_EVT_CHANGED : Field := ⟨3, 0x8, 0x0, 0x0, 0, 32, 0⟩
/-- R155: Checks and commits the pending map of this ring (R147). -/
def RING_SMAP_COMMIT_RING : Field := ⟨3, 0xc, 0x0, 0x0, 0, 5, 0⟩
/-- R155: R151. -/
def RING_CTRL_AUTO_REJOIN : Field := ⟨3, 0x100, 0x40, 0x0, 11, 1, 1⟩
/-- R155: R149. -/
def RING_CTRL_AUTO_ENUM : Field := ⟨3, 0x100, 0x40, 0x0, 10, 1, 1⟩
/-- R155: Transaction retries, 0 to 3 (R132). -/
def RING_CTRL_RETRIES : Field := ⟨3, 0x100, 0x40, 0x0, 8, 2, 2⟩
/-- R155: 0 AUTH, 1 STALE (R141). -/
def RING_CTRL_POLICY : Field := ⟨3, 0x100, 0x40, 0x0, 7, 1, 0⟩
/-- R155: Writing 1 acts as `ring. -/
def RING_CTRL_ENUM : Field := ⟨3, 0x100, 0x40, 0x0, 2, 1, 0⟩
/-- R155: 0 OFF, 1 NORMAL, 2 REVERSE (System and carry only), 3 rejected with E_RANGE. -/
def RING_CTRL_MODE : Field := ⟨3, 0x100, 0x40, 0x0, 0, 2, 0⟩
/-- R155: Blocks found, 0 to 512. -/
def RING_STATUS_COUNT : Field := ⟨3, 0x104, 0x40, 0x0, 20, 10, 0⟩
/-- R155: First block of the tail segment. -/
def RING_STATUS_SPLIT_AT : Field := ⟨3, 0x104, 0x40, 0x0, 10, 10, 1023⟩
/-- R155: 0 OFF, 1 IDLE, 2 ENUM, 3 RUN, 4 SPLIT, 5 FAULT. -/
def RING_STATUS_STATE : Field := ⟨3, 0x104, 0x40, 0x0, 0, 4, 0⟩
/-- R155: Expected block count, 0 to 512. -/
def RING_EXPECT_COUNT : Field := ⟨3, 0x108, 0x40, 0x0, 0, 10, 0⟩
/-- R155: Head receiver locked. -/
def RING_LINK_HEAD_LOCK : Field := ⟨3, 0x10c, 0x40, 0x0, 31, 1, 0⟩
/-- R155: Tail receiver locked. -/
def RING_LINK_TAIL_LOCK : Field := ⟨3, 0x10c, 0x40, 0x0, 30, 1, 0⟩
/-- R155: Head equaliser setting, 0. -/
def RING_LINK_EQ_HEAD : Field := ⟨3, 0x10c, 0x40, 0x0, 8, 8, 0⟩
/-- R155: Tail equaliser setting, 0. -/
def RING_LINK_EQ_TAIL : Field := ⟨3, 0x10c, 0x40, 0x0, 0, 8, 0⟩
/-- R155: Block comparator under-voltage threshold, 100 µV units. -/
def RING_THR_V_UV : Field := ⟨3, 0x110, 0x40, 0x0, 16, 16, 0⟩
/-- R155: Block comparator over-voltage threshold, 100 µV units. -/
def RING_THR_V_OV : Field := ⟨3, 0x110, 0x40, 0x0, 0, 16, 0⟩
/-- R155: Block comparator over-temperature, signed, 0. -/
def RING_THR_T_OT : Field := ⟨3, 0x114, 0x40, 0x0, 0, 16, 9000⟩
/-- R155: Loop delay from the last full ASSIGN, ns. -/
def RING_LOOP_NS : Field := ⟨3, 0x118, 0x40, 0x0, 0, 24, 0⟩
/-- R155: Frames aborted or responses with a wrong CRC. -/
def RING_ERR_CRC : Field := ⟨3, 0x11c, 0x40, 0x0, 16, 16, 0⟩
/-- R155: Transactions ended E_TIMEOUT, and lost duty frames (R128). -/
def RING_ERR_TIMEOUT : Field := ⟨3, 0x11c, 0x40, 0x0, 8, 8, 0⟩
/-- R155: Counter mismatches (R128). -/
def RING_ERR_CNT : Field := ⟨3, 0x11c, 0x40, 0x0, 0, 8, 0⟩
/-- R155: Block address the cause refers to. -/
def RING_FAULT_POSITION : Field := ⟨3, 0x120, 0x40, 0x0, 16, 10, 0⟩
/-- R155: 0 none, 1 FOREIGN, 2 TWO_BREAKS, 3 NO_BLOCK, 4 TIMEOUT, 5 NO_THRESHOLDS. -/
def RING_FAULT_CAUSE : Field := ⟨3, 0x120, 0x40, 0x0, 0, 4, 0⟩
/-- R155: Blocks quarantined. -/
def RING_QSTAT_QUAR : Field := ⟨3, 0x124, 0x40, 0x0, 16, 10, 0⟩
/-- R155: Blocks marked stale at the last enumeration. -/
def RING_QSTAT_STALE : Field := ⟨3, 0x124, 0x40, 0x0, 0, 10, 0⟩
/-- R155: Entry in use. -/
def RING_SMAP_PEND_VALID : Field := ⟨3, 0x2000, 0x80, 0x4, 31, 1, 0⟩
/-- R155: Chemistry profile of the string's cells. -/
def RING_SMAP_PEND_PROFILE : Field := ⟨3, 0x2000, 0x80, 0x4, 28, 3, 0⟩
/-- R155: Head block. -/
def RING_SMAP_PEND_FIRST : Field := ⟨3, 0x2000, 0x80, 0x4, 16, 9, 0⟩
/-- R155: Last block of the string. -/
def RING_SMAP_PEND_LAST : Field := ⟨3, 0x2000, 0x80, 0x4, 0, 9, 0⟩
/-- R155: Entry in use. -/
def RING_SMAP_ACT_VALID : Field := ⟨3, 0x3000, 0x80, 0x4, 31, 1, 0⟩
/-- R155: Chemistry profile of the string's cells. -/
def RING_SMAP_ACT_PROFILE : Field := ⟨3, 0x3000, 0x80, 0x4, 28, 3, 0⟩
/-- R155: Head block. -/
def RING_SMAP_ACT_FIRST : Field := ⟨3, 0x3000, 0x80, 0x4, 16, 9, 0⟩
/-- R155: Last block of the string. -/
def RING_SMAP_ACT_LAST : Field := ⟨3, 0x3000, 0x80, 0x4, 0, 9, 0⟩
/-- R155: Enumerated. -/
def RING_BLK_PRESENT : Field := ⟨3, 0x8000, 0x400, 0x2, 15, 1, 0⟩
/-- R155: Head role set. -/
def RING_BLK_HEAD : Field := ⟨3, 0x8000, 0x400, 0x2, 14, 1, 0⟩
/-- R155: Measure-while-balancing set. -/
def RING_BLK_MWB : Field := ⟨3, 0x8000, 0x400, 0x2, 13, 1, 0⟩
/-- R155: Quarantined (R143). -/
def RING_BLK_QUAR : Field := ⟨3, 0x8000, 0x400, 0x2, 12, 1, 0⟩
/-- R155: Marked stale (R144). -/
def RING_BLK_STALE : Field := ⟨3, 0x8000, 0x400, 0x2, 11, 1, 0⟩
/-- R155: R137 step 5. -/
def RING_BLK_THR_MISMATCH : Field := ⟨3, 0x8000, 0x400, 0x2, 10, 1, 0⟩
/-- R155: Identity changed at the last enumeration. -/
def RING_BLK_SWAPPED : Field := ⟨3, 0x8000, 0x400, 0x2, 9, 1, 0⟩
/-- R155: Reached from the tail. -/
def RING_BLK_TAIL_SEG : Field := ⟨3, 0x8000, 0x400, 0x2, 8, 1, 0⟩
/-- R155: Expected command counter (R128). -/
def RING_BLK_EXP_COUNTER : Field := ⟨3, 0x8000, 0x400, 0x2, 0, 8, 0⟩
/-- R182: Pending period code. -/
def SMP_FRAME_CFG_NEXT : Field := ⟨4, 0x0, 0x0, 0x0, 2, 2, 0⟩
/-- R182: 1 50 ms, 2 100 ms, 3 200 ms. -/
def SMP_FRAME_CFG_PERIOD : Field := ⟨4, 0x0, 0x0, 0x0, 0, 2, 2⟩
/-- R182: Target frame number (R157). -/
def SMP_FRAME_SWITCH_AT : Field := ⟨4, 0x4, 0x0, 0x0, 0, 32, 0⟩
/-- R182: Latest frame instant. -/
def SMP_FRAME_NUM_FRAME : Field := ⟨4, 0x8, 0x0, 0x0, 0, 32, 0⟩
/-- R182: Latest frame instant. -/
def SMP_LAST_COMPLETE_FRAME : Field := ⟨4, 0xc, 0x0, 0x0, 0, 32, 0⟩
/-- R182: Frames completed with blocks missing. -/
def SMP_LATE_COUNT : Field := ⟨4, 0x10, 0x0, 0x0, 0, 32, 0⟩
/-- R182: Scheduled test cycle, 1 to 255 min. -/
def SMP_OW_CFG_INTERVAL : Field := ⟨4, 0x20, 0x0, 0x0, 24, 8, 60⟩
/-- R182: mV, 10 to 255. -/
def SMP_OW_CFG_T_MIRROR : Field := ⟨4, 0x20, 0x0, 0x0, 16, 8, 50⟩
/-- R182: 10 mV units, 5 to 255. -/
def SMP_OW_CFG_T_COLLAPSE : Field := ⟨4, 0x20, 0x0, 0x0, 8, 8, 20⟩
/-- R182: 1 to 15. -/
def SMP_OW_CFG_PASS_CLEAR : Field := ⟨4, 0x20, 0x0, 0x0, 4, 4, 3⟩
/-- R182: Scheduled tests and suspicion tests enabled. -/
def SMP_OW_CFG_EN : Field := ⟨4, 0x20, 0x0, 0x0, 0, 1, 1⟩
/-- R182: Blocks with a confirmed break. -/
def SMP_OW_COUNT_CONFIRMED : Field := ⟨4, 0x24, 0x0, 0x0, 16, 16, 0⟩
/-- R182: Blocks with an undecided suspicion. -/
def SMP_OW_COUNT_SUSPECT : Field := ⟨4, 0x24, 0x0, 0x0, 0, 16, 0⟩
/-- R182: Checks and commits the list (R166). -/
def SMP_BURST_CTRL_COMMIT : Field := ⟨4, 0x30, 0x0, 0x0, 31, 1, 0⟩
/-- R182: A committed list is sampling. -/
def SMP_BURST_CTRL_ACTIVE : Field := ⟨4, 0x30, 0x0, 0x0, 30, 1, 0⟩
/-- R182: List entries in use, 0 to 1,024. -/
def SMP_BURST_CTRL_COUNT : Field := ⟨4, 0x30, 0x0, 0x0, 0, 11, 0⟩
/-- R182: DRAM offset in 64 MiB units. -/
def SMP_BURST_BASE_BASE : Field := ⟨4, 0x34, 0x0, 0x0, 26, 6, 2⟩
/-- R182: Latest complete entry's SEQ. -/
def SMP_BURST_SEQ_VALUE : Field := ⟨4, 0x38, 0x0, 0x0, 0, 32, 0⟩
/-- R182: Latest complete entry's SEQ. -/
def SMP_BURST_SKIP_VALUE : Field := ⟨4, 0x3c, 0x0, 0x0, 0, 32, 0⟩
/-- R182: Cell ID under R8. -/
def SMP_BURST_LIST_CELL : Field := ⟨4, 0x4000, 0x4, 0x0, 0, 21, 0⟩
/-- R182: Confirmed wire + 1. -/
def SMP_OW_CONF_WIRE : Field := ⟨4, 0x8000, 0x2, 0x0, 11, 5, 0⟩
/-- R182: Suspected wire + 1. -/
def SMP_OW_SUSP_WIRE : Field := ⟨4, 0x8000, 0x2, 0x0, 6, 5, 0⟩
/-- R182: Two or more wires confirmed (R171). -/
def SMP_OW_MULTI : Field := ⟨4, 0x8000, 0x2, 0x0, 5, 1, 0⟩
/-- R183: Trip line of set s (R174). -/
def LIMIT_TRIP_LINE : Field := ⟨5, 0x0, 0x0, 0x0, 0, 8, 0⟩
/-- R183: Bit r set while ring r has a limit tripped. -/
def LIMIT_RING_TRIP_RING : Field := ⟨5, 0x4, 0x0, 0x0, 0, 32, 0⟩
/-- R183: Bit s commits set s (R175). -/
def LIMIT_COMMIT_SET : Field := ⟨5, 0x8, 0x0, 0x0, 0, 8, 0⟩
/-- R183: Multiplier in 1/16 units (6. -/
def LIMIT_ADAPT_K : Field := ⟨5, 0xc, 0x0, 0x0, 24, 8, 96⟩
/-- R183: Persistence, 1 to 15. -/
def LIMIT_ADAPT_COUNT : Field := ⟨5, 0xc, 0x0, 0x0, 20, 4, 5⟩
/-- R183: [2] self-discharge, [1] temperature, [0] voltage. -/
def LIMIT_ADAPT_EN : Field := ⟨5, 0xc, 0x0, 0x0, 0, 3, 7⟩
/-- R183: Voltage MAD floor, 100 µV. -/
def LIMIT_ADAPT_FLOOR_V : Field := ⟨5, 0x10, 0x0, 0x0, 16, 16, 20⟩
/-- R183: Temperature MAD floor, 0. -/
def LIMIT_ADAPT_FLOOR_T : Field := ⟨5, 0x10, 0x0, 0x0, 0, 16, 50⟩
/-- R183: Self-discharge MAD floor, µA. -/
def LIMIT_ADAPT_SD_FLOOR : Field := ⟨5, 0x14, 0x0, 0x0, 0, 16, 5⟩
/-- R183: Adaptive warnings raised. -/
def LIMIT_WARN_COUNT_COUNT : Field := ⟨5, 0x18, 0x0, 0x0, 0, 32, 0⟩
/-- R183: 100 µV. -/
def LIMIT_SET_PEND_UV : Field := ⟨5, 0x100, 0x40, 0x0, 16, 16, 0⟩
/-- R183: 100 µV. -/
def LIMIT_SET_PEND_OV : Field := ⟨5, 0x100, 0x40, 0x0, 0, 16, 65535⟩
/-- R183: 0. -/
def LIMIT_SET_PEND_UT : Field := ⟨5, 0x104, 0x40, 0x0, 16, 16, 32768⟩
/-- R183: 0. -/
def LIMIT_SET_PEND_OT : Field := ⟨5, 0x104, 0x40, 0x0, 0, 16, 32767⟩
/-- R183: 20 mA. -/
def LIMIT_SET_PEND_OC_DIS : Field := ⟨5, 0x108, 0x40, 0x0, 16, 16, 65535⟩
/-- R183: 20 mA. -/
def LIMIT_SET_PEND_OC_CHG : Field := ⟨5, 0x108, 0x40, 0x0, 0, 16, 65535⟩
/-- R183: 2 mV. -/
def LIMIT_SET_PEND_SUM_TOL : Field := ⟨5, 0x10c, 0x40, 0x0, 0, 16, 50⟩
/-- R183: 0. -/
def LIMIT_SET_PEND_HYST_T : Field := ⟨5, 0x110, 0x40, 0x0, 16, 16, 200⟩
/-- R183: 100 µV. -/
def LIMIT_SET_PEND_HYST_V : Field := ⟨5, 0x110, 0x40, 0x0, 0, 16, 200⟩
/-- R183: 2 mV. -/
def LIMIT_SET_PEND_HYST_SUM : Field := ⟨5, 0x114, 0x40, 0x0, 16, 16, 10⟩
/-- R183: 20 mA. -/
def LIMIT_SET_PEND_HYST_I : Field := ⟨5, 0x114, 0x40, 0x0, 0, 16, 50⟩
/-- R183: Filter counts, 1 to 15 each. -/
def LIMIT_SET_PEND_F_MISS : Field := ⟨5, 0x118, 0x40, 0x0, 20, 4, 3⟩
/-- R183: F_SUM. -/
def LIMIT_SET_PEND_F_SUM : Field := ⟨5, 0x118, 0x40, 0x0, 16, 4, 2⟩
/-- R183: F_OC. -/
def LIMIT_SET_PEND_F_OC : Field := ⟨5, 0x118, 0x40, 0x0, 12, 4, 1⟩
/-- R183: OT and UT. -/
def LIMIT_SET_PEND_F_T : Field := ⟨5, 0x118, 0x40, 0x0, 8, 4, 2⟩
/-- R183: F_UV. -/
def LIMIT_SET_PEND_F_UV : Field := ⟨5, 0x118, 0x40, 0x0, 4, 4, 2⟩
/-- R183: F_OV. -/
def LIMIT_SET_PEND_F_OV : Field := ⟨5, 0x118, 0x40, 0x0, 0, 4, 2⟩
/-- R183: [6] MISS_TRIP, [5] SUM, [4] OC, [3] UT, [2] OT, [1] UV, [0] OV. -/
def LIMIT_SET_PEND_EN : Field := ⟨5, 0x11c, 0x40, 0x0, 0, 7, 0⟩
/-- R183: 100 µV. -/
def LIMIT_SET_ACT_UV : Field := ⟨5, 0x500, 0x40, 0x0, 16, 16, 0⟩
/-- R183: 100 µV. -/
def LIMIT_SET_ACT_OV : Field := ⟨5, 0x500, 0x40, 0x0, 0, 16, 65535⟩
/-- R183: 0. -/
def LIMIT_SET_ACT_UT : Field := ⟨5, 0x504, 0x40, 0x0, 16, 16, 32768⟩
/-- R183: 0. -/
def LIMIT_SET_ACT_OT : Field := ⟨5, 0x504, 0x40, 0x0, 0, 16, 32767⟩
/-- R183: 20 mA. -/
def LIMIT_SET_ACT_OC_DIS : Field := ⟨5, 0x508, 0x40, 0x0, 16, 16, 65535⟩
/-- R183: 20 mA. -/
def LIMIT_SET_ACT_OC_CHG : Field := ⟨5, 0x508, 0x40, 0x0, 0, 16, 65535⟩
/-- R183: 2 mV. -/
def LIMIT_SET_ACT_SUM_TOL : Field := ⟨5, 0x50c, 0x40, 0x0, 0, 16, 50⟩
/-- R183: 0. -/
def LIMIT_SET_ACT_HYST_T : Field := ⟨5, 0x510, 0x40, 0x0, 16, 16, 200⟩
/-- R183: 100 µV. -/
def LIMIT_SET_ACT_HYST_V : Field := ⟨5, 0x510, 0x40, 0x0, 0, 16, 200⟩
/-- R183: 2 mV. -/
def LIMIT_SET_ACT_HYST_SUM : Field := ⟨5, 0x514, 0x40, 0x0, 16, 16, 10⟩
/-- R183: 20 mA. -/
def LIMIT_SET_ACT_HYST_I : Field := ⟨5, 0x514, 0x40, 0x0, 0, 16, 50⟩
/-- R183: Filter counts, 1 to 15 each. -/
def LIMIT_SET_ACT_F_MISS : Field := ⟨5, 0x518, 0x40, 0x0, 20, 4, 3⟩
/-- R183: F_SUM. -/
def LIMIT_SET_ACT_F_SUM : Field := ⟨5, 0x518, 0x40, 0x0, 16, 4, 2⟩
/-- R183: F_OC. -/
def LIMIT_SET_ACT_F_OC : Field := ⟨5, 0x518, 0x40, 0x0, 12, 4, 1⟩
/-- R183: OT and UT. -/
def LIMIT_SET_ACT_F_T : Field := ⟨5, 0x518, 0x40, 0x0, 8, 4, 2⟩
/-- R183: F_UV. -/
def LIMIT_SET_ACT_F_UV : Field := ⟨5, 0x518, 0x40, 0x0, 4, 4, 2⟩
/-- R183: F_OV. -/
def LIMIT_SET_ACT_F_OV : Field := ⟨5, 0x518, 0x40, 0x0, 0, 4, 2⟩
/-- R183: [6] MISS_TRIP, [5] SUM, [4] OC, [3] UT, [2] OT, [1] UV, [0] OV. -/
def LIMIT_SET_ACT_EN : Field := ⟨5, 0x51c, 0x40, 0x0, 0, 7, 0⟩
/-- R183: Endpoints tripped in rings using the set. -/
def LIMIT_SET_ACT_TRIPPED : Field := ⟨5, 0x520, 0x40, 0x0, 16, 16, 0⟩
/-- R183: Limits with any endpoint tripped, bits as EN. -/
def LIMIT_SET_ACT_LIMITS : Field := ⟨5, 0x520, 0x40, 0x0, 0, 7, 0⟩
/-- R183: Temperature channels checked and counted. -/
def LIMIT_RING_SEL_TEMP_MASK : Field := ⟨5, 0x800, 0x4, 0x0, 16, 6, 63⟩
/-- R183: Limit set of ring r (R175). -/
def LIMIT_RING_SEL_SET : Field := ⟨5, 0x800, 0x4, 0x0, 0, 3, 0⟩
/-- R225: Complete frames not yet passed. -/
def EST_STATUS_BACKLOG : Field := ⟨6, 0x0, 0x0, 0x0, 16, 16, 0⟩
/-- R225: A pass is running. -/
def EST_STATUS_BUSY : Field := ⟨6, 0x0, 0x0, 0x0, 2, 1, 0⟩
/-- R225: Ladder level in use, 0 to 3 for L0 to L3. -/
def EST_STATUS_LEVEL : Field := ⟨6, 0x0, 0x0, 0x0, 0, 2, 0⟩
/-- R225: Frame of the last completed pass. -/
def EST_PASS_FRAME : Field := ⟨6, 0x4, 0x0, 0x0, 0, 32, 0⟩
/-- R225: Commit interval, 1 to 240 min. -/
def EST_LV_CFG_INTERVAL : Field := ⟨6, 0x8, 0x0, 0x0, 24, 8, 15⟩
/-- R225: Restore inflation, 0. -/
def EST_LV_CFG_OFF_SIGMA : Field := ⟨6, 0x8, 0x0, 0x0, 16, 8, 100⟩
/-- R225: Interval commits enabled. -/
def EST_LV_CFG_EN : Field := ⟨6, 0x8, 0x0, 0x0, 0, 1, 1⟩
/-- R225: Generation of the last completed commit, bits [23:0]. -/
def EST_LV_STATUS_GEN : Field := ⟨6, 0xc, 0x0, 0x0, 8, 24, 0⟩
/-- R225: Commit running. -/
def EST_LV_STATUS_BUSY : Field := ⟨6, 0xc, 0x0, 0x0, 7, 1, 0⟩
/-- R225: Cause code of the last commit (R216). -/
def EST_LV_STATUS_CAUSE : Field := ⟨6, 0xc, 0x0, 0x0, 0, 4, 0⟩
/-- R225: s, 60 to 3,600. -/
def EST_ANCHOR_REST_MIN : Field := ⟨6, 0x10, 0x0, 0x0, 20, 12, 60⟩
/-- R225: h, 1 to 720. -/
def EST_ANCHOR_AGE_LIMIT : Field := ⟨6, 0x10, 0x0, 0x0, 10, 10, 72⟩
/-- R225: h, 1 to 720. -/
def EST_ANCHOR_REST_AGE : Field := ⟨6, 0x10, 0x0, 0x0, 0, 10, 24⟩
/-- R225: 0. -/
def EST_ANCHOR2_I_REST : Field := ⟨6, 0x14, 0x0, 0x0, 24, 8, 10⟩
/-- R225: 0. -/
def EST_ANCHOR2_TOP_C : Field := ⟨6, 0x14, 0x0, 0x0, 16, 8, 50⟩
/-- R225: 0. -/
def EST_ANCHOR2_MAX_SIGMA : Field := ⟨6, 0x14, 0x0, 0x0, 0, 16, 300⟩
/-- R225: 0. -/
def EST_CONFLICT_STEEP_DIFF : Field := ⟨6, 0x18, 0x0, 0x0, 16, 16, 500⟩
/-- R225: Consecutive updates, 1 to 7. -/
def EST_CONFLICT_COUNT : Field := ⟨6, 0x18, 0x0, 0x0, 12, 4, 3⟩
/-- R225: 1 to 15. -/
def EST_CONFLICT_ANOM_COUNT : Field := ⟨6, 0x18, 0x0, 0x0, 8, 4, 5⟩
/-- R225: 1/16 units (6. -/
def EST_CONFLICT_ANOM_FLAG : Field := ⟨6, 0x18, 0x0, 0x0, 0, 8, 96⟩
/-- R225: 0. -/
def EST_MEAS_STALE_SIGMA : Field := ⟨6, 0x1c, 0x0, 0x0, 16, 16, 1000⟩
/-- R225: Voltage measurement sigma, 100 µV, 1 to 500. -/
def EST_MEAS_SIGMA_V : Field := ⟨6, 0x1c, 0x0, 0x0, 0, 16, 20⟩
/-- R225: Steep re-anchors. -/
def EST_COUNT_REANCHOR : Field := ⟨6, 0x28, 0x0, 0x0, 16, 16, 0⟩
/-- R225: Flat conflicts begun. -/
def EST_COUNT_CONFLICT : Field := ⟨6, 0x28, 0x0, 0x0, 0, 16, 0⟩
/-- R225: Cells over AGE_LIMIT. -/
def EST_CELLS_OLD_ANCHOR : Field := ⟨6, 0x2c, 0x0, 0x0, 16, 16, 0⟩
/-- R225: FLAGGED cells. -/
def EST_CELLS_FLAGGED : Field := ⟨6, 0x2c, 0x0, 0x0, 0, 16, 0⟩
/-- R225: Block index under R40 whose stale mark ends (R220). -/
def EST_STALE_CLEAR_BLOCK : Field := ⟨6, 0x30, 0x0, 0x0, 0, 14, 0⟩
/-- R225: Bit s set while string r. -/
def EST_REST_REQ_STRING : Field := ⟨6, 0x100, 0x4, 0x0, 0, 32, 0⟩
/-- R225: Profile of cells in blocks of ring r that belong to no string (R190). -/
def EST_RING_PROF_PROFILE : Field := ⟨6, 0x200, 0x4, 0x0, 0, 3, 0⟩
/-- R244: Minutes, as last set by `bal. -/
def BAL_CTRL_MAN_TIMEOUT : Field := ⟨7, 0x0, 0x0, 0x0, 8, 8, 10⟩
/-- R244: 0 OFF, 1 AUTO, 2 MANUAL. -/
def BAL_CTRL_MODE : Field := ⟨7, 0x0, 0x0, 0x0, 0, 2, 0⟩
/-- R244: Quiet window, 0. -/
def BAL_CFG_QUIET : Field := ⟨7, 0x4, 0x0, 0x0, 24, 8, 20⟩
/-- R244: s, 1 to 60. -/
def BAL_CFG_BUDGET_AGE : Field := ⟨7, 0x4, 0x0, 0x0, 16, 8, 3⟩
/-- R244: 0. -/
def BAL_TARGET_SIGMA_MAX : Field := ⟨7, 0x8, 0x0, 0x0, 21, 11, 300⟩
/-- R244: 0. -/
def BAL_TARGET_BAND : Field := ⟨7, 0x8, 0x0, 0x0, 10, 11, 50⟩
/-- R244: 0. -/
def BAL_TARGET_SOC_MIN : Field := ⟨7, 0x8, 0x0, 0x0, 0, 10, 100⟩
/-- R244: Blocks given a non-zero duty by the last plan. -/
def BAL_STATUS_BLOCKS : Field := ⟨7, 0xc, 0x0, 0x0, 16, 16, 0⟩
/-- R244: Cells in those maps. -/
def BAL_STATUS_CELLS : Field := ⟨7, 0xc, 0x0, 0x0, 0, 16, 0⟩
/-- R244: Frame of the pass the last plan followed. -/
def BAL_PASS_FRAME : Field := ⟨7, 0x10, 0x0, 0x0, 0, 32, 0⟩
/-- R244: WDOG_STOP reports seen. -/
def BAL_COUNT_WDOG : Field := ⟨7, 0x14, 0x0, 0x0, 16, 16, 0⟩
/-- R244: Episodes of manual reduction, counted at the start of each episode (R240). -/
def BAL_COUNT_REDUCED : Field := ⟨7, 0x14, 0x0, 0x0, 8, 8, 0⟩
/-- R244: Wires failed in learning. -/
def BAL_COUNT_WIRE_FAIL : Field := ⟨7, 0x14, 0x0, 0x0, 0, 8, 0⟩
/-- R244: Bleed resistance including switch, 0. -/
def BAL_RING_CFG_R_BLEED : Field := ⟨7, 0x100, 0x4, 0x0, 16, 16, 0⟩
/-- R244: Wire learning runs on this ring. -/
def BAL_RING_CFG_WIRE_BUSY : Field := ⟨7, 0x100, 0x4, 0x0, 2, 1, 0⟩
/-- R244: R230. -/
def BAL_RING_CFG_ADJACENT_PERMIT : Field := ⟨7, 0x100, 0x4, 0x0, 1, 1, 0⟩
/-- R244: R236. -/
def BAL_RING_CFG_MWB : Field := ⟨7, 0x100, 0x4, 0x0, 0, 1, 0⟩
/-- R244: Entry in use. -/
def BAL_CONT_VALID : Field := ⟨7, 0x200, 0x8, 0x0, 31, 1, 0⟩
/-- R244: 29-bit identifier. -/
def BAL_CONT_EXT : Field := ⟨7, 0x200, 0x8, 0x0, 30, 1, 0⟩
/-- R244: Container spans RING_A and RING_B. -/
def BAL_CONT_TWO : Field := ⟨7, 0x200, 0x8, 0x0, 29, 1, 0⟩
/-- R244: First ring. -/
def BAL_CONT_RING_A : Field := ⟨7, 0x200, 0x8, 0x0, 24, 5, 0⟩
/-- R244: Second ring when TWO = 1. -/
def BAL_CONT_RING_B : Field := ⟨7, 0x200, 0x8, 0x0, 19, 5, 0⟩
/-- R244: can0 to can7. -/
def BAL_CONT_PORT : Field := ⟨7, 0x200, 0x8, 0x0, 16, 3, 0⟩
/-- R244: Heat-budget identifier. -/
def BAL_CONT_CAN_ID : Field := ⟨7, 0x204, 0x8, 0x0, 0, 29, 0⟩
/-- R244: Planned dissipation, W, rounded up (R234). -/
def BAL_HEAT_PLAN : Field := ⟨7, 0x400, 0x8, 0x0, 16, 16, 0⟩
/-- R244: Budget in force, W. -/
def BAL_HEAT_BUDGET : Field := ⟨7, 0x400, 0x8, 0x0, 0, 16, 0⟩
/-- R244: Budget stale or never received (R233). -/
def BAL_HEAT_STALE : Field := ⟨7, 0x404, 0x8, 0x0, 31, 1, 1⟩
/-- R244: Age of the last valid frame, 0. -/
def BAL_HEAT_AGE : Field := ⟨7, 0x404, 0x8, 0x0, 0, 16, 65535⟩
/-- R265: R250. -/
def DISP_CTRL_STARTED : Field := ⟨8, 0x0, 0x0, 0x0, 31, 1, 0⟩
/-- R265: Ramp running (R253). -/
def DISP_CTRL_HANDOVER : Field := ⟨8, 0x0, 0x0, 0x0, 30, 1, 0⟩
/-- R265: Shortfall (R257). -/
def DISP_CTRL_SHORT : Field := ⟨8, 0x0, 0x0, 0x0, 29, 1, 0⟩
/-- R265: A slot of this tile stopped (R262). -/
def DISP_CTRL_TX_STOPPED : Field := ⟨8, 0x0, 0x0, 0x0, 28, 1, 0⟩
/-- R265: Last change: 0 command, 1 age expiry, 2 reset, 3 AUTO_RESUME. -/
def DISP_CTRL_CAUSE : Field := ⟨8, 0x0, 0x0, 0x0, 4, 3, 2⟩
/-- R265: 0 FOLLOW, 1 HOLD, 2 RAMPDOWN, 3 LOCAL. -/
def DISP_CTRL_MODE : Field := ⟨8, 0x0, 0x0, 0x0, 0, 2, 2⟩
/-- R265: Host set-point. -/
def DISP_SP_HOST_KW : Field := ⟨8, 0x4, 0x0, 0x0, 0, 32, 0⟩
/-- R265: Host set-point. -/
def DISP_SP_FORCE_KW : Field := ⟨8, 0x8, 0x0, 0x0, 0, 32, 0⟩
/-- R265: Host set-point. -/
def DISP_SHORT_KW : Field := ⟨8, 0xc, 0x0, 0x0, 0, 32, 0⟩
/-- R265: Set-point age in ms. -/
def DISP_SP_AGE_MS : Field := ⟨8, 0x10, 0x0, 0x0, 0, 32, 4294967295⟩
/-- R265: 0. -/
def DISP_CFG_AGE_LIMIT : Field := ⟨8, 0x14, 0x0, 0x0, 25, 7, 10⟩
/-- R265: 0 LOCAL, 1 HOLD, 2 RAMPDOWN. -/
def DISP_CFG_ON_AGE : Field := ⟨8, 0x14, 0x0, 0x0, 23, 2, 0⟩
/-- R265: R251. -/
def DISP_CFG_AUTO_RESUME : Field := ⟨8, 0x14, 0x0, 0x0, 22, 1, 0⟩
/-- R265: 0 10 s, 1 60 s horizon. -/
def DISP_CFG_HOR : Field := ⟨8, 0x14, 0x0, 0x0, 21, 1, 0⟩
/-- R265: VALID_MS in 10 ms units, 2 to 100. -/
def DISP_CFG_VALID : Field := ⟨8, 0x14, 0x0, 0x0, 8, 8, 5⟩
/-- R265: 50 ms units, 4 to 200. -/
def DISP_CFG_REPEAT_LIMIT : Field := ⟨8, 0x14, 0x0, 0x0, 0, 8, 10⟩
/-- R265: 100 kW/s units, 1 to 65,535. -/
def DISP_RATE_HANDOVER : Field := ⟨8, 0x18, 0x0, 0x0, 16, 16, 200⟩
/-- R265: 100 kW/s units. -/
def DISP_RATE_FOLLOW : Field := ⟨8, 0x18, 0x0, 0x0, 0, 16, 0⟩
/-- R265: G in 1/16 units (4. -/
def DISP_ALLOC_GAIN : Field := ⟨8, 0x1c, 0x0, 0x0, 24, 8, 64⟩
/-- R265: %, 0 to 100. -/
def DISP_ALLOC_REST_MARGIN : Field := ⟨8, 0x1c, 0x0, 0x0, 8, 8, 10⟩
/-- R265: Frames, 2 to 255. -/
def DISP_ALLOC_SOP_AGE : Field := ⟨8, 0x1c, 0x0, 0x0, 0, 8, 30⟩
/-- R265: s, 60 to 1,800. -/
def DISP_REST_DURATION : Field := ⟨8, 0x20, 0x0, 0x0, 16, 16, 120⟩
/-- R265: Resting strings per tile, 0 to 32. -/
def DISP_REST_MAX : Field := ⟨8, 0x20, 0x0, 0x0, 0, 6, 4⟩
/-- R265: Number of the latest cycle instant. -/
def DISP_CYCLE_CYCLE : Field := ⟨8, 0x24, 0x0, 0x0, 0, 32, 0⟩
/-- R265: Slots sent unrefreshed. -/
def DISP_STAT_REPEAT : Field := ⟨8, 0x28, 0x0, 0x0, 16, 16, 0⟩
/-- R265: Cycles counted with a late tile (R255). -/
def DISP_STAT_LATE : Field := ⟨8, 0x28, 0x0, 0x0, 0, 16, 0⟩
/-- R265: Session running. -/
def DISP_PERT_ACTIVE : Field := ⟨8, 0x40, 0x10, 0x0, 31, 1, 0⟩
/-- R265: Ring. -/
def DISP_PERT_RING : Field := ⟨8, 0x40, 0x10, 0x0, 26, 5, 0⟩
/-- R265: String A. -/
def DISP_PERT_STR_A : Field := ⟨8, 0x40, 0x10, 0x0, 21, 5, 0⟩
/-- R265: String B. -/
def DISP_PERT_STR_B : Field := ⟨8, 0x40, 0x10, 0x0, 16, 5, 0⟩
/-- R265: mHz. -/
def DISP_PERT_FREQ : Field := ⟨8, 0x40, 0x10, 0x0, 0, 16, 0⟩
/-- R265: 0. -/
def DISP_PERT_AMPL : Field := ⟨8, 0x44, 0x10, 0x0, 0, 16, 0⟩
/-- R265: Frame of t0. -/
def DISP_PERT_T0_FRAME : Field := ⟨8, 0x48, 0x10, 0x0, 0, 32, 0⟩
/-- R265: Offset of t0 after that frame instant, ms. -/
def DISP_PERT_T0_MS : Field := ⟨8, 0x4c, 0x10, 0x0, 0, 8, 0⟩
/-- R265: Bit s: string r. -/
def DISP_STR_EN_STRING : Field := ⟨8, 0x100, 0x4, 0x0, 0, 32, 0⟩
/-- R265: Bit s: string r. -/
def DISP_REST_GNT_STRING : Field := ⟨8, 0x180, 0x4, 0x0, 0, 32, 0⟩
/-- R265: String current rating, 0. -/
def DISP_STR_RATED_I_RATED : Field := ⟨8, 0x1000, 0x80, 0x4, 0, 16, 0⟩
/-- R265: Entry in use. -/
def DISP_CONT_VALID : Field := ⟨8, 0x200, 0x8, 0x0, 31, 1, 0⟩
/-- R265: 29-bit identifier. -/
def DISP_CONT_EXT : Field := ⟨8, 0x200, 0x8, 0x0, 30, 1, 0⟩
/-- R265: The entry has a ring B. -/
def DISP_CONT_TWO : Field := ⟨8, 0x200, 0x8, 0x0, 29, 1, 0⟩
/-- R265: First ring. -/
def DISP_CONT_RING_A : Field := ⟨8, 0x200, 0x8, 0x0, 24, 5, 0⟩
/-- R265: Second ring. -/
def DISP_CONT_RING_B : Field := ⟨8, 0x200, 0x8, 0x0, 19, 5, 0⟩
/-- R265: CAN port. -/
def DISP_CONT_PORT : Field := ⟨8, 0x200, 0x8, 0x0, 16, 3, 0⟩
/-- R265: Identifier of frame 0. -/
def DISP_CONT_CAN_ID : Field := ⟨8, 0x204, 0x8, 0x0, 0, 29, 0⟩
/-- R265: Last set-point sent, 0. -/
def DISP_STR_SP_SETPOINT : Field := ⟨8, 0x2000, 0x80, 0x4, 0, 16, 0⟩
/-- R285: Sets COMMIT_PENDING of the channel (R278). -/
def LOOP_COMMIT_CH : Field := ⟨9, 0x0, 0x0, 0x0, 0, 6, 0⟩
/-- R285: Bit i for channel i (LO) or 32 + i (HI): COMMIT_PENDING. -/
def LOOP_PEND_LO_CH : Field := ⟨9, 0x4, 0x0, 0x0, 0, 32, 0⟩
/-- R285: Bit i for channel i (LO) or 32 + i (HI): COMMIT_PENDING. -/
def LOOP_PEND_HI_CH : Field := ⟨9, 0x8, 0x0, 0x0, 0, 32, 0⟩
/-- R285: Bit i for channel i (LO) or 32 + i (HI): COMMIT_PENDING. -/
def LOOP_FAIL_LO_CH : Field := ⟨9, 0xc, 0x0, 0x0, 0, 32, 0⟩
/-- R285: Bit i for channel i (LO) or 32 + i (HI): COMMIT_PENDING. -/
def LOOP_FAIL_HI_CH : Field := ⟨9, 0x10, 0x0, 0x0, 0, 32, 0⟩
/-- R285: Failures detected (R276). -/
def LOOP_COUNT_FAIL : Field := ⟨9, 0x14, 0x0, 0x0, 16, 16, 0⟩
/-- R285: Commits refused (R279). -/
def LOOP_COUNT_REFUSED : Field := ⟨9, 0x14, 0x0, 0x0, 0, 16, 0⟩
/-- R285: R278. -/
def LOOP_CH_COMMIT_PENDING : Field := ⟨9, 0x100, 0x10, 0x0, 31, 1, 0⟩
/-- R285: Blend running (R274). -/
def LOOP_CH_RAMP : Field := ⟨9, 0x100, 0x10, 0x0, 30, 1, 0⟩
/-- R285: R276. -/
def LOOP_CH_FB_FAIL : Field := ⟨9, 0x100, 0x10, 0x0, 29, 1, 0⟩
/-- R285: 1 stale, 2 frozen. -/
def LOOP_CH_CAUSE : Field := ⟨9, 0x100, 0x10, 0x0, 27, 2, 0⟩
/-- R285: R279. -/
def LOOP_CH_COMMIT_WHY : Field := ⟨9, 0x100, 0x10, 0x0, 24, 3, 0⟩
/-- R285: Code of the last refused commit. -/
def LOOP_CH_COMMIT_ERR : Field := ⟨9, 0x100, 0x10, 0x0, 16, 8, 0⟩
/-- R285: Active MODE_REQ. -/
def LOOP_CH_REQ : Field := ⟨9, 0x100, 0x10, 0x0, 4, 4, 6⟩
/-- R285: Mode in force, encoded as MODE_REQ. -/
def LOOP_CH_MODE : Field := ⟨9, 0x100, 0x10, 0x0, 0, 4, 6⟩
/-- R285: Applied output u. -/
def LOOP_CH_OUT : Field := ⟨9, 0x104, 0x10, 0x0, 0, 32, 0⟩
/-- R285: Integral I. -/
def LOOP_CH_INTEG : Field := ⟨9, 0x108, 0x10, 0x0, 0, 32, 0⟩
/-- R285: Of the input that R275 names for the status. -/
def LOOP_CH_REPEATS : Field := ⟨9, 0x10c, 0x10, 0x0, 16, 16, 0⟩
/-- R285: Of the input that R275 names for the status. -/
def LOOP_CH_MISSES : Field := ⟨9, 0x10c, 0x10, 0x0, 0, 8, 0⟩
/-- R285: Breakpoint, j = 0 to 32 (R271). -/
def LOOP_GAIN_E : Field := ⟨9, 0x9000, 0x200, 0x4, 0, 32, 0⟩
/-- R285: Gain at E_j. -/
def LOOP_GAIN_G : Field := ⟨9, 0x9100, 0x200, 0x4, 0, 32, 0⟩
/-- R285: 0 SOFT, 1 CAN. -/
def LOOP_IN_MAP_SRC : Field := ⟨9, 0xd000, 0x10, 0x0, 30, 2, 0⟩
/-- R285: 29-bit identifier. -/
def LOOP_IN_MAP_EXT : Field := ⟨9, 0xd000, 0x10, 0x0, 29, 1, 0⟩
/-- R285: can0 to can7. -/
def LOOP_IN_MAP_PORT : Field := ⟨9, 0xd000, 0x10, 0x0, 26, 3, 0⟩
/-- R285: Raw field signed. -/
def LOOP_IN_MAP_SIGNED : Field := ⟨9, 0xd000, 0x10, 0x0, 25, 1, 0⟩
/-- R285: 0 8 bits, 1 16 bits, 2 32 bits. -/
def LOOP_IN_MAP_WIDTH : Field := ⟨9, 0xd000, 0x10, 0x0, 23, 2, 1⟩
/-- R285: First byte, 0 to 63. -/
def LOOP_IN_MAP_BYTE : Field := ⟨9, 0xd000, 0x10, 0x0, 17, 6, 0⟩
/-- R285: Bits [28:11] zero unless EXT, else rejected with E_RANGE. -/
def LOOP_IN_MAP_CAN_ID : Field := ⟨9, 0xd004, 0x10, 0x0, 0, 29, 0⟩
/-- R285: Q16. -/
def LOOP_IN_MAP_SCALE : Field := ⟨9, 0xd008, 0x10, 0x0, 0, 32, 65536⟩
/-- R285: Q16. -/
def LOOP_IN_MAP_OFFSET : Field := ⟨9, 0xd00c, 0x10, 0x0, 0, 32, 0⟩
/-- R285: Q16. -/
def LOOP_IN_VALUE : Field := ⟨9, 0xe000, 0x8, 0x0, 0, 32, 0⟩
/-- R285: Accepted writes, modulo 2¹⁶. -/
def LOOP_IN_UPDATES : Field := ⟨9, 0xe004, 0x8, 0x0, 16, 16, 0⟩
/-- R285: Frames too short. -/
def LOOP_IN_SHORT : Field := ⟨9, 0xe004, 0x8, 0x0, 0, 16, 0⟩
/-- R285: Frame enabled. -/
def LOOP_OFRAME_EN : Field := ⟨9, 0xe800, 0x8, 0x0, 31, 1, 0⟩
/-- R285: 29-bit identifier. -/
def LOOP_OFRAME_EXT : Field := ⟨9, 0xe800, 0x8, 0x0, 30, 1, 0⟩
/-- R285: CAN FD frame. -/
def LOOP_OFRAME_FD : Field := ⟨9, 0xe800, 0x8, 0x0, 29, 1, 0⟩
/-- R285: can0 to can7. -/
def LOOP_OFRAME_PORT : Field := ⟨9, 0xe800, 0x8, 0x0, 26, 3, 0⟩
/-- R285: 1 to 8. -/
def LOOP_OFRAME_LEN : Field := ⟨9, 0xe800, 0x8, 0x0, 14, 7, 8⟩
/-- R285: ms, 10 to 10,000. -/
def LOOP_OFRAME_PERIOD : Field := ⟨9, 0xe800, 0x8, 0x0, 0, 14, 100⟩
/-- R285: As in the input map. -/
def LOOP_OFRAME_CAN_ID : Field := ⟨9, 0xe804, 0x8, 0x0, 0, 29, 0⟩
/-- R285: R280. -/
def LOOP_TRACE_ARM : Field := ⟨9, 0xf000, 0x20, 0x0, 31, 1, 0⟩
/-- R285: R280. -/
def LOOP_TRACE_STOP : Field := ⟨9, 0xf000, 0x20, 0x0, 30, 1, 0⟩
/-- R285: Trigger now. -/
def LOOP_TRACE_FORCE : Field := ⟨9, 0xf000, 0x20, 0x0, 29, 1, 0⟩
/-- R285: 0 to 4. -/
def LOOP_TRACE_COND : Field := ⟨9, 0xf000, 0x20, 0x0, 24, 3, 0⟩
/-- R285: Node 0 to 3. -/
def LOOP_TRACE_TRIG_NODE : Field := ⟨9, 0xf000, 0x20, 0x0, 22, 2, 0⟩
/-- R285: Channel. -/
def LOOP_TRACE_TIMEBASE : Field := ⟨9, 0xf000, 0x20, 0x0, 16, 6, 0⟩
/-- R285: Pre-trigger samples, 0 to 4,095. -/
def LOOP_TRACE_PRE : Field := ⟨9, 0xf000, 0x20, 0x0, 0, 12, 0⟩
/-- R285: Node 1 in [31:16], node 0 in [15:0]. -/
def LOOP_TRACE_SEL_A : Field := ⟨9, 0xf004, 0x20, 0x0, 0, 32, 0⟩
/-- R285: Node 3 in [31:16], node 2 in [15:0]. -/
def LOOP_TRACE_SEL_B : Field := ⟨9, 0xf008, 0x20, 0x0, 0, 32, 0⟩
/-- R285: Q16. -/
def LOOP_TRACE_LEVEL : Field := ⟨9, 0xf00c, 0x20, 0x0, 0, 32, 0⟩
/-- R285: 0 IDLE, 1 ARMED, 2 TRIGGERED, 3 DONE. -/
def LOOP_TRACE_STATE : Field := ⟨9, 0xf010, 0x20, 0x0, 30, 2, 0⟩
/-- R285: Entry of the trigger sample. -/
def LOOP_TRACE_TRIG_INDEX : Field := ⟨9, 0xf010, 0x20, 0x0, 12, 12, 0⟩
/-- R285: Entry of the oldest valid sample. -/
def LOOP_TRACE_FIRST : Field := ⟨9, 0xf010, 0x20, 0x0, 0, 12, 0⟩
/-- R285: Valid entries, 0 to 4,096. -/
def LOOP_TRACE_COUNT : Field := ⟨9, 0xf014, 0x20, 0x0, 0, 13, 0⟩
/-- R318: 0 SELFTEST, 1 RUN, 2 SAFE_HALT. -/
def BERYL_STATUS_STATE : Field := ⟨10, 0x0, 0x0, 0x0, 28, 4, 0⟩
/-- R318: A session is open. -/
def BERYL_STATUS_SESSION : Field := ⟨10, 0x0, 0x0, 0x0, 27, 1, 0⟩
/-- R318: SF2 lines taken from the partner (R295). -/
def BERYL_STATUS_CARRY : Field := ⟨10, 0x0, 0x0, 0x0, 26, 1, 0⟩
/-- R318: Output fault, per output. -/
def BERYL_STATUS_FAULT : Field := ⟨10, 0x0, 0x0, 0x0, 16, 8, 0⟩
/-- R318: Lock-out latched, per output. -/
def BERYL_STATUS_LOCKOUT : Field := ⟨10, 0x0, 0x0, 0x0, 8, 8, 0⟩
/-- R318: Output energised. -/
def BERYL_STATUS_ON : Field := ⟨10, 0x0, 0x0, 0x0, 0, 8, 0⟩
/-- R318: Bit r set while SF1 of ring r demands. -/
def BERYL_DEMAND_RING_RING : Field := ⟨10, 0x4, 0x0, 0x0, 0, 32, 0⟩
/-- R318: SF4 demand per connection. -/
def BERYL_DEMAND_CONN : Field := ⟨10, 0x8, 0x0, 0x0, 16, 16, 0⟩
/-- R318: SF3 demand per input. -/
def BERYL_DEMAND_INPUT : Field := ⟨10, 0x8, 0x0, 0x0, 8, 8, 0⟩
/-- R318: SF2 demand per limit set. -/
def BERYL_DEMAND_LIMIT : Field := ⟨10, 0x8, 0x0, 0x0, 0, 8, 0⟩
/-- R318: R305. -/
def BERYL_INPUT_RESET_STUCK : Field := ⟨10, 0xc, 0x0, 0x0, 31, 1, 0⟩
/-- R318: Filtered, 1 closed. -/
def BERYL_INPUT_LRST_B : Field := ⟨10, 0xc, 0x0, 0x0, 30, 1, 0⟩
/-- R318: Filtered, 1 closed. -/
def BERYL_INPUT_LRST_A : Field := ⟨10, 0xc, 0x0, 0x0, 29, 1, 0⟩
/-- R318: Per input (R300). -/
def BERYL_INPUT_DISC_FAULT : Field := ⟨10, 0xc, 0x0, 0x0, 16, 8, 0⟩
/-- R318: Filtered SIiB, 1 energised. -/
def BERYL_INPUT_CH_B : Field := ⟨10, 0xc, 0x0, 0x0, 8, 8, 0⟩
/-- R318: Filtered SIiA, 1 energised. -/
def BERYL_INPUT_CH_A : Field := ⟨10, 0xc, 0x0, 0x0, 0, 8, 0⟩
/-- R318: R296. -/
def BERYL_SF5_PARAM : Field := ⟨10, 0x10, 0x0, 0x0, 6, 1, 0⟩
/-- R318: CROSS. -/
def BERYL_SF5_CROSS : Field := ⟨10, 0x10, 0x0, 0x0, 5, 1, 0⟩
/-- R318: SUPPLY. -/
def BERYL_SF5_SUPPLY : Field := ⟨10, 0x10, 0x0, 0x0, 4, 1, 0⟩
/-- R318: CLOCK. -/
def BERYL_SF5_CLOCK : Field := ⟨10, 0x10, 0x0, 0x0, 3, 1, 0⟩
/-- R318: RAM. -/
def BERYL_SF5_RAM : Field := ⟨10, 0x10, 0x0, 0x0, 2, 1, 0⟩
/-- R318: ROM. -/
def BERYL_SF5_ROM : Field := ⟨10, 0x10, 0x0, 0x0, 1, 1, 0⟩
/-- R318: LOCKSTEP. -/
def BERYL_SF5_LOCKSTEP : Field := ⟨10, 0x10, 0x0, 0x0, 0, 1, 0⟩
/-- R318: Parameter CRC of the active parameters (R314). -/
def BERYL_PCRC_CRC : Field := ⟨10, 0x14, 0x0, 0x0, 0, 32, 0⟩
/-- R318: Session open. -/
def BERYL_SESSION_OPEN : Field := ⟨10, 0x18, 0x0, 0x0, 31, 1, 0⟩
/-- R318: Seconds until timeout. -/
def BERYL_SESSION_REMAIN : Field := ⟨10, 0x18, 0x0, 0x0, 0, 10, 0⟩
/-- R318: Outputs reset. -/
def BERYL_COUNT_RESETS : Field := ⟨10, 0x1c, 0x0, 0x0, 16, 16, 0⟩
/-- R318: Resets refused. -/
def BERYL_COUNT_REFUSED : Field := ⟨10, 0x1c, 0x0, 0x0, 0, 16, 0⟩
/-- R318: Energised. -/
def BERYL_OUT_ON : Field := ⟨10, 0x40, 0x8, 0x0, 31, 1, 0⟩
/-- R318: LOCKOUT. -/
def BERYL_OUT_LOCKOUT : Field := ⟨10, 0x40, 0x8, 0x0, 30, 1, 0⟩
/-- R318: R303. -/
def BERYL_OUT_FAULT : Field := ⟨10, 0x40, 0x8, 0x0, 29, 1, 0⟩
/-- R318: High-side readback, 1 closed. -/
def BERYL_OUT_HS_RB : Field := ⟨10, 0x40, 0x8, 0x0, 28, 1, 0⟩
/-- R318: Low-side readback, 1 closed. -/
def BERYL_OUT_LS_RB : Field := ⟨10, 0x40, 0x8, 0x0, 27, 1, 0⟩
/-- R318: Instance 0x00 to 0x3F. -/
def BERYL_OUT_FIRST_CAUSE : Field := ⟨10, 0x40, 0x8, 0x0, 0, 8, 66⟩
/-- R318: Lock-outs latched since power-up. -/
def BERYL_OUT_TRIPS : Field := ⟨10, 0x44, 0x8, 0x0, 0, 32, 0⟩
/-- R318: R312. -/
def BERYL_CONN_STAT_LIVE : Field := ⟨10, 0x80, 0x4, 0x0, 31, 1, 0⟩
/-- R318: Reason of the last invalid PDU (R312). -/
def BERYL_CONN_STAT_WHY : Field := ⟨10, 0x80, 0x4, 0x0, 28, 3, 0⟩
/-- R318: Last accepted or sent SEQ. -/
def BERYL_CONN_STAT_SEQ : Field := ⟨10, 0x80, 0x4, 0x0, 0, 16, 0⟩
/-- R318: Output mask of instance i, i = 0x00 to 0x3F (R291). -/
def BERYL_PP_MATRIX : Field := ⟨10, 0x400, 0x1, 0x0, 0, 8, 0⟩
/-- R318: Input SIi enabled. -/
def BERYL_PP_IN_EN : Field := ⟨10, 0x440, 0x4, 0x0, 31, 1, 0⟩
/-- R318: R299. -/
def BERYL_PP_IN_FIRST_OPEN : Field := ⟨10, 0x440, 0x4, 0x0, 30, 1, 0⟩
/-- R318: ms, 10 to 1,000. -/
def BERYL_PP_IN_DISC_MS : Field := ⟨10, 0x440, 0x4, 0x0, 0, 10, 100⟩
/-- R318: Output SOo enabled. -/
def BERYL_PP_OUT_EN : Field := ⟨10, 0x460, 0x4, 0x0, 31, 1, 0⟩
/-- R318: R302. -/
def BERYL_PP_OUT_TEST_EN : Field := ⟨10, 0x460, 0x4, 0x0, 30, 1, 1⟩
/-- R318: 10 µs units, 10 to 50. -/
def BERYL_PP_OUT_TP_LEN : Field := ⟨10, 0x460, 0x4, 0x0, 16, 6, 30⟩
/-- R318: ms, 100 to 10,000. -/
def BERYL_PP_OUT_TP_PERIOD : Field := ⟨10, 0x460, 0x4, 0x0, 0, 14, 1000⟩
/-- R318: Connection enabled. -/
def BERYL_PP_CONN_EN : Field := ⟨10, 0x480, 0x10, 0x0, 31, 1, 0⟩
/-- R318: 0 consume, 1 produce, 2 reset. -/
def BERYL_PP_CONN_KIND : Field := ⟨10, 0x480, 0x10, 0x0, 29, 2, 0⟩
/-- R318: 0 CAN FD, 1 Ethernet. -/
def BERYL_PP_CONN_MEDIUM : Field := ⟨10, 0x480, 0x10, 0x0, 28, 1, 0⟩
/-- R318: 29-bit identifier. -/
def BERYL_PP_CONN_EXT : Field := ⟨10, 0x480, 0x10, 0x0, 27, 1, 0⟩
/-- R318: can0 to can7. -/
def BERYL_PP_CONN_PORT : Field := ⟨10, 0x480, 0x10, 0x0, 24, 3, 0⟩
/-- R318: 1 to 8. -/
def BERYL_PP_CONN_SEQ_WIN : Field := ⟨10, 0x480, 0x10, 0x0, 20, 4, 1⟩
/-- R318: Bytes, under R309 and R311. -/
def BERYL_PP_CONN_DATA_LEN : Field := ⟨10, 0x480, 0x10, 0x0, 0, 11, 1⟩
/-- R318: Bits [28:11] zero unless EXT. -/
def BERYL_PP_CONN_CAN_ID : Field := ⟨10, 0x484, 0x10, 0x0, 0, 29, 0⟩
/-- R318: R310. -/
def BERYL_PP_CONN_CID32 : Field := ⟨10, 0x488, 0x10, 0x0, 0, 32, 0⟩
/-- R318: ms, 10 to 60,000. -/
def BERYL_PP_CONN_WD_MS : Field := ⟨10, 0x48c, 0x10, 0x0, 0, 16, 100⟩
/-- R318: Output mask of instance i, i = 0x00 to 0x3F (R291). -/
def BERYL_PA_MATRIX : Field := ⟨10, 0x800, 0x1, 0x0, 0, 8, 0⟩
/-- R318: Input SIi enabled. -/
def BERYL_PA_IN_EN : Field := ⟨10, 0x840, 0x4, 0x0, 31, 1, 0⟩
/-- R318: R299. -/
def BERYL_PA_IN_FIRST_OPEN : Field := ⟨10, 0x840, 0x4, 0x0, 30, 1, 0⟩
/-- R318: ms, 10 to 1,000. -/
def BERYL_PA_IN_DISC_MS : Field := ⟨10, 0x840, 0x4, 0x0, 0, 10, 100⟩
/-- R318: Output SOo enabled. -/
def BERYL_PA_OUT_EN : Field := ⟨10, 0x860, 0x4, 0x0, 31, 1, 0⟩
/-- R318: R302. -/
def BERYL_PA_OUT_TEST_EN : Field := ⟨10, 0x860, 0x4, 0x0, 30, 1, 1⟩
/-- R318: 10 µs units, 10 to 50. -/
def BERYL_PA_OUT_TP_LEN : Field := ⟨10, 0x860, 0x4, 0x0, 16, 6, 30⟩
/-- R318: ms, 100 to 10,000. -/
def BERYL_PA_OUT_TP_PERIOD : Field := ⟨10, 0x860, 0x4, 0x0, 0, 14, 1000⟩
/-- R318: Connection enabled. -/
def BERYL_PA_CONN_EN : Field := ⟨10, 0x880, 0x10, 0x0, 31, 1, 0⟩
/-- R318: 0 consume, 1 produce, 2 reset. -/
def BERYL_PA_CONN_KIND : Field := ⟨10, 0x880, 0x10, 0x0, 29, 2, 0⟩
/-- R318: 0 CAN FD, 1 Ethernet. -/
def BERYL_PA_CONN_MEDIUM : Field := ⟨10, 0x880, 0x10, 0x0, 28, 1, 0⟩
/-- R318: 29-bit identifier. -/
def BERYL_PA_CONN_EXT : Field := ⟨10, 0x880, 0x10, 0x0, 27, 1, 0⟩
/-- R318: can0 to can7. -/
def BERYL_PA_CONN_PORT : Field := ⟨10, 0x880, 0x10, 0x0, 24, 3, 0⟩
/-- R318: 1 to 8. -/
def BERYL_PA_CONN_SEQ_WIN : Field := ⟨10, 0x880, 0x10, 0x0, 20, 4, 1⟩
/-- R318: Bytes, under R309 and R311. -/
def BERYL_PA_CONN_DATA_LEN : Field := ⟨10, 0x880, 0x10, 0x0, 0, 11, 1⟩
/-- R318: Bits [28:11] zero unless EXT. -/
def BERYL_PA_CONN_CAN_ID : Field := ⟨10, 0x884, 0x10, 0x0, 0, 29, 0⟩
/-- R318: R310. -/
def BERYL_PA_CONN_CID32 : Field := ⟨10, 0x888, 0x10, 0x0, 0, 32, 0⟩
/-- R318: ms, 10 to 60,000. -/
def BERYL_PA_CONN_WD_MS : Field := ⟨10, 0x88c, 0x10, 0x0, 0, 16, 100⟩
/-- R339: R328. -/
def PWR_STATUS_CLK_FAULT : Field := ⟨1, 0x0, 0x0, 0x0, 31, 1, 0⟩
/-- R339: R330. -/
def PWR_STATUS_TJ_FAULT : Field := ⟨1, 0x0, 0x0, 0x0, 30, 1, 0⟩
/-- R339: R329. -/
def PWR_STATUS_AVS_LIMIT : Field := ⟨1, 0x0, 0x0, 0x0, 29, 1, 0⟩
/-- R339: f below 1 (R334). -/
def PWR_STATUS_THROTTLE : Field := ⟨1, 0x0, 0x0, 0x0, 28, 1, 0⟩
/-- R339: Carry cap in use (R335). -/
def PWR_STATUS_CARRY_CAP : Field := ⟨1, 0x0, 0x0, 0x0, 27, 1, 0⟩
/-- R339: Clock of core c running. -/
def PWR_STATUS_CORE_ON : Field := ⟨1, 0x0, 0x0, 0x0, 9, 4, 0⟩
/-- R339: Vector array clock running. -/
def PWR_STATUS_VEC_ON : Field := ⟨1, 0x0, 0x0, 0x0, 8, 1, 0⟩
/-- R339: Junction target, °C, 85 to 110. -/
def PWR_CAP_TARGET : Field := ⟨1, 0x4, 0x0, 0x0, 16, 8, 100⟩
/-- R339: Carry cap, 0. -/
def PWR_CAP_CARRY : Field := ⟨1, 0x4, 0x0, 0x0, 8, 8, 140⟩
/-- R339: Power cap, 0. -/
def PWR_CAP_CAP : Field := ⟨1, 0x4, 0x0, 0x0, 0, 8, 100⟩
/-- R339: mJ, 100 to 1,000. -/
def PWR_BUCKET_CFG_DEPTH : Field := ⟨1, 0x8, 0x0, 0x0, 22, 10, 200⟩
/-- R339: mJ, 0 to 500. -/
def PWR_BUCKET_CFG_RESERVE : Field := ⟨1, 0x8, 0x0, 0x0, 12, 10, 20⟩
/-- R339: R332. -/
def PWR_BUCKET_CFG_RES_PRIO : Field := ⟨1, 0x8, 0x0, 0x0, 0, 4, 3⟩
/-- R339: Bucket, µJ, signed. -/
def PWR_BUCKET_B : Field := ⟨1, 0xc, 0x0, 0x0, 0, 32, 200000⟩
/-- R339: R336. -/
def PWR_LADDER_FORCE_EN : Field := ⟨1, 0x10, 0x0, 0x0, 31, 1, 0⟩
/-- R339: Forced level, 0 to 3 for L0 to L3. -/
def PWR_LADDER_FORCE : Field := ⟨1, 0x10, 0x0, 0x0, 29, 2, 0⟩
/-- R339: 1 to 255. -/
def PWR_LADDER_UP_FRAMES : Field := ⟨1, 0x10, 0x0, 0x0, 16, 8, 50⟩
/-- R339: Task index watched for GATED. -/
def PWR_LADDER_EST_TASK : Field := ⟨1, 0x10, 0x0, 0x0, 8, 8, 255⟩
/-- R339: Level set by the governor. -/
def PWR_LADDER_LEVEL : Field := ⟨1, 0x10, 0x0, 0x0, 0, 2, 0⟩
/-- R339: T_j, 0. -/
def PWR_MEAS_TJ : Field := ⟨1, 0x14, 0x0, 0x0, 16, 16, 0⟩
/-- R339: Tile power over the last 1 ms, mW. -/
def PWR_MEAS_POWER : Field := ⟨1, 0x14, 0x0, 0x0, 0, 16, 0⟩
/-- R339: Tile energy since reset, mJ, modulo 2³². -/
def PWR_ENERGY_MJ : Field := ⟨1, 0x18, 0x0, 0x0, 0, 32, 0⟩
/-- R339: Grants refused (R332). -/
def PWR_COUNT_GATED : Field := ⟨1, 0x1c, 0x0, 0x0, 16, 16, 0⟩
/-- R339: Overruns (R333). -/
def PWR_COUNT_OVERRUN : Field := ⟨1, 0x1c, 0x0, 0x0, 0, 16, 0⟩
/-- R339: Test hold (R329). -/
def PWR_AVS_FIX_EN : Field := ⟨1, 0x20, 0x0, 0x0, 31, 1, 0⟩
/-- R339: Code to hold, 0 to 40. -/
def PWR_AVS_FIX : Field := ⟨1, 0x20, 0x0, 0x0, 8, 6, 40⟩
/-- R339: Rail in use, V = 0. -/
def PWR_AVS_CODE : Field := ⟨1, 0x20, 0x0, 0x0, 0, 6, 40⟩
/-- R339: Locked. -/
def PWR_CLK_PLL_TIME : Field := ⟨1, 0x24, 0x0, 0x0, 6, 1, 0⟩
/-- R339: Locked. -/
def PWR_CLK_PLL_FAB : Field := ⟨1, 0x24, 0x0, 0x0, 5, 1, 0⟩
/-- R339: Locked. -/
def PWR_CLK_PLL_VEC : Field := ⟨1, 0x24, 0x0, 0x0, 4, 1, 0⟩
/-- R339: Locked. -/
def PWR_CLK_PLL_CORE : Field := ⟨1, 0x24, 0x0, 0x0, 3, 1, 0⟩
/-- R339: Running and in range. -/
def PWR_CLK_REF25 : Field := ⟨1, 0x24, 0x0, 0x0, 2, 1, 0⟩
/-- R339: Running. -/
def PWR_CLK_RC16 : Field := ⟨1, 0x24, 0x0, 0x0, 1, 1, 0⟩
/-- R339: Running. -/
def PWR_CLK_XO32 : Field := ⟨1, 0x24, 0x0, 0x0, 0, 1, 0⟩
/-- R339: 0 power-up, 1 `mode. -/
def PWR_WAKE_CAUSE : Field := ⟨1, 0x40, 0x0, 0x0, 0, 4, 0⟩
/-- R355: Counter ns. -/
def TIME_NS32_VALUE : Field := ⟨2, 0x0, 0x0, 0x0, 0, 32, 0⟩
/-- R355: Counter ns. -/
def TIME_WRAP_VALUE : Field := ⟨2, 0x4, 0x0, 0x0, 0, 32, 0⟩
/-- R355: Station ns. -/
def TIME_STN_NS_NS : Field := ⟨2, 0x8, 0x0, 0x0, 0, 32, 0⟩
/-- R355: Seconds [31:0]. -/
def TIME_STN_SEC_LO_SEC : Field := ⟨2, 0xc, 0x0, 0x0, 0, 32, 0⟩
/-- R355: Seconds [31:0]. -/
def TIME_STN_SEC_HI_SEC : Field := ⟨2, 0x10, 0x0, 0x0, 0, 32, 0⟩
/-- R355: R347. -/
def TIME_STATE_STROBE_LOST : Field := ⟨2, 0x14, 0x0, 0x0, 7, 1, 0⟩
/-- R355: R349. -/
def TIME_STATE_ALIGNED : Field := ⟨2, 0x14, 0x0, 0x0, 6, 1, 0⟩
/-- R355: 0 Path A, 1 Path B. -/
def TIME_STATE_PATH : Field := ⟨2, 0x14, 0x0, 0x0, 5, 1, 0⟩
/-- R355: 0 FREE, 1 ACQUIRE, 2 LOCKED, 3 HOLDOVER (R344). -/
def TIME_STATE_STATE : Field := ⟨2, 0x14, 0x0, 0x0, 0, 2, 0⟩
/-- R355: Last measured offset to the master, ns, signed, saturating. -/
def TIME_OFFSET_NS : Field := ⟨2, 0x18, 0x0, 0x0, 0, 32, 0⟩
/-- R355: PTP enabled. -/
def TIME_PTP_CFG_EN : Field := ⟨2, 0x1c, 0x0, 0x0, 31, 1, 1⟩
/-- R355: s, 0 to 3,600. -/
def TIME_PTP_CFG_HOLDOVER_S : Field := ⟨2, 0x1c, 0x0, 0x0, 8, 12, 5⟩
/-- R355: PTP domain number. -/
def TIME_PTP_CFG_DOMAIN : Field := ⟨2, 0x1c, 0x0, 0x0, 0, 8, 0⟩
/-- R355: Grandmaster clock identity, bits [31:0] and [63:32]. -/
def TIME_GM_LO_ID : Field := ⟨2, 0x20, 0x0, 0x0, 0, 32, 0⟩
/-- R355: Grandmaster clock identity, bits [31:0] and [63:32]. -/
def TIME_GM_HI_ID : Field := ⟨2, 0x24, 0x0, 0x0, 0, 32, 0⟩
/-- R355: Always-on seconds, copied from tile 0. -/
def TIME_AON_SEC : Field := ⟨2, 0x28, 0x0, 0x0, 0, 32, 0⟩
/-- R355: Operating time ms [31:0]. -/
def TIME_OPTIME_LO_MS : Field := ⟨2, 0x2c, 0x0, 0x0, 0, 32, 0⟩
/-- R355: Operating time ms [31:0]. -/
def TIME_OPTIME_HI_MS : Field := ⟨2, 0x30, 0x0, 0x0, 0, 32, 0⟩
/-- R355: Power-cycle count (R351). -/
def TIME_PCYCLE_COUNT : Field := ⟨2, 0x34, 0x0, 0x0, 0, 24, 0⟩
/-- R355: Latest frame number. -/
def TIME_FRAME_NUM_VALUE : Field := ⟨2, 0x40, 0x0, 0x0, 0, 32, 0⟩
/-- R355: Latest frame number. -/
def TIME_FRAME_NS32_VALUE : Field := ⟨2, 0x44, 0x0, 0x0, 0, 32, 0⟩
/-- R355: Latest frame number. -/
def TIME_FRAME_STN_NS_VALUE : Field := ⟨2, 0x48, 0x0, 0x0, 0, 32, 0⟩
/-- R355: Latest frame number. -/
def TIME_FRAME_STN_SEC_VALUE : Field := ⟨2, 0x4c, 0x0, 0x0, 0, 32, 0⟩
/-- R355: Sync frames sent on this port. -/
def TIME_CAN_CFG_EN : Field := ⟨2, 0x100, 0x8, 0x0, 31, 1, 0⟩
/-- R355: 29-bit identifier. -/
def TIME_CAN_CFG_EXT : Field := ⟨2, 0x100, 0x8, 0x0, 30, 1, 0⟩
/-- R355: Sync completed (R352). -/
def TIME_CAN_CFG_SYNC_DONE : Field := ⟨2, 0x100, 0x8, 0x0, 29, 1, 0⟩
/-- R355: ms, 100 to 5,000. -/
def TIME_CAN_CFG_PERIOD : Field := ⟨2, 0x100, 0x8, 0x0, 16, 13, 1000⟩
/-- R355: SEQ of the last sync. -/
def TIME_CAN_CFG_SEQ : Field := ⟨2, 0x100, 0x8, 0x0, 8, 8, 0⟩
/-- R355: Bits [28:11] zero unless EXT, else rejected with E_RANGE. -/
def TIME_CAN_CFG_SYNC_ID : Field := ⟨2, 0x104, 0x8, 0x0, 0, 29, 0⟩
/-- R355: Follow-up time, station ns. -/
def TIME_CAN_FU_NS : Field := ⟨2, 0x200, 0x10, 0x0, 0, 32, 0⟩
/-- R355: Follow-up time, station seconds [31:0]. -/
def TIME_CAN_FU_SEC : Field := ⟨2, 0x204, 0x10, 0x0, 0, 32, 0⟩
/-- R355: Forms and requests the follow-up for SEQ from NS and SEC. -/
def TIME_CAN_FU_SEND : Field := ⟨2, 0x208, 0x10, 0x0, 31, 1, 0⟩
/-- R355: SEQ of the sync the follow-up belongs to. -/
def TIME_CAN_FU_SEQ : Field := ⟨2, 0x208, 0x10, 0x0, 0, 8, 0⟩
/-- R377: R374. -/
def NET_CFG_COMPAT : Field := ⟨17, 0x0, 0x0, 0x0, 31, 1, 0⟩
/-- R377: IEEE 802. -/
def NET_CFG_VLAN_EN : Field := ⟨17, 0x0, 0x0, 0x0, 30, 1, 0⟩
/-- R377: Priority, 0 to 7. -/
def NET_CFG_VLAN_PCP : Field := ⟨17, 0x0, 0x0, 0x0, 27, 3, 0⟩
/-- R377: 1 to 4,094 while VLAN_EN = 1, else rejected with E_RANGE. -/
def NET_CFG_VLAN_ID : Field := ⟨17, 0x0, 0x0, 0x0, 12, 12, 0⟩
/-- R377: Session idle time, s, 10 to 3,600. -/
def NET_CFG_IDLE_S : Field := ⟨17, 0x0, 0x0, 0x0, 0, 12, 60⟩
/-- R377: A supervising session exists. -/
def NET_PATH_SUPERVISED : Field := ⟨17, 0x4, 0x0, 0x0, 11, 1, 0⟩
/-- R377: 0 A, 1 B, 3 none. -/
def NET_PATH_ACTIVE : Field := ⟨17, 0x4, 0x0, 0x0, 8, 2, 3⟩
/-- R377: 0 DOWN, 1 RESYNC, 2 STANDBY, 3 ACTIVE. -/
def NET_PATH_STATE_B : Field := ⟨17, 0x4, 0x0, 0x0, 4, 4, 0⟩
/-- R377: As STATE_B. -/
def NET_PATH_STATE_A : Field := ⟨17, 0x4, 0x0, 0x0, 0, 4, 0⟩
/-- R377: Bit i set while session slot i is open. -/
def NET_SESS_OPEN : Field := ⟨17, 0x8, 0x0, 0x0, 0, 16, 0⟩
/-- R377: R360 step 2. -/
def NET_ERR_AUTH : Field := ⟨17, 0xc, 0x0, 0x0, 24, 8, 0⟩
/-- R377: R360 step 1, wrong-path supervision, undelivered SAFETY. -/
def NET_ERR_FORMAT : Field := ⟨17, 0xc, 0x0, 0x0, 16, 8, 0⟩
/-- R377: R362. -/
def NET_ERR_REPLAY : Field := ⟨17, 0xc, 0x0, 0x0, 8, 8, 0⟩
/-- R377: R362. -/
def NET_ERR_DUP : Field := ⟨17, 0xc, 0x0, 0x0, 0, 8, 0⟩
/-- R377: Messages dropped (R368). -/
def NET_DROP_COUNT : Field := ⟨17, 0x10, 0x0, 0x0, 0, 32, 0⟩
/-- R377: Subscriptions in use, 0 to 32. -/
def NET_SUBS_COUNT : Field := ⟨17, 0x14, 0x0, 0x0, 0, 6, 0⟩
/-- R377: Transceiver inserted. -/
def NET_P_PRESENT : Field := ⟨17, 0x100, 0x40, 0x0, 31, 1, 0⟩
/-- R377: Medium of R356. -/
def NET_P_SUPPORTED : Field := ⟨17, 0x100, 0x40, 0x0, 30, 1, 0⟩
/-- R377: Link up. -/
def NET_P_LINK : Field := ⟨17, 0x100, 0x40, 0x0, 29, 1, 0⟩
/-- R377: Loss of signal. -/
def NET_P_LOS : Field := ⟨17, 0x100, 0x40, 0x0, 28, 1, 0⟩
/-- R377: 0 none, 1 1 Gbit/s, 2 10 Gbit/s. -/
def NET_P_SPEED : Field := ⟨17, 0x100, 0x40, 0x0, 26, 2, 0⟩
/-- R377: Received optical power, 0. -/
def NET_P_RX_PWR : Field := ⟨17, 0x100, 0x40, 0x0, 0, 16, 0⟩
/-- R377: MAC bits [47:32]. -/
def NET_P_MAC_HI : Field := ⟨17, 0x104, 0x40, 0x0, 0, 16, 0⟩
/-- R377: MAC bits [31:0]. -/
def NET_P_MAC_LO : Field := ⟨17, 0x108, 0x40, 0x0, 0, 32, 0⟩
/-- R377: IPv4 address. -/
def NET_P_IP4_ADDR : Field := ⟨17, 0x10c, 0x40, 0x0, 0, 32, 0⟩
/-- R377: IPv4 gateway. -/
def NET_P_IP4_GW : Field := ⟨17, 0x110, 0x40, 0x0, 0, 32, 0⟩
/-- R377: IPv4 enabled. -/
def NET_P_IP4_EN : Field := ⟨17, 0x114, 0x40, 0x0, 31, 1, 0⟩
/-- R377: 8 to 30. -/
def NET_P_IP4_PREFIX : Field := ⟨17, 0x114, 0x40, 0x0, 0, 6, 24⟩
/-- R377: IPv6 address, word 0 holding bits [127:96]. -/
def NET_P_IP6_ADDR : Field := ⟨17, 0x118, 0x40, 0x4, 0, 32, 0⟩
/-- R377: IPv6 enabled. -/
def NET_P_IP6_EN : Field := ⟨17, 0x128, 0x40, 0x0, 31, 1, 0⟩
/-- R377: 16 to 127. -/
def NET_P_IP6_PREFIX : Field := ⟨17, 0x128, 0x40, 0x0, 0, 7, 64⟩
/-- R377: Frames with errors. -/
def NET_P_RX_BAD : Field := ⟨17, 0x12c, 0x40, 0x0, 16, 16, 0⟩
/-- R377: Transitions to DOWN. -/
def NET_P_LOSSES : Field := ⟨17, 0x12c, 0x40, 0x0, 0, 16, 0⟩
/-- R377: Slot in use. -/
def NET_S_OPEN : Field := ⟨17, 0x400, 0x10, 0x0, 31, 1, 0⟩
/-- R377: Supervising session (R371). -/
def NET_S_SUPERVISE : Field := ⟨17, 0x400, 0x10, 0x0, 30, 1, 0⟩
/-- R377: Version 1 session (R374). -/
def NET_S_V1 : Field := ⟨17, 0x400, 0x10, 0x0, 29, 1, 0⟩
/-- R377: 0 Observer, 1 Operator, 2 Engineer, 3 Safety. -/
def NET_S_ROLE : Field := ⟨17, 0x400, 0x10, 0x0, 26, 2, 0⟩
/-- R377: Subscriptions held, 0 to 8. -/
def NET_S_SUBS : Field := ⟨17, 0x400, 0x10, 0x0, 4, 4, 0⟩
/-- R377: Session identity S. -/
def NET_S_ID : Field := ⟨17, 0x404, 0x10, 0x0, 0, 32, 0⟩
/-- R377: H of R362. -/
def NET_S_RX_HIGH : Field := ⟨17, 0x408, 0x10, 0x0, 0, 32, 0⟩
/-- R377: SEQ of the last distinct message sent. -/
def NET_S_TX_SEQ : Field := ⟨17, 0x40c, 0x10, 0x0, 0, 32, 0⟩
/-- R394: Configuration state (R380). -/
def CAN_CTRL_INIT : Field := ⟨12, 0x0, 0x2000, 0x0, 31, 1, 1⟩
/-- R394: Listen-only. -/
def CAN_CTRL_LISTEN : Field := ⟨12, 0x0, 0x2000, 0x0, 30, 1, 0⟩
/-- R394: FD frames allowed. -/
def CAN_CTRL_FD_EN : Field := ⟨12, 0x0, 0x2000, 0x0, 29, 1, 1⟩
/-- R394: R380. -/
def CAN_CTRL_AUTO_RECOVER : Field := ⟨12, 0x0, 0x2000, 0x0, 28, 1, 1⟩
/-- R394: On-module termination connected. -/
def CAN_CTRL_TERM : Field := ⟨12, 0x0, 0x2000, 0x0, 27, 1, 0⟩
/-- R394: Application access (R394). -/
def CAN_CTRL_APP : Field := ⟨12, 0x0, 0x2000, 0x0, 26, 1, 0⟩
/-- R394: Starts detection (R391). -/
def CAN_CTRL_DETECT : Field := ⟨12, 0x0, 0x2000, 0x0, 25, 1, 0⟩
/-- R394: Starts recovery. -/
def CAN_CTRL_RECOVER : Field := ⟨12, 0x0, 0x2000, 0x0, 24, 1, 0⟩
/-- R394: 1 to 127. -/
def CAN_NBT_NSJW : Field := ⟨12, 0x4, 0x2000, 0x0, 25, 7, 16⟩
/-- R394: 2 to 256. -/
def CAN_NBT_NTSEG1 : Field := ⟨12, 0x4, 0x2000, 0x0, 16, 9, 63⟩
/-- R394: 1 to 127. -/
def CAN_NBT_NTSEG2 : Field := ⟨12, 0x4, 0x2000, 0x0, 9, 7, 16⟩
/-- R394: 1 to 32. -/
def CAN_NBT_NBRP : Field := ⟨12, 0x4, 0x2000, 0x0, 0, 6, 1⟩
/-- R394: Transmitter delay compensation. -/
def CAN_DBT_TDC_EN : Field := ⟨12, 0x8, 0x2000, 0x0, 31, 1, 1⟩
/-- R394: CAN clock periods, 0 to 127. -/
def CAN_DBT_TDCO : Field := ⟨12, 0x8, 0x2000, 0x0, 24, 7, 15⟩
/-- R394: 1 to 15. -/
def CAN_DBT_DSJW : Field := ⟨12, 0x8, 0x2000, 0x0, 20, 4, 5⟩
/-- R394: 1 to 31. -/
def CAN_DBT_DTSEG1 : Field := ⟨12, 0x8, 0x2000, 0x0, 15, 5, 14⟩
/-- R394: 1 to 15. -/
def CAN_DBT_DTSEG2 : Field := ⟨12, 0x8, 0x2000, 0x0, 11, 4, 5⟩
/-- R394: 1 to 8. -/
def CAN_DBT_DBRP : Field := ⟨12, 0x8, 0x2000, 0x0, 0, 4, 1⟩
/-- R394: 0 INIT, 1 DETECT, 2 ERROR_ACTIVE, 3 ERROR_PASSIVE, 4 BUS_OFF, 5 RECOVERING. -/
def CAN_STATUS_STATE : Field := ⟨12, 0xc, 0x2000, 0x0, 29, 3, 0⟩
/-- R394: R390. -/
def CAN_STATUS_NO_ACK : Field := ⟨12, 0xc, 0x2000, 0x0, 28, 1, 0⟩
/-- R394: R389. -/
def CAN_STATUS_TEC_WARN : Field := ⟨12, 0xc, 0x2000, 0x0, 27, 1, 0⟩
/-- R394: R389. -/
def CAN_STATUS_REC_WARN : Field := ⟨12, 0xc, 0x2000, 0x0, 26, 1, 0⟩
/-- R394: Last error: 0 none, 1 stuff, 2 form, 3 ACK, 4 bit 1, 5 bit 0, 6 CRC. -/
def CAN_STATUS_LEC : Field := ⟨12, 0xc, 0x2000, 0x0, 16, 3, 0⟩
/-- R394: Consecutive ACK errors. -/
def CAN_STATUS_ACK_RUN : Field := ⟨12, 0xc, 0x2000, 0x0, 8, 8, 0⟩
/-- R394: Transmit error count, 255 while BUS_OFF. -/
def CAN_ERRCNT_TEC : Field := ⟨12, 0x10, 0x2000, 0x0, 8, 8, 0⟩
/-- R394: Receive error count, saturating. -/
def CAN_ERRCNT_REC : Field := ⟨12, 0x10, 0x2000, 0x0, 0, 8, 0⟩
/-- R394: Transmit error count, 255 while BUS_OFF. -/
def CAN_WARN_TEC_WARN : Field := ⟨12, 0x14, 0x2000, 0x0, 8, 8, 96⟩
/-- R394: Receive error count, saturating. -/
def CAN_WARN_REC_WARN : Field := ⟨12, 0x14, 0x2000, 0x0, 0, 8, 96⟩
/-- R394: R391. -/
def CAN_IRQ_RATE_DONE : Field := ⟨12, 0x18, 0x2000, 0x0, 7, 1, 0⟩
/-- R394: R388. -/
def CAN_IRQ_OVF : Field := ⟨12, 0x18, 0x2000, 0x0, 6, 1, 0⟩
/-- R394: R380. -/
def CAN_IRQ_STATE_CHG : Field := ⟨12, 0x18, 0x2000, 0x0, 5, 1, 0⟩
/-- R394: R389. -/
def CAN_IRQ_WARN_CHG : Field := ⟨12, 0x18, 0x2000, 0x0, 4, 1, 0⟩
/-- R394: R390. -/
def CAN_IRQ_NO_ACK_CHG : Field := ⟨12, 0x18, 0x2000, 0x0, 3, 1, 0⟩
/-- R394: FIFO 1 became non-empty. -/
def CAN_IRQ_RX1 : Field := ⟨12, 0x18, 0x2000, 0x0, 2, 1, 0⟩
/-- R394: FIFO 0 became non-empty. -/
def CAN_IRQ_RX0 : Field := ⟨12, 0x18, 0x2000, 0x0, 1, 1, 0⟩
/-- R394: R391. -/
def CAN_IRQ_EN_RATE_DONE : Field := ⟨12, 0x1c, 0x2000, 0x0, 7, 1, 0⟩
/-- R394: R388. -/
def CAN_IRQ_EN_OVF : Field := ⟨12, 0x1c, 0x2000, 0x0, 6, 1, 0⟩
/-- R394: R380. -/
def CAN_IRQ_EN_STATE_CHG : Field := ⟨12, 0x1c, 0x2000, 0x0, 5, 1, 0⟩
/-- R394: R389. -/
def CAN_IRQ_EN_WARN_CHG : Field := ⟨12, 0x1c, 0x2000, 0x0, 4, 1, 0⟩
/-- R394: R390. -/
def CAN_IRQ_EN_NO_ACK_CHG : Field := ⟨12, 0x1c, 0x2000, 0x0, 3, 1, 0⟩
/-- R394: FIFO 1 became non-empty. -/
def CAN_IRQ_EN_RX1 : Field := ⟨12, 0x1c, 0x2000, 0x0, 2, 1, 0⟩
/-- R394: FIFO 0 became non-empty. -/
def CAN_IRQ_EN_RX0 : Field := ⟨12, 0x1c, 0x2000, 0x0, 1, 1, 0⟩
/-- R394: Request (R382). -/
def CAN_TXREQ : Field := ⟨12, 0x20, 0x2000, 0x0, 0, 32, 0⟩
/-- R394: Cancel (R385). -/
def CAN_TXCANCEL : Field := ⟨12, 0x24, 0x2000, 0x0, 0, 32, 0⟩
/-- R394: Sent. -/
def CAN_TXDONE : Field := ⟨12, 0x28, 0x2000, 0x0, 0, 32, 0⟩
/-- R394: Failed, not retried. -/
def CAN_TXFAIL : Field := ⟨12, 0x2c, 0x2000, 0x0, 0, 32, 0⟩
/-- R394: Cancelled before start of frame. -/
def CAN_TXCAN : Field := ⟨12, 0x30, 0x2000, 0x0, 0, 32, 0⟩
/-- R394: Sent despite cancel. -/
def CAN_TXCSENT : Field := ⟨12, 0x34, 0x2000, 0x0, 0, 32, 0⟩
/-- R394: Transmit-complete interrupt (R386). -/
def CAN_TXIE : Field := ⟨12, 0x38, 0x2000, 0x0, 0, 32, 0⟩
/-- R394: Entries in FIFO 1, 0 to 64. -/
def CAN_RXF_COUNT1 : Field := ⟨12, 0x3c, 0x2000, 0x0, 8, 8, 0⟩
/-- R394: Entries in FIFO 0, 0 to 64. -/
def CAN_RXF_COUNT0 : Field := ⟨12, 0x3c, 0x2000, 0x0, 0, 8, 0⟩
/-- R394: Bit f removes the head of FIFO f. -/
def CAN_RXF_POP_POP : Field := ⟨12, 0x40, 0x2000, 0x0, 0, 2, 0⟩
/-- R394: Frames matched by no filter. -/
def CAN_COUNT_NOMATCH : Field := ⟨12, 0x44, 0x2000, 0x0, 16, 16, 0⟩
/-- R394: Frames lost at FIFO 1. -/
def CAN_COUNT_OVF1 : Field := ⟨12, 0x44, 0x2000, 0x0, 8, 8, 0⟩
/-- R394: Frames lost at FIFO 0. -/
def CAN_COUNT_OVF0 : Field := ⟨12, 0x44, 0x2000, 0x0, 0, 8, 0⟩
/-- R394: Loads the found timing (R391). -/
def CAN_RATE_ADOPT : Field := ⟨12, 0x48, 0x2000, 0x0, 31, 1, 0⟩
/-- R394: A nominal rate was found. -/
def CAN_RATE_VALID : Field := ⟨12, 0x48, 0x2000, 0x0, 30, 1, 0⟩
/-- R394: Detection timed out. -/
def CAN_RATE_FAIL : Field := ⟨12, 0x48, 0x2000, 0x0, 29, 1, 0⟩
/-- R394: Data code of R391. -/
def CAN_RATE_DATA : Field := ⟨12, 0x48, 0x2000, 0x0, 4, 4, 0⟩
/-- R394: Nominal code of R391. -/
def CAN_RATE_NOMINAL : Field := ⟨12, 0x48, 0x2000, 0x0, 0, 4, 0⟩
/-- R394: s, 1 to 60. -/
def CAN_DETECT_CFG_TIMEOUT : Field := ⟨12, 0x4c, 0x2000, 0x0, 16, 16, 10⟩
/-- R394: ms, 10 to 1,000. -/
def CAN_DETECT_CFG_DWELL : Field := ⟨12, 0x4c, 0x2000, 0x0, 0, 16, 100⟩
/-- R394: 29-bit identifier. -/
def CAN_TXB_EXT : Field := ⟨12, 0x400, 0x2000, 0x50, 31, 1, 0⟩
/-- R394: FD frame. -/
def CAN_TXB_FDF : Field := ⟨12, 0x400, 0x2000, 0x50, 30, 1, 0⟩
/-- R394: Bit-rate switch. -/
def CAN_TXB_BRS : Field := ⟨12, 0x400, 0x2000, 0x50, 29, 1, 0⟩
/-- R394: Identifier. -/
def CAN_TXB_ID : Field := ⟨12, 0x400, 0x2000, 0x50, 0, 29, 0⟩
/-- R394: R386. -/
def CAN_TXB_ONESHOT : Field := ⟨12, 0x404, 0x2000, 0x50, 31, 1, 0⟩
/-- R394: Classical remote frame. -/
def CAN_TXB_RTR : Field := ⟨12, 0x404, 0x2000, 0x50, 30, 1, 0⟩
/-- R394: Data length code. -/
def CAN_TXB_DLC : Field := ⟨12, 0x404, 0x2000, 0x50, 0, 4, 0⟩
/-- R394: Filter enabled. -/
def CAN_FILT_EN : Field := ⟨12, 0x1200, 0x2000, 0x8, 31, 1, 0⟩
/-- R394: Matches 29-bit identifiers. -/
def CAN_FILT_EXT : Field := ⟨12, 0x1200, 0x2000, 0x8, 30, 1, 0⟩
/-- R394: Identifier compared. -/
def CAN_FILT_ID : Field := ⟨12, 0x1200, 0x2000, 0x8, 0, 29, 0⟩
/-- R394: 0 FIFO 0, 1 FIFO 1, 2 reject. -/
def CAN_FILT_ACTION : Field := ⟨12, 0x1204, 0x2000, 0x8, 30, 2, 0⟩
/-- R394: 1 bits are compared. -/
def CAN_FILT_MASK : Field := ⟨12, 0x1204, 0x2000, 0x8, 0, 29, 0⟩
/-- R413: Controller rate: 0 100 kHz, 1 400 kHz, 2 1 MHz. -/
def TWB_CFG_RATE : Field := ⟨18, 0x0, 0x0, 0x0, 16, 2, 1⟩
/-- R413: Glitch filter in 16 MHz samples (R397). -/
def TWB_CFG_FILTER : Field := ⟨18, 0x0, 0x0, 0x0, 0, 5, 2⟩
/-- R413: Bus not free (R398). -/
def TWB_STATUS_BUS_BUSY : Field := ⟨18, 0x4, 0x0, 0x0, 31, 1, 1⟩
/-- R413: Filtered level. -/
def TWB_STATUS_SCL : Field := ⟨18, 0x4, 0x0, 0x0, 30, 1, 1⟩
/-- R413: Filtered level. -/
def TWB_STATUS_SDA : Field := ⟨18, 0x4, 0x0, 0x0, 29, 1, 1⟩
/-- R413: R409. -/
def TWB_STATUS_STUCK : Field := ⟨18, 0x4, 0x0, 0x0, 28, 1, 0⟩
/-- R413: Target address (R396). -/
def TWB_STATUS_TADDR : Field := ⟨18, 0x4, 0x0, 0x0, 0, 7, 0⟩
/-- R413: Starts the job (R408). -/
def TWB_JOB_GO : Field := ⟨18, 0x8, 0x0, 0x0, 31, 1, 0⟩
/-- R413: Retries after arbitration loss, 0 to 3. -/
def TWB_JOB_RETRIES : Field := ⟨18, 0x8, 0x0, 0x0, 29, 2, 2⟩
/-- R413: Target address. -/
def TWB_JOB_ADDR : Field := ⟨18, 0x8, 0x0, 0x0, 22, 7, 0⟩
/-- R413: Bytes written, 0 to 64. -/
def TWB_JOB_WLEN : Field := ⟨18, 0x8, 0x0, 0x0, 15, 7, 0⟩
/-- R413: Bytes read, 0 to 64. -/
def TWB_JOB_RLEN : Field := ⟨18, 0x8, 0x0, 0x0, 8, 7, 0⟩
/-- R413: Job running. -/
def TWB_RESULT_BUSY : Field := ⟨18, 0xc, 0x0, 0x0, 31, 1, 0⟩
/-- R413: Outcome of the last job (R408). -/
def TWB_RESULT_CODE : Field := ⟨18, 0xc, 0x0, 0x0, 16, 8, 0⟩
/-- R413: Bytes written and acknowledged. -/
def TWB_RESULT_WDONE : Field := ⟨18, 0xc, 0x0, 0x0, 8, 8, 0⟩
/-- R413: Key page applied (R407). -/
def TWB_IRQ_KEY : Field := ⟨18, 0x10, 0x0, 0x0, 2, 1, 0⟩
/-- R413: Side-band GO accepted (R405). -/
def TWB_IRQ_CMD : Field := ⟨18, 0x10, 0x0, 0x0, 1, 1, 0⟩
/-- R413: Controller job ended. -/
def TWB_IRQ_JOB : Field := ⟨18, 0x10, 0x0, 0x0, 0, 1, 0⟩
/-- R413: Arbitration losses (R410). -/
def TWB_COUNT_ARB_LOST : Field := ⟨18, 0x14, 0x0, 0x0, 16, 16, 0⟩
/-- R413: Bus clears performed (R409). -/
def TWB_COUNT_CLEARS : Field := ⟨18, 0x14, 0x0, 0x0, 8, 8, 0⟩
/-- R413: Target timeouts (R411). -/
def TWB_COUNT_TIMEOUTS : Field := ⟨18, 0x14, 0x0, 0x0, 0, 8, 0⟩
/-- R413: Bytes 4i to 4i + 3, little-endian. -/
def TWB_BUF_DATA : Field := ⟨18, 0x100, 0x4, 0x0, 0, 32, 0⟩
/-- R428: Recovers channels 2 to 15 (R424). -/
def DMA_CTRL_RECOVER : Field := ⟨11, 0x0, 0x0, 0x0, 0, 1, 0⟩
/-- R428: Bit c set while channel c is in RUN. -/
def DMA_STATUS_BUSY : Field := ⟨11, 0x4, 0x0, 0x0, 16, 16, 0⟩
/-- R428: Bit c set while channel c is HALTED. -/
def DMA_STATUS_HALTED : Field := ⟨11, 0x4, 0x0, 0x0, 0, 16, 0⟩
/-- R428: Offset bits [31:0] of the first failing access since VALID was cleared. -/
def DMA_ERR_ADDR_OFFSET_LO : Field := ⟨11, 0x8, 0x0, 0x0, 0, 32, 0⟩
/-- R428: An error is captured. -/
def DMA_ERR_INFO_VALID : Field := ⟨11, 0xc, 0x0, 0x0, 31, 1, 0⟩
/-- R428: 1 write, 0 read. -/
def DMA_ERR_INFO_WRITE : Field := ⟨11, 0xc, 0x0, 0x0, 30, 1, 0⟩
/-- R428: Tile of the failing access. -/
def DMA_ERR_INFO_TILE : Field := ⟨11, 0xc, 0x0, 0x0, 4, 4, 0⟩
/-- R428: Offset bits [35:32]. -/
def DMA_ERR_INFO_OFFSET_HI : Field := ⟨11, 0xc, 0x0, 0x0, 0, 4, 0⟩
/-- R428: Bus-error halts (R422). -/
def DMA_COUNT_HALTS : Field := ⟨11, 0x10, 0x0, 0x0, 16, 16, 0⟩
/-- R428: Resumes of channels 0 and 1 (R423). -/
def DMA_COUNT_AUTO : Field := ⟨11, 0x10, 0x0, 0x0, 0, 16, 0⟩
/-- R428: Channel enabled (R425). -/
def DMA_CH_EN : Field := ⟨11, 0x100, 0x10, 0x0, 31, 1, 1⟩
/-- R428: 1 to 3. -/
def DMA_CH_PRIO : Field := ⟨11, 0x100, 0x10, 0x0, 0, 2, 3⟩
/-- R428: 0 DISABLED, 1 IDLE, 2 RUN, 3 HALTED. -/
def DMA_CH_STATE : Field := ⟨11, 0x104, 0x10, 0x0, 28, 4, 1⟩
/-- R428: Jobs queued, including the job under way. -/
def DMA_CH_QUEUED : Field := ⟨11, 0x104, 0x10, 0x0, 16, 5, 0⟩
/-- R428: Outcome of the last completed job. -/
def DMA_CH_LAST : Field := ⟨11, 0x104, 0x10, 0x0, 0, 8, 0⟩
/-- R428: Job number of the last accepted job (R109). -/
def DMA_CH_JOBS : Field := ⟨11, 0x108, 0x10, 0x0, 0, 32, 0⟩
/-- R428: Job number of the last completed job. -/
def DMA_CH_DONE : Field := ⟨11, 0x10c, 0x10, 0x0, 0, 32, 0⟩
/-- R439: SEQ of the next record to be accepted. -/
def EVT_SEQ_SEQ : Field := ⟨13, 0x0, 0x0, 0x0, 0, 32, 0⟩
/-- R439: SEQ of the next record to be accepted. -/
def EVT_TAIL_SEQ_SEQ : Field := ⟨13, 0x4, 0x0, 0x0, 0, 32, 0⟩
/-- R439: First record not yet read by the System reader. -/
def EVT_RPTR_SEQ : Field := ⟨13, 0x8, 0x0, 0x0, 0, 32, 0⟩
/-- R439: Fill mark enabled. -/
def EVT_MARK_EN : Field := ⟨13, 0xc, 0x0, 0x0, 31, 1, 0⟩
/-- R439: 1 to 1,048,576. -/
def EVT_MARK_COUNT : Field := ⟨13, 0xc, 0x0, 0x0, 0, 21, 4096⟩
/-- R439: Records withheld (R437). -/
def EVT_COUNT_SUPPRESSED : Field := ⟨13, 0x10, 0x0, 0x0, 16, 16, 0⟩
/-- R439: Tail writes dropped (R435). -/
def EVT_COUNT_TAIL_LOST : Field := ⟨13, 0x10, 0x0, 0x0, 0, 16, 0⟩
/-- R439: Records per s for codes 0xk000 to 0xkFFF without their own entry. -/
def EVT_CLASS_RATE : Field := ⟨13, 0x100, 0x4, 0x0, 16, 16, 200⟩
/-- R439: Bucket depth, records. -/
def EVT_CLASS_BURST : Field := ⟨13, 0x100, 0x4, 0x0, 0, 16, 64⟩
/-- R439: Entry in use. -/
def EVT_CODE_VALID : Field := ⟨13, 0x8000, 0x8, 0x0, 31, 1, 0⟩
/-- R439: Event code. -/
def EVT_CODE_CODE : Field := ⟨13, 0x8000, 0x8, 0x0, 0, 16, 0⟩
/-- R439: Records per s. -/
def EVT_CODE_RATE : Field := ⟨13, 0x8004, 0x8, 0x0, 16, 16, 0⟩
/-- R439: Bucket depth. -/
def EVT_CODE_BURST : Field := ⟨13, 0x8004, 0x8, 0x0, 0, 16, 0⟩
/-- R465: 0 IDLE, 1 DOWNLOAD, 2 VERIFY, 3 VERIFIED, 4 ACTIVATING, 5 TRIAL, 6 FALLBACK, 7 RECOVERY. -/
def IMG_STATUS_STAGE : Field := ⟨14, 0x0, 0x0, 0x0, 28, 4, 0⟩
/-- R465: Bank this tile runs: 0 A, 1 B. -/
def IMG_STATUS_BANK : Field := ⟨14, 0x0, 0x0, 0x0, 27, 1, 0⟩
/-- R465: PASS written in this trial. -/
def IMG_STATUS_SELF_OK : Field := ⟨14, 0x0, 0x0, 0x0, 26, 1, 0⟩
/-- R465: FAIL written. -/
def IMG_STATUS_SELF_FAIL : Field := ⟨14, 0x0, 0x0, 0x0, 25, 1, 0⟩
/-- R465: Rolling activation running. -/
def IMG_STATUS_ROLLING : Field := ⟨14, 0x0, 0x0, 0x0, 24, 1, 0⟩
/-- R465: Tile in its rolling step. -/
def IMG_STATUS_ROLL_TILE : Field := ⟨14, 0x0, 0x0, 0x0, 20, 4, 15⟩
/-- R465: From the boot record. -/
def IMG_STATUS_ATTEMPTS : Field := ⟨14, 0x0, 0x0, 0x0, 16, 2, 0⟩
/-- R465: Code of the last failed image command or check. -/
def IMG_STATUS_LAST_CODE : Field := ⟨14, 0x0, 0x0, 0x0, 0, 8, 0⟩
/-- R465: 0 EMPTY, 1 VERIFIED, 2 TRIAL, 3 CONFIRMED. -/
def IMG_BANK_A_STATE : Field := ⟨14, 0x4, 0x0, 0x0, 28, 4, 0⟩
/-- R465: EPOCH of the image held. -/
def IMG_BANK_A_EPOCH : Field := ⟨14, 0x4, 0x0, 0x0, 0, 16, 0⟩
/-- R465: 0 EMPTY, 1 VERIFIED, 2 TRIAL, 3 CONFIRMED. -/
def IMG_BANK_B_STATE : Field := ⟨14, 0x8, 0x0, 0x0, 28, 4, 0⟩
/-- R465: EPOCH of the image held. -/
def IMG_BANK_B_EPOCH : Field := ⟨14, 0x8, 0x0, 0x0, 0, 16, 0⟩
/-- R465: VERSION of the image held. -/
def IMG_VER_A_VERSION : Field := ⟨14, 0xc, 0x0, 0x0, 0, 32, 0⟩
/-- R465: VERSION of the image held. -/
def IMG_VER_B_VERSION : Field := ⟨14, 0x10, 0x0, 0x0, 0, 32, 0⟩
/-- R465: LEN of the current download. -/
def IMG_DL_LEN : Field := ⟨14, 0x14, 0x0, 0x0, 0, 32, 0⟩
/-- R465: Granules of 1,024 bytes written, counting the final short granule. -/
def IMG_DL_GRAN_GRANULES : Field := ⟨14, 0x18, 0x0, 0x0, 0, 16, 0⟩
/-- R465: R460. -/
def IMG_CFG_AUTO_CONFIRM : Field := ⟨14, 0x1c, 0x0, 0x0, 31, 1, 0⟩
/-- R465: s, 60 to 3,600. -/
def IMG_CFG_CONFIRM_S : Field := ⟨14, 0x1c, 0x0, 0x0, 0, 12, 600⟩
/-- R465: Seconds left in the confirm window. -/
def IMG_CONFIRM_REMAIN_S : Field := ⟨14, 0x20, 0x0, 0x0, 0, 12, 0⟩
/-- R465: R459. -/
def IMG_SELFCHECK_FAIL : Field := ⟨14, 0x24, 0x0, 0x0, 1, 1, 0⟩
/-- R465: R459. -/
def IMG_SELFCHECK_PASS : Field := ⟨14, 0x24, 0x0, 0x0, 0, 1, 0⟩
/-- R465: Acts as `img. -/
def IMG_CTRL_CONFIRM : Field := ⟨14, 0x28, 0x0, 0x0, 0, 1, 0⟩
/-- R465: Onyx boot version. -/
def IMG_ONYX_BOOT_VER : Field := ⟨14, 0x2c, 0x0, 0x0, 16, 16, 0⟩
/-- R465: R445. -/
def IMG_ONYX_EPOCH_MIN : Field := ⟨14, 0x2c, 0x0, 0x0, 0, 16, 0⟩
/-- R465: Fall-backs. -/
def IMG_COUNT_FALLBACK : Field := ⟨14, 0x30, 0x0, 0x0, 16, 16, 0⟩
/-- R465: Activations begun. -/
def IMG_COUNT_ACTIVATE : Field := ⟨14, 0x30, 0x0, 0x0, 0, 16, 0⟩
/-- R465: Bytes 4i to 4i + 3 of the running bank's SHA-384, byte 4i in [31:24]. -/
def IMG_DIGEST_WORD : Field := ⟨14, 0x40, 0x4, 0x0, 0, 32, 0⟩
/-- R466: 0 NONE, 1 HANDOVER, 2 SERVING, 3 CARRIED, 4 HANDBACK, 5 UNSERVED. -/
def CARRY_STATUS_STATE : Field := ⟨15, 0x0, 0x0, 0x0, 28, 4, 0⟩
/-- R466: 0 none, 1 image, 2 fault, 3 MOD_TILE_CTRL. -/
def CARRY_STATUS_CAUSE : Field := ⟨15, 0x0, 0x0, 0x0, 24, 4, 0⟩
/-- R466: Carry after a fault (R458). -/
def CARRY_CTRL_AUTO : Field := ⟨15, 0x4, 0x0, 0x0, 31, 1, 1⟩
/-- R466: The restarted tile is ready to take its section back (R455). -/
def CARRY_CTRL_READY : Field := ⟨15, 0x4, 0x0, 0x0, 0, 1, 0⟩
/-- R466: Pass frame of the last complete record mirror from the partner. -/
def CARRY_MIRROR_VALUE : Field := ⟨15, 0x8, 0x0, 0x0, 0, 32, 0⟩
/-- R466: Pass frame of the last complete record mirror from the partner. -/
def CARRY_CFG_GEN_VALUE : Field := ⟨15, 0xc, 0x0, 0x0, 0, 32, 0⟩
/-- R466: Frame instant of the last hand-over. -/
def CARRY_HANDOVER_FRAME : Field := ⟨15, 0x10, 0x0, 0x0, 0, 32, 0⟩
/-- R466: Frame instant of the last hand-over. -/
def CARRY_HANDBACK_FRAME : Field := ⟨15, 0x14, 0x0, 0x0, 0, 32, 0⟩
/-- R466: Carries caused by faults or MOD_TILE_CTRL. -/
def CARRY_COUNT_FAULT : Field := ⟨15, 0x18, 0x0, 0x0, 16, 16, 0⟩
/-- R466: Carries for activation or fall-back. -/
def CARRY_COUNT_IMAGE : Field := ⟨15, 0x18, 0x0, 0x0, 0, 16, 0⟩
/-- R466: FAULT entries of this tile in the last 10 min (R458). -/
def CARRY_RESTARTS_COUNT : Field := ⟨15, 0x1c, 0x0, 0x0, 0, 2, 0⟩
/-- Registers of the TILE block, part 0. -/
def tileRegs0 : List Reg :=
  [⟨0x0, 0x0, 1, 0x0, 1, 4, false, [(TILE_ID_PARTNER, .ro), (TILE_ID_LEAD, .ro), (TILE_ID_NUM, .ro)]⟩,
   ⟨0x4, 0x0, 1, 0x0, 1, 4, false, [(TILE_STATUS_SERVED_BY, .ro), (TILE_STATUS_STATE, .ro)]⟩,
   ⟨0x8, 0x0, 1, 0x0, 1, 4, false, [(TILE_RESET_CAUSE_IMAGE, .w1c), (TILE_RESET_CAUSE_FAULT, .w1c), (TILE_RESET_CAUSE_WATCHDOG, .w1c), (TILE_RESET_CAUSE_TILE_CTRL, .w1c), (TILE_RESET_CAUSE_MRST, .w1c), (TILE_RESET_CAUSE_POWER, .w1c)]⟩,
   ⟨0xc, 0x0, 1, 0x0, 1, 4, false, [(TILE_LAST_ERR_BLOCK, .rc), (TILE_LAST_ERR_CODE, .rc)]⟩,
   ⟨0x10, 0x0, 1, 0x0, 1, 4, false, [(TILE_VIOL_COUNT_COUNT, .rc)]⟩,
   ⟨0x14, 0x0, 1, 0x0, 1, 4, false, [(TILE_VIOL_ADDR_OFFSET_LO, .ro)]⟩,
   ⟨0x18, 0x0, 1, 0x0, 1, 4, false, [(TILE_VIOL_INFO_VALID, .w1c), (TILE_VIOL_INFO_WRITE, .ro), (TILE_VIOL_INFO_CORE, .ro), (TILE_VIOL_INFO_TASK, .ro), (TILE_VIOL_INFO_TILE, .ro), (TILE_VIOL_INFO_OFFSET_HI, .ro)]⟩,
   ⟨0x1c, 0x0, 1, 0x0, 1, 4, false, [(TILE_SCRATCH_VALUE, .rw)]⟩]
/-- The registers of the TILE block. -/
def tileRegs : List Reg := tileRegs0
/-- Registers of the MOD block, part 0. -/
def modRegs0 : List Reg :=
  [⟨0x0, 0x0, 1, 0x0, 1, 4, false, [(MOD_ID_FAMILY, .ro), (MOD_ID_PART, .ro)]⟩,
   ⟨0x4, 0x0, 1, 0x0, 1, 4, false, [(MOD_STEP_PACKAGE, .ro), (MOD_STEP_DIE, .ro)]⟩,
   ⟨0x8, 0x0, 1, 0x0, 1, 4, false, [(MOD_UID_LO_UID, .ro)]⟩,
   ⟨0xc, 0x0, 1, 0x0, 1, 4, false, [(MOD_UID_HI_UID, .ro)]⟩,
   ⟨0x10, 0x0, 1, 0x0, 1, 4, false, [(MOD_TILE_PRESENT_RUNNING, .ro), (MOD_TILE_PRESENT_FITTED, .ro)]⟩,
   ⟨0x14, 0x0, 1, 0x0, 1, 4, false, []⟩,
   ⟨0x18, 0x0, 1, 0x0, 1, 4, false, [(MOD_TILE_CTRL_HOLD, .rw), (MOD_TILE_CTRL_HOLD_T0, .wo), (MOD_TILE_CTRL_RESET, .wo), (MOD_TILE_CTRL_RESET_T0, .wo)]⟩,
   ⟨0x1c, 0x0, 1, 0x0, 1, 4, false, [(MOD_HOST_VIOL_COUNT_COUNT, .rc)]⟩,
   ⟨0x20, 0x0, 1, 0x0, 1, 4, false, [(MOD_HOST_VIOL_INFO_VALID, .w1c), (MOD_HOST_VIOL_INFO_ROLE, .ro), (MOD_HOST_VIOL_INFO_SESSION, .ro)]⟩]
/-- The registers of the MOD block. -/
def modRegs : List Reg := modRegs0
/-- Registers of the CASDA block, part 0. -/
def casdaRegs0 : List Reg :=
  [⟨0x0, 0x0, 1, 0x0, 1, 4, false, [(CASDA_CORE_CTRL_HALTED, .ro), (CASDA_CORE_CTRL_HALT, .rw)]⟩,
   ⟨0x4, 0x0, 1, 0x0, 1, 4, false, [(CASDA_CORE_LEVEL_SYSTEM, .ro)]⟩,
   ⟨0x8, 0x0, 1, 0x0, 1, 4, false, [(CASDA_WDOG_CFG_EN, .w1s), (CASDA_WDOG_CFG_PERIOD, .rw)]⟩,
   ⟨0xc, 0x0, 1, 0x0, 1, 4, false, [(CASDA_WDOG_KICK_KICK, .wo)]⟩,
   ⟨0x10, 0x0, 1, 0x0, 1, 4, false, [(CASDA_WDOG_REMAIN_MS, .ro)]⟩,
   ⟨0x14, 0x0, 1, 0x0, 1, 4, false, [(CASDA_TASK_CMD_CMD, .wo), (CASDA_TASK_CMD_TASK, .wo)]⟩,
   ⟨0x18, 0x0, 1, 0x0, 1, 4, false, [(CASDA_TRAP_COUNT_COUNT, .rc)]⟩,
   ⟨0x20, 0x4, 4, 0x0, 1, 4, false, [(CASDA_TIMER_PERIOD_PERIOD, .rw)]⟩,
   ⟨0x100, 0x8, 16, 0x0, 1, 4, false, [(CASDA_MBOX_POST_WORD, .wo)]⟩,
   ⟨0x104, 0x8, 16, 0x0, 1, 4, false, [(CASDA_MBOX_POP_VALID, .rc), (CASDA_MBOX_POP_WORD, .rc)]⟩,
   ⟨0x200, 0x4, 16, 0x0, 1, 4, false, [(CASDA_MBOX_CFG_EN, .rw), (CASDA_MBOX_CFG_COUNT, .ro), (CASDA_MBOX_CFG_TASK, .rw)]⟩,
   ⟨0x800, 0x4, 64, 0x0, 1, 4, false, [(CASDA_IRQ_ROUTE_EN, .rw), (CASDA_IRQ_ROUTE_FIXED, .rw), (CASDA_IRQ_ROUTE_TASK, .rw)]⟩,
   ⟨0x1000, 0x10, 256, 0x0, 1, 4, false, [(TASK_CFG_VALID, .rw), (TASK_CFG_LEVEL, .ro), (TASK_CFG_COST, .rw), (TASK_CFG_PRIO, .rw), (TASK_CFG_ONESHOT, .rw)]⟩,
   ⟨0x1004, 0x10, 256, 0x0, 1, 4, false, [(TASK_ENTRY_ENTRY, .rw)]⟩,
   ⟨0x1008, 0x10, 256, 0x0, 1, 4, false, [(TASK_STATE_ACCESS, .ro), (TASK_STATE_GATED, .ro), (TASK_STATE_PENDING, .ro), (TASK_STATE_WAIT_ON, .ro), (TASK_STATE_STATE, .ro)]⟩,
   ⟨0x100c, 0x10, 256, 0x0, 1, 4, false, [(TASK_STAT_ACTIVATIONS, .ro), (TASK_STAT_LOST_TRIG, .rc)]⟩]
/-- The registers of the CASDA block. -/
def casdaRegs : List Reg := casdaRegs0
/-- Registers of the RING block, part 0. -/
def ringRegs0 : List Reg :=
  [⟨0x0, 0x0, 1, 0x0, 1, 4, false, [(RING_UP_UP, .ro)]⟩,
   ⟨0x4, 0x0, 1, 0x0, 1, 4, false, [(RING_TONE_TONE, .ro)]⟩,
   ⟨0x8, 0x0, 1, 0x0, 1, 4, false, [(RING_EVT_CHANGED, .w1c)]⟩,
   ⟨0xc, 0x0, 1, 0x0, 1, 4, false, [(RING_SMAP_COMMIT_RING, .wo)]⟩,
   ⟨0x100, 0x40, 32, 0x0, 1, 4, false, [(RING_CTRL_AUTO_REJOIN, .rw), (RING_CTRL_AUTO_ENUM, .rw), (RING_CTRL_RETRIES, .rw), (RING_CTRL_POLICY, .rw), (RING_CTRL_ENUM, .wo), (RING_CTRL_MODE, .rw)]⟩,
   ⟨0x104, 0x40, 32, 0x0, 1, 4, false, [(RING_STATUS_COUNT, .ro), (RING_STATUS_SPLIT_AT, .ro), (RING_STATUS_STATE, .ro)]⟩,
   ⟨0x108, 0x40, 32, 0x0, 1, 4, false, [(RING_EXPECT_COUNT, .rw)]⟩,
   ⟨0x10c, 0x40, 32, 0x0, 1, 4, false, [(RING_LINK_HEAD_LOCK, .ro), (RING_LINK_TAIL_LOCK, .ro), (RING_LINK_EQ_HEAD, .ro), (RING_LINK_EQ_TAIL, .ro)]⟩,
   ⟨0x110, 0x40, 32, 0x0, 1, 4, false, [(RING_THR_V_UV, .rw), (RING_THR_V_OV, .rw)]⟩,
   ⟨0x114, 0x40, 32, 0x0, 1, 4, false, [(RING_THR_T_OT, .rw)]⟩,
   ⟨0x118, 0x40, 32, 0x0, 1, 4, false, [(RING_LOOP_NS, .ro)]⟩,
   ⟨0x11c, 0x40, 32, 0x0, 1, 4, false, [(RING_ERR_CRC, .rc), (RING_ERR_TIMEOUT, .rc), (RING_ERR_CNT, .rc)]⟩,
   ⟨0x120, 0x40, 32, 0x0, 1, 4, false, [(RING_FAULT_POSITION, .ro), (RING_FAULT_CAUSE, .ro)]⟩,
   ⟨0x124, 0x40, 32, 0x0, 1, 4, false, [(RING_QSTAT_QUAR, .ro), (RING_QSTAT_STALE, .ro)]⟩,
   ⟨0x2000, 0x80, 32, 0x4, 32, 4, false, [(RING_SMAP_PEND_VALID, .rw), (RING_SMAP_PEND_PROFILE, .rw), (RING_SMAP_PEND_FIRST, .rw), (RING_SMAP_PEND_LAST, .rw)]⟩,
   ⟨0x3000, 0x80, 32, 0x4, 32, 4, false, [(RING_SMAP_ACT_VALID, .ro), (RING_SMAP_ACT_PROFILE, .ro), (RING_SMAP_ACT_FIRST, .ro), (RING_SMAP_ACT_LAST, .ro)]⟩]
/-- Registers of the RING block, part 1. -/
def ringRegs1 : List Reg :=
  [⟨0x8000, 0x400, 32, 0x2, 512, 2, false, [(RING_BLK_PRESENT, .ro), (RING_BLK_HEAD, .ro), (RING_BLK_MWB, .ro), (RING_BLK_QUAR, .ro), (RING_BLK_STALE, .ro), (RING_BLK_THR_MISMATCH, .ro), (RING_BLK_SWAPPED, .ro), (RING_BLK_TAIL_SEG, .ro), (RING_BLK_EXP_COUNTER, .ro)]⟩]
/-- The registers of the RING block. -/
def ringRegs : List Reg := ringRegs0 ++ ringRegs1
/-- Registers of the SMP block, part 0. -/
def smpRegs0 : List Reg :=
  [⟨0x0, 0x0, 1, 0x0, 1, 4, false, [(SMP_FRAME_CFG_NEXT, .rw), (SMP_FRAME_CFG_PERIOD, .ro)]⟩,
   ⟨0x4, 0x0, 1, 0x0, 1, 4, true, [(SMP_FRAME_SWITCH_AT, .rw)]⟩,
   ⟨0x8, 0x0, 1, 0x0, 1, 4, false, [(SMP_FRAME_NUM_FRAME, .ro)]⟩,
   ⟨0xc, 0x0, 1, 0x0, 1, 4, false, [(SMP_LAST_COMPLETE_FRAME, .ro)]⟩,
   ⟨0x10, 0x0, 1, 0x0, 1, 4, false, [(SMP_LATE_COUNT, .rc)]⟩,
   ⟨0x20, 0x0, 1, 0x0, 1, 4, false, [(SMP_OW_CFG_INTERVAL, .rw), (SMP_OW_CFG_T_MIRROR, .rw), (SMP_OW_CFG_T_COLLAPSE, .rw), (SMP_OW_CFG_PASS_CLEAR, .rw), (SMP_OW_CFG_EN, .rw)]⟩,
   ⟨0x24, 0x0, 1, 0x0, 1, 4, false, [(SMP_OW_COUNT_CONFIRMED, .ro), (SMP_OW_COUNT_SUSPECT, .ro)]⟩,
   ⟨0x30, 0x0, 1, 0x0, 1, 4, false, [(SMP_BURST_CTRL_COMMIT, .wo), (SMP_BURST_CTRL_ACTIVE, .ro), (SMP_BURST_CTRL_COUNT, .rw)]⟩,
   ⟨0x34, 0x0, 1, 0x0, 1, 4, false, [(SMP_BURST_BASE_BASE, .rw)]⟩,
   ⟨0x38, 0x0, 1, 0x0, 1, 4, false, [(SMP_BURST_SEQ_VALUE, .ro)]⟩,
   ⟨0x3c, 0x0, 1, 0x0, 1, 4, false, [(SMP_BURST_SKIP_VALUE, .rc)]⟩,
   ⟨0x4000, 0x4, 1024, 0x0, 1, 4, false, [(SMP_BURST_LIST_CELL, .rw)]⟩,
   ⟨0x8000, 0x2, 16384, 0x0, 1, 2, false, [(SMP_OW_CONF_WIRE, .ro), (SMP_OW_SUSP_WIRE, .ro), (SMP_OW_MULTI, .ro)]⟩]
/-- The registers of the SMP block. -/
def smpRegs : List Reg := smpRegs0
/-- Registers of the LIMIT block, part 0. -/
def limitRegs0 : List Reg :=
  [⟨0x0, 0x0, 1, 0x0, 1, 4, false, [(LIMIT_TRIP_LINE, .ro)]⟩,
   ⟨0x4, 0x0, 1, 0x0, 1, 4, false, [(LIMIT_RING_TRIP_RING, .ro)]⟩,
   ⟨0x8, 0x0, 1, 0x0, 1, 4, false, [(LIMIT_COMMIT_SET, .wo)]⟩,
   ⟨0xc, 0x0, 1, 0x0, 1, 4, false, [(LIMIT_ADAPT_K, .rw), (LIMIT_ADAPT_COUNT, .rw), (LIMIT_ADAPT_EN, .rw)]⟩,
   ⟨0x10, 0x0, 1, 0x0, 1, 4, false, [(LIMIT_ADAPT_FLOOR_V, .rw), (LIMIT_ADAPT_FLOOR_T, .rw)]⟩,
   ⟨0x14, 0x0, 1, 0x0, 1, 4, false, [(LIMIT_ADAPT_SD_FLOOR, .rw)]⟩,
   ⟨0x18, 0x0, 1, 0x0, 1, 4, false, [(LIMIT_WARN_COUNT_COUNT, .rc)]⟩,
   ⟨0x100, 0x40, 8, 0x0, 1, 4, false, [(LIMIT_SET_PEND_UV, .rw), (LIMIT_SET_PEND_OV, .rw)]⟩,
   ⟨0x104, 0x40, 8, 0x0, 1, 4, false, [(LIMIT_SET_PEND_UT, .rw), (LIMIT_SET_PEND_OT, .rw)]⟩,
   ⟨0x108, 0x40, 8, 0x0, 1, 4, false, [(LIMIT_SET_PEND_OC_DIS, .rw), (LIMIT_SET_PEND_OC_CHG, .rw)]⟩,
   ⟨0x10c, 0x40, 8, 0x0, 1, 4, false, [(LIMIT_SET_PEND_SUM_TOL, .rw)]⟩,
   ⟨0x110, 0x40, 8, 0x0, 1, 4, false, [(LIMIT_SET_PEND_HYST_T, .rw), (LIMIT_SET_PEND_HYST_V, .rw)]⟩,
   ⟨0x114, 0x40, 8, 0x0, 1, 4, false, [(LIMIT_SET_PEND_HYST_SUM, .rw), (LIMIT_SET_PEND_HYST_I, .rw)]⟩,
   ⟨0x118, 0x40, 8, 0x0, 1, 4, false, [(LIMIT_SET_PEND_F_MISS, .rw), (LIMIT_SET_PEND_F_SUM, .rw), (LIMIT_SET_PEND_F_OC, .rw), (LIMIT_SET_PEND_F_T, .rw), (LIMIT_SET_PEND_F_UV, .rw), (LIMIT_SET_PEND_F_OV, .rw)]⟩,
   ⟨0x11c, 0x40, 8, 0x0, 1, 4, false, [(LIMIT_SET_PEND_EN, .rw)]⟩,
   ⟨0x500, 0x40, 8, 0x0, 1, 4, false, [(LIMIT_SET_ACT_UV, .ro), (LIMIT_SET_ACT_OV, .ro)]⟩]
/-- Registers of the LIMIT block, part 1. -/
def limitRegs1 : List Reg :=
  [⟨0x504, 0x40, 8, 0x0, 1, 4, false, [(LIMIT_SET_ACT_UT, .ro), (LIMIT_SET_ACT_OT, .ro)]⟩,
   ⟨0x508, 0x40, 8, 0x0, 1, 4, false, [(LIMIT_SET_ACT_OC_DIS, .ro), (LIMIT_SET_ACT_OC_CHG, .ro)]⟩,
   ⟨0x50c, 0x40, 8, 0x0, 1, 4, false, [(LIMIT_SET_ACT_SUM_TOL, .ro)]⟩,
   ⟨0x510, 0x40, 8, 0x0, 1, 4, false, [(LIMIT_SET_ACT_HYST_T, .ro), (LIMIT_SET_ACT_HYST_V, .ro)]⟩,
   ⟨0x514, 0x40, 8, 0x0, 1, 4, false, [(LIMIT_SET_ACT_HYST_SUM, .ro), (LIMIT_SET_ACT_HYST_I, .ro)]⟩,
   ⟨0x518, 0x40, 8, 0x0, 1, 4, false, [(LIMIT_SET_ACT_F_MISS, .ro), (LIMIT_SET_ACT_F_SUM, .ro), (LIMIT_SET_ACT_F_OC, .ro), (LIMIT_SET_ACT_F_T, .ro), (LIMIT_SET_ACT_F_UV, .ro), (LIMIT_SET_ACT_F_OV, .ro)]⟩,
   ⟨0x51c, 0x40, 8, 0x0, 1, 4, false, [(LIMIT_SET_ACT_EN, .ro)]⟩,
   ⟨0x520, 0x40, 8, 0x0, 1, 4, false, [(LIMIT_SET_ACT_TRIPPED, .ro), (LIMIT_SET_ACT_LIMITS, .ro)]⟩,
   ⟨0x800, 0x4, 32, 0x0, 1, 4, false, [(LIMIT_RING_SEL_TEMP_MASK, .rw), (LIMIT_RING_SEL_SET, .rw)]⟩]
/-- The registers of the LIMIT block. -/
def limitRegs : List Reg := limitRegs0 ++ limitRegs1
/-- Registers of the EST block, part 0. -/
def estRegs0 : List Reg :=
  [⟨0x0, 0x0, 1, 0x0, 1, 4, false, [(EST_STATUS_BACKLOG, .ro), (EST_STATUS_BUSY, .ro), (EST_STATUS_LEVEL, .ro)]⟩,
   ⟨0x4, 0x0, 1, 0x0, 1, 4, false, [(EST_PASS_FRAME, .ro)]⟩,
   ⟨0x8, 0x0, 1, 0x0, 1, 4, false, [(EST_LV_CFG_INTERVAL, .rw), (EST_LV_CFG_OFF_SIGMA, .rw), (EST_LV_CFG_EN, .rw)]⟩,
   ⟨0xc, 0x0, 1, 0x0, 1, 4, false, [(EST_LV_STATUS_GEN, .ro), (EST_LV_STATUS_BUSY, .ro), (EST_LV_STATUS_CAUSE, .ro)]⟩,
   ⟨0x10, 0x0, 1, 0x0, 1, 4, false, [(EST_ANCHOR_REST_MIN, .rw), (EST_ANCHOR_AGE_LIMIT, .rw), (EST_ANCHOR_REST_AGE, .rw)]⟩,
   ⟨0x14, 0x0, 1, 0x0, 1, 4, false, [(EST_ANCHOR2_I_REST, .rw), (EST_ANCHOR2_TOP_C, .rw), (EST_ANCHOR2_MAX_SIGMA, .rw)]⟩,
   ⟨0x18, 0x0, 1, 0x0, 1, 4, false, [(EST_CONFLICT_STEEP_DIFF, .rw), (EST_CONFLICT_COUNT, .rw), (EST_CONFLICT_ANOM_COUNT, .rw), (EST_CONFLICT_ANOM_FLAG, .rw)]⟩,
   ⟨0x1c, 0x0, 1, 0x0, 1, 4, false, [(EST_MEAS_STALE_SIGMA, .rw), (EST_MEAS_SIGMA_V, .rw)]⟩,
   ⟨0x20, 0x0, 1, 0x0, 1, 4, false, [(EST_TMAP_CELL 7, .rw), (EST_TMAP_CELL 6, .rw), (EST_TMAP_CELL 5, .rw), (EST_TMAP_CELL 4, .rw), (EST_TMAP_CELL 3, .rw), (EST_TMAP_CELL 2, .rw), (EST_TMAP_CELL 1, .rw), (EST_TMAP_CELL 0, .rw)]⟩,
   ⟨0x24, 0x0, 1, 0x0, 1, 4, false, [(EST_TMAP_CELL 15, .rw), (EST_TMAP_CELL 14, .rw), (EST_TMAP_CELL 13, .rw), (EST_TMAP_CELL 12, .rw), (EST_TMAP_CELL 11, .rw), (EST_TMAP_CELL 10, .rw), (EST_TMAP_CELL 9, .rw), (EST_TMAP_CELL 8, .rw)]⟩,
   ⟨0x28, 0x0, 1, 0x0, 1, 4, false, [(EST_COUNT_REANCHOR, .rc), (EST_COUNT_CONFLICT, .rc)]⟩,
   ⟨0x2c, 0x0, 1, 0x0, 1, 4, false, [(EST_CELLS_OLD_ANCHOR, .ro), (EST_CELLS_FLAGGED, .ro)]⟩,
   ⟨0x30, 0x0, 1, 0x0, 1, 4, false, [(EST_STALE_CLEAR_BLOCK, .wo)]⟩,
   ⟨0x100, 0x4, 32, 0x0, 1, 4, false, [(EST_REST_REQ_STRING, .ro)]⟩,
   ⟨0x200, 0x4, 32, 0x0, 1, 4, false, [(EST_RING_PROF_PROFILE, .rw)]⟩]
/-- The registers of the EST block. -/
def estRegs : List Reg := estRegs0
/-- Registers of the BAL block, part 0. -/
def balRegs0 : List Reg :=
  [⟨0x0, 0x0, 1, 0x0, 1, 4, false, [(BAL_CTRL_MAN_TIMEOUT, .ro), (BAL_CTRL_MODE, .ro)]⟩,
   ⟨0x4, 0x0, 1, 0x0, 1, 4, false, [(BAL_CFG_QUIET, .rw), (BAL_CFG_BUDGET_AGE, .rw)]⟩,
   ⟨0x8, 0x0, 1, 0x0, 1, 4, false, [(BAL_TARGET_SIGMA_MAX, .rw), (BAL_TARGET_BAND, .rw), (BAL_TARGET_SOC_MIN, .rw)]⟩,
   ⟨0xc, 0x0, 1, 0x0, 1, 4, false, [(BAL_STATUS_BLOCKS, .ro), (BAL_STATUS_CELLS, .ro)]⟩,
   ⟨0x10, 0x0, 1, 0x0, 1, 4, false, [(BAL_PASS_FRAME, .ro)]⟩,
   ⟨0x14, 0x0, 1, 0x0, 1, 4, false, [(BAL_COUNT_WDOG, .rc), (BAL_COUNT_REDUCED, .rc), (BAL_COUNT_WIRE_FAIL, .rc)]⟩,
   ⟨0x100, 0x4, 32, 0x0, 1, 4, false, [(BAL_RING_CFG_R_BLEED, .rw), (BAL_RING_CFG_WIRE_BUSY, .ro), (BAL_RING_CFG_ADJACENT_PERMIT, .rw), (BAL_RING_CFG_MWB, .rw)]⟩,
   ⟨0x200, 0x8, 32, 0x0, 1, 4, false, [(BAL_CONT_VALID, .rw), (BAL_CONT_EXT, .rw), (BAL_CONT_TWO, .rw), (BAL_CONT_RING_A, .rw), (BAL_CONT_RING_B, .rw), (BAL_CONT_PORT, .rw)]⟩,
   ⟨0x204, 0x8, 32, 0x0, 1, 4, false, [(BAL_CONT_CAN_ID, .rw)]⟩,
   ⟨0x400, 0x8, 32, 0x0, 1, 4, false, [(BAL_HEAT_PLAN, .ro), (BAL_HEAT_BUDGET, .ro)]⟩,
   ⟨0x404, 0x8, 32, 0x0, 1, 4, false, [(BAL_HEAT_STALE, .ro), (BAL_HEAT_AGE, .ro)]⟩]
/-- The registers of the BAL block. -/
def balRegs : List Reg := balRegs0
/-- Registers of the DISP block, part 0. -/
def dispRegs0 : List Reg :=
  [⟨0x0, 0x0, 1, 0x0, 1, 4, true, [(DISP_CTRL_STARTED, .ro), (DISP_CTRL_HANDOVER, .ro), (DISP_CTRL_SHORT, .ro), (DISP_CTRL_TX_STOPPED, .ro), (DISP_CTRL_CAUSE, .ro), (DISP_CTRL_MODE, .ro)]⟩,
   ⟨0x4, 0x0, 1, 0x0, 1, 4, true, [(DISP_SP_HOST_KW, .ro)]⟩,
   ⟨0x8, 0x0, 1, 0x0, 1, 4, true, [(DISP_SP_FORCE_KW, .ro)]⟩,
   ⟨0xc, 0x0, 1, 0x0, 1, 4, true, [(DISP_SHORT_KW, .ro)]⟩,
   ⟨0x10, 0x0, 1, 0x0, 1, 4, true, [(DISP_SP_AGE_MS, .ro)]⟩,
   ⟨0x14, 0x0, 1, 0x0, 1, 4, true, [(DISP_CFG_AGE_LIMIT, .rw), (DISP_CFG_ON_AGE, .rw), (DISP_CFG_AUTO_RESUME, .rw), (DISP_CFG_HOR, .rw), (DISP_CFG_VALID, .rw), (DISP_CFG_REPEAT_LIMIT, .rw)]⟩,
   ⟨0x18, 0x0, 1, 0x0, 1, 4, true, [(DISP_RATE_HANDOVER, .rw), (DISP_RATE_FOLLOW, .rw)]⟩,
   ⟨0x1c, 0x0, 1, 0x0, 1, 4, true, [(DISP_ALLOC_GAIN, .rw), (DISP_ALLOC_REST_MARGIN, .rw), (DISP_ALLOC_SOP_AGE, .rw)]⟩,
   ⟨0x20, 0x0, 1, 0x0, 1, 4, false, [(DISP_REST_DURATION, .rw), (DISP_REST_MAX, .rw)]⟩,
   ⟨0x24, 0x0, 1, 0x0, 1, 4, false, [(DISP_CYCLE_CYCLE, .ro)]⟩,
   ⟨0x28, 0x0, 1, 0x0, 1, 4, false, [(DISP_STAT_REPEAT, .rc), (DISP_STAT_LATE, .rc)]⟩,
   ⟨0x40, 0x10, 4, 0x0, 1, 4, false, [(DISP_PERT_ACTIVE, .ro), (DISP_PERT_RING, .ro), (DISP_PERT_STR_A, .ro), (DISP_PERT_STR_B, .ro), (DISP_PERT_FREQ, .ro)]⟩,
   ⟨0x44, 0x10, 4, 0x0, 1, 4, false, [(DISP_PERT_AMPL, .ro)]⟩,
   ⟨0x48, 0x10, 4, 0x0, 1, 4, false, [(DISP_PERT_T0_FRAME, .ro)]⟩,
   ⟨0x4c, 0x10, 4, 0x0, 1, 4, false, [(DISP_PERT_T0_MS, .ro)]⟩,
   ⟨0x100, 0x4, 32, 0x0, 1, 4, false, [(DISP_STR_EN_STRING, .rw)]⟩]
/-- Registers of the DISP block, part 1. -/
def dispRegs1 : List Reg :=
  [⟨0x180, 0x4, 32, 0x0, 1, 4, false, [(DISP_REST_GNT_STRING, .ro)]⟩,
   ⟨0x200, 0x8, 32, 0x0, 1, 4, false, [(DISP_CONT_VALID, .rw), (DISP_CONT_EXT, .rw), (DISP_CONT_TWO, .rw), (DISP_CONT_RING_A, .rw), (DISP_CONT_RING_B, .rw), (DISP_CONT_PORT, .rw)]⟩,
   ⟨0x204, 0x8, 32, 0x0, 1, 4, false, [(DISP_CONT_CAN_ID, .rw)]⟩,
   ⟨0x1000, 0x80, 32, 0x4, 32, 4, false, [(DISP_STR_RATED_I_RATED, .rw)]⟩,
   ⟨0x2000, 0x80, 32, 0x4, 32, 4, false, [(DISP_STR_SP_SETPOINT, .ro)]⟩]
/-- The registers of the DISP block. -/
def dispRegs : List Reg := dispRegs0 ++ dispRegs1
/-- Registers of the LOOP block, part 0. -/
def loopRegs0 : List Reg :=
  [⟨0x0, 0x0, 1, 0x0, 1, 4, false, [(LOOP_COMMIT_CH, .wo)]⟩,
   ⟨0x4, 0x0, 1, 0x0, 1, 4, false, [(LOOP_PEND_LO_CH, .ro)]⟩,
   ⟨0x8, 0x0, 1, 0x0, 1, 4, false, [(LOOP_PEND_HI_CH, .ro)]⟩,
   ⟨0xc, 0x0, 1, 0x0, 1, 4, false, [(LOOP_FAIL_LO_CH, .ro)]⟩,
   ⟨0x10, 0x0, 1, 0x0, 1, 4, false, [(LOOP_FAIL_HI_CH, .ro)]⟩,
   ⟨0x14, 0x0, 1, 0x0, 1, 4, false, [(LOOP_COUNT_FAIL, .rc), (LOOP_COUNT_REFUSED, .rc)]⟩,
   ⟨0x100, 0x10, 64, 0x0, 1, 4, false, [(LOOP_CH_COMMIT_PENDING, .ro), (LOOP_CH_RAMP, .ro), (LOOP_CH_FB_FAIL, .ro), (LOOP_CH_CAUSE, .ro), (LOOP_CH_COMMIT_WHY, .ro), (LOOP_CH_COMMIT_ERR, .ro), (LOOP_CH_REQ, .ro), (LOOP_CH_MODE, .ro)]⟩,
   ⟨0x104, 0x10, 64, 0x0, 1, 4, false, [(LOOP_CH_OUT, .ro)]⟩,
   ⟨0x108, 0x10, 64, 0x0, 1, 4, false, [(LOOP_CH_INTEG, .ro)]⟩,
   ⟨0x10c, 0x10, 64, 0x0, 1, 4, false, [(LOOP_CH_REPEATS, .ro), (LOOP_CH_MISSES, .ro)]⟩,
   ⟨0x9000, 0x200, 32, 0x4, 33, 4, false, [(LOOP_GAIN_E, .rw)]⟩,
   ⟨0x9100, 0x200, 32, 0x4, 33, 4, false, [(LOOP_GAIN_G, .rw)]⟩,
   ⟨0xd000, 0x10, 256, 0x0, 1, 4, false, [(LOOP_IN_MAP_SRC, .rw), (LOOP_IN_MAP_EXT, .rw), (LOOP_IN_MAP_PORT, .rw), (LOOP_IN_MAP_SIGNED, .rw), (LOOP_IN_MAP_WIDTH, .rw), (LOOP_IN_MAP_BYTE, .rw)]⟩,
   ⟨0xd004, 0x10, 256, 0x0, 1, 4, false, [(LOOP_IN_MAP_CAN_ID, .rw)]⟩,
   ⟨0xd008, 0x10, 256, 0x0, 1, 4, false, [(LOOP_IN_MAP_SCALE, .rw)]⟩,
   ⟨0xd00c, 0x10, 256, 0x0, 1, 4, false, [(LOOP_IN_MAP_OFFSET, .rw)]⟩]
/-- Registers of the LOOP block, part 1. -/
def loopRegs1 : List Reg :=
  [⟨0xe000, 0x8, 256, 0x0, 1, 4, false, [(LOOP_IN_VALUE, .rw)]⟩,
   ⟨0xe004, 0x8, 256, 0x0, 1, 4, false, [(LOOP_IN_UPDATES, .ro), (LOOP_IN_SHORT, .rc)]⟩,
   ⟨0xe800, 0x8, 16, 0x0, 1, 4, false, [(LOOP_OFRAME_EN, .rw), (LOOP_OFRAME_EXT, .rw), (LOOP_OFRAME_FD, .rw), (LOOP_OFRAME_PORT, .rw), (LOOP_OFRAME_LEN, .rw), (LOOP_OFRAME_PERIOD, .rw)]⟩,
   ⟨0xe804, 0x8, 16, 0x0, 1, 4, false, [(LOOP_OFRAME_CAN_ID, .rw)]⟩,
   ⟨0xf000, 0x20, 8, 0x0, 1, 4, false, [(LOOP_TRACE_ARM, .wo), (LOOP_TRACE_STOP, .wo), (LOOP_TRACE_FORCE, .wo), (LOOP_TRACE_COND, .rw), (LOOP_TRACE_TRIG_NODE, .rw), (LOOP_TRACE_TIMEBASE, .rw), (LOOP_TRACE_PRE, .rw)]⟩,
   ⟨0xf004, 0x20, 8, 0x0, 1, 4, false, [(LOOP_TRACE_SEL_A, .rw)]⟩,
   ⟨0xf008, 0x20, 8, 0x0, 1, 4, false, [(LOOP_TRACE_SEL_B, .rw)]⟩,
   ⟨0xf00c, 0x20, 8, 0x0, 1, 4, false, [(LOOP_TRACE_LEVEL, .rw)]⟩,
   ⟨0xf010, 0x20, 8, 0x0, 1, 4, false, [(LOOP_TRACE_STATE, .ro), (LOOP_TRACE_TRIG_INDEX, .ro), (LOOP_TRACE_FIRST, .ro)]⟩,
   ⟨0xf014, 0x20, 8, 0x0, 1, 4, false, [(LOOP_TRACE_COUNT, .ro)]⟩,
   ⟨0x1000, 0x100, 64, 0x0, 1, 4, false, [(LOOP_SHADOW 0, .rw)]⟩,
   ⟨0x1004, 0x100, 64, 0x0, 1, 4, false, [(LOOP_SHADOW 1, .rw)]⟩,
   ⟨0x1008, 0x100, 64, 0x0, 1, 4, false, [(LOOP_SHADOW 2, .rw)]⟩,
   ⟨0x100c, 0x100, 64, 0x0, 1, 4, false, [(LOOP_SHADOW 3, .rw)]⟩,
   ⟨0x1010, 0x100, 64, 0x0, 1, 4, false, [(LOOP_SHADOW 4, .rw)]⟩,
   ⟨0x1014, 0x100, 64, 0x0, 1, 4, false, [(LOOP_SHADOW 5, .rw)]⟩]
/-- Registers of the LOOP block, part 2. -/
def loopRegs2 : List Reg :=
  [⟨0x1018, 0x100, 64, 0x0, 1, 4, false, [(LOOP_SHADOW 6, .rw)]⟩,
   ⟨0x101c, 0x100, 64, 0x0, 1, 4, false, [(LOOP_SHADOW 7, .rw)]⟩,
   ⟨0x1020, 0x100, 64, 0x0, 1, 4, false, [(LOOP_SHADOW 8, .rw)]⟩,
   ⟨0x1024, 0x100, 64, 0x0, 1, 4, false, [(LOOP_SHADOW 9, .rw)]⟩,
   ⟨0x1028, 0x100, 64, 0x0, 1, 4, false, [(LOOP_SHADOW 10, .rw)]⟩,
   ⟨0x102c, 0x100, 64, 0x0, 1, 4, false, [(LOOP_SHADOW 11, .rw)]⟩,
   ⟨0x1030, 0x100, 64, 0x0, 1, 4, false, [(LOOP_SHADOW 12, .rw)]⟩,
   ⟨0x1034, 0x100, 64, 0x0, 1, 4, false, [(LOOP_SHADOW 13, .rw)]⟩,
   ⟨0x1038, 0x100, 64, 0x0, 1, 4, false, [(LOOP_SHADOW 14, .rw)]⟩,
   ⟨0x103c, 0x100, 64, 0x0, 1, 4, false, [(LOOP_SHADOW 15, .rw)]⟩,
   ⟨0x1040, 0x100, 64, 0x0, 1, 4, false, [(LOOP_SHADOW 16, .rw)]⟩,
   ⟨0x1044, 0x100, 64, 0x0, 1, 4, false, [(LOOP_SHADOW 17, .rw)]⟩,
   ⟨0x1048, 0x100, 64, 0x0, 1, 4, false, [(LOOP_SHADOW 18, .rw)]⟩,
   ⟨0x104c, 0x100, 64, 0x0, 1, 4, false, [(LOOP_SHADOW 19, .rw)]⟩,
   ⟨0x1050, 0x100, 64, 0x0, 1, 4, false, [(LOOP_SHADOW 20, .rw)]⟩,
   ⟨0x1054, 0x100, 64, 0x0, 1, 4, false, [(LOOP_SHADOW 21, .rw)]⟩]
/-- Registers of the LOOP block, part 3. -/
def loopRegs3 : List Reg :=
  [⟨0x1058, 0x100, 64, 0x0, 1, 4, false, [(LOOP_SHADOW 22, .rw)]⟩,
   ⟨0x5000, 0x100, 64, 0x0, 1, 4, false, [(LOOP_ACTIVE 0, .ro)]⟩,
   ⟨0x5004, 0x100, 64, 0x0, 1, 4, false, [(LOOP_ACTIVE 1, .ro)]⟩,
   ⟨0x5008, 0x100, 64, 0x0, 1, 4, false, [(LOOP_ACTIVE 2, .ro)]⟩,
   ⟨0x500c, 0x100, 64, 0x0, 1, 4, false, [(LOOP_ACTIVE 3, .ro)]⟩,
   ⟨0x5010, 0x100, 64, 0x0, 1, 4, false, [(LOOP_ACTIVE 4, .ro)]⟩,
   ⟨0x5014, 0x100, 64, 0x0, 1, 4, false, [(LOOP_ACTIVE 5, .ro)]⟩,
   ⟨0x5018, 0x100, 64, 0x0, 1, 4, false, [(LOOP_ACTIVE 6, .ro)]⟩,
   ⟨0x501c, 0x100, 64, 0x0, 1, 4, false, [(LOOP_ACTIVE 7, .ro)]⟩,
   ⟨0x5020, 0x100, 64, 0x0, 1, 4, false, [(LOOP_ACTIVE 8, .ro)]⟩,
   ⟨0x5024, 0x100, 64, 0x0, 1, 4, false, [(LOOP_ACTIVE 9, .ro)]⟩,
   ⟨0x5028, 0x100, 64, 0x0, 1, 4, false, [(LOOP_ACTIVE 10, .ro)]⟩,
   ⟨0x502c, 0x100, 64, 0x0, 1, 4, false, [(LOOP_ACTIVE 11, .ro)]⟩,
   ⟨0x5030, 0x100, 64, 0x0, 1, 4, false, [(LOOP_ACTIVE 12, .ro)]⟩,
   ⟨0x5034, 0x100, 64, 0x0, 1, 4, false, [(LOOP_ACTIVE 13, .ro)]⟩,
   ⟨0x5038, 0x100, 64, 0x0, 1, 4, false, [(LOOP_ACTIVE 14, .ro)]⟩]
/-- Registers of the LOOP block, part 4. -/
def loopRegs4 : List Reg :=
  [⟨0x503c, 0x100, 64, 0x0, 1, 4, false, [(LOOP_ACTIVE 15, .ro)]⟩,
   ⟨0x5040, 0x100, 64, 0x0, 1, 4, false, [(LOOP_ACTIVE 16, .ro)]⟩,
   ⟨0x5044, 0x100, 64, 0x0, 1, 4, false, [(LOOP_ACTIVE 17, .ro)]⟩,
   ⟨0x5048, 0x100, 64, 0x0, 1, 4, false, [(LOOP_ACTIVE 18, .ro)]⟩,
   ⟨0x504c, 0x100, 64, 0x0, 1, 4, false, [(LOOP_ACTIVE 19, .ro)]⟩,
   ⟨0x5050, 0x100, 64, 0x0, 1, 4, false, [(LOOP_ACTIVE 20, .ro)]⟩,
   ⟨0x5054, 0x100, 64, 0x0, 1, 4, false, [(LOOP_ACTIVE 21, .ro)]⟩,
   ⟨0x5058, 0x100, 64, 0x0, 1, 4, false, [(LOOP_ACTIVE 22, .ro)]⟩]
/-- The registers of the LOOP block. -/
def loopRegs : List Reg := loopRegs0 ++ loopRegs1 ++ loopRegs2 ++ loopRegs3 ++ loopRegs4
/-- Registers of the BERYL block, part 0. -/
def berylRegs0 : List Reg :=
  [⟨0x0, 0x0, 1, 0x0, 1, 4, false, [(BERYL_STATUS_STATE, .ro), (BERYL_STATUS_SESSION, .ro), (BERYL_STATUS_CARRY, .ro), (BERYL_STATUS_FAULT, .ro), (BERYL_STATUS_LOCKOUT, .ro), (BERYL_STATUS_ON, .ro)]⟩,
   ⟨0x4, 0x0, 1, 0x0, 1, 4, false, [(BERYL_DEMAND_RING_RING, .ro)]⟩,
   ⟨0x8, 0x0, 1, 0x0, 1, 4, false, [(BERYL_DEMAND_CONN, .ro), (BERYL_DEMAND_INPUT, .ro), (BERYL_DEMAND_LIMIT, .ro)]⟩,
   ⟨0xc, 0x0, 1, 0x0, 1, 4, false, [(BERYL_INPUT_RESET_STUCK, .ro), (BERYL_INPUT_LRST_B, .ro), (BERYL_INPUT_LRST_A, .ro), (BERYL_INPUT_DISC_FAULT, .ro), (BERYL_INPUT_CH_B, .ro), (BERYL_INPUT_CH_A, .ro)]⟩,
   ⟨0x10, 0x0, 1, 0x0, 1, 4, false, [(BERYL_SF5_PARAM, .ro), (BERYL_SF5_CROSS, .ro), (BERYL_SF5_SUPPLY, .ro), (BERYL_SF5_CLOCK, .ro), (BERYL_SF5_RAM, .ro), (BERYL_SF5_ROM, .ro), (BERYL_SF5_LOCKSTEP, .ro)]⟩,
   ⟨0x14, 0x0, 1, 0x0, 1, 4, false, [(BERYL_PCRC_CRC, .ro)]⟩,
   ⟨0x18, 0x0, 1, 0x0, 1, 4, false, [(BERYL_SESSION_OPEN, .ro), (BERYL_SESSION_REMAIN, .ro)]⟩,
   ⟨0x1c, 0x0, 1, 0x0, 1, 4, false, [(BERYL_COUNT_RESETS, .rc), (BERYL_COUNT_REFUSED, .rc)]⟩,
   ⟨0x40, 0x8, 8, 0x0, 1, 4, false, [(BERYL_OUT_ON, .ro), (BERYL_OUT_LOCKOUT, .ro), (BERYL_OUT_FAULT, .ro), (BERYL_OUT_HS_RB, .ro), (BERYL_OUT_LS_RB, .ro), (BERYL_OUT_FIRST_CAUSE, .ro)]⟩,
   ⟨0x44, 0x8, 8, 0x0, 1, 4, false, [(BERYL_OUT_TRIPS, .ro)]⟩,
   ⟨0x80, 0x4, 16, 0x0, 1, 4, false, [(BERYL_CONN_STAT_LIVE, .ro), (BERYL_CONN_STAT_WHY, .ro), (BERYL_CONN_STAT_SEQ, .ro)]⟩,
   ⟨0x400, 0x1, 64, 0x0, 1, 1, false, [(BERYL_PP_MATRIX, .rw)]⟩,
   ⟨0x440, 0x4, 8, 0x0, 1, 4, false, [(BERYL_PP_IN_EN, .rw), (BERYL_PP_IN_FIRST_OPEN, .rw), (BERYL_PP_IN_DISC_MS, .rw)]⟩,
   ⟨0x460, 0x4, 8, 0x0, 1, 4, false, [(BERYL_PP_OUT_EN, .rw), (BERYL_PP_OUT_TEST_EN, .rw), (BERYL_PP_OUT_TP_LEN, .rw), (BERYL_PP_OUT_TP_PERIOD, .rw)]⟩,
   ⟨0x480, 0x10, 16, 0x0, 1, 4, false, [(BERYL_PP_CONN_EN, .rw), (BERYL_PP_CONN_KIND, .rw), (BERYL_PP_CONN_MEDIUM, .rw), (BERYL_PP_CONN_EXT, .rw), (BERYL_PP_CONN_PORT, .rw), (BERYL_PP_CONN_SEQ_WIN, .rw), (BERYL_PP_CONN_DATA_LEN, .rw)]⟩,
   ⟨0x484, 0x10, 16, 0x0, 1, 4, false, [(BERYL_PP_CONN_CAN_ID, .rw)]⟩]
/-- Registers of the BERYL block, part 1. -/
def berylRegs1 : List Reg :=
  [⟨0x488, 0x10, 16, 0x0, 1, 4, false, [(BERYL_PP_CONN_CID32, .rw)]⟩,
   ⟨0x48c, 0x10, 16, 0x0, 1, 4, false, [(BERYL_PP_CONN_WD_MS, .rw)]⟩,
   ⟨0x800, 0x1, 64, 0x0, 1, 1, false, [(BERYL_PA_MATRIX, .ro)]⟩,
   ⟨0x840, 0x4, 8, 0x0, 1, 4, false, [(BERYL_PA_IN_EN, .ro), (BERYL_PA_IN_FIRST_OPEN, .ro), (BERYL_PA_IN_DISC_MS, .ro)]⟩,
   ⟨0x860, 0x4, 8, 0x0, 1, 4, false, [(BERYL_PA_OUT_EN, .ro), (BERYL_PA_OUT_TEST_EN, .ro), (BERYL_PA_OUT_TP_LEN, .ro), (BERYL_PA_OUT_TP_PERIOD, .ro)]⟩,
   ⟨0x880, 0x10, 16, 0x0, 1, 4, false, [(BERYL_PA_CONN_EN, .ro), (BERYL_PA_CONN_KIND, .ro), (BERYL_PA_CONN_MEDIUM, .ro), (BERYL_PA_CONN_EXT, .ro), (BERYL_PA_CONN_PORT, .ro), (BERYL_PA_CONN_SEQ_WIN, .ro), (BERYL_PA_CONN_DATA_LEN, .ro)]⟩,
   ⟨0x884, 0x10, 16, 0x0, 1, 4, false, [(BERYL_PA_CONN_CAN_ID, .ro)]⟩,
   ⟨0x888, 0x10, 16, 0x0, 1, 4, false, [(BERYL_PA_CONN_CID32, .ro)]⟩,
   ⟨0x88c, 0x10, 16, 0x0, 1, 4, false, [(BERYL_PA_CONN_WD_MS, .ro)]⟩]
/-- The registers of the BERYL block. -/
def berylRegs : List Reg := berylRegs0 ++ berylRegs1
/-- Registers of the PWR block, part 0. -/
def pwrRegs0 : List Reg :=
  [⟨0x0, 0x0, 1, 0x0, 1, 4, false, [(PWR_STATUS_CLK_FAULT, .w1c), (PWR_STATUS_TJ_FAULT, .w1c), (PWR_STATUS_AVS_LIMIT, .ro), (PWR_STATUS_THROTTLE, .ro), (PWR_STATUS_CARRY_CAP, .ro), (PWR_STATUS_CORE_ON, .ro), (PWR_STATUS_VEC_ON, .ro)]⟩,
   ⟨0x4, 0x0, 1, 0x0, 1, 4, false, [(PWR_CAP_TARGET, .rw), (PWR_CAP_CARRY, .rw), (PWR_CAP_CAP, .rw)]⟩,
   ⟨0x8, 0x0, 1, 0x0, 1, 4, false, [(PWR_BUCKET_CFG_DEPTH, .rw), (PWR_BUCKET_CFG_RESERVE, .rw), (PWR_BUCKET_CFG_RES_PRIO, .rw)]⟩,
   ⟨0xc, 0x0, 1, 0x0, 1, 4, false, [(PWR_BUCKET_B, .ro)]⟩,
   ⟨0x10, 0x0, 1, 0x0, 1, 4, false, [(PWR_LADDER_FORCE_EN, .rw), (PWR_LADDER_FORCE, .rw), (PWR_LADDER_UP_FRAMES, .rw), (PWR_LADDER_EST_TASK, .rw), (PWR_LADDER_LEVEL, .ro)]⟩,
   ⟨0x14, 0x0, 1, 0x0, 1, 4, false, [(PWR_MEAS_TJ, .ro), (PWR_MEAS_POWER, .ro)]⟩,
   ⟨0x18, 0x0, 1, 0x0, 1, 4, false, [(PWR_ENERGY_MJ, .ro)]⟩,
   ⟨0x1c, 0x0, 1, 0x0, 1, 4, false, [(PWR_COUNT_GATED, .rc), (PWR_COUNT_OVERRUN, .rc)]⟩,
   ⟨0x20, 0x0, 1, 0x0, 1, 4, false, [(PWR_AVS_FIX_EN, .rw), (PWR_AVS_FIX, .rw), (PWR_AVS_CODE, .ro)]⟩,
   ⟨0x24, 0x0, 1, 0x0, 1, 4, false, [(PWR_CLK_PLL_TIME, .ro), (PWR_CLK_PLL_FAB, .ro), (PWR_CLK_PLL_VEC, .ro), (PWR_CLK_PLL_CORE, .ro), (PWR_CLK_REF25, .ro), (PWR_CLK_RC16, .ro), (PWR_CLK_XO32, .ro)]⟩,
   ⟨0x40, 0x0, 1, 0x0, 1, 4, true, [(PWR_WAKE_CAUSE, .ro)]⟩]
/-- The registers of the PWR block. -/
def pwrRegs : List Reg := pwrRegs0
/-- Registers of the TIME block, part 0. -/
def timeRegs0 : List Reg :=
  [⟨0x0, 0x0, 1, 0x0, 1, 4, false, [(TIME_NS32_VALUE, .ro)]⟩,
   ⟨0x4, 0x0, 1, 0x0, 1, 4, false, [(TIME_WRAP_VALUE, .ro)]⟩,
   ⟨0x8, 0x0, 1, 0x0, 1, 4, false, [(TIME_STN_NS_NS, .ro)]⟩,
   ⟨0xc, 0x0, 1, 0x0, 1, 4, false, [(TIME_STN_SEC_LO_SEC, .ro)]⟩,
   ⟨0x10, 0x0, 1, 0x0, 1, 4, false, [(TIME_STN_SEC_HI_SEC, .ro)]⟩,
   ⟨0x14, 0x0, 1, 0x0, 1, 4, false, [(TIME_STATE_STROBE_LOST, .ro), (TIME_STATE_ALIGNED, .ro), (TIME_STATE_PATH, .ro), (TIME_STATE_STATE, .ro)]⟩,
   ⟨0x18, 0x0, 1, 0x0, 1, 4, true, [(TIME_OFFSET_NS, .ro)]⟩,
   ⟨0x1c, 0x0, 1, 0x0, 1, 4, true, [(TIME_PTP_CFG_EN, .rw), (TIME_PTP_CFG_HOLDOVER_S, .rw), (TIME_PTP_CFG_DOMAIN, .rw)]⟩,
   ⟨0x20, 0x0, 1, 0x0, 1, 4, true, [(TIME_GM_LO_ID, .ro)]⟩,
   ⟨0x24, 0x0, 1, 0x0, 1, 4, true, [(TIME_GM_HI_ID, .ro)]⟩,
   ⟨0x28, 0x0, 1, 0x0, 1, 4, false, [(TIME_AON_SEC, .ro)]⟩,
   ⟨0x2c, 0x0, 1, 0x0, 1, 4, false, [(TIME_OPTIME_LO_MS, .ro)]⟩,
   ⟨0x30, 0x0, 1, 0x0, 1, 4, false, [(TIME_OPTIME_HI_MS, .ro)]⟩,
   ⟨0x34, 0x0, 1, 0x0, 1, 4, false, [(TIME_PCYCLE_COUNT, .ro)]⟩,
   ⟨0x40, 0x0, 1, 0x0, 1, 4, false, [(TIME_FRAME_NUM_VALUE, .ro)]⟩,
   ⟨0x44, 0x0, 1, 0x0, 1, 4, false, [(TIME_FRAME_NS32_VALUE, .ro)]⟩]
/-- Registers of the TIME block, part 1. -/
def timeRegs1 : List Reg :=
  [⟨0x48, 0x0, 1, 0x0, 1, 4, false, [(TIME_FRAME_STN_NS_VALUE, .ro)]⟩,
   ⟨0x4c, 0x0, 1, 0x0, 1, 4, false, [(TIME_FRAME_STN_SEC_VALUE, .ro)]⟩,
   ⟨0x100, 0x8, 8, 0x0, 1, 4, false, [(TIME_CAN_CFG_EN, .rw), (TIME_CAN_CFG_EXT, .rw), (TIME_CAN_CFG_SYNC_DONE, .rc), (TIME_CAN_CFG_PERIOD, .rw), (TIME_CAN_CFG_SEQ, .ro)]⟩,
   ⟨0x104, 0x8, 8, 0x0, 1, 4, false, [(TIME_CAN_CFG_SYNC_ID, .rw)]⟩,
   ⟨0x200, 0x10, 8, 0x0, 1, 4, false, [(TIME_CAN_FU_NS, .wo)]⟩,
   ⟨0x204, 0x10, 8, 0x0, 1, 4, false, [(TIME_CAN_FU_SEC, .wo)]⟩,
   ⟨0x208, 0x10, 8, 0x0, 1, 4, false, [(TIME_CAN_FU_SEND, .wo), (TIME_CAN_FU_SEQ, .wo)]⟩,
   ⟨0x20c, 0x10, 8, 0x0, 1, 4, false, []⟩]
/-- The registers of the TIME block. -/
def timeRegs : List Reg := timeRegs0 ++ timeRegs1
/-- Registers of the NET block, part 0. -/
def netRegs0 : List Reg :=
  [⟨0x0, 0x0, 1, 0x0, 1, 4, false, [(NET_CFG_COMPAT, .rw), (NET_CFG_VLAN_EN, .rw), (NET_CFG_VLAN_PCP, .rw), (NET_CFG_VLAN_ID, .rw), (NET_CFG_IDLE_S, .rw)]⟩,
   ⟨0x4, 0x0, 1, 0x0, 1, 4, false, [(NET_PATH_SUPERVISED, .ro), (NET_PATH_ACTIVE, .ro), (NET_PATH_STATE_B, .ro), (NET_PATH_STATE_A, .ro)]⟩,
   ⟨0x8, 0x0, 1, 0x0, 1, 4, false, [(NET_SESS_OPEN, .ro)]⟩,
   ⟨0xc, 0x0, 1, 0x0, 1, 4, false, [(NET_ERR_AUTH, .rc), (NET_ERR_FORMAT, .rc), (NET_ERR_REPLAY, .rc), (NET_ERR_DUP, .rc)]⟩,
   ⟨0x10, 0x0, 1, 0x0, 1, 4, false, [(NET_DROP_COUNT, .rc)]⟩,
   ⟨0x14, 0x0, 1, 0x0, 1, 4, false, [(NET_SUBS_COUNT, .ro)]⟩,
   ⟨0x100, 0x40, 2, 0x0, 1, 4, false, [(NET_P_PRESENT, .ro), (NET_P_SUPPORTED, .ro), (NET_P_LINK, .ro), (NET_P_LOS, .ro), (NET_P_SPEED, .ro), (NET_P_RX_PWR, .ro)]⟩,
   ⟨0x104, 0x40, 2, 0x0, 1, 4, false, [(NET_P_MAC_HI, .ro)]⟩,
   ⟨0x108, 0x40, 2, 0x0, 1, 4, false, [(NET_P_MAC_LO, .ro)]⟩,
   ⟨0x10c, 0x40, 2, 0x0, 1, 4, false, [(NET_P_IP4_ADDR, .rw)]⟩,
   ⟨0x110, 0x40, 2, 0x0, 1, 4, false, [(NET_P_IP4_GW, .rw)]⟩,
   ⟨0x114, 0x40, 2, 0x0, 1, 4, false, [(NET_P_IP4_EN, .rw), (NET_P_IP4_PREFIX, .rw)]⟩,
   ⟨0x118, 0x40, 2, 0x4, 4, 4, false, [(NET_P_IP6_ADDR, .rw)]⟩,
   ⟨0x128, 0x40, 2, 0x0, 1, 4, false, [(NET_P_IP6_EN, .rw), (NET_P_IP6_PREFIX, .rw)]⟩,
   ⟨0x12c, 0x40, 2, 0x0, 1, 4, false, [(NET_P_RX_BAD, .rc), (NET_P_LOSSES, .rc)]⟩,
   ⟨0x400, 0x10, 16, 0x0, 1, 4, false, [(NET_S_OPEN, .ro), (NET_S_SUPERVISE, .ro), (NET_S_V1, .ro), (NET_S_ROLE, .ro), (NET_S_SUBS, .ro)]⟩]
/-- Registers of the NET block, part 1. -/
def netRegs1 : List Reg :=
  [⟨0x404, 0x10, 16, 0x0, 1, 4, false, [(NET_S_ID, .ro)]⟩,
   ⟨0x408, 0x10, 16, 0x0, 1, 4, false, [(NET_S_RX_HIGH, .ro)]⟩,
   ⟨0x40c, 0x10, 16, 0x0, 1, 4, false, [(NET_S_TX_SEQ, .ro)]⟩]
/-- The registers of the NET block. -/
def netRegs : List Reg := netRegs0 ++ netRegs1
/-- Registers of the CAN block, part 0. -/
def canRegs0 : List Reg :=
  [⟨0x0, 0x2000, 8, 0x0, 1, 4, false, [(CAN_CTRL_INIT, .rw), (CAN_CTRL_LISTEN, .rw), (CAN_CTRL_FD_EN, .rw), (CAN_CTRL_AUTO_RECOVER, .rw), (CAN_CTRL_TERM, .rw), (CAN_CTRL_APP, .rw), (CAN_CTRL_DETECT, .wo), (CAN_CTRL_RECOVER, .wo)]⟩,
   ⟨0x4, 0x2000, 8, 0x0, 1, 4, false, [(CAN_NBT_NSJW, .rw), (CAN_NBT_NTSEG1, .rw), (CAN_NBT_NTSEG2, .rw), (CAN_NBT_NBRP, .rw)]⟩,
   ⟨0x8, 0x2000, 8, 0x0, 1, 4, false, [(CAN_DBT_TDC_EN, .rw), (CAN_DBT_TDCO, .rw), (CAN_DBT_DSJW, .rw), (CAN_DBT_DTSEG1, .rw), (CAN_DBT_DTSEG2, .rw), (CAN_DBT_DBRP, .rw)]⟩,
   ⟨0xc, 0x2000, 8, 0x0, 1, 4, false, [(CAN_STATUS_STATE, .ro), (CAN_STATUS_NO_ACK, .ro), (CAN_STATUS_TEC_WARN, .ro), (CAN_STATUS_REC_WARN, .ro), (CAN_STATUS_LEC, .ro), (CAN_STATUS_ACK_RUN, .ro)]⟩,
   ⟨0x10, 0x2000, 8, 0x0, 1, 4, false, [(CAN_ERRCNT_TEC, .ro), (CAN_ERRCNT_REC, .ro)]⟩,
   ⟨0x14, 0x2000, 8, 0x0, 1, 4, false, [(CAN_WARN_TEC_WARN, .rw), (CAN_WARN_REC_WARN, .rw)]⟩,
   ⟨0x18, 0x2000, 8, 0x0, 1, 4, false, [(CAN_IRQ_RATE_DONE, .w1c), (CAN_IRQ_OVF, .w1c), (CAN_IRQ_STATE_CHG, .w1c), (CAN_IRQ_WARN_CHG, .w1c), (CAN_IRQ_NO_ACK_CHG, .w1c), (CAN_IRQ_RX1, .w1c), (CAN_IRQ_RX0, .w1c)]⟩,
   ⟨0x1c, 0x2000, 8, 0x0, 1, 4, false, [(CAN_IRQ_EN_RATE_DONE, .rw), (CAN_IRQ_EN_OVF, .rw), (CAN_IRQ_EN_STATE_CHG, .rw), (CAN_IRQ_EN_WARN_CHG, .rw), (CAN_IRQ_EN_NO_ACK_CHG, .rw), (CAN_IRQ_EN_RX1, .rw), (CAN_IRQ_EN_RX0, .rw)]⟩,
   ⟨0x20, 0x2000, 8, 0x0, 1, 4, false, [(CAN_TXREQ, .w1s)]⟩,
   ⟨0x24, 0x2000, 8, 0x0, 1, 4, false, [(CAN_TXCANCEL, .w1s)]⟩,
   ⟨0x28, 0x2000, 8, 0x0, 1, 4, false, [(CAN_TXDONE, .w1c)]⟩,
   ⟨0x2c, 0x2000, 8, 0x0, 1, 4, false, [(CAN_TXFAIL, .w1c)]⟩,
   ⟨0x30, 0x2000, 8, 0x0, 1, 4, false, [(CAN_TXCAN, .w1c)]⟩,
   ⟨0x34, 0x2000, 8, 0x0, 1, 4, false, [(CAN_TXCSENT, .w1c)]⟩,
   ⟨0x38, 0x2000, 8, 0x0, 1, 4, false, [(CAN_TXIE, .rw)]⟩,
   ⟨0x3c, 0x2000, 8, 0x0, 1, 4, false, [(CAN_RXF_COUNT1, .ro), (CAN_RXF_COUNT0, .ro)]⟩]
/-- Registers of the CAN block, part 1. -/
def canRegs1 : List Reg :=
  [⟨0x40, 0x2000, 8, 0x0, 1, 4, false, [(CAN_RXF_POP_POP, .wo)]⟩,
   ⟨0x44, 0x2000, 8, 0x0, 1, 4, false, [(CAN_COUNT_NOMATCH, .rc), (CAN_COUNT_OVF1, .rc), (CAN_COUNT_OVF0, .rc)]⟩,
   ⟨0x48, 0x2000, 8, 0x0, 1, 4, false, [(CAN_RATE_ADOPT, .wo), (CAN_RATE_VALID, .ro), (CAN_RATE_FAIL, .ro), (CAN_RATE_DATA, .ro), (CAN_RATE_NOMINAL, .ro)]⟩,
   ⟨0x4c, 0x2000, 8, 0x0, 1, 4, false, [(CAN_DETECT_CFG_TIMEOUT, .rw), (CAN_DETECT_CFG_DWELL, .rw)]⟩,
   ⟨0x400, 0x2000, 8, 0x50, 32, 4, false, [(CAN_TXB_EXT, .rw), (CAN_TXB_FDF, .rw), (CAN_TXB_BRS, .rw), (CAN_TXB_ID, .rw)]⟩,
   ⟨0x404, 0x2000, 8, 0x50, 32, 4, false, [(CAN_TXB_ONESHOT, .rw), (CAN_TXB_RTR, .rw), (CAN_TXB_DLC, .rw)]⟩,
   ⟨0x408, 0x2000, 8, 0x50, 32, 4, false, [(CAN_TXB_DATA 0, .rw)]⟩,
   ⟨0x40c, 0x2000, 8, 0x50, 32, 4, false, [(CAN_TXB_DATA 1, .rw)]⟩,
   ⟨0x410, 0x2000, 8, 0x50, 32, 4, false, [(CAN_TXB_DATA 2, .rw)]⟩,
   ⟨0x414, 0x2000, 8, 0x50, 32, 4, false, [(CAN_TXB_DATA 3, .rw)]⟩,
   ⟨0x418, 0x2000, 8, 0x50, 32, 4, false, [(CAN_TXB_DATA 4, .rw)]⟩,
   ⟨0x41c, 0x2000, 8, 0x50, 32, 4, false, [(CAN_TXB_DATA 5, .rw)]⟩,
   ⟨0x420, 0x2000, 8, 0x50, 32, 4, false, [(CAN_TXB_DATA 6, .rw)]⟩,
   ⟨0x424, 0x2000, 8, 0x50, 32, 4, false, [(CAN_TXB_DATA 7, .rw)]⟩,
   ⟨0x428, 0x2000, 8, 0x50, 32, 4, false, [(CAN_TXB_DATA 8, .rw)]⟩,
   ⟨0x42c, 0x2000, 8, 0x50, 32, 4, false, [(CAN_TXB_DATA 9, .rw)]⟩]
/-- Registers of the CAN block, part 2. -/
def canRegs2 : List Reg :=
  [⟨0x430, 0x2000, 8, 0x50, 32, 4, false, [(CAN_TXB_DATA 10, .rw)]⟩,
   ⟨0x434, 0x2000, 8, 0x50, 32, 4, false, [(CAN_TXB_DATA 11, .rw)]⟩,
   ⟨0x438, 0x2000, 8, 0x50, 32, 4, false, [(CAN_TXB_DATA 12, .rw)]⟩,
   ⟨0x43c, 0x2000, 8, 0x50, 32, 4, false, [(CAN_TXB_DATA 13, .rw)]⟩,
   ⟨0x440, 0x2000, 8, 0x50, 32, 4, false, [(CAN_TXB_DATA 14, .rw)]⟩,
   ⟨0x444, 0x2000, 8, 0x50, 32, 4, false, [(CAN_TXB_DATA 15, .rw)]⟩,
   ⟨0x1200, 0x2000, 8, 0x8, 56, 4, false, [(CAN_FILT_EN, .rw), (CAN_FILT_EXT, .rw), (CAN_FILT_ID, .rw)]⟩,
   ⟨0x1204, 0x2000, 8, 0x8, 56, 4, false, [(CAN_FILT_ACTION, .rw), (CAN_FILT_MASK, .rw)]⟩]
/-- The registers of the CAN block. -/
def canRegs : List Reg := canRegs0 ++ canRegs1 ++ canRegs2
/-- Registers of the TWB block, part 0. -/
def twbRegs0 : List Reg :=
  [⟨0x0, 0x0, 1, 0x0, 1, 4, false, [(TWB_CFG_RATE, .rw), (TWB_CFG_FILTER, .rw)]⟩,
   ⟨0x4, 0x0, 1, 0x0, 1, 4, false, [(TWB_STATUS_BUS_BUSY, .ro), (TWB_STATUS_SCL, .ro), (TWB_STATUS_SDA, .ro), (TWB_STATUS_STUCK, .ro), (TWB_STATUS_TADDR, .ro)]⟩,
   ⟨0x8, 0x0, 1, 0x0, 1, 4, false, [(TWB_JOB_GO, .wo), (TWB_JOB_RETRIES, .rw), (TWB_JOB_ADDR, .rw), (TWB_JOB_WLEN, .rw), (TWB_JOB_RLEN, .rw)]⟩,
   ⟨0xc, 0x0, 1, 0x0, 1, 4, false, [(TWB_RESULT_BUSY, .ro), (TWB_RESULT_CODE, .ro), (TWB_RESULT_WDONE, .ro)]⟩,
   ⟨0x10, 0x0, 1, 0x0, 1, 4, false, [(TWB_IRQ_KEY, .w1c), (TWB_IRQ_CMD, .w1c), (TWB_IRQ_JOB, .w1c)]⟩,
   ⟨0x14, 0x0, 1, 0x0, 1, 4, false, [(TWB_COUNT_ARB_LOST, .rc), (TWB_COUNT_CLEARS, .rc), (TWB_COUNT_TIMEOUTS, .rc)]⟩,
   ⟨0x100, 0x4, 16, 0x0, 1, 4, false, [(TWB_BUF_DATA, .rw)]⟩]
/-- The registers of the TWB block. -/
def twbRegs : List Reg := twbRegs0
/-- Registers of the DMA block, part 0. -/
def dmaRegs0 : List Reg :=
  [⟨0x0, 0x0, 1, 0x0, 1, 4, false, [(DMA_CTRL_RECOVER, .wo)]⟩,
   ⟨0x4, 0x0, 1, 0x0, 1, 4, false, [(DMA_STATUS_BUSY, .ro), (DMA_STATUS_HALTED, .ro)]⟩,
   ⟨0x8, 0x0, 1, 0x0, 1, 4, false, [(DMA_ERR_ADDR_OFFSET_LO, .ro)]⟩,
   ⟨0xc, 0x0, 1, 0x0, 1, 4, false, [(DMA_ERR_INFO_VALID, .w1c), (DMA_ERR_INFO_WRITE, .ro), (DMA_ERR_INFO_TILE, .ro), (DMA_ERR_INFO_OFFSET_HI, .ro)]⟩,
   ⟨0x10, 0x0, 1, 0x0, 1, 4, false, [(DMA_COUNT_HALTS, .rc), (DMA_COUNT_AUTO, .rc)]⟩,
   ⟨0x100, 0x10, 16, 0x0, 1, 4, false, [(DMA_CH_EN, .rw), (DMA_CH_PRIO, .rw)]⟩,
   ⟨0x104, 0x10, 16, 0x0, 1, 4, false, [(DMA_CH_STATE, .ro), (DMA_CH_QUEUED, .ro), (DMA_CH_LAST, .ro)]⟩,
   ⟨0x108, 0x10, 16, 0x0, 1, 4, false, [(DMA_CH_JOBS, .ro)]⟩,
   ⟨0x10c, 0x10, 16, 0x0, 1, 4, false, [(DMA_CH_DONE, .ro)]⟩]
/-- The registers of the DMA block. -/
def dmaRegs : List Reg := dmaRegs0
/-- Registers of the EVT block, part 0. -/
def evtRegs0 : List Reg :=
  [⟨0x0, 0x0, 1, 0x0, 1, 4, false, [(EVT_SEQ_SEQ, .ro)]⟩,
   ⟨0x4, 0x0, 1, 0x0, 1, 4, false, [(EVT_TAIL_SEQ_SEQ, .ro)]⟩,
   ⟨0x8, 0x0, 1, 0x0, 1, 4, false, [(EVT_RPTR_SEQ, .rw)]⟩,
   ⟨0xc, 0x0, 1, 0x0, 1, 4, false, [(EVT_MARK_EN, .rw), (EVT_MARK_COUNT, .rw)]⟩,
   ⟨0x10, 0x0, 1, 0x0, 1, 4, false, [(EVT_COUNT_SUPPRESSED, .rc), (EVT_COUNT_TAIL_LOST, .rc)]⟩,
   ⟨0x100, 0x4, 16, 0x0, 1, 4, false, [(EVT_CLASS_RATE, .rw), (EVT_CLASS_BURST, .rw)]⟩,
   ⟨0x8000, 0x8, 4096, 0x0, 1, 4, false, [(EVT_CODE_VALID, .rw), (EVT_CODE_CODE, .rw)]⟩,
   ⟨0x8004, 0x8, 4096, 0x0, 1, 4, false, [(EVT_CODE_RATE, .rw), (EVT_CODE_BURST, .rw)]⟩]
/-- The registers of the EVT block. -/
def evtRegs : List Reg := evtRegs0
/-- Registers of the IMG block, part 0. -/
def imgRegs0 : List Reg :=
  [⟨0x0, 0x0, 1, 0x0, 1, 4, false, [(IMG_STATUS_STAGE, .ro), (IMG_STATUS_BANK, .ro), (IMG_STATUS_SELF_OK, .ro), (IMG_STATUS_SELF_FAIL, .ro), (IMG_STATUS_ROLLING, .ro), (IMG_STATUS_ROLL_TILE, .ro), (IMG_STATUS_ATTEMPTS, .ro), (IMG_STATUS_LAST_CODE, .ro)]⟩,
   ⟨0x4, 0x0, 1, 0x0, 1, 4, false, [(IMG_BANK_A_STATE, .ro), (IMG_BANK_A_EPOCH, .ro)]⟩,
   ⟨0x8, 0x0, 1, 0x0, 1, 4, false, [(IMG_BANK_B_STATE, .ro), (IMG_BANK_B_EPOCH, .ro)]⟩,
   ⟨0xc, 0x0, 1, 0x0, 1, 4, false, [(IMG_VER_A_VERSION, .ro)]⟩,
   ⟨0x10, 0x0, 1, 0x0, 1, 4, false, [(IMG_VER_B_VERSION, .ro)]⟩,
   ⟨0x14, 0x0, 1, 0x0, 1, 4, false, [(IMG_DL_LEN, .ro)]⟩,
   ⟨0x18, 0x0, 1, 0x0, 1, 4, false, [(IMG_DL_GRAN_GRANULES, .ro)]⟩,
   ⟨0x1c, 0x0, 1, 0x0, 1, 4, true, [(IMG_CFG_AUTO_CONFIRM, .rw), (IMG_CFG_CONFIRM_S, .rw)]⟩,
   ⟨0x20, 0x0, 1, 0x0, 1, 4, false, [(IMG_CONFIRM_REMAIN_S, .ro)]⟩,
   ⟨0x24, 0x0, 1, 0x0, 1, 4, false, [(IMG_SELFCHECK_FAIL, .wo), (IMG_SELFCHECK_PASS, .wo)]⟩,
   ⟨0x28, 0x0, 1, 0x0, 1, 4, true, [(IMG_CTRL_CONFIRM, .wo)]⟩,
   ⟨0x2c, 0x0, 1, 0x0, 1, 4, false, [(IMG_ONYX_BOOT_VER, .ro), (IMG_ONYX_EPOCH_MIN, .ro)]⟩,
   ⟨0x30, 0x0, 1, 0x0, 1, 4, false, [(IMG_COUNT_FALLBACK, .rc), (IMG_COUNT_ACTIVATE, .rc)]⟩,
   ⟨0x40, 0x4, 12, 0x0, 1, 4, false, [(IMG_DIGEST_WORD, .ro)]⟩]
/-- The registers of the IMG block. -/
def imgRegs : List Reg := imgRegs0
/-- Registers of the CARRY block, part 0. -/
def carryRegs0 : List Reg :=
  [⟨0x0, 0x0, 1, 0x0, 1, 4, false, [(CARRY_STATUS_STATE, .ro), (CARRY_STATUS_CAUSE, .ro)]⟩,
   ⟨0x4, 0x0, 1, 0x0, 1, 4, false, [(CARRY_CTRL_AUTO, .rw), (CARRY_CTRL_READY, .wo)]⟩,
   ⟨0x8, 0x0, 1, 0x0, 1, 4, false, [(CARRY_MIRROR_VALUE, .ro)]⟩,
   ⟨0xc, 0x0, 1, 0x0, 1, 4, false, [(CARRY_CFG_GEN_VALUE, .ro)]⟩,
   ⟨0x10, 0x0, 1, 0x0, 1, 4, false, [(CARRY_HANDOVER_FRAME, .ro)]⟩,
   ⟨0x14, 0x0, 1, 0x0, 1, 4, false, [(CARRY_HANDBACK_FRAME, .ro)]⟩,
   ⟨0x18, 0x0, 1, 0x0, 1, 4, false, [(CARRY_COUNT_FAULT, .rc), (CARRY_COUNT_IMAGE, .rc)]⟩,
   ⟨0x1c, 0x0, 1, 0x0, 1, 4, false, [(CARRY_RESTARTS_COUNT, .ro)]⟩]
/-- The registers of the CARRY block. -/
def carryRegs : List Reg := carryRegs0
/-- The registers of block k (R34). -/
def blockRegs (k : Nat) : List Reg :=
  match k with
  | 0 => tileRegs
  | 1 => pwrRegs
  | 2 => timeRegs
  | 3 => ringRegs
  | 4 => smpRegs
  | 5 => limitRegs
  | 6 => estRegs
  | 7 => balRegs
  | 8 => dispRegs
  | 9 => loopRegs
  | 10 => berylRegs
  | 11 => dmaRegs
  | 12 => canRegs
  | 13 => evtRegs
  | 14 => imgRegs
  | 15 => carryRegs
  | 16 => casdaRegs
  | 17 => netRegs
  | 18 => twbRegs
  | 19 => modRegs
  | _ => []

end Sys2Proof.Machine
end

