-- ==== Sys2Proof/Machine/State.lean ====
section
/-! DEFINITION. Machine/State.lean: the state of the module as plain data, the reasons a step can stop, and the module
right after reset. Register fields are kept by field key in `Ctl.regs` (Machine/Regs.lean names every field); what the
spec gives the machine beside its registers is kept in the structures below, in tables by number. -/
namespace Sys2Proof.Machine

/-- Why a step can stop with a fault. -/
inductive Fault where
  /-- Every event or instruction of a tile the variant does not fit (R2): no such unit exists, so no such command comes. An
  access to such a tile by a host or by code of a fitted tile does not fault; it is answered E_ABSENT. Safe. -/
  | absentTile
deriving DecidableEq, Repr

/-- Why a step can be refused. -/
inductive Refusal where
  /-- Raised by exec's arms for a command that has no meaning in the model yet. Safe. -/
  | notModelled (mnemonic : String)
deriving DecidableEq, Repr

/-- The three variants (R1, R2). -/
inductive Variant where
  | skv7282 | skv7284 | skv7288
deriving DecidableEq, Repr

/-- What is fixed in one unit at manufacture; no command changes it (R49, R377, R413, R465). -/
structure UnitData where
  variant : Variant := .skv7288
  uid : Nat := 0
  package : Nat := 0
  die : Nat := 0
  macA : Nat := 0
  macB : Nat := 0
  bootVer : Nat := 0
  strap : Nat := 2
deriving DecidableEq, Repr

/-- What a task in WAITING (frame or device) waits for, or what stalls it while RUNNING (R99, R100). -/
inductive Wait where
  | none
  /-- FWAIT of a frame number (R110). -/
  | frame (n : Nat)
  /-- IWAIT of a frame number (R110). -/
  | instant (n : Nat)
  /-- RWAIT of the ring transaction whose descriptor lies at a local-memory offset (R104). -/
  | ring (ptr : Nat)
  /-- SFETCH: frame, target word and destination offset (R105). -/
  | fetch (frame target dst : Nat)
  /-- DWAIT of a job of a channel (R109). -/
  | dma (ch job : Nat)
  /-- VCLAIM with WAIT = 1 (R87). -/
  | claim
  /-- FENCE (R100). -/
  | fence
deriving DecidableEq, Repr

/-- What the TIME operations read, as one snapshot (R102): TIME_NS32, station time in ns, zero while it is not locked, the latest
frame instant's number and TIME_NS32, and operating time. -/
structure TimeSnap where
  ns : Nat := 0
  stn : Nat := 0
  frame : Nat := 0
  frameNs : Nat := 0
  optime : Nat := 0
deriving DecidableEq, Repr

/-- One task slot of a tile: its register context and the data of its activation (R51, R56, R68). -/
structure Task where
  s : Tab Word := []
  pc : Nat := 0
  addrExt : Nat := 0
  cost : Nat := 0
  entryTime : Nat := 0
  entrySrc : Nat := 0
  late : Bool := false
  cycles : Nat := 0
  /-- The activation has been granted by the governor; what it has paid in µJ; it has entered. -/
  granted : Bool := false
  paid : Nat := 0
  entered : Bool := false
  /-- Source of the latched trigger (R69). -/
  pendSrc : Nat := 0
  /-- Order in which READY tasks became READY (R71). -/
  stamp : Nat := 0
  wait : Wait := .none
  /-- The scalar register that takes the result of the operation waited for. -/
  dest : Nat := 0
  /-- A STOP that waits for an outstanding device operation (R85). -/
  stopReq : Bool := false
  /-- Overruns counted toward the next event 0x0102 (R333). -/
  overruns : Nat := 0
  /-- What a TIME operation reads as the first instruction of a fixed-latency entry (R353). -/
  first : Option TimeSnap := none
deriving DecidableEq, Repr

/-- One queued trap (R74). -/
structure Trap where
  cause : Nat := 0
  pc : Nat := 0
  val : Nat := 0
  task : Nat := 0
  stopped : Bool := false
deriving DecidableEq, Repr

/-- A vector instruction that has issued and may not have completed (R95): the array as it stood before it, whether it is a
load, and the bytes a store wrote: address, what stood there before, what it left. -/
structure VecUndo where
  v : Tab Word := []
  p : Tab Word := []
  flags : Nat := 0
  load : Bool := false
  stored : List (Nat × Byte × Byte) := []
deriving DecidableEq, Repr

/-- The vector array of a tile (R86, R87, R89). -/
structure VecArray where
  /-- Lane `l` of register `v` under the key `v * 32 + l`. -/
  v : Tab Word := []
  /-- Predicates p1 to p7. -/
  p : Tab Word := []
  /-- Sticky flags: bit 4 inexact, 3 underflow, 2 overflow, 1 divide-by-zero, 0 invalid (R100). -/
  flags : Nat := 0
  holder : Option Nat := none
  /-- Waiting claimants in order of arrival. -/
  waiters : List Nat := []
  /-- The issue queue, newest first, at most 16 (R95). -/
  queue : List VecUndo := []
deriving DecidableEq, Repr

/-- A record as its raising unit presents it to the recorder, with the times sampled then (R429, R432). -/
structure Presented where
  /-- 0 hardware unit, 1 System, 2 Application. -/
  origin : Nat := 0
  /-- The input queue it came through: register block k for hardware, 0x40 + core for a core (R432, R437). -/
  source : Nat := 0
  code : Nat := 0
  severity : Nat := 0
  cell : Nat := 0
  payload : List Byte := []
  optime : Nat := 0
  pcycle : Nat := 0
  stnNs : Nat := 0
  stnSec : Nat := 0
deriving DecidableEq, Repr

/-- The resets of R467. -/
inductive ResetKind where
  | power | standby | module | tileCtrl | watchdog | fault | image
deriving DecidableEq, Repr

/-- States of an image bank (R446). -/
inductive BankState where
  | empty | verified | trial | confirmed
deriving DecidableEq, Repr

/-- The boot record of tile 0 (R446). -/
structure BootRecord where
  gen : Nat := 0
  stateA : BankState := .confirmed
  stateB : BankState := .empty
  pending : Bool := false
  rolling : Bool := false
  legacyLv : Bool := false
  legacyCfg : Bool := false
  attempts : Nat := 0
  epochMin : Nat := 0
  digestA : List Byte := []
  digestB : List Byte := []
deriving DecidableEq, Repr

/-- IMG_STATUS.STAGE (R448, R465). -/
inductive Stage where
  | idle | download | verify | verified | activating | trial | fallback
deriving DecidableEq, Repr

/-- The image state of the module (R446 to R461). -/
structure Img where
  stage : Stage := .idle
  boot : BootRecord := {}
  /-- The copy of the boot record written before the newest (R446). -/
  bootPrev : BootRecord := {}
  /-- Tiles that run bank B. -/
  onB : List Nat := []
  /-- Length and written granules of the download (R448). -/
  len : Nat := 0
  granules : List Nat := []
  /-- An activation with a pause waits for its commits; its pause is under way. -/
  commits : Bool := false
  paused : Bool := false
  /-- The tiles restart on the confirmed bank at the next frame instant (R457, R461). -/
  revert : Bool := false
  /-- The tile in its rolling step; the bank the rolling restarts load is B. -/
  rollTile : Option Nat := none
  /-- Rolling restarts lead back to the confirmed bank (R461). -/
  rollBack : Bool := false
  /-- The activation under way started with a pause, so a fall-back uses one (R461). -/
  byPause : Bool := false
  /-- Onyx runs its recovery service, and STAGE reads RECOVERY (R447). -/
  recovery : Bool := false
  /-- The `img.verify` that waits for its response: session identity and SEQ. -/
  reply : Option (Nat × Nat) := none
  /-- The settings as they stood when a trial of another configuration format began, and whether the tiles that restart on
  the confirmed image read the legacy learned-value slot (R218, R461, R462). -/
  cfgTrial : Tab Nat := []
  legacyRead : Bool := false
deriving DecidableEq, Repr

/-- One module message (R358, R359). One that waits in an outgoing queue has its SEQ and MAC when it is sent (R362). -/
structure Msg where
  type : Nat
  version : Nat := 2
  session : Nat := 0
  seq : Nat
  tile : Nat := 0xFF
  status : Nat := 0
  payload : List Byte := []
  mac : List Byte := []
  /-- While it waits: the subscription it was formed for (R489). -/
  sub : Option Nat := none
deriving DecidableEq, Repr

/-- A message put on a path: from port 47,300 to its destination by the link address of the next hop, none while that is not
resolved, with the VLAN tag of the path (R357, R377). -/
structure Sent where
  path : Nat
  dest : Endpoint
  hop : Option Nat := none
  tag : Option Nat := none
  msg : Msg
deriving DecidableEq, Repr

/-- A session slot (R361 to R363). -/
structure Session where
  open_ : Bool := false
  role : Role := .observer
  id : Nat := 0
  key : List Byte := []
  v1 : Bool := false
  /-- H, set by the first message after open (R362). -/
  high : Option Nat := none
  /-- Sequence numbers accepted within the window of 64. -/
  seen : List Nat := []
  /-- RESPs formed, by the SEQ of their request. -/
  resps : Tab Msg := []
  /-- Requests whose RESP follows completion, and the path each arrived on. -/
  waiting : Tab Nat := []
  tx : Nat := 0
  /-- Messages that wait: EVENT and TELEM while no path is ACTIVE, RESP and SAFETY while no path has link (R368, R373). -/
  out : List Msg := []
  dropEpisode : Bool := false
  /-- The address and port the latest authenticated message came from, by path (R357). -/
  peers : Tab Endpoint := []
deriving DecidableEq, Repr

/-- A subscription (R367). -/
inductive SubKind where
  | event (tiles minSev classes : Nat)
  | telem (tile trigger decim : Nat) (ranges : List (Nat × Nat))
  | safety (tile conn : Nat)
deriving DecidableEq, Repr

/-- A subscription held by a session slot. -/
structure Sub where
  slot : Nat
  kind : SubKind
  /-- Records that wait for an EVENT message: tile and the 64 bytes. -/
  records : List (Nat × List Byte) := []
  /-- Triggers counted since the last TELEM message, and a copy due. -/
  count : Nat := 0
  due : Bool := false
  /-- The tile's frame number at the trigger. -/
  frame : Nat := 0
deriving DecidableEq, Repr

/-- A bulk handle in use (R370). -/
structure Bulk where
  slot : Nat
  len : Nat
  data : Tab Byte := []
deriving DecidableEq, Repr

/-- The station network of tile 0 beside its registers (R356 to R373). -/
structure Net where
  sessions : Tab Session := []
  subs : Tab Sub := []
  bulks : Tab Bulk := []
  /-- Role keys in Onyx, by role number; none at delivery (R364). -/
  keys : Tab (List Byte) := []
  /-- The supervising session's slot (R371). -/
  supervisor : Option Nat := none
  /-- SUPERVISION messages sent per path, and highest SEQ accepted from the peer is the session's H. -/
  supSent : Tab Nat := []
  /-- Path B became active while A was down (R372). -/
  bActive : Bool := false
  /-- Both paths carry every message until this operating time, 10 ms after a switch (R373). -/
  bothUntil : Option Nat := none
  /-- Whether the medium of each path is one of 10 Gbit/s (R356). -/
  tenGig : Tab Bool := []
  /-- Authentication failures since event 0x7208, and when that event was raised last (R376). -/
  authFails : Nat := 0
  authAt : Option Nat := none
  /-- IP configuration written and not yet in effect, by register key; in effect (R377). -/
  ipPending : Tab Nat := []
  ipActive : Tab Nat := []
  /-- Routers and link addresses learned, by path (R357). -/
  routers : Tab Nat := []
  neighbours : Tab Nat := []
  /-- The last address-resolution or echo answer: path and kind (R357). -/
  answered : Option (Nat × Nat) := none
  /-- Messages put on the paths by the last command that sent any. -/
  sent : List Sent := []
  /-- Sessions that a loss of power has closed and no event has told yet (R363). -/
  gone : Nat := 0
  /-- Requests that arrived in an activation pause, with their TYPE (R451). -/
  held : List (Nat × Datagram) := []
deriving DecidableEq, Repr

/-- The precision-time engine of tile 0 beside its registers (R343, R344). -/
structure Ptp where
  /-- The grandmaster announced on each path, and whether one is chosen; whether one ever was. -/
  heard : Tab Nat := []
  chosen : Bool := false
  everChosen : Bool := false
  /-- Consecutive Syncs within ±1 µs in ACQUIRE, and beyond ±100 µs in LOCKED. -/
  inRange : Nat := 0
  beyond : Nat := 0
  /-- Link delay measured on each path in ns. -/
  linkDelay : Tab Nat := []
  /-- Rate of station time beside its own clock in ppm, the part of a ns below 1 in 10⁻⁶ ns, and the ns of the cycle under
  way (R345). -/
  rate : Int := 0
  frac : Int := 0
  slew : Int := 0
  /-- Rate of the frame time base beside station time in ppm while it slews (R349). -/
  base : Int := 0
deriving DecidableEq, Repr

/-- A bleed command of a block (R228). -/
structure Duty where
  map : Nat := 0
  duty : Nat := 0
  alt : Bool := false
deriving DecidableEq, Repr

/-- A block monitor as it holds its own state (R119 to R147, R164, R169, R228 to R230). -/
structure Blk where
  addr : Option Nat := none
  /-- Arrival offset A in ns, and what the last ASSIGN was forwarded with: COUNT, ACC and the frame CRC (R121, R137). -/
  arrival : Nat := 0
  assignOut : Nat × Nat × Nat := (0, 0, 0)
  /-- The last frame was forwarded with ABORT in place of EOF; CRC errors seen upstream and downstream (R122, R127). -/
  aborts : Bool := false
  crcUp : Nat := 0
  crcDown : Nat := 0
  counter : Nat := 0
  /-- SEQ of the last unicast and broadcast frame accepted, and the stored response (R126). -/
  lastUni : Option Nat := none
  lastBc : Option Nat := none
  response : List Byte := []
  /-- The last response element the block put on the ring. -/
  sent : List Byte := []
  ov : Nat := 0
  uv : Nat := 0
  ot : Nat := 0
  thrLocked : Bool := false
  /-- Roles in force, and from the next conversion (R147). -/
  head : Bool := false
  mwb : Bool := false
  nextHead : Bool := false
  nextMwb : Bool := false
  fromTail : Bool := false
  segEnd : Bool := false
  beacon : Bool := false
  burst : Nat := 0
  resets : Nat := 0
  challenge : List Byte := []
  authReady : Bool := false
  /-- The wire under an open-wire test, with the SEQ of its command (R169). -/
  openTest : Option (Nat × Nat) := none
  ship : Bool := false
  cmpOv : Bool := false
  cmpUv : Bool := false
  cmpOt : Bool := false
  wdogStop : Bool := false
  lossDs : Bool := false
  lossUs : Bool := false
  /-- Frame number, burst byte and ALIGN of a SYNC that waits for its conversion, and the frame of the cycle. -/
  sync : Option (Nat × Nat × Nat) := none
  frame : Nat := 0
  /-- Interval of the last two frame SYNCs in µs (R228). -/
  interval : Nat := 0
  /-- Body of the latest sample response, the element itself once it has been sent (R133), and the charge below 1 mC
  carried on, in µC (R159). -/
  sample : List Byte := []
  kept : List Byte := []
  chargeRest : Nat := 0
  pending : Option Duty := none
  cmd : Duty := {}
  /-- Cells that conduct, and cells suspended by an open-wire test. -/
  conduct : Nat := 0
  suspended : Nat := 0
  quiet : Bool := false
deriving DecidableEq, Repr

/-- A ring transaction: block address (1,023 broadcast), command code, request, POST or CMD; SEQ, tries and whether a corrupt
response came; for a posted one the issuing tile, core and descriptor, response pointer and capacity (R103, R104, R132). -/
structure Tx where
  addr : Nat
  cmd : Nat
  req : List Byte := []
  post : Bool := false
  seq : Nat := 0
  tries : Nat := 0
  corrupt : Bool := false
  /-- A retry is due and waits until it may be launched (R129, R132). -/
  again : Bool := false
  desc : Option (Nat × Nat × Nat) := none
  rsp : Nat := 0
  cap : Nat := 0
deriving DecidableEq, Repr

/-- What a restart of enumeration takes back: block count, loop delay, and the inventory and identity findings of the ring as
they stood before the enumeration (R528). -/
structure EnumBefore where
  count : Nat := 0
  loop : Nat := 0
  inventory : Tab Nat := []
  identity : Tab Nat := []
deriving DecidableEq, Repr

/-- What the ring controller keeps of a ring beside its registers (R126 to R151). -/
structure Rng where
  seq : Nat := 0
  /-- Controller frames to launch, posted transactions (at most 8), CMD frames whose response is due. -/
  ctl : List Tx := []
  posted : List Tx := []
  flight : List Tx := []
  /-- Step of R137 under way; 0 outside enumeration, 8 waits for the frame instant. -/
  step : Nat := 0
  /-- First block of the tail segment of a break located, at which the ring enters SPLIT; RUN follows at the next frame
  instant; a rejoin pass is on the ring; a break is suspected; the ring has been enumerated since the tile's reset. -/
  splitAt : Option Nat := none
  toRun : Bool := false
  rejoining : Bool := false
  suspect : Bool := false
  /-- The MEASURE_ONLY pass of a hand-over or hand-back is on the ring (R453, R455); tests that `smp.ow_test` launches in the
  next frame (R181). -/
  measuring : Bool := false
  later : List Tx := []
  everEnum : Bool := false
  /-- The policy of the enumeration under way or of the last (R141), and what a restart of it takes back. -/
  policy : Bool := false
  before : EnumBefore := {}
  /-- The quiet window is open; the string map committed for the next frame instant (R147). -/
  quiet : Bool := false
  mapCommit : Option (List Nat) := none
  /-- COLLECT launched; blocks that delivered in this frame; RETRY passes made; the blocks of the last pass; sweep done;
  records stored in this frame. -/
  collecting : Bool := false
  got : List Nat := []
  passes : Nat := 0
  listed : List Nat := []
  swept : Bool := false
  /-- Consecutive frames a block has been missing (R149). -/
  missRun : Tab Nat := []
  /-- Tone reported lost at the head or tail receiver (R135, R136). -/
  toneLostHead : Bool := true
  toneLostTail : Bool := true
  /-- Duty slots not yet sent, those held for the quiet window, and the duty last sent to each block (R134). -/
  slots : Tab Duty := []
  held : List Nat := []
  duty : Tab Duty := []
  /-- The duty each block held at its last correct response, the SET_DUTY frames sent since with the frames they were sent in,
  the frame of the last that arrived, and that of the last before a watchdog stop (R128, R239). -/
  dutyHeld : Tab Duty := []
  dutyWait : Tab (List (Nat × Nat × Duty)) := []
  refreshed : Tab Nat := []
  stopFrom : Tab Nat := []
  /-- Blocks whose next record carries CNT_MISMATCH. -/
  mismatch : List Nat := []
  /-- Challenges sent and AUTH_READ tries (R142). -/
  challenge : Tab (List Byte) := []
  authTries : Tab Nat := []
deriving DecidableEq, Repr

/-- Open-wire findings of a block (R168 to R171). -/
structure Ow where
  mirrored : List Nat := []
  sumFail : Bool := false
  /-- Wires whose test is outstanding; wires a failed sum check still has to have tested (R170). -/
  pending : List Nat := []
  untested : List Nat := []
  confirmed : List Nat := []
  /-- Consecutive tests of a confirmed wire without collapse. -/
  passes : Tab Nat := []
  /-- The first frame whose record carries a confirmed wire; wires no longer confirmed, with that frame and the first one
  whose record no longer carried them (R171, R192). -/
  since : Tab Nat := []
  /-- The confirmed wires come from the store and have not been tested since (R475). -/
  restored : Bool := false
  ended : List (Nat × Option Nat × Nat) := []
deriving DecidableEq, Repr

/-- A black-channel connection beside its registers: the PDU in its private slot, whether a SEQ base holds, whether channel
A's watchdog runs, and channel B's, which A's accept strobe restarts, whether a first PDU has been sent (R287, R311 to
R313). -/
structure Conn where
  slot : Option (List Byte) := none
  base : Bool := false
  wd : Bool := false
  strobe : Bool := false
  sent : Bool := false
deriving DecidableEq, Repr

/-- Beryl of a tile beside its registers (R286 to R315). -/
structure Bry where
  /-- Switch commands: SOx_HS and SOx_LS closed, by output. -/
  hs : Nat := 0
  ls : Nat := 0
  /-- Outputs whose high side is still to close, and those whose readbacks are still to be judged (R301). -/
  hsDue : List Nat := []
  rbDue : List Nat := []
  /-- Outputs in a test pulse, with true where the high side is tested; outputs whose last test was the high side (R302). -/
  pulse : Tab Bool := []
  lastHs : List Nat := []
  /-- Inputs seen both de-energised since their DISC_FAULT latched (R300). -/
  opened : List Nat := []
  conns : Tab Conn := []
  /-- The CHP session that opened the parameter session (R314). -/
  owner : Option Nat := none
  /-- Outputs are held open for good and produce connections have stopped (R324). -/
  stopped : Bool := false
  /-- A reset taken in the tick under way: by the button, the outputs it judged, those it reset (R307). -/
  resetWas : Option (Bool × Nat × Nat) := none
deriving DecidableEq, Repr

/-- The filter of one endpoint for one limit: tripped, and the consecutive samples counted toward the change (R173). -/
structure Lim where
  trip : Bool := false
  run : Nat := 0
deriving DecidableEq, Repr

/-- The burst entry under way: SEQ, frame, sub-instant, TIME_NS32 and station time at the sub-instant, and per listed cell
voltage and quality (R164 to R167). -/
structure BurstEntry where
  seq : Nat
  frame : Nat
  j : Nat
  ns : Nat
  stnNs : Nat
  stnSec : Nat
  cells : Tab (Nat × Nat) := []
  /-- Rings that skip the sub-instant; how often a block has been listed in a RETRY frame, and the blocks that have
  answered (R165). -/
  skipped : List Nat := []
  asked : Tab Nat := []
  got : List Nat := []
deriving DecidableEq, Repr

/-- Burst sampling of a tile: the list committed for the next frame instant, the list whose BURST commands are under way,
the list that samples, as cell IDs (R166). -/
structure Burst where
  committed : Option (List Nat) := none
  next : Option (List Nat) := none
  /-- Blocks to which BURST is still to be sent (R166). -/
  due : List Nat := []
  list : List Nat := []
  entry : Option BurstEntry := none
  /-- BURST is still owed to every enumerated block after start-up (R470 step 6). -/
  zero : Bool := false
deriving DecidableEq, Repr

/-- What the estimator keeps of a cell beside its cell record (R196 to R211, R219, R220). Reals are FP32 patterns. -/
structure CellX where
  /-- Consecutive updates with z in range during a flat conflict, and with the score at ANOM_FLAG or above. -/
  flatClean : Nat := 0
  anomRun : Nat := 0
  /-- Event 0x2030 of the episode under way has been raised (R211). -/
  anomTold : Bool := false
  /-- Adopted RLS updates and accepted capacity measurements since RELEARN was set; all accepted ones. -/
  rlsAdopted : Nat := 0
  capNew : Nat := 0
  capAccepted : Nat := 0
  /-- Charge throughput, mC. -/
  throughput : Nat := 0
  /-- The last update's record permitted parameter updates; its Δt in ms. -/
  paramsPrev : Bool := false
  dtPrev : Nat := 0
  /-- The knee window: open, charge counted in it in mC, slope of the window before, and whether the knee is armed (R198). -/
  kneeOpen : Bool := false
  kneeCharge : Int := 0
  kneeSlope : Option Nat := none
  kneeArmed : Bool := true
  /-- A top anchor taken from the offer under way. -/
  topTaken : Bool := false
  /-- Operating time in ms of the last capacity step; the interval has an anchor at its start; its lost-frame variance. -/
  capAt : Nat := 0
  capAnchor : Bool := false
  capVar : Nat := 0
  /-- No re-anchor since the last anchor (R210). -/
  sdClean : Bool := false
  /-- The rest anchor a fit offers: z_a, σ_a and U∞ in 100 µV; U∞ of the last accepted fit of the rest under way. -/
  offer : Option (Nat × Nat × Nat) := none
  uInf : Option Nat := none
  /-- Session results: mHz, real and imaginary part of Z′, operating time. -/
  results : List (Nat × Nat × Nat × Nat) := []
  sessBad : Bool := false
  /-- Anchor age below 1 s, in ms (R199). -/
  ageMs : Nat := 0
  /-- Instants of the relaxation fit the rest under way has passed (R196). -/
  fits : Nat := 0
  /-- The adoption rule is due; the record holds no values yet; an anchor since the stale mark. -/
  initDue : Bool := false
  blank : Bool := false
  anchored : Bool := false
  /-- Station seconds of the record restored at start-up, while the correction of R219 may still come; 0 for none. -/
  lvSec : Nat := 0
deriving DecidableEq, Repr

/-- A perturbation session as the estimator accumulates it (R206, R212): session number, mHz, frame and offset of t0, judged
acceptable, abandoned, frames, and Σx cos θ, Σx sin θ, Σx, Σcos θ, Σsin θ as FP32 patterns. -/
structure Sess where
  num : Nat
  freq : Nat
  frame0 : Nat
  ms0 : Nat
  judged : Bool := false
  bad : Bool := false
  n : Nat := 0
  xc : Nat := 0
  xs : Nat := 0
  x : Nat := 0
  cs : Nat := 0
  sn : Nat := 0
deriving DecidableEq, Repr

/-- What the estimator keeps of a string (R189, R196, R197, R204 to R206, R211). -/
structure StrX where
  /-- Resting: elapsed ms since rest start, the cells (by index in the section) that took part at its start, points in each
  buffer, their spacing in s; unfitted for want of buffers. -/
  rest : Option Nat := none
  resters : List Nat := []
  pts : Nat := 0
  spacing : Nat := 1
  noPool : Bool := false
  /-- The steady current before the rest, in 20 mA, and its duration in ms. -/
  curI : Int := 0
  curMs : Nat := 0
  /-- R197: charged above TOP_C since the last top anchor, armed, consecutive frames in the window, anchors taken from it. -/
  topHigh : Bool := false
  topArmed : Bool := true
  topRun : Nat := 0
  topUsed : Bool := false
  /-- Operating time in ms of the rest request; no new request before; of the age event. -/
  reqAt : Option Nat := none
  blocked : Nat := 0
  ageAt : Option Nat := none
  /-- Charges of the latest passes whose frame was not lost, by frame, newest first; the frame of the map change that moved
  the head (R189). -/
  stands : List (Nat × Int) := []
  moved : Option Nat := none
  /-- Medians and MADs of Rs / k_T in nΩ and of C in mAh. -/
  rsMed : Int := 0
  rsMad : Int := 0
  capMed : Int := 0
  capMad : Int := 0
  sess : Option Sess := none
deriving DecidableEq, Repr

/-- A string as a map gives it: its slot, blocks and profile; whether its head moved with that map, and the first frame whose
charge the new head reports in full (R147, R189). -/
structure MapString where
  slot : Nat
  first : Nat
  last : Nat
  prof : Nat
  moved : Bool
  full : Option Nat
deriving DecidableEq, Repr

/-- The estimator of a tile beside its registers (R185, R196, R216, R219). -/
structure Est where
  /-- The next frame to pass; a backlog episode. -/
  next : Option Nat := none
  backlogged : Bool := false
  /-- The commit under way: its cause and cells as cell IDs, none for all. -/
  commit : Option (Nat × Option (List Nat)) := none
  /-- Rest buffers by cell ID. -/
  bufs : Tab Nat := []
  /-- A reload due at the next pass, and the one of the start-up, which reaches each block when it is first enumerated:
  0 newest, 1 legacy; ring × 512 + block of those it has reached (R219, R224). -/
  reload : Option Nat := none
  startup : Option Nat := none
  loaded : List Nat := []
  /-- Cells initialised since start-up, and event 0x2052 raised or not needed. -/
  initialised : Nat := 0
  restored : Bool := false
  /-- A pass has completed since the tile's reset (R243). -/
  passed : Bool := false
  /-- Station time has locked within 30 min of the tile's start-up (R219). -/
  timely : Bool := false
deriving DecidableEq, Repr

/-- Wire learning of a ring: blocks still to learn, the block under way, its next cycle 0 to 127 and whether a command of
it is out; cycles whose records are to come, by the frame of the record; the frame of the latest reference record; per wire
the usable estimates as (Δ − m) × R_BLEED over V of the cell (R238). -/
structure Learn where
  queue : List Nat := []
  block : Option Nat := none
  cycle : Nat := 0
  log : List (Nat × Nat) := []
  refFrame : Option Nat := none
  est : Tab (List (Int × Nat)) := []
deriving DecidableEq, Repr

/-- The attempt under way on a CAN port: its buffer, the frame as its start of frame found it, and whether the buffer's
hardware owner has replaced the content since (R383, R384). -/
structure CanTry where
  buf : Nat
  frame : CanFrame
  again : Bool := false
deriving DecidableEq, Repr

/-- An entry of a receive FIFO: the frame, the filter that accepted it, TIME_NS32 at its last bit (R388). -/
structure CanEntry where
  frame : CanFrame
  filter : Nat
  time : Nat
deriving DecidableEq, Repr

/-- Rate detection of a port: nominal candidate, its consecutive good frames, whether it is found; data candidate likewise;
an FD frame with BRS seen in this dwell; a dwell without one has passed since the nominal rate was found (R391). -/
structure CanDetect where
  nominal : Nat := 1
  good : Nat := 0
  found : Bool := false
  data : Nat := 1
  dataGood : Nat := 0
  dataFound : Bool := false
  brs : Bool := false
  quiet : Bool := false
deriving DecidableEq, Repr

/-- The count of a channel's input (R275): UPDATES and the value at the last sample, MISSES, REPEATS. -/
structure Health where
  updates : Nat
  value : Nat
  misses : Nat := 0
  repeats : Nat := 1
deriving DecidableEq, Repr

/-- A loop channel beside its registers (R272 to R277): r_eff, e, kp, ki and the target before the limits of the last sample,
the blend (output at the mode change, samples taken, M), ms since HOLD was entered, the health of FB_SEL and of TRK_SEL, the
value of its output field, and whether a shadow transfer has begun since the last tick (R278). -/
structure Chan where
  reff : Int := 0
  e : Int := 0
  kp : Int := 0
  ki : Int := 0
  target : Int := 0
  blend : Option (Int × Nat × Nat) := none
  holdMs : Nat := 0
  fb : Option Health := none
  trk : Option Health := none
  field : Nat := 0
  moving : Bool := false
deriving DecidableEq, Repr

/-- A trace unit beside its registers (R280): samples taken in the capture, the trigger sample, the trigger node's value at
the sample before. -/
structure Trace where
  n : Nat := 0
  trig : Option Nat := none
  prev : Option Int := none
deriving DecidableEq, Repr

/-- Bank dispatch beside the DISP registers of tile 0 (R246 to R256): a mode change and its cause, and a host set-point,
that wait for the next cycle instant; the last accepted SPSEQ; the set-point frozen at entry to HOLD; LOCAL entered by age
expiry, its last target, and the second of the TAI day at the last cycle with lock; cycle instants since the frame instant
and since the module reset; tiles that have not answered this cycle's exchange; per tile Σ L, Σ L z, Σ w and Σ a of the last
coordinated cycle. -/
structure Bank where
  mode : Option (Nat × Nat) := none
  host : Option Int := none
  seq : Option Nat := none
  hold : Int := 0
  aged : Bool := false
  localAt : Int := 0
  sec : Option Nat := none
  cyc : Nat := 0
  tick : Nat := 0
  late : List Nat := []
  sums : Tab (List Rat) := []
deriving DecidableEq, Repr

/-- The frame slot of a container: SEQ, the frames by their number j, refreshed since the last release, releases without a
refresh, and stopped (R261, R262). -/
structure Slot where
  seq : Nat := 0
  frames : Tab (List Byte) := []
  fresh : Bool := false
  missed : Nat := 0
  stopped : Bool := false
deriving DecidableEq, Repr

/-- A perturbation session beside its registers (R259): begun, the cycle count at t0, U_A and U_B, discharging at t0. -/
structure Pert where
  begun : Bool := false
  start : Nat := 0
  ua : Rat := 0
  ub : Rat := 0
  discharge : Bool := false
deriving DecidableEq, Repr

/-- A tile without coordination: cycles so far, ramping, the factor on its set-points (R256). -/
structure Lone where
  cycles : Nat := 0
  ramping : Bool := false
  factor : Rat := 1
deriving DecidableEq, Repr

/-- A DMA job: its number, its descriptor (R417), the issuing task, and whether its accesses are System's (R414). -/
structure Job where
  num : Nat
  src : Nat
  dst : Nat
  len : Nat
  rows : Nat
  sstr : Nat
  dstr : Nat
  flags : Nat
  task : Nat
  system : Bool
deriving DecidableEq, Repr

/-- A DMA channel beside its registers: its queue, whether its first job is under way, the row that job is at and the bytes of
that row it has moved, and outcomes by job number (R414, R415, R421). -/
structure Dma where
  queue : List Job := []
  under : Bool := false
  row : Nat := 0
  pos : Nat := 0
  outcomes : Tab Nat := []
  /-- Record writes that a halt of channel 0 or 1 holds: address and bytes (R423). -/
  records : List (Nat × List Byte) := []
deriving DecidableEq, Repr

/-- The two-wire block beside its registers (R399 to R412): pointer, status page copy, bytes of the last read, request area,
result bytes, LAST_WR, WR_COUNT, the key page's RESULT, the event window's TILE and FIRST, events that wait for tile 0, the
controller job as its GO was written, the tries left and whether its START has been sent. -/
structure Twb where
  ptr : Nat := 0
  page : List Byte := []
  out : List Byte := []
  req : Tab Byte := []
  state : Nat := 0
  code : Nat := 0
  res : List Byte := []
  lastWr : Nat := 0
  wrCount : Nat := 0
  keyRes : Nat := 0
  evTile : Nat := 0
  evFirst : Nat := 0
  events : List (Nat × List Byte) := []
  job : Nat := 0
  tries : Nat := 0
  sending : Bool := false
  /-- The bytes a job puts on the bus, addresses among them (R408). -/
  jobOut : List Byte := []
  /-- The target address, sampled from the strap at module power-up (R396). -/
  taddr : Nat := 0x5A
deriving DecidableEq, Repr

/-- Power modes (R319), and the module unpowered before input power good (R496). -/
inductive PowerMode where
  | run | standby | chrysalis | off
deriving DecidableEq, Repr

/-- What leads out of Run (R322, R324, R477). -/
inductive Leaving where
  | none | standby | chrysalis | eject
deriving DecidableEq, Repr

/-- The power state of the module (R319 to R326, R473 to R478, R496, R497). -/
structure Pow where
  mode : PowerMode := .run
  leaving : Leaving := .none
  /-- The shutdown has held the tiles, or Chrysalis entry has opened the outputs. -/
  held : Bool := false
  /-- WAKE_S of the Standby under way, in s; always-on seconds at which it ends. -/
  wake : Nat := 0
  wakeAt : Option Nat := none
  mrstLow : Bool := false
  mrstMs : Nat := 0
  ejectLow : Bool := false
  /-- A power-fail warning holds; event 0x0132 has still to follow its commit. -/
  warned : Bool := false
  warnDue : Bool := false
  /-- VIN_48 is on its contacts; the capacitance is charged and the input switch closed. -/
  vin : Bool := true
  charged : Bool := true
  /-- The Chrysalis flag of the non-volatile store; the wake comparator is armed. -/
  flag : Bool := false
  armed : Bool := false
  /-- Milliseconds since the always-on counter's last second. -/
  aonMs : Nat := 0
  /-- Events 0x0112 and 0x0130 are still to be raised in this start-up. -/
  wakeDue : Bool := true
  readyDue : Bool := true
deriving DecidableEq, Repr

/-- A section as it stood when its tile went down: its registers, its rings, its sessions and rests (R453, R458). -/
structure Section where
  regs : Tab Nat := []
  rings : Tab Rng := []
  perts : Tab Pert := []
  rests : List (Nat × Nat) := []
deriving DecidableEq, Repr

/-- Everything the module holds but its memories and its command queue. -/
structure Ctl where
  unit : UnitData := {}
  /-- Free values and measurements taken so far (assumptions 1 and 2; the model's own field). -/
  fresh : Nat := 0
  /-- Result code of the last access a host or the side-band port made through a command of its own (R45). -/
  status : Nat := 0
  /-- Data of the last read made through a command of its own. -/
  data : Nat := 0
  /-- Register fields by `Field.key`; an unlisted field holds its reset value. -/
  regs : Tab Nat := []
  /-- The settings in the configuration store, by the same keys (R462, R470). -/
  store : Tab Nat := []
  /-- Task slots, key tile × 256 + task index. -/
  tasks : Tab Task := []
  /-- The next order stamp of a task that becomes READY. -/
  stamp : Nat := 0
  /-- Queued traps, and the trap the trap task handles, by tile (R74). -/
  traps : Tab (List Trap) := []
  curTrap : Tab Trap := []
  /-- Mailbox FIFOs, key tile × 16 + mailbox (R80). -/
  mbox : Tab (List Nat) := []
  /-- Vector arrays by tile. -/
  vec : Tab VecArray := []
  /-- Records presented to the recorder of a tile, oldest first (R432). -/
  presented : Tab (List Presented) := []
  /-- Tokens of each bucket in 1/1,000 record, key tile × 8,192 + class, or + 4,096 + code-table entry (R436). -/
  tokens : Tab Nat := []
  /-- Records withheld per code, key tile × 65,536 + code (R437). -/
  withheld : Tab Nat := []
  /-- The tail queue of a tile: sequence numbers still to be written to the tail (R435). -/
  tailQueue : Tab (List (Nat × List Byte)) := []
  /-- Tiles in a tail-lost episode, and tiles whose fill mark has been raised (R435, R439). -/
  tailLost : List Nat := []
  marked : List Nat := []
  /-- Tiles whose EST_TASK task has been GATED since the last frame-complete, and clean frame-completes run (R336). -/
  estGated : List Nat := []
  cleanFrames : Tab Nat := []
  /-- Ticks of 1 ms of a tile since its reset, energy in µJ behind PWR_ENERGY, and the half µJ of the bucket below the
  whole number PWR_BUCKET shows (R331, R339, R341). -/
  ticks : Tab Nat := []
  energy : Tab Nat := []
  bucketHalf : Tab Nat := []
  /-- Milliseconds run within the unit of a counter that counts longer units, key tile × 64 + counter: the age of a
  container's budget (0 to 31, 0.1 s), the parameter session (32, s), the confirm window (33, s). -/
  phase : Tab Nat := []
  /-- The number of the latest frame instant of the module (R23, R156). -/
  frameNum : Nat := 0
  /-- Station time as each tile holds it: nanoseconds and 48-bit seconds (R340, R347). -/
  stnNs : Tab Nat := []
  stnSec : Tab Nat := []
  /-- Operating time in ms, 48 bits (R340, R351). -/
  optime : Nat := 0
  img : Img := {}
  /-- Times of the FAULT entries of a tile in ms of operating time (R458). -/
  faultTimes : Tab (List Nat) := []
  /-- Tiles left in FAULT after three faults (R458). -/
  stuck : List Nat := []
  /-- Tiles whose CARRY input of Beryl is asserted (R295, R453). -/
  carryIn : List Nat := []
  /-- Tiles that enumerate to serve their own section again (R486). -/
  reserving : List Nat := []
  /-- Tiles that have set READY and wait for the hand-back (R455). -/
  readySet : List Nat := []
  net : Net := {}
  ptp : Ptp := {}
  /-- Station time in ns at the reference instant of the last sync frame, key tile × 8 + port, and the ports whose
  follow-up for that sync has been requested (R352, R353). -/
  syncRef : Tab Nat := []
  followed : List Nat := []
  /-- Block monitors by ring position, key tile × 16,384 + ring × 512 + position. -/
  blks : Tab Blk := []
  /-- Rings as their controller holds them, key tile × 32 + ring. -/
  rings : Tab Rng := []
  /-- Identities found at the last enumeration, and the inventory of the configuration store, by ring position (R141). -/
  found : Tab Nat := []
  inventory : Tab Nat := []
  /-- What the last enumeration found of a position for the estimator: 1 adoption, 2 swap passed, 3 stale, 4 quarantined
  (R220). -/
  identity : Tab Nat := []
  /-- Open-wire findings by ring position. -/
  ow : Tab Ow := []
  /-- Beryl of each tile, the two stored copies of the active parameters, by register key, and their CRCs, by tile × 2 +
  copy (R315). -/
  beryl : Tab Bry := []
  berylStore : Tab Nat := []
  berylStore2 : Tab Nat := []
  berylCrc : Tab Nat := []
  /-- Filters of the limit checker by `limKey`, and limit sets committed for the next frame instant, key tile × 8 + set:
  the eight words of the set (R173, R175). -/
  lims : Tab Lim := []
  limCommit : Tab (List Nat) := []
  /-- LIMIT_RING_SEL as in force, key tile × 32 + ring (R175). -/
  selAct : Tab Nat := []
  /-- The frame and the raw cell voltages of the last FRESH record, by ring position (R168). -/
  raw : Tab (Nat × List Nat) := []
  bursts : Tab Burst := []
  /-- Consecutive frames as an outlier: (tile × 3 + kind) × 2^18 + cell index, or block index × 16 + channel (R179). -/
  outliers : Tab Nat := []
  /-- Tiles whose current frame is not yet complete (R163). -/
  frameOpen : List Nat := []
  /-- The estimator's state by ring position × 16 + cell, by (tile × 32 + ring) × 32 + string, and by tile. -/
  cellx : Tab CellX := []
  strx : Tab StrX := []
  est : Tab Est := []
  /-- The first frame whose charge a head block reports in full, by ring position (R147, R189). -/
  headFrom : Tab Nat := []
  /-- Superseded string maps by ring, newest first, each with the frame that ended it (R188, R189). -/
  oldMaps : Tab (List (Nat × List MapString)) := []
  /-- The UID of the block whose values a position's cell records hold (R220). -/
  cellUid : Tab Nat := []
  /-- Chemistry profiles of the configuration store, key tile × 8 + profile, and those to be mirrored into DRAM at the next
  frame instant (R213, R224). -/
  profiles : Tab (List Byte) := []
  profDue : List Nat := []
  /-- Switches of the frame period, newest first: the first frame of the new period, and the period before it in ms (R157,
  R188, R206). -/
  switches : List (Nat × Nat) := []
  /-- The first frame of each section that its present recorder has taken, by section (R455, R458). -/
  secFrom : Tab Nat := []
  /-- Blocks whose stale mark ends at the next frame instant, by ring position (R220). -/
  staleDue : List Nat := []
  /-- Commit generation of each tile, as its learned-value slots hold it (R215, R217). -/
  lvGen : Tab Nat := []
  /-- Responses of `lv.backup` that wait: session identity, SEQ and tiles still committing (R224). -/
  backups : List (Nat × Nat × List Nat) := []
  /-- Manual duties by ring position (R240). -/
  manual : Tab Duty := []
  /-- Per ring, the duties its blocks applied at recent frame instants, by frame (R239). -/
  cycles : Tab (List (Nat × Tab Duty)) := []
  /-- Wire learning by ring; the balancing mode held before MANUAL, by tile. -/
  learns : Tab Learn := []
  balBefore : Tab Nat := []
  /-- Containers in a stale-budget episode and in an episode of manual reduction, tile × 32 + container (R233, R240). -/
  heatEp : List Nat := []
  balReduced : List Nat := []
  /-- Tiles whose planner has a pass to follow (R226). -/
  planDue : List Nat := []
  /-- CAN ports, key tile × 8 + port: the attempt under way, receive FIFOs (× 2 + FIFO), FIFOs whose overflow event has been
  raised since their last pop, rate detection, and ports that enter INIT at the end of the frame under way (R380 to R391). -/
  canTry : Tab CanTry := []
  canFifo : Tab (List CanEntry) := []
  canOvf : List Nat := []
  canDet : Tab CanDetect := []
  canStop : List Nat := []
  /-- Loop channels, key tile × 64 + channel, with the `loop.mode` requests that wait for their commit (session identity and
  SEQ), and trace units, key tile × 8 + unit (R266 to R284). -/
  chans : Tab Chan := []
  loopWait : Tab (List (Nat × Nat)) := []
  traces : Tab Trace := []
  /-- Bank dispatch; frame slots, key tile × 32 + container; sessions, key tile × 4 + session; tiles without coordination. -/
  bank : Bank := {}
  slots : Tab Slot := []
  perts : Tab Pert := []
  lone : Tab Lone := []
  /-- Rests granted, oldest first, by tile, as (ring × 32 + string, operating time of the grant), and the string granted last
  (R258). -/
  rests : Tab (List (Nat × Nat)) := []
  restLast : Tab Nat := []
  /-- The latched summary and the set-point of the last coordinated cycle, by (tile × 32 + ring) × 32 + string. -/
  latch : Tab (List Byte) := []
  setPts : Tab Int := []
  /-- The LOCAL schedule of the configuration store: start second and kW (R252). -/
  schedule : List (Nat × Int) := []
  /-- Bytes of jobs without FENCE of a tile that have left its engine and not yet reached their memory controller (R421). -/
  inFlight : Tab (List (Nat × Byte)) := []
  /-- DMA channels, key tile × 16 + channel, the channel each priority level served last, key tile × 4 + level, and operating
  times of recent bus-error halts by tile (R414 to R425). -/
  dma : Tab Dma := []
  dmaTurn : Tab Nat := []
  dmaHalts : Tab (List Nat) := []
  twb : Twb := {}
  pw : Pow := {}
  /-- Sections that wait for their hand-over after a fault, by tile (R458). -/
  handed : Tab Section := []
deriving DecidableEq, Repr

/-- The module: the commands that wait, its memories, and everything else. -/
structure State where
  /-- Commands waiting, first in, first out. -/
  pending : List Instr
  /-- Bytes of DRAM, non-volatile store and local memories by 40-bit module address, strictly rising, no entry zero;
  an unlisted address reads zero (R31, R32; assumption 4). -/
  mem : List Host.Cell
  ctl : Ctl
deriving DecidableEq, Repr

/-- The module right after reset: an SKV7288 (assumption 5) whose register fields hold their reset values, so that every
tile is in BOOT (R48); nothing is listed in memory and no command waits. -/
def State.reset : State := { pending := [], mem := [], ctl := {} }

end Sys2Proof.Machine
end

