-- ==== Sys2Proof/Machine/Ops.lean ====
section
/-! DEFINITION. Machine/Ops.lean: the named operations every family uses: memory, register fields, outcomes by tile,
error records and violations, events, the Casda scheduler with its governor grants, triggers, interrupts and traps. -/
namespace Sys2Proof.Machine

/-! ## Memory -/

/-- The module's memories: bytes by 40-bit module address. -/
abbrev Mem := List Host.Cell

/-- The canonical form: addresses strictly rising, no entry equal to what an unlisted address reads as. -/
def Memory.wf (m : Mem) : Bool := tabSorted m && m.all (fun e => e.2 != 0)

/-- One byte; an unlisted address reads zero. -/
def memRead (m : Mem) (a : Nat) : Byte := tabGet 0 m a

/-- One byte stored. -/
def memWrite (m : Mem) (a : Nat) (b : Byte) : Mem := if b = 0 then tabErase m a else tabSet m a b

/-- `n` bytes from `a` upward. -/
def memBytes (m : Mem) (a : Nat) : Nat → List Byte
  | 0 => []
  | n + 1 => memRead m a :: memBytes m (a + 1) n

/-- Bytes stored from `a` upward. -/
def memStore (m : Mem) (a : Nat) : List Byte → Mem
  | [] => m
  | b :: bs => memStore (memWrite m a b) (a + 1) bs

/-- A little-endian number of `n` bytes (R9). -/
def memNat (m : Mem) (a n : Nat) : Nat := leNat (memBytes m a n)

/-- A little-endian number stored in `n` bytes. -/
def memPut (m : Mem) (a n v : Nat) : Mem := memStore m a (leBytes n v)

/-- `n` bytes from `a` set to zero. -/
def memClear (m : Mem) (a n : Nat) : Mem := m.filter (fun e => !(decide (a ≤ e.1) && decide (e.1 < a + n)))

/-- `n` bytes copied from `src` to `dst`. -/
def memCopy (m : Mem) (src dst n : Nat) : Mem :=
  (m.filter (fun e => decide (src ≤ e.1) && decide (e.1 < src + n))).foldl
    (fun acc e => memWrite acc (e.1 - src + dst) e.2) (memClear m dst n)

/-- The difference of two frame numbers as a signed 32-bit number (R105, R110). -/
def frameDiff (a b : Nat) : Int := toSigned 32 (ofSigned 32 ((a : Int) - b))

/-- The module address of an offset of a tile (R31). -/
def modAddr (t off : Nat) : Nat := t * 2 ^ 36 + off

/-- Offset of a byte of the local memory of core `k` (R32). -/
def localAddr (t k off : Nat) : Nat := modAddr t (0x300000000 + k * 0x40000 + off)

/-! ## Registers -/

/-- A register field as it stands. -/
def Ctl.get (c : Ctl) (t : Nat) (F : Field) (i : Nat := 0) (j : Nat := 0) : Nat :=
  tabGet F.reset c.regs (F.key t i j)

/-- A register field set, cut to its width. -/
def Ctl.put (c : Ctl) (t : Nat) (F : Field) (v : Nat) (i : Nat := 0) (j : Nat := 0) : Ctl :=
  { c with regs := tabSet c.regs (F.key t i j) (v % 2 ^ F.width) }

/-- A counting field increased, saturating. -/
def Ctl.inc (c : Ctl) (t : Nat) (F : Field) (i : Nat := 0) (j : Nat := 0) : Ctl :=
  c.put t F (satAdd F.width (c.get t F i j) 1) i j

/-- A counting field increased modulo its width. -/
def Ctl.incMod (c : Ctl) (t : Nat) (F : Field) (i : Nat := 0) (j : Nat := 0) : Ctl :=
  c.put t F (c.get t F i j + 1) i j

/-- A field as a Bool. -/
def Ctl.flag (c : Ctl) (t : Nat) (F : Field) (i : Nat := 0) (j : Nat := 0) : Bool := c.get t F i j != 0

/-- A field read as signed. -/
def Ctl.getInt (c : Ctl) (t : Nat) (F : Field) (i : Nat := 0) (j : Nat := 0) : Int := toSigned F.width (c.get t F i j)

/-- A field set from an integer, cut to its width. -/
def Ctl.putInt (c : Ctl) (t : Nat) (F : Field) (v : Int) (i : Nat := 0) (j : Nat := 0) : Ctl :=
  c.put t F (ofSigned F.width v) i j

/-- A counter of longer units starts its first unit. -/
def Ctl.rephase (c : Ctl) (t n : Nat) : Ctl := { c with phase := tabErase c.phase (t * 64 + n) }

/-- Applies an update for each number below `n`, in ascending order. -/
def forN {α : Type} : (n : Nat) → (f : Nat → α → α) → α → α
  | 0, _, a => a
  | n + 1, f, a => f n (forN n f a)

/-- Whether some number below `n` has the property. -/
def anyN (n : Nat) (f : Nat → Bool) : Bool := (List.range n).any f

/-- How many numbers below `n` have the property. -/
def countN (n : Nat) (f : Nat → Bool) : Nat := ((List.range n).filter f).length

/-! ## The unit -/

/-- Tiles fitted (R2). -/
def Variant.tiles : Variant → Nat
  | .skv7282 => 2
  | .skv7284 => 4
  | .skv7288 => 8

/-- Tiles fitted in this module. -/
def Ctl.tiles (c : Ctl) : Nat := c.unit.variant.tiles

/-- Whether the variant has carry (R453). -/
def Ctl.hasCarry (c : Ctl) : Bool := c.unit.variant = .skv7288

/-- The partner of a tile (R48). -/
def partner (t : Nat) : Nat := if t % 2 = 0 then t + 1 else t - 1

/-- Tile states (TILE_STATUS.STATE, R48). -/
abbrev tsOff : Nat := 0
/-- BOOT. -/
abbrev tsBoot : Nat := 1
/-- RUN. -/
abbrev tsRun : Nat := 2
/-- HELD. -/
abbrev tsHeld : Nat := 3
/-- CARRIED. -/
abbrev tsCarried : Nat := 4
/-- FAULT. -/
abbrev tsFault : Nat := 5

/-- The state of a tile. -/
def Ctl.tileState (c : Ctl) (t : Nat) : Nat := c.get t TILE_STATUS_STATE

/-- Whether a tile is fitted and in RUN. -/
def Ctl.running (c : Ctl) (t : Nat) : Bool := decide (t < c.tiles) && c.tileState t == tsRun

/-- Whether the hardware of a tile works: in RUN or CARRIED. -/
def Ctl.live (c : Ctl) (t : Nat) : Bool :=
  decide (t < c.tiles) && (c.tileState t == tsRun || c.tileState t == tsCarried)

/-! ## Outcomes -/

/-- A command of a fitted tile that touches no memory. -/
def State.onTile (s : State) (t : Nat) (f : Ctl → Ctl) : Host.Outcome State Fault Refusal :=
  if t < s.ctl.tiles then .next { s with ctl := f s.ctl } else .fault .absentTile

/-- A command of a fitted tile that reads memory. -/
def State.onTileR (s : State) (t : Nat) (f : Mem → Ctl → Ctl) : Host.Outcome State Fault Refusal :=
  if t < s.ctl.tiles then .next { s with ctl := f s.mem s.ctl } else .fault .absentTile

/-- A command of a fitted tile that may write memory. -/
def State.onTileM (s : State) (t : Nat) (f : Mem → Ctl → Mem × Ctl) : Host.Outcome State Fault Refusal :=
  if t < s.ctl.tiles then
    .next { s with mem := (f s.mem s.ctl).1, ctl := (f s.mem s.ctl).2 }
  else .fault .absentTile

/-- A command of the module that touches no memory. -/
def State.onModule (s : State) (f : Ctl → Ctl) : Host.Outcome State Fault Refusal := .next { s with ctl := f s.ctl }

/-- A command of the module that reads memory. -/
def State.onModuleR (s : State) (f : Mem → Ctl → Ctl) : Host.Outcome State Fault Refusal :=
  .next { s with ctl := f s.mem s.ctl }

/-- A command of the module that may write memory. -/
def State.onModuleM (s : State) (f : Mem → Ctl → Mem × Ctl) : Host.Outcome State Fault Refusal :=
  .next { s with mem := (f s.mem s.ctl).1, ctl := (f s.mem s.ctl).2 }

/-- An access made by `o`, which touches no memory: the accessor is a host or code of a fitted tile. The tile accessed may be
absent, and the access is then answered E_ABSENT (R45). -/
def State.onAccess (s : State) (o : Origin) (f : Ctl → Ctl) : Host.Outcome State Fault Refusal :=
  match o with
  | .casda u _ => s.onTile u f
  | .host _ _ => s.onModule f

/-- An access made by `o` that may write memory. -/
def State.onAccessM (s : State) (o : Origin) (f : Mem → Ctl → Mem × Ctl) : Host.Outcome State Fault Refusal :=
  match o with
  | .casda u _ => s.onTileM u f
  | .host _ _ => s.onModuleM f

/-! ## Free values and measurements -/

/-- The next free value and the state after taking it. -/
def Ctl.free (c : Ctl) : Nat × Ctl := (Config.freeValue c.fresh, { c with fresh := c.fresh + 1 })

/-- The next measurement and the state after taking it. -/
def Ctl.measure (c : Ctl) : Nat × Ctl := (Config.measured c.fresh, { c with fresh := c.fresh + 1 })

/-! ## Error codes (R45) -/

abbrev eOk : Nat := 0x00
abbrev eRange : Nat := 0x01
abbrev eState : Nat := 0x02
abbrev eBusy : Nat := 0x03
abbrev eAuth : Nat := 0x04
abbrev eFormat : Nat := 0x05
abbrev eNotsup : Nat := 0x06
abbrev eConflict : Nat := 0x07
abbrev eIntegrity : Nat := 0x08
abbrev eTimeout : Nat := 0x09
abbrev eLocked : Nat := 0x0A
abbrev eAbsent : Nat := 0x0B

/-- The first check that fails, in the order given; OK with none (R46). -/
def firstErr : List (Bool × Nat) → Nat
  | [] => eOk
  | (b, e) :: r => if b then e else firstErr r

/-- Records a rejected Casda access in TILE_LAST_ERR of the issuing tile; `blk` is the register block, 0xFF for a
memory access (R45, R48). -/
def Ctl.lastErr (c : Ctl) (t blk code : Nat) : Ctl :=
  (c.put t TILE_LAST_ERR_BLOCK blk).put t TILE_LAST_ERR_CODE code

/-- Ends an access with a code: a Casda store leaves it in TILE_LAST_ERR when it is an error, a host gets it as its
status (R45). -/
def Ctl.answer (c : Ctl) (o : Origin) (blk code : Nat) : Ctl :=
  match o with
  | .casda t _ => if code = eOk then c else c.lastErr t blk code
  | .host _ _ => { c with status := code }

/-- The privilege level of a core: 1 System, 0 Application (R55). -/
def Ctl.level (c : Ctl) (t k : Nat) : Nat := c.get t CASDA_CORE_LEVEL_SYSTEM / 2 ^ k % 2

/-- Whether the accessor is Casda code of level System. -/
def Ctl.isSystem (c : Ctl) : Origin → Bool
  | .casda t i => c.level t (i.val / 64) == 1
  | .host _ _ => false

/-- Whether the accessor is Casda code of level Application. -/
def Ctl.isApp (c : Ctl) : Origin → Bool
  | .casda t i => c.level t (i.val / 64) == 0
  | .host _ _ => false

/-- Whether the accessor is a host role. -/
def isRole (o : Origin) (r : Role) : Bool :=
  match o with
  | .host q _ => decide (q = r)
  | _ => false

/-- System and the Engineer role, who write a register field whose chapter states no rights (R42). -/
def Ctl.mayConfig (c : Ctl) (o : Origin) : Bool := c.isSystem o || isRole o .engineer

/-- The number of a role in MOD_HOST_VIOL_INFO. -/
def roleNum : Role → Nat
  | .observer => 0
  | .operator => 1
  | .engineer => 2
  | .safety => 3
  | .management => 4

/-- An access above the accessor's rights: silent, counted, captured while VALID is clear (R44, R48, R49). -/
def Ctl.violate (c : Ctl) (o : Origin) (addr : Nat) (write : Bool) : Ctl :=
  match o with
  | .casda t i =>
    let c := c.inc t TILE_VIOL_COUNT_COUNT
    if c.flag t TILE_VIOL_INFO_VALID then c
    else c |>.put t TILE_VIOL_INFO_VALID 1 |>.put t TILE_VIOL_INFO_WRITE (b2n write)
      |>.put t TILE_VIOL_INFO_CORE (i.val / 64) |>.put t TILE_VIOL_INFO_TASK (i.val % 64)
      |>.put t TILE_VIOL_INFO_TILE (if addr / 2 ^ 36 % 16 = 15 then t.val else addr / 2 ^ 36 % 16)
      |>.put t TILE_VIOL_INFO_OFFSET_HI (bitsOf addr 32 4) |>.put t TILE_VIOL_ADDR_OFFSET_LO addr
  | .host r q =>
    let c := { c.inc 0 MOD_HOST_VIOL_COUNT_COUNT with status := eOk }
    if c.flag 0 MOD_HOST_VIOL_INFO_VALID then c
    else c |>.put 0 MOD_HOST_VIOL_INFO_VALID 1 |>.put 0 MOD_HOST_VIOL_INFO_ROLE (roleNum r)
      |>.put 0 MOD_HOST_VIOL_INFO_SESSION q

/-- Violations an accessor has been counted for (R44). -/
def Ctl.violations (c : Ctl) (o : Origin) : Nat :=
  match o with
  | .casda t _ => c.get t TILE_VIOL_COUNT_COUNT
  | .host _ _ => c.get 0 MOD_HOST_VIOL_COUNT_COUNT

/-- The violations of an accessor counted as `n`. -/
def Ctl.setViolations (c : Ctl) (o : Origin) (n : Nat) : Ctl :=
  match o with
  | .casda t _ => c.put t TILE_VIOL_COUNT_COUNT n
  | .host _ _ => c.put 0 MOD_HOST_VIOL_COUNT_COUNT n

/-- Whether an access counts a violation of the accessor, seen on a counter that starts at zero. -/
def violates (c : Ctl) (o : Origin) (f : Ctl → Ctl) : Bool := (f (c.setViolations o 0)).violations o != 0

/-! ## Events (R429 to R432, R437) -/

/-- Codes of severity CRITICAL, ERROR and WARNING (R431). -/
def criticalCodes : List Nat := [0x0107, 0x1013, 0x1030, 0x1032, 0x6001, 0x6005, 0x6006, 0x6010, 0xA001]
def errorCodes : List Nat :=
  [0x0106, 0x1012, 0x1021, 0x2051, 0x5001, 0x5002, 0x5003, 0x6007, 0x6008, 0x7204, 0x8003, 0x9002]
def warningCodes : List Nat :=
  [0x0102, 0x0103, 0x0105, 0x0120, 0x1010, 0x1011, 0x1014, 0x1015, 0x1020, 0x1024, 0x1025, 0x2001, 0x2002, 0x2010,
   0x2011, 0x2022, 0x2023, 0x2030, 0x3002, 0x3004, 0x3007, 0x4002, 0x4003, 0x4009, 0x400B, 0x5005, 0x5006, 0x6003,
   0x6004, 0x7102, 0x7103, 0x7107, 0x7108, 0x7201, 0x7207, 0x7208, 0x7209, 0x720A, 0x8002, 0x8005, 0x9003, 0xA003]

/-- The severity written into a record (R431). -/
def severityOf (code given : Nat) : Nat :=
  if code < 0xC000 then
    if criticalCodes.contains code then 5
    else if errorCodes.contains code then 4
    else if warningCodes.contains code then 3 else 2
  else given

/-- One more withheld record of a code (R437). -/
def Ctl.withhold (c : Ctl) (t code : Nat) : Ctl :=
  let k := t * 65536 + code
  ({ c with withheld := tabSet c.withheld k (tabGet 0 c.withheld k + 1) }).inc t EVT_COUNT_SUPPRESSED

/-- Whether station time is locked as a tile reports it: tile 0 in LOCKED or HOLDOVER and no lost strobe (R344, R347). -/
def Ctl.timeLocked (c : Ctl) (t : Nat) : Bool :=
  decide (2 ≤ c.get 0 TIME_STATE_STATE) && !c.flag t TIME_STATE_STROBE_LOST

/-- Presents a record to the recorder of a tile; a source's input queue holds 16, and a tile in reset or HELD records
nothing (R432, R434, R437). -/
def Ctl.present (c : Ctl) (t : Nat) (p : Presented) : Ctl :=
  if c.tileState t = tsHeld ∨ c.tileState t = tsOff then c
  else
    let q := tabGet [] c.presented t
    if 16 ≤ (q.filter (fun e => e.source == p.source)).length then c.withhold t p.code
    else
      let p := { p with
        optime := c.optime
        pcycle := c.get 0 TIME_PCYCLE_COUNT
        stnNs := if c.timeLocked t then tabGet 0 c.stnNs t else 0
        stnSec := if c.timeLocked t then tabGet 0 c.stnSec t else 0 }
      { c with presented := tabSet c.presented t (q ++ [p]) }

/-- Codes that System tasks raise: those of the estimator, the balancing planner and dispatch (R184, R226, R247, R429;
assumption 103). -/
def systemCode (code : Nat) : Bool := code / 4096 == 2 || code / 4096 == 3 || code / 4096 == 4

/-- An event of a hardware unit or of the reference image's System layer: block `k`, code, source cell ID, payload. -/
def Ctl.event (c : Ctl) (t k code : Nat) (cell : Nat := 0) (payload : List Byte := []) : Ctl :=
  c.present t { origin := if systemCode code then 1 else 0, source := k, code := code, severity := severityOf code 0, cell := cell, payload := payload }

/-- A record among others of its cycle: after those of blocks and cores up to its own (R432). -/
def insertRecord (p : Presented) : List Presented → List Presented
  | [] => [p]
  | x :: r => if p.source < x.source then p :: x :: r else x :: insertRecord p r

/-- The records that one command presents reach the recorders in one cycle: hardware units by ascending block, then cores; those
of one source as they were raised (R432; assumption 71). -/
def Ctl.sameCycle (before c : Ctl) : Ctl :=
  { c with presented := c.presented.map (fun e =>
      let old := tabGet [] before.presented e.1
      let old := if old.isPrefixOf e.2 then old else []
      (e.1, old ++ (e.2.drop old.length).foldl (fun l p => insertRecord p l) [])) }

end Sys2Proof.Machine
end

