-- ==== Sys2Proof/Machine/Operands.lean ====
section
/-! DEFINITION. Machine/Operands.lean: the operand forms: the instruction formats of R57, the scalar registers they name, the
target of a displacement, and the arguments of a CHP request. -/
namespace Sys2Proof.Machine

/-! ## Casda instructions -/

/-- Format A (R57). -/
def wordA (op d a b func : Nat) : Nat := op * 2 ^ 26 + d * 2 ^ 21 + a * 2 ^ 16 + b * 2 ^ 11 + func
/-- Formats I and M (R57). -/
def wordI (op d a imm : Nat) : Nat := op * 2 ^ 26 + d * 2 ^ 21 + a * 2 ^ 16 + imm

/-- Format V (R57). -/
def wordV (vd va vb p vfunc : Nat) : Nat :=
  0x3E * 2 ^ 26 + vd * 2 ^ 22 + va * 2 ^ 18 + vb * 2 ^ 14 + p * 2 ^ 11 + vfunc

/-- Format D (R57). -/
def wordD (d a unit dfunc : Nat) : Nat := 0x3F * 2 ^ 26 + d * 2 ^ 21 + a * 2 ^ 16 + unit * 2 ^ 8 + dfunc

/-- A scalar register of a task; s0 reads as zero (R52). -/
def Task.reg (k : Task) (n : Nat) : Word := if n = 0 then 0 else tabGet 0 k.s n

/-- A scalar register written; writes to s0 are discarded (R52). -/
def Task.setReg (k : Task) (n : Nat) (v : Word) : Task := if n = 0 then k else { k with s := tabSet k.s n v }

/-- A byte offset of the PC displaced by words, modulo 2^32. -/
def branchTarget (pc : Nat) (disp : Int) : Nat := (((pc : Int) + 4 + disp * 4) % 2 ^ 32).toNat

/-! ## CHP requests -/

/-- A request as its effect sees it: the accessor's role, session and slot, the SEQ, the protocol version and the
arguments. The side-band port uses slot 16 (R405). -/
structure Req where
  role : Role
  id : Nat
  slot : Nat
  seq : Nat
  v1 : Bool
  args : List Byte

/-- The origin of a request. -/
def Req.origin (r : Req) : Origin := .host r.role r.id

/-- A big-endian argument of `n` bytes at offset `p` of the arguments. -/
def Req.arg (r : Req) (p n : Nat) : Nat := beNat ((r.args.drop p).take n)

/-- The bytes of an argument. -/
def Req.bytes (r : Req) (p n : Nat) : List Byte := (r.args.drop p).take n

/-- A signed argument. -/
def Req.argInt (r : Req) (p n : Nat) : Int := toSigned (8 * n) (r.arg p n)

end Sys2Proof.Machine
end

