-- ==== Sys2Proof/Machine/Sched.lean ====
section
/-! DEFINITION. Machine/Sched.lean: tasks and the scheduler of the Casda cores: states, governor grants, triggers,
interrupt routes, waits, the vector claim and traps (R67 to R80, R87, R88, R331 to R333). -/
namespace Sys2Proof.Machine

/-- The module's memories and control state, as an operation that touches both takes and gives them. -/
abbrev MC := Mem × Ctl

/-- A change of the control state alone. -/
def MC.on (x : MC) (f : Ctl → Ctl) : MC := (x.1, f x.2)

/-- Task states (TASK_STATE.STATE, R67). -/
abbrev kEmpty : Nat := 0
/-- STOPPED. -/
abbrev kStopped : Nat := 1
/-- WAITING. -/
abbrev kWaiting : Nat := 2
/-- READY. -/
abbrev kReady : Nat := 3
/-- RUNNING. -/
abbrev kRunning : Nat := 4
/-- TRAPPED. -/
abbrev kTrapped : Nat := 5

/-- The context of a task slot. -/
def Ctl.task (c : Ctl) (t i : Nat) : Task := tabGet {} c.tasks (t * 256 + i)

/-- The context of a task slot changed. -/
def Ctl.setTask (c : Ctl) (t i : Nat) (k : Task) : Ctl := { c with tasks := tabSet c.tasks (t * 256 + i) k }

/-- The state of a task slot. -/
def Ctl.tstate (c : Ctl) (t i : Nat) : Nat := c.get t TASK_STATE_STATE i

/-- Whether a task is between activations. -/
def Ctl.waitsForTrigger (c : Ctl) (t i : Nat) : Bool :=
  c.tstate t i == kWaiting && c.get t TASK_STATE_WAIT_ON i == 0

/-- Whether a core is halted: on request, or in the pause of an activation (R83, R450). -/
def Ctl.halted (c : Ctl) (t k : Nat) : Bool := c.img.paused || bit (c.get t CASDA_CORE_CTRL_HALT) k

/-- Whether every core of a tile is halted, so that no Casda task runs on it (R25). -/
def Ctl.allHalted (c : Ctl) (t : Nat) : Bool := !anyN 4 (fun k => !c.halted t k)

/-- The estimator of a tile. -/
def Ctl.estOf (c : Ctl) (t : Nat) : Est := tabGet {} c.est t

/-- Whether a commit of one of the causes runs on a tile. -/
def Ctl.committing (c : Ctl) (t : Nat) (causes : List Nat) : Bool :=
  match (c.estOf t).commit with
  | some (k, _) => causes.contains k
  | none => false

/-- Whether no System task of a tile runs: Onyx runs its recovery service, its cores are halted, or a power-fail or eject commit
preempts them (R25, R216, R447). -/
def Ctl.systemHeld (c : Ctl) (t : Nat) : Bool := c.img.recovery || c.allHalted t || c.committing t [4, 7]

/-- Whether a core executes nothing: it is halted, or its System tasks are preempted (R83, R216). -/
def Ctl.coreHeld (c : Ctl) (t k : Nat) : Bool := c.halted t k || (c.level t k == 1 && c.committing t [4, 7])

/-- The task slots of a core. -/
def slotsOf (k : Nat) : List Nat := (List.range 64).map (fun n => k * 64 + n)

/-- The RUNNING task of a core. -/
def Ctl.runningTask (c : Ctl) (t k : Nat) : Option Nat := (slotsOf k).find? (fun i => c.tstate t i == kRunning)

/-- Makes a task READY, behind those that became READY before it (R71). -/
def Ctl.makeReady (c : Ctl) (t i : Nat) : Ctl :=
  let c := c.put t TASK_STATE_STATE kReady i
  { c.setTask t i { c.task t i with stamp := c.stamp } with stamp := c.stamp + 1 }

/-! ## Grants (R332, R333) -/

/-- The cost of a class in µJ (R332). -/
def classCost (k : Nat) : Nat :=
  match k with
  | 0 => 100
  | 1 => 1000
  | 2 => 10000
  | _ => 100000

/-- The bucket held within −DEPTH to +DEPTH, in µJ (R331). -/
def Ctl.setBucket (c : Ctl) (t : Nat) (v : Int) : Ctl :=
  c.putInt t PWR_BUCKET_B
    (clampInt (-(c.get t PWR_BUCKET_CFG_DEPTH * 1000 : Nat)) (c.get t PWR_BUCKET_CFG_DEPTH * 1000 : Nat) v)

/-- The grant rule for taking `cost` µJ at a priority (R332). -/
def Ctl.grants (c : Ctl) (t prio cost : Nat) : Bool :=
  decide (prio = 0)
  || (decide (prio ≤ c.get t PWR_BUCKET_CFG_RES_PRIO) && decide ((cost : Int) ≤ c.getInt t PWR_BUCKET_B))
  || (decide (c.get t PWR_BUCKET_CFG_RES_PRIO < prio)
      && decide ((c.get t PWR_BUCKET_CFG_RESERVE * 1000 + cost : Int) ≤ c.getInt t PWR_BUCKET_B))

/-- Grants the activation of a READY task if it has no grant yet and the rule allows; what it has already paid counts
(R332, R333); none where it is refused. -/
def Ctl.grantTask (c : Ctl) (t i : Nat) : Option Ctl :=
  let k := c.task t i
  if k.granted then some c
  else if c.grants t (c.get t TASK_CFG_PRIO i) (classCost k.cost - k.paid) then
    some ((c.setBucket t (c.getInt t PWR_BUCKET_B - (classCost k.cost - k.paid : Nat))).setTask t i
      { k with granted := true, paid := classCost k.cost })
  else none

/-- A refused task stays READY with GATED set (R72, R332, R336). -/
def Ctl.gate (c : Ctl) (t i : Nat) : Ctl :=
  let c := (c.put t TASK_STATE_GATED 1 i).inc t PWR_COUNT_GATED
  if c.get t PWR_LADDER_EST_TASK = i ∧ i ≠ 0xFF ∧ ¬ c.estGated.contains t then { c with estGated := t :: c.estGated }
  else c

/-- The READY task that comes first: lower priority number, then earlier stamp (R71). -/
def Ctl.before (c : Ctl) (t i j : Nat) : Bool :=
  decide (c.get t TASK_CFG_PRIO i < c.get t TASK_CFG_PRIO j)
  || (decide (c.get t TASK_CFG_PRIO i = c.get t TASK_CFG_PRIO j) && decide ((c.task t i).stamp < (c.task t j).stamp))

/-- Insertion in scheduling order. -/
def Ctl.insertTask (c : Ctl) (t i : Nat) : List Nat → List Nat
  | [] => [i]
  | j :: r => if c.before t i j then i :: j :: r else j :: c.insertTask t i r

/-- READY tasks of a core that may run, best first; a GATED one only when the governor considers it again. -/
def Ctl.readyTasks (c : Ctl) (t k : Nat) (again : Bool) : List Nat :=
  ((slotsOf k).filter (fun i => c.tstate t i == kReady && !c.flag t TASK_STATE_ACCESS i
    && (again || !c.flag t TASK_STATE_GATED i))).foldr (fun i l => c.insertTask t i l) []

/-- What the TIME operations of a tile read `ns` from now (R102, R346). -/
def Ctl.timeSnap (c : Ctl) (t ns : Nat) : TimeSnap :=
  { ns := (c.get t TIME_NS32_VALUE + ns) % 2 ^ 32
    stn := if c.timeLocked t then tabGet 0 c.stnSec t * 1000000000 + tabGet 0 c.stnNs t + ns else 0
    frame := c.get t TIME_FRAME_NUM_VALUE, frameNs := c.get t TIME_FRAME_NS32_VALUE, optime := c.optime }

/-- What a TIME operation of a task reads: as the first instruction of a fixed-latency entry what the cycle of ENTRY_TIME gave,
else what the moment gives (R102, R353). -/
def Ctl.taskTime (c : Ctl) (t i : Nat) : TimeSnap :=
  match (c.task t i).first with
  | some x => if (c.task t i).pc = c.get t TASK_ENTRY_ENTRY i * 4 then x else c.timeSnap t 0
  | none => c.timeSnap t 0

/-- A task starts or resumes running; the first time of its activation ENTRY_TIME is sampled, 12 core cycles after the
event for a fixed-latency entry (R78, R79). -/
def Ctl.enter (c : Ctl) (t i : Nat) : Ctl :=
  let k := c.task t i
  let k := if k.entered then k else
    { k with entered := true, entryTime := (c.get t TIME_NS32_VALUE + (if k.late then 0 else 20)) % 2 ^ 32
             first := if k.late then none else some (c.timeSnap t 20) }
  ((c.put t TASK_STATE_STATE kRunning i).put t TASK_STATE_GATED 0 i).setTask t i k

/-- The running task is preempted; a stalled access stays outstanding (R71, R73). -/
def Ctl.preempt (c : Ctl) (t i : Nat) : Ctl :=
  let c := c.makeReady t i
  if (c.task t i).wait = .fence then c.put t TASK_STATE_ACCESS 1 i else c

/-- The running task of a core stops where it is: an access or a result still outstanding sets ACCESS (R73, R83, R216). -/
def Ctl.suspend (c : Ctl) (t k : Nat) : Ctl :=
  match c.runningTask t k with
  | some i => if (c.task t i).wait = .none then c else c.put t TASK_STATE_ACCESS 1 i
  | none => c

/-- Runs the first granted task of the list; the others that come before it are gated. -/
def Ctl.pick (c : Ctl) (t : Nat) (run : Option Nat) : List Nat → Ctl
  | [] => c
  | i :: r =>
    if run.all (fun j => decide (c.get t TASK_CFG_PRIO i < c.get t TASK_CFG_PRIO j)) then
      match c.grantTask t i with
      | some c' => ((match run with | some j => c'.preempt t j | none => c')).enter t i
      | none => (c.gate t i).pick t run r
    else c

/-- The scheduler of a core: the best READY task the governor grants runs, preempting one of strictly lower priority
(R71, R72). -/
def Ctl.sched (c : Ctl) (t k : Nat) (again : Bool := false) : Ctl :=
  if c.coreHeld t k then c else c.pick t (c.runningTask t k) (c.readyTasks t k again)

/-! ## Activations and triggers (R68, R69) -/

/-- A task READY for an activation of the given cause. -/
def Ctl.activate (c : Ctl) (t i src : Nat) (late : Bool) : Ctl :=
  let k := { c.task t i with
    pc := c.get t TASK_ENTRY_ENTRY i * 4, addrExt := 0xF0, cost := c.get t TASK_CFG_COST i, entrySrc := src,
    late := late, cycles := 0, granted := false, paid := 0, entered := false, wait := .none, first := none }
  ((c.setTask t i k).put t TASK_STATE_WAIT_ON 0 i).incMod t TASK_STAT_ACTIVATIONS i |>.makeReady t i

/-- Whether an entry through a FIXED route is fixed-latency (R78). -/
def Ctl.fixedEntry (c : Ctl) (t i : Nat) : Bool :=
  c.waitsForTrigger t i && !c.coreHeld t (i / 64)
  && (c.runningTask t (i / 64)).all (fun j => decide (c.get t TASK_CFG_PRIO j ≠ 0))

/-- A trigger (R69). -/
def Ctl.trigger (c : Ctl) (t i src : Nat) (fixed : Bool := false) : Ctl :=
  let st := c.tstate t i
  if st = kEmpty then c
  else if st = kStopped then c.inc t TASK_STAT_LOST_TRIG i
  else if c.waitsForTrigger t i then (c.activate t i src !(fixed && c.fixedEntry t i)).sched t (i / 64)
  else if c.flag t TASK_STATE_PENDING i then c.inc t TASK_STAT_LOST_TRIG i
  else (c.put t TASK_STATE_PENDING 1 i).setTask t i { c.task t i with pendSrc := src }

/-- An interrupt source raised on a tile: it triggers the task its route binds (R77). -/
def Ctl.irq (c : Ctl) (t s : Nat) : Ctl :=
  if c.flag t CASDA_IRQ_ROUTE_EN s then
    c.trigger t (c.get t CASDA_IRQ_ROUTE_TASK s) s (c.flag t CASDA_IRQ_ROUTE_FIXED s)
  else c

/-- An interrupt source raised on every fitted tile. -/
def Ctl.irqAll (c : Ctl) (s : Nat) : Ctl := forN c.tiles (fun t c => c.irq t s) c

/-! ## Settlement (R333) -/

/-- Settles an activation that has paid, with the energy measured. -/
def Ctl.settle (c : Ctl) (t i : Nat) : Ctl :=
  let k := c.task t i
  if 0 < k.paid then
    let (e, c) := c.measure
    let cost := k.paid
    let c := c.setBucket t (c.getInt t PWR_BUCKET_B + (cost : Int) - (e : Int))
    let k := { k with granted := false, paid := 0 }
    if cost < e then
      let c := (c.inc t PWR_COUNT_OVERRUN).setTask t i { k with overruns := k.overruns + 1 }
      if (k.overruns + 1) % 1000 = 0 then c.event t 0x01 0x0102 0 (leBytes 1 i ++ leBytes 4 e) else c
    else c.setTask t i k
  else c

/-! ## The vector claim (R87, R88) -/

/-- The vector array of a tile. -/
def Ctl.vecOf (c : Ctl) (t : Nat) : VecArray := tabGet {} c.vec t

/-- The vector array of a tile changed. -/
def Ctl.setVec (c : Ctl) (t : Nat) (v : VecArray) : Ctl := { c with vec := tabSet c.vec t v }

/-- A vector instruction issues: its effect, and its entry in the issue queue with the bytes it stored; the core stalls on a
full queue until the oldest has completed (R95; assumption 7). -/
def Ctl.issue (c : Ctl) (t : Nat) (f : VecArray → VecArray) (load : Bool := false)
    (stored : List (Nat × Byte × Byte) := []) : Ctl :=
  let v := c.vecOf t
  c.setVec t { f v with
    queue := ({ v := v.v, p := v.p, flags := v.flags, load := load, stored := stored } :: v.queue).take 16 }

/-- Whether an instruction of the queue accesses memory. -/
def VecUndo.access (q : VecUndo) : Bool := q.load || !q.stored.isEmpty

/-- The vector loads and stores issued have taken effect, and with them what was issued before the latest of them (R95). -/
def VecArray.ordered (v : VecArray) : VecArray := { v with queue := v.queue.takeWhile (fun q => !q.access) }

/-- The vector loads and stores of a task take effect before what follows them in program order: its scalar loads, stores and
AMOs, and the end of its FENCE (R95, R100). -/
def Ctl.memOrder (c : Ctl) (t i : Nat) : Ctl :=
  if (c.vecOf t).holder = some i then c.setVec t (c.vecOf t).ordered else c

/-- Every vector instruction issued has completed (R88, R95). -/
def Ctl.drain (c : Ctl) (t : Nat) : Ctl := c.setVec t { c.vecOf t with queue := [] }

/-- The newest `n` instructions of the queue are discarded: the array stands as before the oldest of them. -/
def VecArray.undo (v : VecArray) (n : Nat) : VecArray :=
  match (v.queue.take n).getLast? with
  | none => v
  | some q => { v with v := q.v, p := q.p, flags := q.flags, queue := v.queue.drop n }

/-- Memory as the tile that issued them finds the DMA writes still on their way: its own accesses come after them on the same
path (R37, R421). -/
def Ctl.landed (c : Ctl) (m : Mem) (t : Nat) : Mem := (tabGet [] c.inFlight t).foldl (fun m e => memWrite m e.1 e.2) m

/-- The DMA writes of a tile that were on their way reach their memory controllers (R421). -/
def dmaLand (t : Nat) (x : MC) : MC := (x.2.landed x.1 t, { x.2 with inFlight := tabErase x.2.inFlight t })

/-- A discarded store leaves no byte: each takes back what stood there, unless another write has come since. -/
def unstore (m : Mem) (l : List (Nat × Byte × Byte)) : Mem :=
  l.foldl (fun m x => if memRead m x.1 = x.2.2 then memWrite m x.1 x.2.1 else m) m

/-- The newest `n` vector instructions of a tile's queue are discarded, with what they stored (R88, R112). -/
def vecUndo (m : Mem) (c : Ctl) (t n : Nat) : MC :=
  (((c.vecOf t).queue.take n).foldl (fun m q => unstore m q.stored) m, c.setVec t ((c.vecOf t).undo n))

/-- A KILL of the holder discards the vector instructions still queued; how many these are is a free value (R88; assumption
7). -/
def vecDiscard (m : Mem) (c : Ctl) (t i : Nat) : MC :=
  if (c.vecOf t).holder = some i ∧ (c.vecOf t).queue ≠ [] then
    vecUndo m c.free.2 t (c.free.1 % ((c.vecOf t).queue.length + 1))
  else (m, c)

/-- The wait of a task ends: the result goes to its register and it becomes READY (R68). -/
def Ctl.resume (c : Ctl) (t i : Nat) (v : Word) : Ctl :=
  let k := c.task t i
  ((c.setTask t i { k.setReg k.dest v with wait := .none }).put t TASK_STATE_WAIT_ON 0 i).makeReady t i
    |>.sched t (i / 64)

/-- A wait that ends with two results, in a register pair. -/
def Ctl.resume2 (c : Ctl) (t i : Nat) (v w : Word) : Ctl :=
  let k := c.task t i
  (c.setTask t i (k.setReg (k.dest + 1) w)).resume t i v

/-- A frame wait ends: ENTRY_SRC is 0x81 with LATE, ENTRY_TIME is sampled at the resumption (R99). -/
def Ctl.resumeFrame (c : Ctl) (t i : Nat) (v : Word) : Ctl :=
  (c.setTask t i { c.task t i with entrySrc := 0x81, late := true, entered := false }).resume t i v

/-- The waiting claimant served next: highest priority, then order of arrival (R87). -/
def Ctl.nextClaimant (c : Ctl) (t : Nat) : List Nat → Option Nat
  | [] => none
  | i :: r =>
    match c.nextClaimant t r with
    | some j => if c.get t TASK_CFG_PRIO j < c.get t TASK_CFG_PRIO i then some j else some i
    | none => some i

/-- The claim granted to a task: the registers and predicates are cleared (R87). -/
def Ctl.grantClaim (c : Ctl) (t i : Nat) : Ctl :=
  let v := c.vecOf t
  c.setVec t { v with v := [], p := [], holder := some i, waiters := v.waiters.filter (fun j => j != i) }

/-- A task that holds the claim gives it up once what it issued has completed; the next claimant gets it (R87, R88). -/
def Ctl.releaseClaim (c : Ctl) (t i : Nat) : Ctl :=
  let v := c.vecOf t
  if v.holder = some i then
    let c := c.setVec t { v with holder := none, queue := [] }
    match c.nextClaimant t v.waiters with
    | some j => (c.grantClaim t j).resume t j 0
    | none => c
  else c

/-! ## Stopping a task (R85) -/

/-- The task takes STOPPED: its waits end without effect, its claim is released, its activation settled, queued traps
remember it (R68, R76, R88, R333). -/
def Ctl.stopNow (c : Ctl) (t i : Nat) : Ctl :=
  let c := c.settle t i
  let c := c.put t TASK_STATE_STATE kStopped i |>.put t TASK_STATE_WAIT_ON 0 i |>.put t TASK_STATE_GATED 0 i
    |>.put t TASK_STATE_ACCESS 0 i
  let c := c.setTask t i { c.task t i with wait := .none, stopReq := false, granted := false }
  let c := c.setVec t { c.vecOf t with waiters := (c.vecOf t).waiters.filter (fun j => j != i) }
  let mark : Trap → Trap := fun p => if p.task = i then { p with stopped := true } else p
  let c := { c with traps := tabSet c.traps t ((tabGet [] c.traps t).map mark)
                    curTrap := tabSet c.curTrap t (mark (tabGet {} c.curTrap t)) }
  (c.releaseClaim t i).sched t (i / 64) true

end Sys2Proof.Machine
end

