-- ==== Sys2Proof/Machine/BerylCore.lean ====
section
/-! DEFINITION. Machine/BerylCore.lean: the safety functions' demands, the trip matrix and the lock-outs (R290 to R297). -/
namespace Sys2Proof.Machine

/-- Beryl of a tile. -/
def Ctl.bry (c : Ctl) (t : Nat) : Bry := tabGet {} c.beryl t

/-- Beryl of a tile changed. -/
def Ctl.setBry (c : Ctl) (t : Nat) (x : Bry) : Ctl := { c with beryl := tabSet c.beryl t x }

/-- BERYL_STATUS.STATE: SELFTEST, RUN, SAFE_HALT. -/
abbrev bySelftest : Nat := 0
abbrev byRun : Nat := 1
abbrev byHalt : Nat := 2

/-- A mask of the numbers below `n` that have the property. -/
def maskN (n : Nat) (f : Nat → Bool) : Nat := (List.range n).foldl (fun m i => if f i then m + 2 ^ i else m) 0

/-- Whether the limit checker that drives a section's lines is live: its own tile's in RUN, or the partner's while the
CARRY input is asserted (R295). -/
def Ctl.checkerLive (c : Ctl) (t : Nat) : Bool :=
  if c.carryIn.contains t then c.tileState (partner t) == tsRun else c.tileState t == tsRun

/-- Whether an input's verdict is a demand (R299, R300); a disabled input never demands (R291). -/
def Ctl.inputDemand (c : Ctl) (t i : Nat) : Bool :=
  let a := bit (c.get t BERYL_INPUT_CH_A) i
  let b := bit (c.get t BERYL_INPUT_CH_B) i
  c.flag t BERYL_PA_IN_EN i
    && ((!a && !b) || (a != b && c.flag t BERYL_PA_IN_FIRST_OPEN i) || bit (c.get t BERYL_INPUT_DISC_FAULT) i)

/-- A connection. -/
def Ctl.conn (c : Ctl) (t n : Nat) : Conn := tabGet {} (c.bry t).conns n

/-- A connection changed. -/
def Ctl.setConn (c : Ctl) (t n : Nat) (x : Conn) : Ctl :=
  c.setBry t { c.bry t with conns := tabSet (c.bry t).conns n x }

/-- The two channels of Beryl (R286, R287). -/
inductive BerylChannel where
  | a
  | b
deriving DecidableEq, Repr

/-- Whether an instance demands as a channel evaluates it: SF1 to SF3 from its own receivers, which the commands give both
channels alike (DEDUCED, assumption 93); SF4 channel A from the PDUs it checks, channel B from its own watchdog (R287, R290,
R294). -/
def Ctl.demandsAt (c : Ctl) (t : Nat) (k : BerylChannel) (i : Nat) : Bool :=
  if i < 0x20 then
    !bit (c.get t RING_TONE_TONE) i || !(c.get t RING_STATUS_STATE i == 3 || c.get t RING_STATUS_STATE i == 4)
  else if i < 0x28 then bit (c.get t LIMIT_TRIP_LINE) (i - 0x20) || !c.checkerLive t
  else if i < 0x30 then c.inputDemand t (i - 0x28)
  else c.flag t BERYL_PA_CONN_EN (i - 0x30) && c.get t BERYL_PA_CONN_KIND (i - 0x30) == 0
    && !(match k with | .a => c.flag t BERYL_CONN_STAT_LIVE (i - 0x30) | .b => (c.conn t (i - 0x30)).strobe)

/-- Whether an instance demands: either channel finds that it does. -/
def Ctl.demands (c : Ctl) (t i : Nat) : Bool := c.demandsAt t .a i || c.demandsAt t .b i

/-- Whether a cause of SF5 that a channel detects is present (R287, R296). -/
def Ctl.sf5At (c : Ctl) (t : Nat) : BerylChannel → Bool
  | .a => c.flag t BERYL_SF5_LOCKSTEP || c.flag t BERYL_SF5_ROM || c.flag t BERYL_SF5_RAM || c.flag t BERYL_SF5_PARAM
  | .b => c.flag t BERYL_SF5_CLOCK || c.flag t BERYL_SF5_SUPPLY || c.flag t BERYL_SF5_CROSS || c.flag t BERYL_SF5_PARAM

/-- Whether a cause of SF5 is present. -/
def Ctl.sf5 (c : Ctl) (t : Nat) : Bool := c.sf5At t .a || c.sf5At t .b

/-- Whether a channel judges that an output must be off: an instance mapped to it demands, or SF5 (R288, R291). -/
def Ctl.mustOpen (c : Ctl) (t o : Nat) (k : BerylChannel) : Bool :=
  anyN 64 (fun i => bit (c.get t BERYL_PA_MATRIX i) o && c.demandsAt t k i) || c.sf5At t k

/-- The instance that demands an output off: the lowest mapped one, 0x40 for SF5 alone (R291, R292). -/
def Ctl.outputDemand (c : Ctl) (t o : Nat) : Option Nat :=
  match (List.range 64).find? (fun i => bit (c.get t BERYL_PA_MATRIX i) o && c.demands t i) with
  | some i => some i
  | none => if c.sf5 t then some 0x40 else none

/-- An output whose switches are not both closed does not conduct; what waited for it is dropped. -/
def Ctl.outOff (c : Ctl) (t o : Nat) : Ctl :=
  let x := c.bry t
  let c := c.setBry t { x with
    hsDue := x.hsDue.filter (fun n => n != o)
    rbDue := x.rbDue.filter (fun n => n != o)
    pulse := tabErase x.pulse o }
  c.put t BERYL_OUT_ON 0 o |>.put t BERYL_STATUS_ON (setBit (c.get t BERYL_STATUS_ON) o false)

/-- A channel opens its switch of an output: A SOx_HS, B SOx_LS (R287, R288). -/
def Ctl.openSwitch (c : Ctl) (t o : Nat) : BerylChannel → Ctl
  | .a => ((c.setBry t { c.bry t with hs := setBit (c.bry t).hs o false }).put t BERYL_OUT_HS_RB 0 o).outOff t o
  | .b => ((c.setBry t { c.bry t with ls := setBit (c.bry t).ls o false }).put t BERYL_OUT_LS_RB 0 o).outOff t o

/-- Both switches of an output open. -/
def Ctl.openOut (c : Ctl) (t o : Nat) : Ctl := (c.openSwitch t o .a).openSwitch t o .b

/-- The lock-out of an output latches with its first cause (R292). -/
def Ctl.latchOut (c : Ctl) (t o cause : Nat) : Ctl :=
  c.put t BERYL_OUT_LOCKOUT 1 o |>.put t BERYL_OUT_FIRST_CAUSE cause o |>.inc t BERYL_OUT_TRIPS o
    |>.put t BERYL_STATUS_LOCKOUT (setBit (c.get t BERYL_STATUS_LOCKOUT) o true)

/-- Event 0x6001 with the mask of the outputs latched by one cause, and interrupt source 0x2D (R292, R316). -/
def Ctl.latchEvent (c : Ctl) (t mask cause : Nat) : Ctl :=
  (c.event t 0x0A 0x6001 (if cause < 0x20 then t * 2 ^ 18 + cause * 2 ^ 13 else 0)
    (leBytes 1 mask ++ leBytes 1 cause)).irq t 0x2D

/-- One event per cause that has latched outputs. -/
def Ctl.latchEvents (c : Ctl) (t : Nat) (l : List (Nat × Nat)) : Ctl :=
  (List.range 0x44).foldl (fun (c : Ctl) k =>
    let m := maskN 8 (fun o => l.contains (o, k))
    if m = 0 then c else c.latchEvent t m k) c

/-- The demand registers as the instances stand. -/
def Ctl.putDemands (c : Ctl) (t : Nat) : Ctl :=
  let d := c.demands t
  c.put t BERYL_DEMAND_RING_RING (maskN 32 d) |>.put t BERYL_DEMAND_LIMIT (maskN 8 (fun s => d (0x20 + s)))
    |>.put t BERYL_DEMAND_INPUT (maskN 8 (fun i => d (0x28 + i))) |>.put t BERYL_DEMAND_CONN (maskN 16 (fun n => d (0x30 + n)))

/-- The enabled outputs not in lock-out that are demanded off, with their cause. -/
def Ctl.newLatches (c : Ctl) (t : Nat) : List (Nat × Nat) :=
  ((List.range 8).filter (fun o => c.flag t BERYL_PA_OUT_EN o && !c.flag t BERYL_OUT_LOCKOUT o)).filterMap (fun o =>
    (c.outputDemand t o).map (fun k => (o, k)))

/-- A channel opens its switch of every enabled output that it judges must be off; in lock-out both are open already (R288).
-/
def Ctl.channelOpens (t : Nat) (k : BerylChannel) (c : Ctl) : Ctl :=
  ((List.range 8).filter (fun o => c.flag t BERYL_PA_OUT_EN o && !c.flag t BERYL_OUT_LOCKOUT o && c.mustOpen t o k)).foldl
    (fun (c : Ctl) o => c.openSwitch t o k) c

/-- Each channel judges the instances and opens its own switches; an output demanded off by either is then opened by both,
and its lock-out latches (R288, R291, R292). -/
def Ctl.judge (c : Ctl) (t : Nat) : Ctl :=
  if c.get t BERYL_STATUS_STATE = bySelftest then c
  else
    let c := c.putDemands t
    let l := c.newLatches t
    let c := Ctl.channelOpens t .b (Ctl.channelOpens t .a c)
    (l.foldl (fun (c : Ctl) e => (c.openOut t e.1).latchOut t e.1 e.2) c).latchEvents t l

/-- Beryl of every fitted tile judges. -/
def Ctl.judgeAll (c : Ctl) : Ctl := forN c.tiles (fun t (c : Ctl) => c.judge t) c

end Sys2Proof.Machine
end

