-- ==== Sys2Proof/Machine/RegBank.lean ====
section
/-! DEFINITION. Machine/RegBank.lean: registers by their offset: which register fields a word of a block holds, the word
as stored, and CRC-32C over register words (R34, R36, R113). -/
namespace Sys2Proof.Machine

/-- The block of a register key. -/
def keyBlk (key : Nat) : Nat := key / (32 * 65536) % 64
/-- The byte offset of a register key. -/
def keyOff (key : Nat) : Nat := key / 32 % 65536
/-- The tile of a register key. -/
def keyTile (key : Nat) : Nat := key / (32 * 65536 * 64)

/-- Indices of the element of a register that lies at byte offset `a`; none where it has none there. -/
def Reg.index (r : Reg) (a : Nat) : Option (Nat × Nat) :=
  if a < r.off then none
  else
    let d := a - r.off
    let i := if r.s2 < r.s1 then d / r.s1 else if r.s1 = 0 then 0 else (d % (if r.s2 = 0 then d + 1 else r.s2)) / r.s1
    let j := if r.s2 = 0 then 0 else if r.s2 < r.s1 then (d % r.s1) / r.s2 else d / r.s2
    if i < r.c1 ∧ j < r.c2 ∧ i * r.s1 + j * r.s2 = d then some (i, j) else none

/-- A field as a word of a block holds it: the field, its access code, its indices and the bit of the word it starts at. -/
structure FieldAt where
  field : Field
  acc : Acc
  i : Nat
  j : Nat
  bit : Nat
deriving DecidableEq, Repr

/-- The fields of a register that lie in the word at `off`. -/
def Reg.fieldsAt (r : Reg) (off : Nat) : List FieldAt :=
  ([0, 1, 2, 3].map (fun d =>
    if d % r.bytes = 0 then
      match r.index (off + d) with
      | some (i, j) => r.fields.map (fun f => ⟨f.1, f.2, i, j, f.1.lo + 8 * d⟩)
      | none => []
    else [])).flatten

/-- The fields of the word at `off` of block `k` of a tile; none at an unused offset. -/
def fieldsAt (k t off : Nat) : List FieldAt :=
  ((blockRegs k).map (fun r => if r.tile0 && t != 0 then [] else r.fieldsAt off)).flatten

/-- The word as the fields are kept. -/
def Ctl.rawWord (c : Ctl) (k t off : Nat) : Nat :=
  (fieldsAt k t off).foldl (fun w f => w + c.get t f.field f.i f.j * 2 ^ f.bit) 0

/-- The bits of a written word that fall to a field. -/
def FieldAt.of (f : FieldAt) (w : Nat) : Nat := bitsOf w f.bit f.field.width

/-- CRC-32C, one byte into the register of the reflected algorithm (R310). -/
def crc32cByte (crc : Nat) (b : Byte) : Nat :=
  (List.range 8).foldl (fun x _ => if x % 2 = 1 then x / 2 ^^^ 0x82F63B78 else x / 2) (crc ^^^ b.toNat)

/-- The CRC of R310 with the register loaded with `start`; R113's parameters are `start` = 0xFFFF_FFFF. -/
def crc32c (start : Nat) (l : List Byte) : Nat := l.foldl crc32cByte start ^^^ 0xFFFFFFFF

/-- The bytes of `n` words of a block from `off` on, in memory order. -/
def Ctl.rawBytes (c : Ctl) (k t off : Nat) (n : Nat) : List Byte :=
  ((List.range n).map (fun i => leBytes 4 (c.rawWord k t (off + 4 * i)))).flatten

end Sys2Proof.Machine
end

