-- ==== Sys2Proof/Machine/RecordCore.lean ====
section
/-! DEFINITION. Machine/RecordCore.lean: how a presented record is numbered, placed and queued for the tail, and how the
ring is restored from the tail (R429, R432 to R437). -/
namespace Sys2Proof.Machine

/-- Where the record of sequence number `q` lies in the DRAM ring (R432). -/
def ringAddr (t q : Nat) : Nat := modAddr t (0x60000000 + q % 1048576 * 64)

/-- Where it lies in the non-volatile tail (R435). -/
def tailAddr (t q : Nat) : Nat := modAddr t (0x10E000000 + q % 65536 * 64)

/-- The 64 bytes of a record (R429). -/
def recordBytes (p : Presented) (q supp : Nat) : List Byte :=
  leBytes 4 q ++ leBytes 2 p.code ++ leBytes 1 p.severity ++ leBytes 1 (0x80 + p.origin) ++ leBytes 4 p.cell
  ++ leBytes 6 p.optime ++ leBytes 3 p.pcycle ++ leBytes 1 0 ++ leBytes 2 (if supp < 65536 then supp else 65535)
  ++ leBytes 4 p.stnNs ++ leBytes 6 p.stnSec ++ leBytes 2 0
  ++ ((p.payload ++ List.replicate 24 0).take 24) ++ leBytes 4 q

/-- The valid code-table entry of a code, if any (R436). -/
def Ctl.codeEntry (c : Ctl) (t code : Nat) : Option Nat :=
  ((c.regs.filter (fun r => keyTile r.1 == t && keyBlk r.1 == 0x0D && decide (0x8000 ≤ keyOff r.1)
      && keyOff r.1 % 8 == 0 && r.1 % 32 == 31 && r.2 != 0)).map (fun r => (keyOff r.1 - 0x8000) / 8)).find?
    (fun e => c.get t EVT_CODE_CODE e == code)

/-- The bucket of a code: its own entry's, else that of its class (R436). -/
def Ctl.bucketOf (c : Ctl) (t code : Nat) : Nat :=
  match c.codeEntry t code with
  | some e => 4096 + e
  | none => code / 4096

/-- BURST of a bucket. -/
def Ctl.burst (c : Ctl) (t b : Nat) : Nat := if b < 4096 then c.get t EVT_CLASS_BURST b else c.get t EVT_CODE_BURST (b - 4096)

/-- Tokens of a bucket in 1/1,000; a bucket nothing has touched since the reset holds BURST (R436). -/
def Ctl.tokensOf (c : Ctl) (t b : Nat) : Nat := tabGet (c.burst t b * 1000) c.tokens (t * 8192 + b)

/-- Tokens of a bucket set. -/
def Ctl.setTokens (c : Ctl) (t b v : Nat) : Ctl := { c with tokens := tabSet c.tokens (t * 8192 + b) v }

/-- An accepted record goes to every EVENT subscription that takes it (R367). -/
def Ctl.feedSubs (c : Ctl) (t code severity : Nat) (bytes : List Byte) : Ctl :=
  { c with net := { c.net with subs := c.net.subs.map (fun e =>
      match e.2.kind with
      | .event tiles minSev classes =>
        if bit tiles t && decide (minSev ≤ severity) && bit classes (code / 4096) then
          (e.1, { e.2 with records := e.2.records ++ [(t, bytes)] })
        else e
      | _ => e) } }

/-- The tail queue takes a record; when it holds 4,096 its oldest entry is dropped, with event 0x0120 once per episode
(R435). -/
def Ctl.queueTail (c : Ctl) (t q : Nat) (bytes : List Byte) : Ctl :=
  let l := tabGet [] c.tailQueue t
  if l.length < 4096 then
    { c with tailQueue := tabSet c.tailQueue t (l ++ [(q, bytes)]), tailLost := c.tailLost.filter (fun x => x != t) }
  else
    let c := { c with tailQueue := tabSet c.tailQueue t (l.drop 1 ++ [(q, bytes)]) }
    let c := c.inc t EVT_COUNT_TAIL_LOST
    if c.tailLost.contains t then c
    else ({ c with tailLost := t :: c.tailLost } : Ctl).event t 0x0D 0x0120

/-- Interrupt source 0x2A once when EVT_SEQ − EVT_RPTR reaches COUNT (R439). -/
def Ctl.fillMark (c : Ctl) (t : Nat) : Ctl :=
  if c.flag t EVT_MARK_EN && !c.marked.contains t
      && decide ((c.get t EVT_MARK_COUNT : Int) ≤ frameDiff (c.get t EVT_SEQ_SEQ) (c.get t EVT_RPTR_SEQ)) then
    ({ c with marked := t :: c.marked } : Ctl).irq t 0x2A
  else c

/-- The first `n` of the three steps in which a record is written to its slot: SEQ at the end, the body, SEQ at the start
(R433). -/
def recordSteps (n : Nat) (m : Mem) (a : Nat) (b : List Byte) : Mem :=
  (([(0x3C, 4), (4, 0x38), (0, 4)] : List (Nat × Nat)).take n).foldl
    (fun m e => memStore m (a + e.1) ((b.drop e.1).take e.2)) m

/-- A presented record is withheld or accepted: numbered, with its bytes queued for the tail; the number and the bytes of an
accepted one (R432, R435 to R437). -/
def Ctl.acceptOne (c : Ctl) (t : Nat) (p : Presented) : Ctl × Option (Nat × List Byte) :=
  let b := c.bucketOf t p.code
  let tok := c.tokensOf t b
  if tok < 1000 ∧ p.severity ≠ 5 then (c.withhold t p.code, none)
  else
    let c := if 1000 ≤ tok then c.setTokens t b (tok - 1000) else c
    let q := c.get t EVT_SEQ_SEQ
    let k := t * 65536 + p.code
    let bytes := recordBytes p q (tabGet 0 c.withheld k)
    let c := { c with withheld := tabErase c.withheld k }
    let c := (c.incMod t EVT_SEQ_SEQ).feedSubs t p.code p.severity bytes
    ((c.queueTail t q bytes).fillMark t, some (q, bytes))

/-- A presented record in the recorder: an accepted one is written to the DRAM ring. The third component says whether it was
accepted. -/
def recordOne (m : Mem) (c : Ctl) (t : Nat) (p : Presented) : Mem × Ctl × Bool :=
  let x := c.acceptOne t p
  match x.2 with
  | none => (m, x.1, false)
  | some e => (recordSteps 3 m (ringAddr t e.1) e.2, x.1, true)

/-- Every record presented on a tile recorded, oldest first. -/
def recordAll (m : Mem) (c : Ctl) (t : Nat) : Mem × Ctl :=
  (tabGet [] c.presented t).foldl (fun (x : Mem × Ctl) p => let y := recordOne x.1 x.2 t p; (y.1, y.2.1))
    (m, { c with presented := tabErase c.presented t })

/-- The same as a reset of the tile begins, whose DRAM ring the next boot writes anew from the tail (R434, R435). -/
def Ctl.acceptAll (c : Ctl) (t : Nat) : Ctl :=
  (tabGet [] c.presented t).foldl (fun (c : Ctl) p => (c.acceptOne t p).1)
    { c with presented := tabErase c.presented t }

/-- The oldest record of the tail queue is written to the tail (R435). -/
def tailWrite (m : Mem) (c : Ctl) (t : Nat) : Mem × Ctl :=
  match tabGet [] c.tailQueue t with
  | [] => (m, c)
  | e :: r =>
    (recordSteps 3 m (tailAddr t e.1) e.2, ({ c with tailQueue := tabSet c.tailQueue t r } : Ctl).put t EVT_TAIL_SEQ_SEQ e.1)

/-- The whole tail queue written out (R435, R468). -/
def tailFlush (m : Mem) (c : Ctl) (t : Nat) : Mem × Ctl :=
  (tabGet [] c.tailQueue t).foldl (fun x _ => tailWrite x.1 x.2 t) (m, c)

/-- Power goes while a record is being written to the tail: its slot may hold any of the three steps done (R433). -/
def tailTorn (m : Mem) (c : Ctl) (t : Nat) : Mem × Ctl :=
  match tabGet [] c.tailQueue t with
  | [] => (m, c)
  | e :: _ => (recordSteps (c.free.1 % 4) m (tailAddr t e.1) e.2, c.free.2)

/-- What was presented is recorded and the tail queue written out (R435). -/
def settle (t : Nat) (x : MC) : MC :=
  let y := recordAll x.1 x.2 t
  tailFlush y.1 y.2 t

/-- Whether the 64 bytes of a tail slot are an intact record (R433). -/
def intact (m : Mem) (a : Nat) : Bool :=
  memNat m a 4 == memNat m (a + 0x3C) 4 && decide (128 ≤ (memRead m (a + 7)).toNat)

/-- The slots of a tile's tail that hold an intact record. -/
def tailSlots (m : Mem) (t : Nat) : List Nat :=
  let lo := modAddr t 0x10E000000
  (((m.filter (fun e => decide (lo ≤ e.1) && decide (e.1 < lo + 65536 * 64))).map
    (fun e => (e.1 - lo) / 64)).eraseDups).filter (fun n => intact m (lo + n * 64))

/-- The DRAM ring is cleared, and every intact record of the tail copied into its slot (R434). -/
def restoreDram (t : Nat) (m : Mem) : Mem :=
  let lo := modAddr t 0x10E000000
  (tailSlots m t).foldl (fun acc n =>
    memStore acc (ringAddr t (memNat m (lo + n * 64) 4)) (memBytes m (lo + n * 64) 64))
    (memClear m (modAddr t 0x60000000) (1048576 * 64))

/-- The highest SEQ of the intact records of the tail. -/
def newestSeq (m : Mem) (t : Nat) : Option Nat :=
  (tailSlots m t).foldl (fun (b : Option Nat) n =>
    let q := memNat m (modAddr t 0x10E000000 + n * 64) 4
    match b with
    | none => some q
    | some x => if 0 < frameDiff q x then some q else some x) none

/-- The recorder of a tile as the module starts, before anything on it can raise an event: the ring is restored, and SEQ
resumes one above the highest found (R434). -/
def restoreRing (t : Nat) (x : MC) : MC :=
  (restoreDram t x.1,
    match newestSeq x.1 t with
    | none => x.2
    | some q => x.2 |>.put t EVT_SEQ_SEQ (q + 1) |>.put t EVT_RPTR_SEQ (q + 1) |>.put t EVT_TAIL_SEQ_SEQ q)

end Sys2Proof.Machine
end

