-- ==== Sys2Proof/Machine/TileOps.lean ====
section
/-! DEFINITION. Machine/TileOps.lean: what a reset reaches (R467, R468), a tile that goes down, and the start of its
carry or the loss of its section (R457, R458, R486); traps, which can end in a tile fault (R74, R75). -/
namespace Sys2Proof.Machine

/-- The table without the entries of tile `t`, whose keys run from `t * d` to `t * d + d - 1`. -/
def dropTile {α : Type} (d t : Nat) (tab : Tab α) : Tab α := tab.filter (fun e => e.1 / d != t)

/-! ## The configuration store (R462, R470, R475; assumption 23) -/

/-- Active values that a commit puts into the store: frame period, string map, limit sets, loop parameters. -/
def activeConfig (k o : Nat) : Bool :=
  (k == 3 && decide (0x3000 ≤ o) && decide (o < 0x4000)) || (k == 4 && o == 0)
  || (k == 5 && decide (0x500 ≤ o) && decide (o < 0x700)) || (k == 9 && decide (0x5000 ≤ o) && decide (o < 0x9000))

/-- Writable fields that are no settings: pending copies, requests, data, and blocks that keep their configuration
elsewhere. -/
def noConfig (k o : Nat) : Bool :=
  k == 0 || k == 0x0A || k == 0x0B || k == 0x10 || k == 0x12 || k == 0x13
  || (k == 3 && decide (0x2000 ≤ o)) || (k == 4 && (decide (o < 8) || decide (0x30 ≤ o)))
  || (k == 5 && decide (0x100 ≤ o) && decide (o < 0x500))
  || (k == 9 && (decide (o < 0x9000) || (decide (0xE000 ≤ o) && decide (o < 0xE800))))
  || (k == 0x0C && decide (0x400 ≤ o % 0x2000) && decide (o % 0x2000 < 0x1200)) || (k == 0x0D && o == 8)

/-- Whether a register field is a setting that the configuration store holds. -/
def isConfig (t key : Nat) : Bool :=
  let k := keyBlk key
  let o := keyOff key
  let at_ := (fieldsAt k t (o / 4 * 4)).find? (fun f => f.field.key t f.i f.j == key)
  match at_ with
  | none => false
  | some f =>
    if k = 5 ∧ 0x500 ≤ o ∧ o < 0x700 ∧ o % 0x40 = 0x20 then false
    else if k = 4 ∧ o = 0 then f.acc == .ro else activeConfig k o || (f.acc == .rw && !noConfig k o)

/-- The settings of a tile as its accepted writes have stored them. -/
def Ctl.saveConfig (c : Ctl) (t : Nat) : Ctl :=
  { c with store := (c.regs.filter (fun e => keyTile e.1 == t && isConfig t e.1)).foldl (fun s e => tabSet s e.1 e.2) c.store }

/-- The period that frame generation runs at, which lies in tile 0's module domain (R23, R452, R469). -/
def framePeriodKey (key : Nat) : Bool := key == SMP_FRAME_CFG_PERIOD.key 0

/-- Fields that keep their value through a reset of this kind of the tile: those whose Meaning says so, the state of carry
itself, and on tile 0 the module domain (R10, R23, R48, R286, R339, R340, R434,
R452, R467). -/
def resetKeeps (kind : ResetKind) (t key : Nat) : Bool :=
  let b := keyBlk key
  let o := keyOff key
  let wide := kind = .power ∨ kind = .standby ∨ kind = .module
  if kind = .image then b != 0x10
  else
    (b == 0 && o == 0x008 && kind ≠ .power)
    || (b == 1 && o == 0x000 && decide (30 ≤ key % 32) && kind ≠ .power)
    || (b == 1 && o == 0x040)
    || (b == 2 && (o == 0x028 || o == 0x030 || o == 0x034))
    || (b == 0x0A && kind ≠ .power)
    || (b == 0x0D && (o == 0x000 || o == 0x004) && kind ≠ .power)
    || (b == 0x0E && !wide)
    || (b == 0x0F && !wide && o == 0x000)
    || (b == 0x12 && kind ≠ .power)
    || (t == 0 && !wide && (b == 0x11 || b == 0x13 || (b == 0x02 && decide (0x008 ≤ o) && decide (o < 0x100)) || framePeriodKey key))

/-- Blocks whose registers describe a section rather than the tile that serves it: RING, SMP, LIMIT, EST, BAL, DISP. -/
def sectionBlk (b : Nat) : Bool := decide (3 ≤ b) && decide (b ≤ 8)

/-- Whether the partner serves a tile's section, so that only a wide reset reaches what describes it (R475). -/
def Ctl.sectionStays (c : Ctl) (t : Nat) (kind : ResetKind) : Bool :=
  (c.get t CARRY_STATUS_STATE == 3 || c.get t CARRY_STATUS_STATE == 4)
  && !(kind = .power ∨ kind = .standby ∨ kind = .module)

/-- Bank dispatch as tile 0 takes it up again after its restart without carry: nothing accepted waits; the cycles, the LOCAL
entry in force and the figures of the last coordinated cycle stay (R252, R256). -/
def Bank.restarted (b : Bank) : Bank := { tick := b.tick, sec := b.sec, cyc := b.cyc, late := b.late, sums := b.sums }

/-- The same where a section that no tile serves any more is tile 0's. -/
def Ctl.bankDown (c : Ctl) (t : Nat) : Ctl := if t = 0 then { c with bank := c.bank.restarted } else c

/-- What outlives a reset of a ring's tile: the tone receivers of its ends, which lie in Beryl's domain (R286, R453). -/
def Rng.receivers (g : Rng) : Rng := { toneLostHead := g.toneLostHead, toneLostTail := g.toneLostTail }

/-- What describes a section beside its registers goes; confirmed open wires are in the configuration store and stay. -/
def Ctl.dropSection (c : Ctl) (t : Nat) : Ctl :=
  { c with
    rings := (c.rings.map (fun e => if e.1 / 32 = t then (e.1, e.2.receivers) else e)).filter
        (fun e => e.1 / 32 != t || e.2 != {})
    found := dropTile 16384 t c.found
    identity := dropTile 16384 t c.identity
    ow := (c.ow.map (fun e => if e.1 / 16384 = t then (e.1, ({ confirmed := e.2.confirmed } : Ow)) else e)).filter
        (fun e => e.1 / 16384 != t || e.2.confirmed != [])
    lims := dropTile (16384 * 4096) t c.lims
    limCommit := dropTile 8 t c.limCommit
    selAct := dropTile 32 t c.selAct
    raw := dropTile 16384 t c.raw
    bursts := dropTile 1 t c.bursts
    outliers := dropTile (3 * 2 ^ 18) t c.outliers
    frameOpen := c.frameOpen.filter (fun x => x != t)
    strx := dropTile 1024 t c.strx
    cellx := dropTile (2 ^ 18) t c.cellx
    headFrom := dropTile 16384 t c.headFrom
    oldMaps := dropTile 32 t c.oldMaps
    staleDue := c.staleDue.filter (fun x => x / 16384 != t)
    manual := dropTile 16384 t c.manual
    cycles := dropTile 32 t c.cycles
    learns := dropTile 32 t c.learns
    balBefore := dropTile 1 t c.balBefore
    heatEp := c.heatEp.filter (fun x => x / 32 != t)
    balReduced := c.balReduced.filter (fun x => x / 32 != t)
    perts := dropTile 4 t c.perts
    rests := dropTile 1 t c.rests
    restLast := dropTile 1 t c.restLast
    latch := dropTile 1024 t c.latch
    setPts := dropTile 1024 t c.setPts }

/-- A reset reaches a tile: its registers take their reset values but for those kept, and what it held is discarded. What was
presented is accepted first; the tail queue holds it until it is written out, at the latest by the tile's next boot (R434,
R435, R468; assumption 102). -/
def Ctl.resetTile (c : Ctl) (t : Nat) (kind : ResetKind) : Ctl :=
  let sec := c.sectionStays t kind
  let c := if kind = .image then c else c.acceptAll t
  let seq := c.get t EVT_SEQ_SEQ
  let c := if kind = .image then c else c.saveConfig t
  let c := { c with
    regs := c.regs.filter (fun e => keyTile e.1 != t || resetKeeps kind t e.1 || (sec && sectionBlk (keyBlk e.1)))
    tasks := dropTile 256 t c.tasks
    traps := dropTile 1 t c.traps
    curTrap := dropTile 1 t c.curTrap
    mbox := dropTile 16 t c.mbox
    vec := dropTile 1 t c.vec }
  if kind = .image then c
  else
    let c := (if sec then c else c.dropSection t).put t EVT_RPTR_SEQ seq
    { c with
      ticks := dropTile 1 t c.ticks
      energy := dropTile 1 t c.energy
      bucketHalf := dropTile 1 t c.bucketHalf
      tokens := dropTile 8192 t c.tokens
      withheld := dropTile 65536 t c.withheld
      tailLost := c.tailLost.filter (fun x => x != t)
      marked := c.marked.filter (fun x => x != t)
      estGated := c.estGated.filter (fun x => x != t)
      cleanFrames := dropTile 1 t c.cleanFrames
      est := dropTile 1 t c.est
      planDue := c.planDue.filter (fun x => x != t)
      syncRef := dropTile 8 t c.syncRef
      followed := c.followed.filter (fun x => x / 8 != t)
      canTry := dropTile 8 t c.canTry
      canFifo := dropTile 16 t c.canFifo
      canOvf := c.canOvf.filter (fun x => x / 16 != t)
      canDet := dropTile 8 t c.canDet
      canStop := c.canStop.filter (fun x => x / 8 != t)
      chans := dropTile 64 t c.chans
      loopWait := dropTile 64 t c.loopWait
      traces := dropTile 8 t c.traces
      slots := dropTile 32 t c.slots
      lone := dropTile 1 t c.lone
      bank := if t = 0 ∧ ¬ c.hasCarry then c.bank.restarted else c.bank
      dma := dropTile 16 t c.dma
      dmaTurn := dropTile 4 t c.dmaTurn
      dmaHalts := dropTile 1 t c.dmaHalts
      beryl := if kind = .power then dropTile 1 t c.beryl else c.beryl
      stnNs := if t = 0 ∧ (kind = .watchdog ∨ kind = .fault) then c.stnNs else dropTile 1 t c.stnNs
      stnSec := if t = 0 ∧ (kind = .watchdog ∨ kind = .fault) then c.stnSec else dropTile 1 t c.stnSec }

/-! ## Carry (R453 to R458, R466, R486) -/

/-- CARRY_STATUS states (R466). -/
abbrev csNone : Nat := 0
abbrev csHandover : Nat := 1
abbrev csServing : Nat := 2
abbrev csCarried : Nat := 3
abbrev csHandback : Nat := 4
abbrev csUnserved : Nat := 5

/-- CARRY_STATUS.STATE of a tile. -/
def Ctl.carry (c : Ctl) (t : Nat) : Nat := c.get t CARRY_STATUS_STATE

/-- CARRY_STATUS of a tile set; every change of STATE raises interrupt source 0x2F (R466). -/
def Ctl.setCarry (c : Ctl) (t st cause : Nat) : Ctl :=
  let c' := (c.put t CARRY_STATUS_STATE st).put t CARRY_STATUS_CAUSE cause
  if c.carry t = st then c' else c'.irq t 0x2F

/-- Whether a tile serves its partner's section. -/
def Ctl.serves (c : Ctl) (t : Nat) : Bool := c.hasCarry && c.carry t == csServing

/-- A setting of a tile accepted or a commit of it in force is copied into its partner's configuration store, which counts the
copies (R453, R462). -/
def Ctl.configCopied (c : Ctl) (t : Nat) : Ctl := if c.hasCarry then c.incMod (partner t) CARRY_CFG_GEN_VALUE else c

/-- Where an event about a tile's section is recorded: its partner while the tile is down and the partner runs. -/
def Ctl.recorderOf (c : Ctl) (t : Nat) : Nat := if !c.running t && c.running (partner t) then partner t else t

/-- The tile numbers of a module-wide interrupt or change on IMG_STATUS.STAGE (R448). -/
def Ctl.setStage (c : Ctl) (st : Stage) : Ctl :=
  if c.img.stage = st then c else ({ c with img := { c.img with stage := st } }).irqAll 0x2E

/-- A write of the boot record: the copy that held the older record takes the new one, with the next GEN (R446). -/
def Ctl.writeBoot (c : Ctl) (b : BootRecord) : Ctl :=
  { c with img := { c.img with bootPrev := c.img.boot, boot := { b with gen := (c.img.boot.gen + 1) % 2 ^ 32 } } }

/-- TRIAL becomes VERIFIED in both banks. -/
def BootRecord.untrial (b : BootRecord) : BootRecord :=
  { b with stateA := if b.stateA = .trial then .verified else b.stateA
           stateB := if b.stateB = .trial then .verified else b.stateB }

/-- The operating time and the power-cycle count, which the store holds beside the settings (R351). -/
def timeKey (key : Nat) : Bool := keyBlk key == 2 && (keyOff key == 0x2C || keyOff key == 0x30 || keyOff key == 0x34)

/-- A fall-back with LEGACY_CFG set: the settings written in the trial that have no counterpart in the confirmed image's
format are left out, and event 0xB014 gives their number; LOOP status REQ follows the active MODE_REQ (R285, R461, R462). -/
def Ctl.legacyBack (c : Ctl) : Ctl :=
  if !c.img.boot.legacyCfg then c
  else
    let c := forN c.tiles (fun t (c : Ctl) => c.saveConfig t) c
    let old := c.img.cfgTrial
    let out := (c.store.filter (fun e => tabFind old e.1 != some e.2 && !timeKey e.1 && !Config.legacyKeeps e.1)).map (fun e => e.1)
    let back : Tab Nat → Nat → Tab Nat := fun r k =>
      match tabFind old k with
      | some v => tabSet r k v
      | none => tabErase r k
    let c := { c with store := out.foldl back c.store, regs := out.foldl back c.regs }
    let c := forN c.tiles (fun t (c : Ctl) => forN 64 (fun ch (c : Ctl) =>
      c.put t LOOP_CH_REQ (c.get t (LOOP_ACTIVE 0) ch) ch) c) c
    c.event 0 0x0E 0xB014 0 (leBytes 4 out.length)

/-- A rolling activation is abandoned (R457, R461 cause 3): the boot record first, then every tile on the new image
restarts on the confirmed bank at the next frame instant. -/
def Ctl.abandonRolling (c : Ctl) : Ctl :=
  if c.img.stage = .activating ∧ c.img.boot.rolling then
    let c := c.writeBoot { c.img.boot.untrial with rolling := false, pending := false }
    let c := { c with img := { c.img with rollTile := none, revert := true, legacyRead := c.img.boot.legacyLv } }
    let c := c.legacyBack
    let c := (c.event 0 0x0E 0xB009).event 0 0x0E 0xB008 0 (leBytes 1 3)
    (c.inc 0 IMG_COUNT_FALLBACK).setStage .verified
  else c

/-- CARRY_CTRL.AUTO of a tile as it was set before its reset, which has stored it (R458, R475). -/
def Ctl.carryAuto (c : Ctl) (t : Nat) : Bool := tabGet 1 c.store (CARRY_CTRL_AUTO.key t) != 0

/-- A tile that goes down stops serving or is carried: what becomes of the sections (R458, R486). `cause` is 2 for a
fault, 3 for MOD_TILE_CTRL; `wasRun` says that the tile was in RUN. -/
def Ctl.carryDown (c : Ctl) (t cause : Nat) (wasRun : Bool) : Ctl :=
  if !c.hasCarry then c
  else
    let p := partner t
    if c.carry t = csServing ∨ (c.carry t = csHandover ∧ wasRun ∧ ¬ c.running p) then
      -- The serving tile goes down: both sections are unserved (R486).
      let c := c.dropSection p
      let c := { c with regs := c.regs.filter (fun e => !(keyTile e.1 == p && sectionBlk (keyBlk e.1)) || framePeriodKey e.1) }
      let c := Ctl.bankDown (Ctl.bankDown { c with carryIn := c.carryIn.filter (fun x => x != p) } p) t
      (((c.setCarry t csUnserved cause).setCarry p csUnserved (c.get p CARRY_STATUS_CAUSE)).event p 0x0F 0xB012).event p
        0x0F 0xB012
    else if c.carry t = csHandback then
      Ctl.setCarry { c with readySet := c.readySet.filter (fun x => x != t) } t csCarried (c.get t CARRY_STATUS_CAUSE)
    else if c.carry t = csHandover ∨ c.carry t = csCarried then c
    else if c.carry t = csUnserved then
      { c with reserving := c.reserving.filter (fun x => x != t), readySet := c.readySet.filter (fun x => x != t) }
    else if c.carryAuto t ∧ c.running p ∧ c.carry p = csNone then
      (c.setCarry t csHandover cause).setCarry p csHandover cause
    else ((c.bankDown t).setCarry t csUnserved cause).event p 0x0F 0xB012

/-- One more FAULT entry within 10 min (R458). -/
def Ctl.countFault (c : Ctl) (t : Nat) : Ctl :=
  let l := c.optime :: (tabGet [] c.faultTimes t).filter (fun x => decide (c.optime < x + 600000))
  let c := { c with faultTimes := tabSet c.faultTimes t l }
  if 3 ≤ l.length ∧ ¬ c.stuck.contains t ∧ c.hasCarry then
    Ctl.event { c with stuck := t :: c.stuck } (c.recorderOf t) 0x0F 0xB013
  else c

/-- What a hand-over after a fault takes of a section: the registers of its blocks, without the limit checker's state, its
rings, and the sessions and rests those registers show (R453, R530). -/
def Ctl.saveSection (c : Ctl) (t : Nat) : Ctl :=
  { c with handed := tabSet c.handed t {
      regs := c.regs.filter (fun e => keyTile e.1 == t && sectionBlk (keyBlk e.1)
        && !(keyBlk e.1 == 5 && decide (keyOff e.1 < 0x0C)) && !framePeriodKey e.1)
      rings := c.rings.filter (fun e => e.1 / 32 == t)
      perts := c.perts.filter (fun e => e.1 / 4 == t)
      rests := tabGet [] c.rests t } }

/-- The snapshot goes unless a hand-over takes it. -/
def Ctl.keepSection (c : Ctl) (t : Nat) : Ctl :=
  if c.carry t = csHandover then c else { c with handed := tabErase c.handed t }

/-- A tile goes down: the snapshot of one in RUN, the reset, its state and cause bit, then the carry of one that enters FAULT or
was in RUN. While its section is carried its STATE reads CARRIED, as R453 has it, also where it is held, which R49 calls
HELD (R50, R458, R467, R472; DESIGN CHOICE, assumption 106). -/
def Ctl.tileDown (c : Ctl) (t : Nat) (F : Field) (kind : ResetKind) (st cause : Nat) : Ctl :=
  let wasRun := c.running t
  let c := if wasRun && c.hasCarry then c.saveSection t else c
  let st := if c.carry t = csCarried ∨ c.carry t = csHandback then tsCarried else st
  let c := c.resetTile t kind
  let c := (c.put t F 1).put t TILE_STATUS_STATE st
  let c := if cause = 2 then c.countFault t else c
  ((if wasRun ∨ cause = 2 ∨ c.carry t ≠ csNone then c.carryDown t cause wasRun else c).keepSection t).judgeAll

/-- A tile enters FAULT and restarts; on the SKV7288 its partner carries the section where R458 allows. `F` is the
reset cause (R75, R82, R328, R330, R458). -/
def Ctl.tileFault (c : Ctl) (t : Nat) (F : Field) (kind : ResetKind) : Ctl :=
  c.sameCycle (c.abandonRolling.tileDown t F kind tsFault 2)

/-! ## Traps (R74 to R76) -/

/-- The activation of the trap task takes the trap at the head of the queue. -/
def Ctl.nextTrap (c : Ctl) (t : Nat) : Ctl :=
  match tabGet [] c.traps t with
  | [] => c
  | p :: r => { c with curTrap := tabSet c.curTrap t p, traps := tabSet c.traps t r }

/-- A trap of task `i` at its instruction. -/
def Ctl.takeTrap (c : Ctl) (t i cause val : Nat) : Ctl :=
  let c := c.inc t CASDA_TRAP_COUNT_COUNT
  if i = 0 then c.tileFault t TILE_RESET_CAUSE_FAULT .fault
  else
    let c := c.put t TASK_STATE_STATE kTrapped i
    let p : Trap := { cause := cause, pc := (c.task t i).pc, val := val, task := i }
    let c := { c with traps := tabSet c.traps t (tabGet [] c.traps t ++ [p]) }
    let (v, c) := c.free
    let starts := c.waitsForTrigger t 0
    let c := c.trigger t 0 (v % 256)
    let c := if starts then c.nextTrap t else c
    c.sched t (i / 64)

end Sys2Proof.Machine
end

