-- ==== Sys2Proof/Machine/Scalar.lean ====
section
/-! DEFINITION. Machine/Scalar.lean: the scalar instructions that touch no memory, the task commands and the CASDA
register writes with an effect (R56 to R85). An instruction is executed by the RUNNING task of its core; on a halted
core, on a core that runs nothing, and for a task the core holds at a stall, nothing happens (assumption 6). -/
namespace Sys2Proof.Machine

/-! ## Running one instruction -/

/-- Executes an instruction of the RUNNING task of a core: fetch beyond local memory traps FETCH, an illegal word traps
ILLEGAL, both before any effect (R53, R58, R74). -/
def Ctl.instr (c : Ctl) (t k word : Nat) (illegal : Bool) (f : Nat → Ctl → Ctl) : Ctl :=
  match c.runningTask t k with
  | none => c
  | some i =>
    if c.coreHeld t k ∨ (c.task t i).wait ≠ .none then c
    else if 0x40000 ≤ (c.task t i).pc then c.takeTrap t i 0x02 (c.task t i).pc
    else if illegal then c.takeTrap t i 0x01 word
    else f i c

/-- An instruction that may write memory, run by the RUNNING task of a core as `Ctl.instr` runs one. -/
def instrM (m : Mem) (c : Ctl) (t k word : Nat) (illegal : Bool) (f : Nat → Ctl → Mem × Ctl) : Mem × Ctl :=
  match c.runningTask t k with
  | none => (m, c)
  | some i =>
    if c.coreHeld t k ∨ (c.task t i).wait ≠ .none ∨ 0x40000 ≤ (c.task t i).pc ∨ illegal then
      (m, c.instr t k word illegal (fun _ c => c))
    else f i c

/-- The instruction retires: its register result is written and the PC moves to `pc`. -/
def Ctl.retireTo (c : Ctl) (t i d : Nat) (v : Word) (pc : Nat) : Ctl :=
  c.setTask t i { (c.task t i).setReg d v with pc := pc, first := none }

/-- The instruction retires into `s[d]` and the PC moves past it. -/
def Ctl.retire (c : Ctl) (t i d : Nat) (v : Word) : Ctl := c.retireTo t i d v ((c.task t i).pc + 4)

/-- The instruction retires without a result. -/
def Ctl.next (c : Ctl) (t i : Nat) : Ctl := c.setTask t i { c.task t i with pc := (c.task t i).pc + 4, first := none }

/-! ## ALU (R60 to R62) -/

/-- A 32-bit signed value saturated (R61). -/
def satWord (x : Int) : Word := BitVec.ofInt 32 (clampInt (-(2 ^ 31 : Int)) (2 ^ 31 - 1 : Int) x)

/-- Leading zeros (R61). -/
def clzWord (x : Word) : Nat := 32 - (if x = 0 then 0 else Nat.log2 x.toNat + 1)

/-- Set bits (R61). -/
def popWord (x : Word) : Nat := countN 32 (fun i => x.toNat.testBit i)

/-- Byte order reversed (R61). -/
def bswapWord (x : Word) : Word := BitVec.ofNat 32 (beNat (leBytes 4 x.toNat))

/-- Signed division toward zero, with the corners of R62. -/
def divWord (x y : Word) : Word := if y = 0 then BitVec.allOnes 32 else BitVec.sdiv x y
/-- Signed remainder, with the corners of R62. -/
def remWord (x y : Word) : Word := if y = 0 then x else BitVec.srem x y

/-- The ALU group: the function of `s[a]`, `s[b]` and the b field; none for a func that is not assigned (R61). -/
def aluFn (func : Nat) (x y : Word) (b : Nat) : Option Word :=
  match func with
  | 0x000 => some (x + y)
  | 0x001 => some (x - y)
  | 0x002 => some (x &&& y)
  | 0x003 => some (x ||| y)
  | 0x004 => some (x ^^^ y)
  | 0x005 => some (~~~(x ||| y))
  | 0x006 => some (if x.slt y then 1 else 0)
  | 0x007 => some (if x.ult y then 1 else 0)
  | 0x008 => some (x <<< (y.toNat % 32))
  | 0x009 => some (x >>> (y.toNat % 32))
  | 0x00A => some (x.sshiftRight (y.toNat % 32))
  | 0x00C => some (x <<< b)
  | 0x00D => some (x >>> b)
  | 0x00E => some (x.sshiftRight b)
  | 0x010 => some (x * y)
  | 0x011 => some (BitVec.ofInt 32 (x.toInt * y.toInt / 2 ^ 32))
  | 0x012 => some (BitVec.ofNat 32 (x.toNat * y.toNat / 2 ^ 32))
  | 0x013 => some (satWord (x.toInt * y.toInt / 2 ^ 16))
  | 0x014 => some (divWord x y)
  | 0x015 => some (if y = 0 then BitVec.allOnes 32 else x.udiv y)
  | 0x016 => some (remWord x y)
  | 0x017 => some (if y = 0 then x else x.umod y)
  | 0x018 => some (if x.slt y then x else y)
  | 0x019 => some (if x.slt y then y else x)
  | 0x01A => some (if x.ult y then x else y)
  | 0x01B => some (if x.ult y then y else x)
  | 0x020 => some (satWord (x.toInt + y.toInt))
  | 0x021 => some (satWord (x.toInt - y.toInt))
  | 0x024 => some (BitVec.ofNat 32 (clzWord x))
  | 0x025 => some (BitVec.ofNat 32 (popWord x))
  | 0x026 => some (bswapWord x)
  | _ => none

/-- Unary functions require b = 0 (R61). -/
def aluUnary (func : Nat) : Bool := func == 0x024 || func == 0x025 || func == 0x026

/-- ALU group (R61). -/
def execAluOp (t : TileId) (k : CoreId) (d a b : Fin 32) (func : Fin 2048) (s : State) :
    Host.Outcome State Fault Refusal :=
  s.onTile t (fun c => c.instr t k (wordA 0x00 d a b func)
    ((aluFn func 0 0 b).isNone || (aluUnary func && decide (b.val ≠ 0)))
    (fun i c => c.retire t i d
      ((aluFn func ((c.task t i).reg a) ((c.task t i).reg b) b).getD 0)))

/-- The primary opcode of an immediate instruction (R60). -/
def immOpcode : ImmOp → Nat
  | .addi => 0x01
  | .andi => 0x02
  | .ori => 0x03
  | .xori => 0x04
  | .slti => 0x05
  | .sltiu => 0x06
  | .lui => 0x07

/-- The result of an immediate instruction (R60). -/
def immFn (op : ImmOp) (x : Word) (imm : BitVec 16) : Word :=
  match op with
  | .addi => x + imm.signExtend 32
  | .andi => x &&& imm.zeroExtend 32
  | .ori => x ||| imm.zeroExtend 32
  | .xori => x ^^^ imm.zeroExtend 32
  | .slti => if x.slt (imm.signExtend 32) then 1 else 0
  | .sltiu => if x.ult (imm.signExtend 32) then 1 else 0
  | .lui => imm.zeroExtend 32 <<< 16

/-- ADDI, ANDI, ORI, XORI, SLTI, SLTIU and LUI; LUI with a ≠ 0 is illegal (R58, R60). -/
def execAluImmediate (t : TileId) (k : CoreId) (op : ImmOp) (d a : Fin 32) (imm : BitVec 16) (s : State) :
    Host.Outcome State Fault Refusal :=
  s.onTile t (fun c => c.instr t k (wordI (immOpcode op) d a imm.toNat) (decide (op = .lui) && decide (a.val ≠ 0))
    (fun i c => c.retire t i d (immFn op ((c.task t i).reg a) imm)))

/-! ## Control flow (R59, R60) -/

/-- Whether a branch is taken (R60). -/
def branchTaken (op : BranchOp) (x y : Word) : Bool :=
  match op with
  | .beq => x = y
  | .bne => x ≠ y
  | .blt => x.slt y
  | .bge => !x.slt y
  | .bltu => x.ult y
  | .bgeu => !x.ult y

/-- A conditional branch (R59, R60). -/
def execBranch (t : TileId) (k : CoreId) (op : BranchOp) (a b : Fin 32) (disp : BitVec 16) (s : State) :
    Host.Outcome State Fault Refusal :=
  s.onTile t (fun c => c.instr t k 0 false (fun i c =>
    c.setTask t i { c.task t i with
      pc := if branchTaken op ((c.task t i).reg a) ((c.task t i).reg b)
        then branchTarget (c.task t i).pc disp.toInt else (c.task t i).pc + 4
      first := none }))

/-- J (R59, R60). -/
def execJump (t : TileId) (k : CoreId) (disp : BitVec 26) (s : State) : Host.Outcome State Fault Refusal :=
  s.onTile t (fun c => c.instr t k 0 false (fun i c =>
    c.setTask t i { c.task t i with pc := branchTarget (c.task t i).pc disp.toInt, first := none }))

/-- JAL: s31 takes the return address (R60). -/
def execJal (t : TileId) (k : CoreId) (disp : BitVec 26) (s : State) : Host.Outcome State Fault Refusal :=
  s.onTile t (fun c => c.instr t k 0 false (fun i c =>
    c.retireTo t i 31 (BitVec.ofNat 32 ((c.task t i).pc + 4)) (branchTarget (c.task t i).pc disp.toInt)))

/-- JALR: the target is formed before s[d] is written; its bits [1:0] are cleared (R60). -/
def execJalr (t : TileId) (k : CoreId) (d a : Fin 32) (imm : BitVec 16) (s : State) :
    Host.Outcome State Fault Refusal :=
  s.onTile t (fun c => c.instr t k 0 false (fun i c =>
    c.retireTo t i d (BitVec.ofNat 32 ((c.task t i).pc + 4))
      (((c.task t i).reg a + imm.signExtend 32).toNat / 4 * 4)))

/-- NOP (R64). A word whose opcode, func, unit or dfunc is not assigned traps ILLEGAL (R58, R97). -/
def execNop (t : TileId) (w : CoreWord) (s : State) : Host.Outcome State Fault Refusal :=
  s.onTile t (fun c => c.instr t w.core w.word.toNat (decide (w.word ≠ 0xC0000000#32)) (fun i c => c.next t i))

/-! ## Special registers (R56) -/

/-- The task that runs as the origin of an access. -/
def taskOrigin (t : TileId) (i : Nat) : Origin := .casda t ⟨i % 256, Nat.mod_lt _ (by decide)⟩

/-- A special register as a task reads it; 0x09 to 0x0C are those of the trap being handled, System only (R56). -/
def Ctl.special (c : Ctl) (t i sel : Nat) : Nat :=
  let k := c.task t i
  let p := tabGet {} c.curTrap t
  match sel with
  | 0x00 => k.pc
  | 0x01 => k.addrExt
  | 0x02 => i
  | 0x03 => c.level t (i / 64)
  | 0x04 => c.get t TASK_CFG_PRIO i
  | 0x05 => k.cost
  | 0x06 => k.entryTime
  | 0x07 => b2n k.late * 2 ^ 31 + k.entrySrc
  | 0x09 => p.cause
  | 0x0A => p.pc
  | 0x0B => p.val
  | 0x0C => b2n p.stopped * 256 + p.task
  | _ => 0

/-- MFS: CYCLES is a free value, since the model counts no cycles; an Application task that reads a trap register reads
zero and counts a violation (R44, R56, R64). -/
def execMfs (t : TileId) (k : CoreId) (d : Fin 32) (b : SysFields) (s : State) : Host.Outcome State Fault Refusal :=
  s.onTile t (fun c => c.instr t k (wordA 0x30 d b.unused b.use 0x001) (decide (b.unused.val ≠ 0)) (fun i c =>
    if b.use.val = 0x08 then
      let (v, c) := c.free
      c.retire t i d (BitVec.ofNat 32 v)
    else if 0x09 ≤ b.use.val ∧ b.use.val ≤ 0x0C ∧ c.level t k = 0 then
      let (v, c) := c.free
      (c.violate (taskOrigin t i) v false).retire t i d 0
    else c.retire t i d (BitVec.ofNat 32 (c.special t i b.use))))

/-- MTS: ADDR_EXT alone is writable; other selectors ignore the write, and an Application write above its level is a
violation (R44, R56, R64). -/
def execMts (t : TileId) (k : CoreId) (a : Fin 32) (b : SysFields) (s : State) : Host.Outcome State Fault Refusal :=
  s.onTile t (fun c => c.instr t k (wordA 0x30 b.unused a b.use 0x002) (decide (b.unused.val ≠ 0)) (fun i c =>
    if b.use.val = 0x01 then
      (c.setTask t i { c.task t i with addrExt := ((c.task t i).reg a).toNat % 256 }).next t i
    else if 0x09 ≤ b.use.val ∧ b.use.val ≤ 0x0C ∧ c.level t k = 0 then
      let (v, c) := c.free
      (c.violate (taskOrigin t i) v true).next t i
    else c.next t i))

/-! ## The end of an activation, traps and triggers (R64, R68 to R70, R74) -/

/-- An activation of the trap task takes the oldest queued trap (R74). -/
def Ctl.activateTask (c : Ctl) (t i src : Nat) : Ctl :=
  let c := c.activate t i src true
  if i = 0 then c.nextTrap t else c

/-- TEND: settlement, release of the claim, and the state the task takes: STOPPED if ONESHOT, READY again if PENDING or,
for the trap task, while traps are queued, else WAITING for a trigger (R68, R70, R74, R88, R333). A ONESHOT task with PENDING set
stops, as R70 has it and R68 does not: the trigger stays PENDING and is not counted lost (DESIGN CHOICE, assumption 108). -/
def Ctl.tend (c : Ctl) (t i : Nat) : Ctl :=
  let c := (c.settle t i).releaseClaim t i
  let c :=
    if c.flag t TASK_CFG_ONESHOT i then c.put t TASK_STATE_STATE kStopped i
    else if c.flag t TASK_STATE_PENDING i then
      (c.put t TASK_STATE_PENDING 0 i).activateTask t i (c.task t i).pendSrc
    else if i = 0 ∧ tabGet [] c.traps t ≠ [] then
      let (v, c) := c.free
      c.activateTask t i (v % 256)
    else (c.put t TASK_STATE_STATE kWaiting i).put t TASK_STATE_WAIT_ON 0 i
  c.sched t (i / 64) true

/-- TEND (R68). -/
def execTend (t : TileId) (w : CoreFields) (s : State) : Host.Outcome State Fault Refusal :=
  s.onTile t (fun c => c.instr t w.core (wordA 0x30 w.d w.a w.b 0x003)
    (decide (w.d.val ≠ 0) || decide (w.a.val ≠ 0) || decide (w.b.val ≠ 0)) (fun i c => (c.next t i).tend t i))

/-- TRET: only the trap task may resume; OK, or E_STATE when the named task is no longer TRAPPED (R64, R74). -/
def execTret (t : TileId) (k : CoreId) (d a b : Fin 32) (s : State) : Host.Outcome State Fault Refusal :=
  s.onTile t (fun c => c.instr t k (wordA 0x30 d a b 0x004) (c.runningTask t k != some 0) (fun i c =>
    let j := ((c.task t i).reg a).toNat % 256
    let pc := ((c.task t i).reg b).toNat / 4 * 4
    if c.tstate t j = kTrapped then
      let c := c.retire t i d 0
      ((c.setTask t j { c.task t j with pc := pc, first := none }).makeReady t j).sched t (j / 64)
    else c.retire t i d (BitVec.ofNat 32 eState)))

/-- The check of a trigger made by a command: E_ABSENT for an EMPTY slot, E_STATE for a STOPPED task (R68, R85). The
trigger is lost there all the same and LOST_TRIG counts it (R69, R70; DEDUCED, assumption 75). -/
def Ctl.triggerCode (c : Ctl) (t i : Nat) : Nat :=
  if c.tstate t i = kEmpty then eAbsent else if c.tstate t i = kStopped then eState else eOk

/-- TRIG (R64, R69). -/
def execTrig (t : TileId) (k : CoreId) (d : Fin 32) (a : SysFields) (s : State) : Host.Outcome State Fault Refusal :=
  s.onTile t (fun c => c.instr t k (wordA 0x30 d a.use a.unused 0x005) (decide (a.unused.val ≠ 0)) (fun i c =>
    let j := ((c.task t i).reg a.use).toNat % 256
    let e := c.triggerCode t j
    (c.retire t i d (BitVec.ofNat 32 e)).trigger t j 0x80))

/-! ## Task commands (R68, R69, R85) -/

/-- The address of a register of the CASDA block. -/
def casdaAddr (t off : Nat) : Nat := modAddr t (0x200100000 + off)

/-- CASDA_TASK_CMD: System and Engineer issue every command, Application only TRIGGER to tasks of Application cores
(R84). -/
def Ctl.mayTaskCmd (c : Ctl) (o : Origin) (cmd t i : Nat) : Bool :=
  c.mayConfig o || (c.isApp o && cmd == 3 && c.level t (i / 64) == 0)

/-- The checks of a task command (R46, R85). -/
def Ctl.taskCmdCode (c : Ctl) (t cmd i : Nat) : Nat :=
  firstErr [(c.tstate t i == kEmpty, eAbsent), (cmd == 0 || decide (4 < cmd), eRange),
    ((cmd == 2 || cmd == 4) && i == 0, eLocked),
    (cmd == 1 && c.tstate t i != kStopped, eState), (cmd == 3 && c.tstate t i == kStopped, eState)]

/-- START: READY for the first activation, registers zero, no trigger latched (R68). -/
def Ctl.taskStart (c : Ctl) (t i : Nat) : Ctl :=
  let c := c.setTask t i { c.task t i with s := [], overruns := 0 }
  let c := (c.put t TASK_STATE_PENDING 0 i).put t TASK_STAT_ACTIVATIONS 0 i
  (c.activateTask t i 0x82).sched t (i / 64)

/-- STOP: at the next instruction boundary, after the outstanding device operation of a RUNNING task (R85). -/
def Ctl.taskStop (c : Ctl) (t i : Nat) : Ctl :=
  if c.tstate t i = kRunning ∧ (c.task t i).wait ≠ .none then c.setTask t i { c.task t i with stopReq := true }
  else c.stopNow t i

/-- A write of CASDA_TASK_CMD and its code (R84, R85). -/
def Ctl.taskCmd (c : Ctl) (o : Origin) (t cmd i : Nat) : Ctl × Nat :=
  if !c.mayTaskCmd o cmd t i then (c.violate o (casdaAddr t 0x014) true, eOk)
  else
    let e := c.taskCmdCode t cmd i
    if e ≠ eOk then (if cmd = 3 then c.trigger t i 0x80 else c, e)
    else
      match cmd with
      | 1 => (c.taskStart t i, eOk)
      | 2 => (c.taskStop t i, eOk)
      | 3 => (c.trigger t i 0x80, eOk)
      | _ => (c.stopNow t i, eOk)

/-- A task command, which may write memory: a KILL first discards the vector instructions its task has queued, with what they
stored (R85, R88). -/
def taskCmdM (m : Mem) (c : Ctl) (o : Origin) (t cmd i : Nat) : MC × Nat :=
  let x := if cmd = 4 ∧ c.mayTaskCmd o cmd t i ∧ c.taskCmdCode t cmd i = eOk then vecDiscard m c t i else (m, c)
  let y := x.2.taskCmd o t cmd i
  ((x.1, y.1), y.2)

/-- Whether an accessor reaches a tile: one in RUN (R33), or, for the code of a CARRIED tile, its own (R455; assumption 25).
-/
def Ctl.reachedBy (c : Ctl) (o : Origin) (t : Nat) : Bool :=
  c.running t || (match o with
    | .casda u _ => u.val == t && c.live t
    | .host _ _ => false)

/-- An access made by `o` to a block of a tile, with its code answered as R45 says. Where the tile cannot be reached the
answer is E_ABSENT (R33), but an access above the accessor's rights stays silent (R44, R46). -/
def Ctl.access (c : Ctl) (o : Origin) (t blk : Nat) (f : Ctl → Ctl × Nat) : Ctl :=
  if c.reachedBy o t then (f c).1.answer o blk (f c).2
  else if violates c o (fun c => (f c).1) then (f c).1
  else c.answer o blk eAbsent

/-- An access that may write memory, with its code answered as R45 says. -/
def accessM (m : Mem) (c : Ctl) (o : Origin) (t blk : Nat) (f : Mem → Ctl → MC × Nat) : MC :=
  if c.reachedBy o t then ((f m c).1.1, (f m c).1.2.answer o blk (f m c).2)
  else if violates c o (fun c => (f m c).1.2) then (m, (f m c).1.2)
  else (m, c.answer o blk eAbsent)

/-- TASK_CMD START. -/
def execTaskStart (t : TileId) (o : Origin) (i : TaskId) (s : State) : Host.Outcome State Fault Refusal :=
  s.onAccess o (fun c => c.access o t 0x10 (fun c => c.taskCmd o t 1 i))
/-- TASK_CMD STOP. -/
def execTaskStop (t : TileId) (o : Origin) (i : TaskId) (s : State) : Host.Outcome State Fault Refusal :=
  s.onAccess o (fun c => c.access o t 0x10 (fun c => c.taskCmd o t 2 i))
/-- TASK_CMD TRIGGER. -/
def execTaskTrigger (t : TileId) (o : Origin) (i : TaskId) (s : State) : Host.Outcome State Fault Refusal :=
  s.onAccess o (fun c => c.access o t 0x10 (fun c => c.taskCmd o t 3 i))
/-- TASK_CMD KILL. -/
def execTaskKill (t : TileId) (o : Origin) (i : TaskId) (s : State) : Host.Outcome State Fault Refusal :=
  s.onAccessM o (fun m c => accessM m c o t 0x10 (fun m c => taskCmdM m c o t 4 i))

/-! ## CASDA register writes (R77, R78, R80 to R85) -/

/-- Whether a FIXED route is bound to a task. -/
def Ctl.fixedBound (c : Ctl) (t i : Nat) : Bool :=
  anyN 64 (fun r => c.flag t CASDA_IRQ_ROUTE_FIXED r && c.get t CASDA_IRQ_ROUTE_TASK r == i)

/-- A write of TASK_CFG: System, or Engineer for a task of an Application core and without changing VALID; fields other
than VALID only while STOPPED; the combinations of R78 and R72 (R84, R85; assumption 8). -/
def Ctl.taskCfgWrite (c : Ctl) (o : Origin) (t i w : Nat) : Ctl × Nat :=
  let valid := bitsOf w 31 1
  let cost := bitsOf w 28 2
  let prio := bitsOf w 24 4
  let one := bitsOf w 23 1
  let st := c.tstate t i
  let vchg := valid != c.get t TASK_CFG_VALID i
  let fchg := cost != c.get t TASK_CFG_COST i || prio != c.get t TASK_CFG_PRIO i || one != c.get t TASK_CFG_ONESHOT i
  if !(c.isSystem o || (isRole o .engineer && c.level t (i / 64) == 0 && !vchg)) then
    (c.violate o (casdaAddr t (0x1000 + i * 16)) true, eOk)
  else
    let e := firstErr [(prio == 0 && cost != 0, eRange), (c.fixedBound t i && (prio != 0 || cost != 0), eRange),
      (fchg && st != kStopped, eState), (vchg && valid == 0 && st != kStopped, eState)]
    if e ≠ eOk then (c, e)
    else
      let c := c.put t TASK_CFG_VALID valid i |>.put t TASK_CFG_COST cost i |>.put t TASK_CFG_PRIO prio i
        |>.put t TASK_CFG_ONESHOT one i
      if !vchg then (c, eOk)
      else (c.put t TASK_STATE_STATE (if valid = 1 then kStopped else kEmpty) i, eOk)

/-- A write to TASK_CFG. -/
def execTaskCfgWrite (t : TileId) (o : Origin) (i : TaskId) (w : Word) (s : State) : Host.Outcome State Fault Refusal :=
  s.onAccess o (fun c => c.access o t 0x10 (fun c => c.taskCfgWrite o t i w.toNat))

/-- A write of TASK_ENTRY, while STOPPED only (R85). -/
def Ctl.taskEntryWrite (c : Ctl) (o : Origin) (t i w : Nat) : Ctl × Nat :=
  if !(c.isSystem o || (isRole o .engineer && c.level t (i / 64) == 0)) then
    (c.violate o (casdaAddr t (0x1004 + i * 16)) true, eOk)
  else if c.tstate t i ≠ kStopped then (c, eState)
  else (c.put t TASK_ENTRY_ENTRY (bitsOf w 2 16) i, eOk)

/-- A write of CASDA_CORE_CTRL: the HALT bits; a halt is in force at once, HALTED follows, and a core released runs its
scheduler on (R83). -/
def Ctl.coreCtrlWrite (c : Ctl) (o : Origin) (t w : Nat) : Ctl × Nat :=
  if !c.isSystem o then (c.violate o (casdaAddr t 0) true, eOk)
  else
    let old := c.get t CASDA_CORE_CTRL_HALT
    let new := w % 16
    let mark : Nat → Ctl → Ctl := fun k c =>
      if bit new k && !bit old k then c.suspend t k
      else if !bit new k && bit old k then
        let c := c.put t CASDA_CORE_CTRL_HALTED (setBit (c.get t CASDA_CORE_CTRL_HALTED) k false)
        c.sched t k
      else c
    (forN 4 mark (c.put t CASDA_CORE_CTRL_HALT new), eOk)

/-- Sets the HALT bit of a core. -/
def execCoreHalt (t : TileId) (o : Origin) (k : CoreId) (s : State) : Host.Outcome State Fault Refusal :=
  s.onAccess o (fun c => c.access o t 0x10 (fun c => c.coreCtrlWrite o t (setBit (c.get t CASDA_CORE_CTRL_HALT) k true)))

/-- The cores of a tile run on where a pause had halted them; HALTED stays with those whose HALT bit is set (R83, R450). -/
def Ctl.runOn (c : Ctl) (t : Nat) : Ctl :=
  forN 4 (fun k (c : Ctl) =>
    (c.put t CASDA_CORE_CTRL_HALTED (setBit (c.get t CASDA_CORE_CTRL_HALTED) k
      (bit (c.get t CASDA_CORE_CTRL_HALTED) k && bit (c.get t CASDA_CORE_CTRL_HALT) k))).sched t k) c

/-- HALTED follows once the running task of a halted core has no access outstanding (R83). -/
def execCoreHalted (t : TileId) (k : CoreId) (s : State) : Host.Outcome State Fault Refusal :=
  s.onTile t (fun c =>
    if c.halted t k && (c.runningTask t k).all (fun i => decide ((c.task t i).wait = .none)) then
      c.put t CASDA_CORE_CTRL_HALTED (setBit (c.get t CASDA_CORE_CTRL_HALTED) k true)
    else c)

/-- Clears the HALT bit of a core. -/
def execCoreResume (t : TileId) (o : Origin) (k : CoreId) (s : State) : Host.Outcome State Fault Refusal :=
  s.onAccess o (fun c => c.access o t 0x10 (fun c => c.coreCtrlWrite o t (setBit (c.get t CASDA_CORE_CTRL_HALT) k false)))

/-- A write of CASDA_WDOG_CFG: PERIOD is locked once EN is set, and EN stays set (R82). A write that repeats the PERIOD in
force changes nothing and is accepted (R84; DESIGN CHOICE, assumption 76). -/
def Ctl.wdogCfgWrite (c : Ctl) (o : Origin) (t w : Nat) : Ctl × Nat :=
  let p := w % 2 ^ 14
  if !c.isSystem o then (c.violate o (casdaAddr t 0x008) true, eOk)
  else
    let e := firstErr [(decide (p < 10) || decide (10000 < p), eRange),
      (c.flag t CASDA_WDOG_CFG_EN && p != c.get t CASDA_WDOG_CFG_PERIOD, eLocked)]
    if e ≠ eOk then (c, e)
    else
      let c := c.put t CASDA_WDOG_CFG_PERIOD p
      if bit w 31 && !c.flag t CASDA_WDOG_CFG_EN then
        ((c.put t CASDA_WDOG_CFG_EN 1).put t CASDA_WDOG_REMAIN_MS p, eOk)
      else (c, eOk)

/-- Sets CASDA_WDOG_CFG.EN with a period. -/
def execWdogEnable (t : TileId) (o : Origin) (period : BitVec 14) (s : State) : Host.Outcome State Fault Refusal :=
  s.onAccess o (fun c => c.access o t 0x10 (fun c => c.wdogCfgWrite o t (2 ^ 31 + period.toNat)))

/-- A write of CASDA_WDOG_KICK: 0x0000_5A17 reloads the watchdog, any other value is ignored (R82). -/
def Ctl.wdogKick (c : Ctl) (o : Origin) (t w : Nat) : Ctl × Nat :=
  if !c.isSystem o then (c.violate o (casdaAddr t 0x00C) true, eOk)
  else if w = 0x5A17 ∧ c.flag t CASDA_WDOG_CFG_EN then
    (c.put t CASDA_WDOG_REMAIN_MS (c.get t CASDA_WDOG_CFG_PERIOD), eOk)
  else (c, eOk)

/-- A write to CASDA_WDOG_KICK. -/
def execWdogKick (t : TileId) (o : Origin) (w : Word) (s : State) : Host.Outcome State Fault Refusal :=
  s.onAccess o (fun c => c.access o t 0x10 (fun c => c.wdogKick o t w.toNat))

/-- The watchdog expires: the tile restarts with WATCHDOG set, after carry on the SKV7288 (R82). -/
def execWdogExpiry (t : TileId) (s : State) : Host.Outcome State Fault Refusal :=
  s.onTile t (fun c => if c.flag t CASDA_WDOG_CFG_EN then c.tileFault t TILE_RESET_CAUSE_WATCHDOG .watchdog else c)

/-- A write of CASDA_TIMERn_PERIOD (R81). -/
def Ctl.timerWrite (c : Ctl) (o : Origin) (t n w : Nat) : Ctl × Nat :=
  if !c.mayConfig o then (c.violate o (casdaAddr t (0x020 + n * 4)) true, eOk)
  else if w ≠ 0 ∧ (w < 10 ∨ 60000000 < w) then (c, eRange)
  else (c.put t CASDA_TIMER_PERIOD_PERIOD w n, eOk)

/-- A write to CASDA_TIMERn_PERIOD. -/
def execCasdaTimerWrite (t : TileId) (o : Origin) (n : Fin 4) (w : Word) (s : State) :
    Host.Outcome State Fault Refusal :=
  s.onAccess o (fun c => c.access o t 0x10 (fun c => c.timerWrite o t n w.toNat))

/-- A timer period elapses: interrupt source 0x30 + n (R77, R81). -/
def execCasdaTimerExpiry (t : TileId) (n : Fin 4) (s : State) : Host.Outcome State Fault Refusal :=
  s.onTile t (fun c => if c.get t CASDA_TIMER_PERIOD_PERIOD n = 0 then c else c.irq t (0x30 + n.val))

/-- The FIFO of a mailbox. -/
def Ctl.mailbox (c : Ctl) (t m : Nat) : List Nat := tabGet [] c.mbox (t * 16 + m)

/-- The FIFO of a mailbox changed; COUNT follows it (R80). -/
def Ctl.setMailbox (c : Ctl) (t m : Nat) (l : List Nat) : Ctl :=
  ({ c with mbox := tabSet c.mbox (t * 16 + m) l }).put t CASDA_MBOX_CFG_COUNT l.length m

/-- Whether a mailbox is bound to a task of an Application core. -/
def Ctl.mboxApp (c : Ctl) (t m : Nat) : Bool := c.level t (c.get t CASDA_MBOX_CFG_TASK m / 64) == 0

/-- A write of CASDA_MBOX_POST_m (R80, R84). -/
def Ctl.mboxPost (c : Ctl) (o : Origin) (t m w : Nat) : Ctl × Nat :=
  if !(c.isSystem o || (c.isApp o && c.mboxApp t m) || isRole o .operator || isRole o .engineer
      || isRole o .management) then (c.violate o (casdaAddr t (0x100 + m * 8)) true, eOk)
  else if ¬ c.flag t CASDA_MBOX_CFG_EN m ∨ 16 ≤ (c.mailbox t m).length then (c, eBusy)
  else ((c.setMailbox t m (c.mailbox t m ++ [w % 2 ^ 31])).trigger t (c.get t CASDA_MBOX_CFG_TASK m) (0x40 + m), eOk)

/-- A write to CASDA_MBOX_POST_m. -/
def execMboxPost (t : TileId) (o : Origin) (m : Fin 16) (w : Word) (s : State) : Host.Outcome State Fault Refusal :=
  s.onAccess o (fun c => c.access o t 0x10 (fun c => c.mboxPost o t m w.toNat))

/-- A read of CASDA_MBOX_POP_m: the head word with bit 31 set, or zero; a host read removes nothing (R80, R85). -/
def Ctl.mboxPop (c : Ctl) (o : Origin) (t m : Nat) : Ctl × Nat :=
  match o with
  | .host _ _ => (c, 0)
  | .casda _ _ =>
    if !(c.isSystem o || c.mboxApp t m) then (c.violate o (casdaAddr t (0x104 + m * 8)) false, 0)
    else
      match c.mailbox t m with
      | [] => (c, 0)
      | w :: r => (c.setMailbox t m r, 2 ^ 31 + w)

/-- A read of CASDA_MBOX_POP_m. -/
def execMboxPop (t : TileId) (o : Origin) (m : Fin 16) (s : State) : Host.Outcome State Fault Refusal :=
  s.onAccess o (fun c =>
    let x := if c.reachedBy o t then c.mboxPop o t m else (c.access o t 0x10 (fun c => ((c.mboxPop o t m).1, eOk)), 0)
    { x.1 with data := x.2 })

/-- A write of CASDA_MBOX_CFG_m: clearing EN empties the FIFO (R84). -/
def Ctl.mboxCfgWrite (c : Ctl) (o : Origin) (t m w : Nat) : Ctl × Nat :=
  if !c.isSystem o then (c.violate o (casdaAddr t (0x200 + m * 4)) true, eOk)
  else
    let c := (c.put t CASDA_MBOX_CFG_EN (bitsOf w 31 1) m).put t CASDA_MBOX_CFG_TASK (w % 256) m
    (if bit w 31 then c else c.setMailbox t m [], eOk)

/-- A write to CASDA_MBOX_CFG_m. -/
def execMboxCfgWrite (t : TileId) (o : Origin) (m : Fin 16) (w : Word) (s : State) : Host.Outcome State Fault Refusal :=
  s.onAccess o (fun c => c.access o t 0x10 (fun c => c.mboxCfgWrite o t m w.toNat))

/-- A write of CASDA_IRQ_ROUTE_s: FIXED only for a task of priority 0 and COST C0 (R77, R78, R84). Engineer writes the
routes of Application cores: the task written lies on one, and so does the task of the route in force unless that route is
disabled (DESIGN CHOICE, assumption 77). -/
def Ctl.irqRouteWrite (c : Ctl) (o : Origin) (t r w : Nat) : Ctl × Nat :=
  let i := w % 256
  let app := c.level t (i / 64) == 0 && (!c.flag t CASDA_IRQ_ROUTE_EN r
    || c.level t (c.get t CASDA_IRQ_ROUTE_TASK r / 64) == 0)
  if !(c.isSystem o || (isRole o .engineer && app)) then (c.violate o (casdaAddr t (0x800 + r * 4)) true, eOk)
  else if bit w 30 ∧ (c.get t TASK_CFG_PRIO i ≠ 0 ∨ c.get t TASK_CFG_COST i ≠ 0) then (c, eRange)
  else (c.put t CASDA_IRQ_ROUTE_EN (bitsOf w 31 1) r |>.put t CASDA_IRQ_ROUTE_FIXED (bitsOf w 30 1) r
    |>.put t CASDA_IRQ_ROUTE_TASK i r, eOk)

/-- A write to CASDA_IRQ_ROUTE_s. -/
def execIrqRouteWrite (t : TileId) (o : Origin) (r : Fin 64) (w : Word) (s : State) :
    Host.Outcome State Fault Refusal :=
  s.onAccess o (fun c => c.access o t 0x10 (fun c => c.irqRouteWrite o t r w.toNat))

end Sys2Proof.Machine
end

