-- ==== Sys2Proof/Machine/Vector.lean ====
section
/-! DEFINITION. Machine/Vector.lean: the vector instructions (R86 to R95, R112). The results of an instruction show in the array
from its issue on, in program order; what the issue queue of R95 still holds can be discarded (assumption 7). -/
namespace Sys2Proof.Machine

/-- A lane of a vector register. -/
def VecArray.lane (v : VecArray) (r l : Nat) : Word := tabGet 0 v.v (r * 32 + l)

/-- A lane written. -/
def VecArray.setLane (v : VecArray) (r l : Nat) (w : Word) : VecArray := { v with v := tabSet v.v (r * 32 + l) w }

/-- A predicate; p0 reads all ones (R86). -/
def VecArray.pred (v : VecArray) (p : Nat) : Word := if p = 0 then BitVec.allOnes 32 else tabGet 0 v.p p

/-- A predicate written; writes to p0 are discarded (R86). -/
def VecArray.setPred (v : VecArray) (p : Nat) (w : Word) : VecArray :=
  if p = 0 then v else { v with p := tabSet v.p p w }

/-- Whether a lane is active under a predicate. -/
def VecArray.active (v : VecArray) (p l : Nat) : Bool := (v.pred p).toNat.testBit l

/-- Sticky flags raised. -/
def VecArray.raise (v : VecArray) (f : Nat) : VecArray := { v with flags := v.flags ||| f }

/-- Applies an update to each active lane, in ascending order. -/
def VecArray.lanes (v : VecArray) (p : Nat) (f : Nat → VecArray → VecArray) : VecArray :=
  forN 32 (fun l w => if v.active p l then f l w else w) v

/-- A lane-wise result with flags into `vd`, merged under the predicate (R90). -/
def VecArray.map (v : VecArray) (p vd : Nat) (f : Nat → Word × Nat) : VecArray :=
  v.lanes p (fun l w => (w.setLane vd l (f l).1).raise (f l).2)

/-- A vector instruction: legal, and issued by the holder of the claim, else VNOCLAIM (R91, R112). -/
def Ctl.vinstr (c : Ctl) (t k word : Nat) (illegal : Bool) (f : Nat → Ctl → Ctl) : Ctl :=
  c.instr t k word illegal (fun i c =>
    if (c.vecOf t).holder = some i then f i c else c.takeTrap t i 0x11 word)

/-- A vector instruction that only changes the array. -/
def Ctl.vop (c : Ctl) (t k word : Nat) (illegal : Bool) (f : VecArray → VecArray) : Ctl :=
  c.vinstr t k word illegal (fun i c => (c.issue t f).next t i)

/-- The arithmetic, unary and clamp functions on `vd`, `va` and `vb`; none for another vfunc (R91). VMOV copies the
bits. -/
def vectorFn (vfunc : Nat) (d a b : Word) : Option (Word × Nat) :=
  match vfunc with
  | 0x000 => some (fpAdd a b)
  | 0x001 => some (fpSub a b)
  | 0x002 => some (fpMul a b)
  | 0x003 => some (fpFma a b d)
  | 0x004 => some (fpFnma a b d)
  | 0x005 => some (fpDiv a b)
  | 0x006 => some (fpMinMax false a b)
  | 0x007 => some (fpMinMax true a b)
  | 0x008 =>
    let m := fpMinMax true d a
    let r := fpMinMax false m.1 b
    some (r.1, m.2 ||| r.2)
  | 0x010 => some (fpSign true a)
  | 0x011 => some (fpSign false a)
  | 0x012 => some (fpSqrt a)
  | 0x013 => some (a, 0)
  | _ => none

/-- Unary vector functions require vb = 0 (R91). -/
def vectorUnary (vfunc : Nat) : Bool := decide (0x010 ≤ vfunc)

/-- Vector arithmetic, unary and clamp instructions. -/
def execVectorArith (t : TileId) (k : CoreId) (vfunc : Fin 2048) (vd va vb : Fin 16) (p : Fin 8) (s : State) :
    Host.Outcome State Fault Refusal :=
  s.onTile t (fun c => c.vop t k (wordV vd va vb p vfunc)
    ((vectorFn vfunc 0 0 0).isNone || (vectorUnary vfunc && decide (vb.val ≠ 0)))
    (fun v => v.map p vd (fun l => (vectorFn vfunc (v.lane vd l) (v.lane va l) (v.lane vb l)).getD (0, 0))))

/-- The vfunc of a conversion. -/
def cvtFunc : CvtOp → Nat
  | .vcvtfi => 0x014
  | .vcvtfif => 0x015
  | .vcvtif => 0x016

/-- A conversion of one lane (R91). -/
def cvtFn (op : CvtOp) (a : Word) : Word × Nat :=
  match op with
  | .vcvtfi => let r := fpToInt false (-(2 ^ 31)) (2 ^ 31 - 1) a; (BitVec.ofInt 32 r.1, r.2)
  | .vcvtfif => let r := fpToInt true (-(2 ^ 31)) (2 ^ 31 - 1) a; (BitVec.ofInt 32 r.1, r.2)
  | .vcvtif => intFp a.toInt 0

/-- VCVTFI, VCVTFIF and VCVTIF. -/
def execVectorConvert (t : TileId) (k : CoreId) (op : CvtOp) (vd va vb : Fin 16) (p : Fin 8) (s : State) :
    Host.Outcome State Fault Refusal :=
  s.onTile t (fun c => c.vop t k (wordV vd va vb p (cvtFunc op)) (decide (vb.val ≠ 0))
    (fun v => v.map p vd (fun l => cvtFn op (v.lane va l))))

/-- The vfunc of a compare. -/
def cmpFunc : CmpOp → Nat
  | .vclt => 0x020
  | .vcle => 0x021
  | .vceq => 0x022
  | .vcun => 0x023

/-- A compare of one lane, with the flags raised: the ordering compares signal on any NaN (R89, R91; assumption 9). -/
def cmpFn (op : CmpOp) (a b : Word) : Bool × Nat :=
  let x := fpOf a
  let y := fpOf b
  let un := x.isNan || y.isNan
  let sig := x.snan || y.snan
  match op with
  | .vclt => (!un && x.lt false y, if un then fInvalid else 0)
  | .vcle => (!un && !(y.lt false x), if un then fInvalid else 0)
  | .vceq => (!un && !(x.lt false y) && !(y.lt false x), if sig then fInvalid else 0)
  | .vcun => (un, if sig then fInvalid else 0)

/-- The word whose bit `l` is `f l` for each lane. -/
def laneWord (f : Nat → Bool) : Word := BitVec.ofNat 32 (forN 32 (fun l n => if f l then n + 2 ^ l else n) 0)

/-- A vector compare: inactive lanes read 0; vd above 7 is illegal (R90, R91). -/
def execVectorCompare (t : TileId) (k : CoreId) (op : CmpOp) (vd va vb : Fin 16) (p : Fin 8) (s : State) :
    Host.Outcome State Fault Refusal :=
  s.onTile t (fun c => c.vop t k (wordV vd va vb p (cmpFunc op)) (decide (7 < vd.val))
    (fun v =>
      let w := laneWord (fun l => v.active p l && (cmpFn op (v.lane va l) (v.lane vb l)).1)
      (v.lanes p (fun l x => x.raise (cmpFn op (v.lane va l) (v.lane vb l)).2)).setPred vd w))

/-- The vfunc of a predicate operation. -/
def predFunc : PredOp → Nat
  | .pand => 0x028
  | .por => 0x029
  | .pxor => 0x02A
  | .pnot => 0x02B

/-- A predicate operation (R91). -/
def predFn (op : PredOp) (a b : Word) : Word :=
  match op with
  | .pand => a &&& b
  | .por => a ||| b
  | .pxor => a ^^^ b
  | .pnot => ~~~a

/-- PAND, POR, PXOR and PNOT; the predicate field must be 0 and the fields name p0 to p7 (R90, R91). -/
def execPredicateLogic (t : TileId) (k : CoreId) (op : PredOp) (vd va vb : Fin 16) (p : Fin 8) (s : State) :
    Host.Outcome State Fault Refusal :=
  s.onTile t (fun c => c.vop t k (wordV vd va vb p (predFunc op))
    (decide (p.val ≠ 0) || decide (7 < vd.val) || decide (7 < va.val)
      || (if op = .pnot then decide (vb.val ≠ 0) else decide (7 < vb.val)))
    (fun v => v.setPred vd (predFn op (v.pred va) (v.pred vb))))

/-- VSEL: every lane, va where the predicate bit is 1, else vb (R91). -/
def execVsel (t : TileId) (k : CoreId) (vd va vb : Fin 16) (p : Fin 8) (s : State) :
    Host.Outcome State Fault Refusal :=
  s.onTile t (fun c => c.vop t k (wordV vd va vb p 0x030) false
    (fun v => v.lanes 0 (fun l w => w.setLane vd l (if v.active p l then v.lane va l else v.lane vb l))))

/-- VBCAST: the bits of s[va] in every active lane (R91). -/
def execVbcast (t : TileId) (k : CoreId) (vd va vb : Fin 16) (p : Fin 8) (s : State) :
    Host.Outcome State Fault Refusal :=
  s.onTile t (fun c => c.vinstr t k (wordV vd va vb p 0x031) (decide (vb.val ≠ 0)) (fun i c =>
    (c.issue t (fun v => v.map p vd (fun _ => ((c.task t i).reg va, 0)))).next t i))

/-- VEXT: lane s[vb][4:0] of va into s[vd]; the core stalls until it arrives (R91, R95). -/
def execVext (t : TileId) (k : CoreId) (vd va vb : Fin 16) (p : Fin 8) (s : State) :
    Host.Outcome State Fault Refusal :=
  s.onTile t (fun c => c.vinstr t k (wordV vd va vb p 0x032) (decide (p.val ≠ 0)) (fun i c =>
    (c.drain t).retire t i vd ((c.vecOf t).lane va (((c.task t i).reg vb).toNat % 32))))

/-- VLANE: each active lane takes its index as FP32 (R91). -/
def execVlane (t : TileId) (k : CoreId) (vd va vb : Fin 16) (p : Fin 8) (s : State) :
    Host.Outcome State Fault Refusal :=
  s.onTile t (fun c => c.vop t k (wordV vd va vb p 0x033) (decide (va.val ≠ 0) || decide (vb.val ≠ 0))
    (fun v => v.map p vd (fun l => ((intFp l 0).1, 0))))

/-- PFROMS (R91). -/
def execPfroms (t : TileId) (k : CoreId) (vd va vb : Fin 16) (p : Fin 8) (s : State) :
    Host.Outcome State Fault Refusal :=
  s.onTile t (fun c => c.vinstr t k (wordV vd va vb p 0x034)
    (decide (p.val ≠ 0) || decide (vb.val ≠ 0) || decide (7 < vd.val)) (fun i c =>
    (c.issue t (fun v => v.setPred vd ((c.task t i).reg va))).next t i))

/-- PTOS; the core stalls until the predicate arrives (R91, R95). -/
def execPtos (t : TileId) (k : CoreId) (vd va vb : Fin 16) (p : Fin 8) (s : State) :
    Host.Outcome State Fault Refusal :=
  s.onTile t (fun c => c.vinstr t k (wordV vd va vb p 0x035)
    (decide (p.val ≠ 0) || decide (vb.val ≠ 0) || decide (7 < va.val)) (fun i c =>
    (c.drain t).retire t i vd ((c.vecOf t).pred va)))

/-- The vfunc of a reduction. -/
def redFunc : RedOp → Nat
  | .vrsum => 0x038
  | .vrmax => 0x039
  | .vrmin => 0x03A

/-- One node of a reduction. -/
def redFn (op : RedOp) (a b : Word) : Word × Nat :=
  match op with
  | .vrsum => fpAdd a b
  | .vrmax => fpMinMax true a b
  | .vrmin => fpMinMax false a b

/-- What a reduction with no active lane writes (R91). -/
def redNone : RedOp → Word
  | .vrsum => fpZero false
  | .vrmax => fpInf true
  | .vrmin => fpInf false

/-- One node of the tree: an inactive side leaves the other side as it is (assumption 9). -/
def redNode (op : RedOp) (a b : Option Word × Nat) : Option Word × Nat :=
  match a, b with
  | (some x, f), (some y, g) => let r := redFn op x y; (some r.1, f ||| g ||| r.2)
  | (some x, f), (none, g) => (some x, f ||| g)
  | (none, f), (b, g) => (b, f ||| g)

/-- The pairwise tree over lanes `l` to `l + 2^n - 1` (R89). -/
def redTree (op : RedOp) (f : Nat → Option Word) : (n l : Nat) → Option Word × Nat
  | 0, l => (f l, 0)
  | n + 1, l => redNode op (redTree op f n l) (redTree op f n (l + 2 ^ n))

/-- A word as an operation gives it: every NaN 0x7FC0_0000, a subnormal replaced by zero of its sign (R89). -/
def fpCanon (w : Word) : Word := if (fpOf w).isNan then fpNan else fpFlush w

/-- VRSUM, VRMAX and VRMIN of the active lanes, written to every lane (R89, R91). -/
def execVectorReduce (t : TileId) (k : CoreId) (op : RedOp) (vd va vb : Fin 16) (p : Fin 8) (s : State) :
    Host.Outcome State Fault Refusal :=
  s.onTile t (fun c => c.vop t k (wordV vd va vb p (redFunc op)) (decide (vb.val ≠ 0))
    (fun v =>
      let r := redTree op (fun l => if v.active p l then some (v.lane va l) else none) 5 0
      (v.lanes 0 (fun l w => w.setLane vd l ((r.1.map fpCanon).getD (redNone op)))).raise r.2))

/-! ## Vector memory access (R92 to R94) -/

/-- Bytes of an element (R91). -/
def elemSize (e : Nat) : Nat := if e < 3 then 4 else 2

/-- An element loaded (R92). -/
def elemLoad (e : Nat) (raw : Nat) : Word × Nat :=
  match e with
  | 0 => (BitVec.ofNat 32 raw, 0)
  | 1 => intFp (toSigned 32 raw) 0
  | 2 => intFp raw 0
  | 3 => intFp (toSigned 16 raw) 0
  | _ => intFp raw 0

/-- An element stored (R92). -/
def elemStore (e : Nat) (w : Word) : Nat × Nat :=
  match e with
  | 0 => (w.toNat, 0)
  | 1 => let r := fpToInt false (-(2 ^ 31)) (2 ^ 31 - 1) w; (ofSigned 32 r.1, r.2)
  | 2 => let r := fpToInt false 0 (2 ^ 32 - 1) w; (ofSigned 32 r.1, r.2)
  | 3 => let r := fpToInt false (-(2 ^ 15)) (2 ^ 15 - 1) w; (ofSigned 16 r.1, r.2)
  | _ => let r := fpToInt false 0 (2 ^ 16 - 1) w; (ofSigned 16 r.1, r.2)

/-- Whether ADDR_EXT lets a vector access reach: own tile, DRAM (R93). -/
def vecReach (t ext : Nat) : Bool := (ext / 16 == 15 || ext / 16 == t) && ext % 16 == 0

/-- The lowest active lane that breaks R93, if any. -/
def vecBad (v : VecArray) (p t ext size : Nat) (addr : Nat → Nat) : Option Nat :=
  (List.range 32).find? (fun l => v.active p l && (!vecReach t ext || addr l % size != 0))

/-- A vector load: every active lane is checked first, VACCESS otherwise; each lane converts and raises its flags. -/
def Ctl.vload (c : Ctl) (m : Mem) (t k word : Nat) (illegal : Bool) (vd p e : Nat) (addr : Ctl → Nat → Nat → Nat) :
    Ctl :=
  c.vinstr t k word illegal (fun i c =>
    let v := c.vecOf t
    match vecBad v p t (c.task t i).addrExt (elemSize e) (addr c i) with
    | some l => c.takeTrap t i 0x10 (addr c i l)
    | none =>
      (c.issue t (fun v => v.map p vd (fun l =>
        elemLoad e (memNat (c.landed m t) (modAddr t (addr c i l)) (elemSize e)))) true).next t i)

/-- Every active lane of `r` written at its address in the DRAM of tile `t`, in ascending order of lanes (R91). -/
def VecArray.stores (v : VecArray) (t r p e : Nat) (addr : Nat → Nat) (m : Mem) : Mem :=
  forN 32 (fun l m => if v.active p l then memPut m (modAddr t (addr l)) (elemSize e) (elemStore e (v.lane r l)).1 else m) m

/-- The bytes such a store writes, each with what stood there in `m` and what stands there in `m'`: what a KILL takes back. -/
def VecArray.wrote (v : VecArray) (t p e : Nat) (addr : Nat → Nat) (m m' : Mem) : List (Nat × Byte × Byte) :=
  ((List.range 32).filter (fun l => v.active p l)).flatMap (fun l => (List.range (elemSize e)).map (fun j =>
    let a := modAddr t (addr l) + j
    (a, memRead m a, memRead m' a)))

/-- A vector store: as a load, with what the tile's DMA wrote landed first (R421); an Application store to DRAM below
0x0_8000_0000 in any lane writes no lane and counts one violation at the lowest active lane's address (R93, R94). -/
def vstore (m : Mem) (c : Ctl) (t : TileId) (k word : Nat) (illegal : Bool) (vd p e : Nat) (addr : Ctl → Nat → Nat → Nat) :
    Mem × Ctl :=
  instrM m c t k word illegal (fun i c =>
    let v := c.vecOf t
    let a := addr c i
    if v.holder ≠ some i then (m, c.takeTrap t i 0x11 word)
    else
      match vecBad v p t (c.task t i).addrExt (elemSize e) a with
      | some l => (m, c.takeTrap t i 0x10 (a l))
      | none =>
        if c.level t (i / 64) == 0 && anyN 32 (fun l => v.active p l && decide (a l < 0x80000000)) then
          let l := ((List.range 32).find? (fun l => v.active p l)).getD 0
          (m, (c.violate (taskOrigin t i) (modAddr 15 (a l)) true).next t i)
        else
          let x := dmaLand t (m, c)
          let m' := v.stores t vd p e a x.1
          (m', (x.2.issue t (fun _ => v.lanes p (fun l w => w.raise (elemStore e (v.lane vd l)).2)) false
            (v.wrote t p e a x.1 m')).next t i))

/-- The address of a lane of a strided access, modulo 2^32 (R91, R93). -/
def stridedAddr (t : Nat) (va vb : Nat) (c : Ctl) (i l : Nat) : Nat :=
  (((c.task t i).reg va).toNat + l * ((c.task t i).reg vb).toNat) % 2 ^ 32

/-- The address of a lane of a gather or scatter, modulo 2^32 (R91, R93). -/
def indexedAddr (t : Nat) (va vb : Nat) (c : Ctl) (i l : Nat) : Nat :=
  (((c.task t i).reg va) + (c.vecOf t).lane vb l).toNat

/-- VLDS.t (R91). -/
def execVlds (t : TileId) (k : CoreId) (e : ElemType) (vd va vb : Fin 16) (p : Fin 8) (s : State) :
    Host.Outcome State Fault Refusal :=
  s.onTileR t (fun m c => c.vload m t k (wordV vd va vb p (0x040 + e)) (decide (4 < e.val)) vd p e
    (stridedAddr t va vb))

/-- VSTS.t (R91). -/
def execVsts (t : TileId) (k : CoreId) (e : ElemType) (vd va vb : Fin 16) (p : Fin 8) (s : State) :
    Host.Outcome State Fault Refusal :=
  s.onTileM t (fun m c => vstore m c t k (wordV vd va vb p (0x048 + e))
    (decide (4 < e.val)) vd p e (stridedAddr t va vb))

/-- VLDG (R91). -/
def execVldg (t : TileId) (k : CoreId) (vd va vb : Fin 16) (p : Fin 8) (s : State) :
    Host.Outcome State Fault Refusal :=
  s.onTileR t (fun m c => c.vload m t k (wordV vd va vb p 0x050) false vd p 0 (indexedAddr t va vb))

/-- VSTX: of several active lanes at one address the highest-numbered lane's value stays (R91). -/
def execVstx (t : TileId) (k : CoreId) (vd va vb : Fin 16) (p : Fin 8) (s : State) :
    Host.Outcome State Fault Refusal :=
  s.onTileM t (fun m c => vstore m c t k (wordV vd va vb p 0x058) false vd p 0
    (indexedAddr t va vb))

/-- The places of the loads in the issue queue. -/
def VecArray.queuedLoads (v : VecArray) : List Nat :=
  (List.range v.queue.length).filter (fun j => (v.queue[j]?.map (fun q => q.load)).getD false)

/-- The load that failed and the instructions queued behind it are discarded, with what they stored; which load it is among
those queued is a free value (R112; assumption 7). -/
def veccDiscard (m : Mem) (c : Ctl) (t : Nat) : MC :=
  let ls := (c.vecOf t).queuedLoads
  if ls = [] then (m, c) else vecUndo m c.free.2 t (ls.getD (c.free.1 % ls.length) 0 + 1)

/-- An uncorrectable error on the data of a vector load: the task that holds the claim traps VECC with the address bits, in
whatever state it is, and a wait it is in ends without effect (R112). -/
def execVeccTrap (t : TileId) (addr : Word) (s : State) : Host.Outcome State Fault Refusal :=
  s.onTileM t (fun m c =>
    match (c.vecOf t).holder with
    | none => (m, c)
    | some i =>
      (veccDiscard m c t).on (fun c =>
        let c := (c.setTask t i { c.task t i with wait := .none }).put t TASK_STATE_WAIT_ON 0 i
        c.takeTrap t i 0x12 addr.toNat))

end Sys2Proof.Machine
end

