-- ==== Sys2Proof/Machine/Device.lean ====
section
/-! DEFINITION. Machine/Device.lean: the device operations of the SYS, TIME and FRAME units and SLAST (R97 to R102,
R110, R111). The operations of the other units stand with their units. -/
namespace Sys2Proof.Machine

/-- The result pair of an operation; with d = 0 both results are discarded (R97). -/
def Ctl.retirePair (c : Ctl) (t i d : Nat) (v w : Word) : Ctl :=
  if d = 0 then c.next t i
  else (c.setTask t i ((c.task t i).setReg (d + 1) w)).retire t i d v

/-- A result code in s[d][7:0] (R98). -/
def Ctl.retireCode (c : Ctl) (t i d code : Nat) : Ctl := c.retire t i d (BitVec.ofNat 32 code)

/-- The operation waits: the PC moves past it, the task enters WAITING (frame 1, device 2), the core runs on (R99). -/
def Ctl.blockOn (c : Ctl) (t i d : Nat) (w : Wait) (on : Nat) : Ctl :=
  let c := c.setTask t i { c.task t i with pc := (c.task t i).pc + 4, wait := w, dest := d, first := none }
  ((c.put t TASK_STATE_STATE kWaiting i).put t TASK_STATE_WAIT_ON on i).sched t (i / 64)

/-- YIELD: behind all READY tasks of its priority (R71). -/
def execYield (t : TileId) (k : CoreId) (d a : Fin 32) (s : State) : Host.Outcome State Fault Refusal :=
  s.onTile t (fun c => c.instr t k (wordD d a 0x00 0x00) (decide (d.val ≠ 0) || decide (a.val ≠ 0)) (fun i c =>
    ((c.next t i).makeReady t i).sched t k))

/-- TRAP: a SOFT trap with its operand (R74, R100). -/
def execTrap (t : TileId) (k : CoreId) (d a : Fin 32) (s : State) : Host.Outcome State Fault Refusal :=
  s.onTile t (fun c => c.instr t k (wordD d a 0x00 0x01) (decide (d.val ≠ 0)) (fun i c =>
    c.takeTrap t i 0x03 ((c.task t i).reg a).toNat))

/-- FENCE: the core holds the task until FENCE_DONE (R99, R100). -/
def execFence (t : TileId) (k : CoreId) (d a : Fin 32) (s : State) : Host.Outcome State Fault Refusal :=
  s.onTile t (fun c => c.instr t k (wordD d a 0x00 0x02) (decide (d.val ≠ 0) || decide (a.val ≠ 0)) (fun i c =>
    c.setTask t i { c.task t i with pc := (c.task t i).pc + 4, wait := .fence, first := none }))

/-- The last acknowledgement of a fenced task arrives, the vector accesses it issued having taken effect: it continues, or
takes the STOP that waited (R73, R85, R100). -/
def execFenceDone (t : TileId) (i : TaskId) (s : State) : Host.Outcome State Fault Refusal :=
  s.onTile t (fun c =>
    if (c.task t i).wait = .fence then
      let c := ((c.setTask t i { c.task t i with wait := .none }).put t TASK_STATE_ACCESS 0 i).memOrder t i
      if (c.task t i).stopReq then c.stopNow t i else c.sched t (i / 64)
    else c)

/-- BUDGET: COST for the rest of the activation; a raise takes the difference under the grant rule, a refused task is
preempted with OK in s[d], a lowering returns the difference at once (R111, R333). -/
def execBudget (t : TileId) (k : CoreId) (d a : Fin 32) (s : State) : Host.Outcome State Fault Refusal :=
  s.onTile t (fun c => c.instr t k (wordD d a 0x00 0x03) false (fun i c =>
    let cls := ((c.task t i).reg a).toNat % 4
    if c.get t TASK_CFG_PRIO i = 0 ∧ 0 < cls then c.retireCode t i d eRange
    else
      let c := c.retireCode t i d eOk
      let kt := c.task t i
      if classCost cls ≤ kt.paid then
        (c.setBucket t (c.getInt t PWR_BUCKET_B + (kt.paid - classCost cls : Nat))).setTask t i
          { kt with cost := cls, paid := classCost cls }
      else if c.grants t (c.get t TASK_CFG_PRIO i) (classCost cls - kt.paid) then
        (c.setBucket t (c.getInt t PWR_BUCKET_B - (classCost cls - kt.paid : Nat))).setTask t i
          { kt with cost := cls, paid := classCost cls }
      else
        let c := c.setTask t i { kt with cost := cls, granted := false }
        ((c.makeReady t i).gate t i).sched t k))

/-- VCLAIM (R87). -/
def execVclaim (t : TileId) (k : CoreId) (d a : Fin 32) (s : State) : Host.Outcome State Fault Refusal :=
  s.onTile t (fun c => c.instr t k (wordD d a 0x00 0x04) false (fun i c =>
    let v := c.vecOf t
    if v.holder = some i then c.retireCode t i d eOk
    else if v.holder = none ∧ v.waiters = [] then (c.grantClaim t i).retireCode t i d eOk
    else if ((c.task t i).reg a).toNat % 2 = 0 then c.retireCode t i d eBusy
    else (c.setVec t { v with waiters := v.waiters ++ [i] }).blockOn t i d .claim 2))

/-- VRELEASE (R87). -/
def execVrelease (t : TileId) (k : CoreId) (d a : Fin 32) (s : State) : Host.Outcome State Fault Refusal :=
  s.onTile t (fun c => c.instr t k (wordD d a 0x00 0x05) (decide (a.val ≠ 0)) (fun i c =>
    if (c.vecOf t).holder = some i then (c.retireCode t i d eOk).releaseClaim t i else c.retireCode t i d eState))

/-- VSTAT: the sticky flags before clearing (R89, R100). -/
def execVstat (t : TileId) (k : CoreId) (d a : Fin 32) (s : State) : Host.Outcome State Fault Refusal :=
  s.onTile t (fun c => c.instr t k (wordD d a 0x00 0x06) false (fun i c =>
    let v := c.vecOf t
    let m := ((c.task t i).reg a).toNat % 32
    (c.setVec t { v with flags := v.flags &&& (31 - m)
                         queue := v.queue.map (fun q => { q with flags := q.flags &&& (31 - m) }) }).retire t i d
      (BitVec.ofNat 32 v.flags)))

/-- NS32 (R102, R353). -/
def execNs32 (t : TileId) (k : CoreId) (d a : Fin 32) (s : State) : Host.Outcome State Fault Refusal :=
  s.onTile t (fun c => c.instr t k (wordD d a 0x01 0x00) (decide (a.val ≠ 0)) (fun i c =>
    c.retire t i d (BitVec.ofNat 32 (c.taskTime t i).ns)))

/-- STATION: ns and seconds [31:0] as one snapshot, two zeros while station time is not locked (R102, R353). -/
def execStation (t : TileId) (k : CoreId) (d a : Fin 32) (s : State) : Host.Outcome State Fault Refusal :=
  s.onTile t (fun c => c.instr t k (wordD d a 0x01 0x01) (decide (a.val ≠ 0) || decide (d.val % 2 = 1)) (fun i c =>
    let n := (c.taskTime t i).stn
    c.retirePair t i d (BitVec.ofNat 32 (n % 1000000000)) (BitVec.ofNat 32 (n / 1000000000))))

/-- FRAME: the latest frame instant's number and its TIME_NS32 (R102). -/
def execFrame (t : TileId) (k : CoreId) (d a : Fin 32) (s : State) : Host.Outcome State Fault Refusal :=
  s.onTile t (fun c => c.instr t k (wordD d a 0x01 0x02) (decide (a.val ≠ 0) || decide (d.val % 2 = 1)) (fun i c =>
    c.retirePair t i d (BitVec.ofNat 32 (c.taskTime t i).frame) (BitVec.ofNat 32 (c.taskTime t i).frameNs)))

/-- OPTIME: ms [31:0], and ms [47:32] in bits [15:0] (R100, R102). -/
def execOptime (t : TileId) (k : CoreId) (d a : Fin 32) (s : State) : Host.Outcome State Fault Refusal :=
  s.onTile t (fun c => c.instr t k (wordD d a 0x01 0x03) (decide (a.val ≠ 0) || decide (d.val % 2 = 1)) (fun i c =>
    let n := (c.taskTime t i).optime
    c.retirePair t i d (BitVec.ofNat 32 n) (BitVec.ofNat 32 (n / 2 ^ 32 % 65536))))

/-- SLAST: the latest complete frame number (R100). -/
def execSlast (t : TileId) (k : CoreId) (d a : Fin 32) (s : State) : Host.Outcome State Fault Refusal :=
  s.onTile t (fun c => c.instr t k (wordD d a 0x03 0x01) (decide (a.val ≠ 0)) (fun i c =>
    c.retire t i d (BitVec.ofNat 32 (c.get t SMP_LAST_COMPLETE_FRAME))))

/-- FWAIT: at once if the frame is complete, else at its frame-complete (R110). -/
def execFwait (t : TileId) (k : CoreId) (d a : Fin 32) (s : State) : Host.Outcome State Fault Refusal :=
  s.onTile t (fun c => c.instr t k (wordD d a 0x08 0x00) false (fun i c =>
    let n := ((c.task t i).reg a).toNat
    let last := c.get t SMP_LAST_COMPLETE_FRAME
    if 0 ≤ frameDiff last n then c.retire t i d (BitVec.ofNat 32 last) else c.blockOn t i d (.frame n) 1))

/-- IWAIT: at once if the instant has passed, else at the frame instant (R110). -/
def execIwait (t : TileId) (k : CoreId) (d a : Fin 32) (s : State) : Host.Outcome State Fault Refusal :=
  s.onTile t (fun c => c.instr t k (wordD d a 0x08 0x01) false (fun i c =>
    let n := ((c.task t i).reg a).toNat
    let last := c.get t SMP_FRAME_NUM_FRAME
    if 0 ≤ frameDiff last n then c.retire t i d (BitVec.ofNat 32 last) else c.blockOn t i d (.instant n) 1))

/-- Ends the frame waits of a tile that `n` satisfies (R99, R110). -/
def Ctl.endFrameWaits (c : Ctl) (t n : Nat) (instant : Bool) : Ctl :=
  forN 256 (fun i c =>
    match (c.task t i).wait with
    | .frame w => if !instant && decide (0 ≤ frameDiff n w) then c.resumeFrame t i (BitVec.ofNat 32 n) else c
    | .instant w => if instant && decide (0 ≤ frameDiff n w) then c.resumeFrame t i (BitVec.ofNat 32 n) else c
    | _ => c) c

end Sys2Proof.Machine
end

