-- ==== Sys2Proof/Machine/Power.lean ====
section
/-! DEFINITION. Machine/Power.lean: the budget governor's tick and ladder, clock, voltage and temperature monitors
(R328 to R336). -/
namespace Sys2Proof.Machine

/-- How far T_j (0.1 °C) lies above TARGET − 10 °C, held to 0 to 200: f = (200 − x) / 200 (R334). -/
def Ctl.throttleX (c : Ctl) (t : Nat) (tj : Int) : Int :=
  clampInt 0 200 (tj - ((c.get t PWR_CAP_TARGET * 10 : Nat) - 100))

/-- The cap in force, in 0.1 W (R331, R335). -/
def Ctl.capNow (c : Ctl) (t : Nat) : Nat := if c.serves t then c.get t PWR_CAP_CARRY else c.get t PWR_CAP_CAP

/-- The bucket after one tick, exact in half µJ (R331). -/
def Ctl.refill (c : Ctl) (t eHw : Nat) (tj : Int) : Ctl :=
  let half : Int := 2 * c.getInt t PWR_BUCKET_B + ((tabGet 0 c.bucketHalf t : Nat) : Int)
  let depth : Int := (c.get t PWR_BUCKET_CFG_DEPTH * 2000 : Nat)
  let b := clampInt (-depth) depth (half + (c.capNow t : Int) * (200 - c.throttleX t tj) - 2 * (eHw : Int))
  { c.putInt t PWR_BUCKET_B (b / 2) with bucketHalf := tabSet c.bucketHalf t (b % 2).toNat }

/-- Every token bucket of a tile gains RATE / 1,000 tokens up to BURST (R436). -/
def Ctl.refillTokens (c : Ctl) (t : Nat) : Ctl :=
  { c with tokens := c.tokens.map (fun e =>
      if e.1 / 8192 = t then
        let b := e.1 % 8192
        let rate := if b < 4096 then c.get t EVT_CLASS_RATE b else c.get t EVT_CODE_RATE (b - 4096)
        let burst := if b < 4096 then c.get t EVT_CLASS_BURST b else c.get t EVT_CODE_BURST (b - 4096)
        (e.1, if e.2 + rate < burst * 1000 then e.2 + rate else burst * 1000)
      else e) }

/-- The governor's part of the 1 ms tick: temperature, power and energy as measured, the bucket, THROTTLE, and gated
tasks considered again (R330 to R335). -/
def Ctl.governorTick (c : Ctl) (t eHw : Nat) (tj : Int) (mw : Nat) : Ctl :=
  let c := c.refill t eHw tj
  let uj := tabGet 0 c.energy t + mw
  let c := { c with energy := tabSet c.energy t uj }
  let c := c.putInt t PWR_MEAS_TJ tj |>.put t PWR_MEAS_POWER (if mw < 65536 then mw else 65535)
    |>.put t PWR_ENERGY_MJ (uj / 1000)
  let thr : Bool := c.throttleX t tj != 0
  let c :=
    if thr && !c.flag t PWR_STATUS_THROTTLE then (c.put t PWR_STATUS_THROTTLE 1).event t 0x01 0x0103
    else if !thr && c.flag t PWR_STATUS_THROTTLE then (c.put t PWR_STATUS_THROTTLE 0).event t 0x01 0x0104
    else c
  forN 4 (fun k (c : Ctl) => c.sched t k true) (c.refillTokens t)

/-- The ladder level by the first rule of R336 that applies, with the rule's number. -/
def Ctl.ladderLevel (c : Ctl) (t clean : Nat) (short : Bool) : Nat × Nat :=
  let l := c.get t PWR_LADDER_LEVEL
  if c.serves t then (1, 1)
  else if c.flag t PWR_LADDER_FORCE_EN then (c.get t PWR_LADDER_FORCE, 2)
  else if short then (if l < 3 then l + 1 else 3, 3)
  else if c.get t PWR_LADDER_UP_FRAMES ≤ clean
      ∧ (c.get t PWR_BUCKET_CFG_DEPTH * 500 : Int) ≤ c.getInt t PWR_BUCKET_B then (l - 1, 4)
  else (l, 5)

/-- The degrade ladder at a frame-complete; the frames that count toward a step up begin again with each change of level, as
the worked example has it (R336; DEDUCED, assumption 89). -/
def Ctl.ladder (c : Ctl) (t : Nat) : Ctl :=
  let e := c.get t PWR_LADDER_EST_TASK
  let still := e != 0xFF && c.flag t TASK_STATE_GATED e
  let short := decide (2 ≤ c.get t EST_STATUS_BACKLOG) || c.estGated.contains t || still
  let clean := if short then 0 else tabGet 0 c.cleanFrames t + 1
  let old := c.get t PWR_LADDER_LEVEL
  let (new, rule) := c.ladderLevel t clean short
  let c := { c with
    cleanFrames := tabSet c.cleanFrames t (if new = old then clean else 0)
    estGated := if still then c.estGated else c.estGated.filter (fun x => x != t) }
  if new = old then c
  else ((c.put t PWR_LADDER_LEVEL new).event t 0x01 0x0101 0 (leBytes 1 old ++ leBytes 1 new ++ leBytes 1 rule)).irq t 0x2B

/-- A clock out of range: REF25 and the PLLs, by their bit in PWR_CLK (R328). -/
def execClockFault (t : TileId) (clock : Fin 5) (s : State) : Host.Outcome State Fault Refusal :=
  s.onTile t (fun c =>
    (((c.put t PWR_STATUS_CLK_FAULT 1).event t 0x01 0x0106 0 (leBytes 4 (clock.val + 2)))).tileFault t
      TILE_RESET_CAUSE_FAULT .fault)

/-- One step of the regulator: up where any monitor shows too little margin; else with FIX_EN toward FIX, without it down
where all show margin to spare; AVS_LIMIT at the top (R329). -/
def Ctl.avsStep (c : Ctl) (t : Nat) (m : Margin) : Ctl :=
  let code := c.get t PWR_AVS_CODE
  let fix := c.get t PWR_AVS_FIX
  let en := c.flag t PWR_AVS_FIX_EN
  let c := if m = .tooSmall then c else c.put t PWR_STATUS_AVS_LIMIT 0
  if m = .tooSmall then
    if code < 40 then c.put t PWR_AVS_CODE (code + 1)
    else if c.flag t PWR_STATUS_AVS_LIMIT then c
    else (c.put t PWR_STATUS_AVS_LIMIT 1).event t 0x01 0x0105
  else if en && decide (code < fix) then c.put t PWR_AVS_CODE (code + 1)
  else if (if en then decide (fix < code) else decide (m = .spare)) then c.put t PWR_AVS_CODE (code - 1)
  else c

/-- AVS_STEP. -/
def execAvsStep (t : TileId) (m : Margin) (s : State) : Host.Outcome State Fault Refusal :=
  s.onTile t (fun c => c.avsStep t m)

/-- Margin too small at 0.85 V for 1 ms: the tile enters FAULT (R329). -/
def execAvsMarginFault (t : TileId) (s : State) : Host.Outcome State Fault Refusal :=
  s.onTile t (fun c =>
    if c.flag t PWR_STATUS_AVS_LIMIT then c.tileFault t TILE_RESET_CAUSE_FAULT .fault else c)

/-- T_j at or above 120 °C for 10 ms (R330). -/
def execTjFault (t : TileId) (s : State) : Host.Outcome State Fault Refusal :=
  s.onTile t (fun c => ((c.put t PWR_STATUS_TJ_FAULT 1).event t 0x01 0x0107).tileFault t TILE_RESET_CAUSE_FAULT .fault)

end Sys2Proof.Machine
end

