-- ==== Sys2Proof/Machine/Recorder.lean ====
section
/-! DEFINITION. Machine/Recorder.lean: the event recorder (R429 to R439) and EMIT (R108). -/
namespace Sys2Proof.Machine

/-- EVENT_RECORD_ACCEPT: the oldest presented record of a tile. -/
def execEventRecordAccept (t : TileId) (s : State) : Host.Outcome State Fault Refusal :=
  s.onTileM t (fun m c =>
    match tabGet [] c.presented t with
    | [] => (m, c)
    | p :: r =>
      let x := recordOne m { c with presented := tabSet c.presented t r } t p
      (x.1, x.2.1))

/-- EVENT_TAIL_WRITE_DONE. -/
def execEventTailWriteDone (t : TileId) (s : State) : Host.Outcome State Fault Refusal :=
  s.onTileM t (fun m c => tailWrite m c t)

/-! ## Recorder registers (R436, R439) -/

/-- The address of a register of the EVT block. -/
def evtAddr (t off : Nat) : Nat := modAddr t (0x2000D0000 + off)

/-- A write of EVT_RPTR: System only; it re-arms the fill mark (R439). -/
def Ctl.evtRptrWrite (c : Ctl) (o : Origin) (t w : Nat) : Ctl × Nat :=
  if !c.isSystem o then (c.violate o (evtAddr t 0x008) true, eOk)
  else (({ c with marked := c.marked.filter (fun x => x != t) } : Ctl).put t EVT_RPTR_SEQ w |>.fillMark t, eOk)

/-- A write to EVT_RPTR. -/
def execEvtRptrWrite (t : TileId) (o : Origin) (w : Word) (s : State) : Host.Outcome State Fault Refusal :=
  s.onAccess o (fun c => c.access o t 0x0D (fun c => c.evtRptrWrite o t w.toNat))

/-- A write of EVT_CLASS_k: the bucket takes its new BURST (R436). -/
def Ctl.evtClassWrite (c : Ctl) (o : Origin) (t k w : Nat) : Ctl × Nat :=
  if !c.mayConfig o then (c.violate o (evtAddr t (0x100 + k * 4)) true, eOk)
  else (((c.put t EVT_CLASS_RATE (bitsOf w 16 16) k).put t EVT_CLASS_BURST (w % 65536) k).setTokens t k
    (w % 65536 * 1000), eOk)

/-- A write to EVT_CLASS_k. -/
def execEvtClassWrite (t : TileId) (o : Origin) (k : Fin 16) (w : Word) (s : State) :
    Host.Outcome State Fault Refusal :=
  s.onAccess o (fun c => c.access o t 0x0D (fun c => c.evtClassWrite o t k w.toNat))

/-- A write of word 0 or 1 of a code-table entry: E_CONFLICT when it makes the entry valid with the CODE of another
valid entry; the entry's bucket takes BURST (R436, R439). -/
def Ctl.codeTableWrite (c : Ctl) (o : Origin) (t e hi w : Nat) : Ctl × Nat :=
  if !c.mayConfig o then (c.violate o (evtAddr t (0x8000 + e * 8 + hi * 4)) true, eOk)
  else if hi = 0 then
    let code := w % 65536
    let other := (c.put t EVT_CODE_VALID 0 e).codeEntry t code
    if bit w 31 && other.isSome then (c, eConflict)
    else (((c.put t EVT_CODE_VALID (bitsOf w 31 1) e).put t EVT_CODE_CODE code e).setTokens t (4096 + e)
      (c.get t EVT_CODE_BURST e * 1000), eOk)
  else (((c.put t EVT_CODE_RATE (bitsOf w 16 16) e).put t EVT_CODE_BURST (w % 65536) e).setTokens t (4096 + e)
      (w % 65536 * 1000), eOk)

/-- A write to a code-table entry. -/
def execCodeTableWrite (t : TileId) (o : Origin) (e : Fin 4096) (hi : Fin 2) (w : Word) (s : State) :
    Host.Outcome State Fault Refusal :=
  s.onAccess o (fun c => c.access o t 0x0D (fun c => c.codeTableWrite o t e hi w.toNat))

/-! ## EMIT (R108) -/

/-- Whether a local-memory pointer of `n` bytes lies inside and is aligned (R98). -/
def localOk (p n align : Nat) : Bool := decide (p + n ≤ 0x40000) && p % align == 0

/-- The checks of EMIT on its argument (R108). A reserved byte that is not zero is answered with E_FORMAT, which the rule
does not say (DESIGN CHOICE, assumption 85). -/
def Ctl.emitCode (c : Ctl) (t k : Nat) (b : List Byte) : Nat :=
  let code := leNat (b.take 2)
  firstErr [(leNat ((b.drop 3).take 1) != 0, eFormat), (decide (5 < leNat ((b.drop 2).take 1)), eRange),
    (decide (2 ^ 21 ≤ leNat ((b.drop 4).take 4)), eRange), (c.level t k == 0 && decide (code < 0xC000), eRange)]

/-- The record EMIT presents from its 32 bytes `b`: its ORIGIN and SOURCE are those of the core. -/
def Ctl.emitRecord (c : Ctl) (t k : Nat) (b : List Byte) : Presented :=
  let code := leNat (b.take 2)
  { origin := if c.level t k = 1 then 1 else 2, source := 0x40 + k, code := code
    severity := severityOf code (leNat ((b.drop 2).take 1)), cell := leNat ((b.drop 4).take 4), payload := b.drop 8 }

/-- A record presented, after all that was presented before it, and the recorder's decision on it. -/
def presentNow (m : Mem) (c : Ctl) (t : Nat) (r : Presented) : Mem × Ctl × Bool :=
  let x := recordAll m c t
  let c1 := x.2.present t r
  match tabGet [] c1.presented t with
  | p :: _ => recordOne x.1 { c1 with presented := tabErase c1.presented t } t p
  | [] => (x.1, c1, false)

/-- The effect of EMIT for task `i` on the 32 bytes `b` at its pointer `p`. -/
def emitAt (m : Mem) (c : Ctl) (t k i : Nat) (d : Fin 32) (p : Nat) (b : List Byte) : Mem × Ctl :=
  let e := if !localOk p 32 8 then eFormat else c.emitCode t k b
  let r := c.emitRecord t k b
  if e ≠ eOk then (m, c.retireCode t i d e)
  else if 16 ≤ ((tabGet [] c.presented t).filter (fun x => x.source == r.source)).length then
    (m, (c.withhold t r.code).retire t i d 0x100)
  else
    let y := presentNow m c t r
    (y.1, y.2.1.retire t i d (if y.2.2 then 0 else 0x100))

/-- EMIT: the record is presented and the recorder decides on it; SUPPRESSED in bit 8 (R108, R437). -/
def execEmit (t : TileId) (k : CoreId) (d a : Fin 32) (s : State) : Host.Outcome State Fault Refusal :=
  s.onTileM t (fun m c => instrM m c t k (wordD d a 0x06 0x00) false (fun i c =>
    let p := ((c.task t i).reg a).toNat
    emitAt m c t k i d p (memBytes m (localAddr t k p) 32)))

end Sys2Proof.Machine
end

