-- ==== Sys2Proof/Machine/TimeBase.lean ====
section
/-! DEFINITION. Machine/TimeBase.lean: the time bases and the precision-time engine (R340 to R351, R354, R355). -/
namespace Sys2Proof.Machine

/-- Station-time states (TIME_STATE.STATE, R344). -/
abbrev tmFree : Nat := 0
abbrev tmAcquire : Nat := 1
abbrev tmLocked : Nat := 2
abbrev tmHoldover : Nat := 3

/-- Station time of a tile in ns since the TAI epoch (R340). -/
def Ctl.stn (c : Ctl) (t : Nat) : Nat := tabGet 0 c.stnSec t * 1000000000 + tabGet 0 c.stnNs t

/-- Station time of a tile set; the seconds hold 48 bits. -/
def Ctl.setStn (c : Ctl) (t : Nat) (ns : Int) : Ctl :=
  let n := (ns % (2 ^ 48 * 1000000000 : Int)).toNat
  { c with stnNs := tabSet c.stnNs t (n % 1000000000), stnSec := tabSet c.stnSec t (n / 1000000000) }

/-- Station time stepped: tile 0's, and with it every copy (R345, R347; DEDUCED, assumption 12). -/
def Ctl.stepStn (c : Ctl) (ns : Int) : Ctl :=
  forN c.tiles (fun t (c : Ctl) =>
    if t = 0 ∨ (tabFind c.stnSec t).isSome then c.setStn t ((c.stn t : Int) + ns) else c) c

/-- A change of the state of station time: 0x2C on every tile where it passes between locked and not locked; ALIGNED is
clear while it is not locked (R344, R349). -/
def Ctl.setTime (c : Ctl) (st : Nat) : Ctl :=
  let was := c.get 0 TIME_STATE_STATE
  let c := c.put 0 TIME_STATE_STATE st
  let c := { c with ptp := { c.ptp with inRange := 0, beyond := 0 } }
  let c := if 2 ≤ st then c else c.put 0 TIME_STATE_ALIGNED 0
  if decide (2 ≤ was) = decide (2 ≤ st) then c else c.irqAll 0x2C

/-- The servo takes a new rate for station time, at most 200 ppm either way; its value is the servo's own (R345; DESIGN
CHOICE, assumption 72). -/
def Ctl.retune (c : Ctl) : Ctl :=
  let v := c.free
  { v.2 with ptp := { v.2.ptp with rate := ((v.1 % 401 : Nat) : Int) - 200 } }

/-- What one cycle adds to station time beside its 4 ns: whole ns of the rate in force, the rest carried on (R345). -/
def Ctl.slewCycle (c : Ctl) : Ctl :=
  let f := c.ptp.frac + 4 * c.ptp.rate
  { c with ptp := { c.ptp with slew := f / 1000000, frac := f % 1000000 } }

/-- The grandmaster and path chosen; a change raises 0x7105 (R343). -/
def Ctl.chooseMaster (c : Ctl) (path gm : Nat) : Ctl :=
  let same := c.get 0 TIME_STATE_PATH == path && c.get 0 TIME_GM_LO_ID == gm % 2 ^ 32 && c.get 0 TIME_GM_HI_ID == gm / 2 ^ 32
  let ev := c.ptp.everChosen && !same
  let c := c.put 0 TIME_STATE_PATH path |>.put 0 TIME_GM_LO_ID gm |>.put 0 TIME_GM_HI_ID (gm / 2 ^ 32)
  let c := { c with ptp := { c.ptp with chosen := true, everChosen := true } }
  if ev then c.event 0 0x02 0x7105 else c

/-- Whether a PTP message of a domain is taken: PTP enabled, in its domain, the module domain on (R343, R355, R469). -/
def Ctl.ptpTakes (c : Ctl) (domain : Nat) : Bool :=
  c.tileState 0 != tsOff && c.flag 0 TIME_PTP_CFG_EN && c.get 0 TIME_PTP_CFG_DOMAIN == domain

/-- An Announce message; `better` is the outcome of the best master clock algorithm's comparison with the grandmaster
in force, which IEEE 1588 defines (R343; assumption 11). -/
def execPtpAnnounceReceive (path : Fin 2) (domain : Byte) (gm : BitVec 64) (better : Bool) (s : State) :
    Host.Outcome State Fault Refusal :=
  s.onModule (fun c =>
    if !c.ptpTakes domain.toNat then c
    else
      let c := { c with ptp := { c.ptp with heard := tabSet c.ptp.heard path gm.toNat } }
      if !c.ptp.chosen || better then c.chooseMaster path gm.toNat else c)

/-- A Sync in ACQUIRE: an offset beyond 100 µs steps station time, a smaller one is slewed; the step saturates in the four
bytes of its field (R344, R345, R430). -/
def Ctl.syncAcquire (c : Ctl) (off : Int) : Ctl :=
  if off.natAbs ≤ 1000 then
    let c := c.retune
    if 16 ≤ c.ptp.inRange + 1 then (c.setTime tmLocked).event 0 0x02 0x7101
    else { c with ptp := { c.ptp with inRange := c.ptp.inRange + 1 } }
  else
    let c := { c with ptp := { c.ptp with inRange := 0 } }
    if 100000 < off.natAbs then
      (c.stepStn (-off)).event 0 0x02 0x7104 0 (leBytes 4 (ofSigned 32 (clampInt (-(2 ^ 31 : Int)) (2 ^ 31 - 1 : Int) (-off))))
    else c.retune

/-- A Sync message on a path with the offset to the master measured from it; station time is slewed but for the step of
ACQUIRE (R343 to R345). -/
def Ctl.ptpSync (c : Ctl) (off : Int) : Ctl :=
  let c := c.putInt 0 TIME_OFFSET_NS (clampInt (-(2 ^ 31 : Int)) (2 ^ 31 - 1 : Int) off)
  let st := c.get 0 TIME_STATE_STATE
  if st = tmFree then (c.setTime tmAcquire).syncAcquire off
  else if st = tmAcquire then c.syncAcquire off
  else if st = tmLocked then
    if off.natAbs ≤ 100000 then Ctl.retune { c with ptp := { c.ptp with beyond := 0 } }
    else if c.ptp.beyond = 0 then Ctl.retune { c with ptp := { c.ptp with beyond := 1 } }
    else (c.setTime tmAcquire).event 0 0x02 0x7103
  else if off.natAbs ≤ 1000 then (c.setTime tmLocked).retune
  else (c.setTime tmAcquire).event 0 0x02 0x7103

/-- PTP_SYNC_RECEIVE: a Sync of the chosen master on the chosen path; others have no effect. -/
def execPtpSyncReceive (path : Fin 2) (domain : Byte) (offset : BitVec 64) (s : State) :
    Host.Outcome State Fault Refusal :=
  s.onModule (fun c =>
    if c.ptpTakes domain.toNat && c.ptp.chosen && c.get 0 TIME_STATE_PATH == path.val then c.ptpSync offset.toInt else c)

/-- A peer-delay exchange measures the link delay of a path in ns (R343). -/
def execPtpPdelayExchange (path : Fin 2) (delay : Word) (s : State) : Host.Outcome State Fault Refusal :=
  s.onModule (fun c =>
    if c.tileState 0 != tsOff && c.flag 0 TIME_PTP_CFG_EN then
      { c with ptp := { c.ptp with linkDelay := tabSet c.ptp.linkDelay path delay.toNat } }
    else c)

/-- No valid Sync on any path for 3 Sync intervals (R344). -/
def execPtpSyncTimeout (s : State) : Host.Outcome State Fault Refusal :=
  s.onModule (fun c =>
    if c.get 0 TIME_STATE_STATE = tmLocked then (c.setTime tmHoldover).event 0 0x02 0x7102 else c)

/-- HOLDOVER_S has elapsed in HOLDOVER (R344). -/
def execHoldoverExpiry (s : State) : Host.Outcome State Fault Refusal :=
  s.onModule (fun c =>
    if c.get 0 TIME_STATE_STATE = tmHoldover then (c.setTime tmAcquire).event 0 0x02 0x7103 else c)

/-- The Announce receipt timeout of a path: its master is dropped, and a master heard on the other path takes over
(R343). -/
def execAnnounceReceiptTimeout (path : Fin 2) (s : State) : Host.Outcome State Fault Refusal :=
  s.onModule (fun c =>
    let c := { c with ptp := { c.ptp with heard := tabErase c.ptp.heard path } }
    if c.ptp.chosen && c.get 0 TIME_STATE_PATH == path.val then
      match tabFind c.ptp.heard (1 - path.val) with
      | some gm => c.chooseMaster (1 - path.val) gm
      | none => { c with ptp := { c.ptp with chosen := false } }
    else c)

/-- A strobe with the seconds and millisecond its fabric message carries, which are tile 0's: the rate of the copy is corrected,
never its phase, so a copy, which runs at tile 0's rate, goes on as it stands; a tile that holds none since its reset takes
tile 0's time (R347; assumption 12). -/
def execTimeStrobe (t : TileId) (sec : BitVec 48) (ms : Fin 1000) (s : State) : Host.Outcome State Fault Refusal :=
  s.onTile t (fun c =>
    let asserted := c.stn 0 / 1000000 == sec.toNat * 1000 + ms.val
    if c.live t && t.val != 0 && asserted && (tabFind c.stnSec t).isNone then c.setStn t (c.stn 0) else c)

/-- No strobe for 3 ms: the tile reports its station time not locked (R347, R344). -/
def execStrobeLost (t : TileId) (s : State) : Host.Outcome State Fault Refusal :=
  s.onTile t (fun c =>
    if !c.live t || c.flag t TIME_STATE_STROBE_LOST then c
    else
      let was := c.timeLocked t
      let c := (c.put t TIME_STATE_STROBE_LOST 1).event t 0x02 0x7107
      if was then c.irq t 0x2C else c)

/-- 10 ms after strobes resume the tile returns to tile 0's state (R347, R344). -/
def execStrobeRecovered (t : TileId) (s : State) : Host.Outcome State Fault Refusal :=
  s.onTile t (fun c =>
    if !c.flag t TIME_STATE_STROBE_LOST then c
    else
      let c := c.put t TIME_STATE_STROBE_LOST 0
      if c.timeLocked t then c.irq t 0x2C else c)

/-- Whether a tile's counters count: the tile is neither OFF nor held in reset. -/
def Ctl.counts (c : Ctl) (t : Nat) : Bool := c.tileState t != tsOff && c.tileState t != tsHeld

/-- TIME_NS32 advances by 4 ns, and TIME_WRAP counts its wrap in the same cycle (R340, R342). -/
def Ctl.ns32Cycle (c : Ctl) (t : Nat) : Ctl :=
  let n := c.get t TIME_NS32_VALUE + 4
  let c := c.put t TIME_NS32_VALUE n
  if 2 ^ 32 ≤ n then c.incMod t TIME_WRAP_VALUE else c

/-- The cycle in which TIME_NS32 wraps and TIME_WRAP counts it: it comes only at the counter's last value (R342). -/
def execTimeWrap (t : TileId) (s : State) : Host.Outcome State Fault Refusal :=
  s.onTile t (fun c => if c.counts t && decide (2 ^ 32 ≤ c.get t TIME_NS32_VALUE + 4) then c.ns32Cycle t else c)

/-- One 250 MHz cycle of a tile's counters (R340, R342, R345). -/
def Ctl.cycle (c : Ctl) (t : Nat) : Ctl :=
  if !c.counts t then c
  else
    let c := c.ns32Cycle t
    if t = 0 ∨ (tabFind c.stnSec t).isSome then c.setStn t ((c.stn t : Int) + 4 + c.ptp.slew) else c

/-- One cycle of every fitted tile: what passes while no command waits (assumption 10). -/
def Ctl.clock (c : Ctl) : Ctl := forN c.tiles (fun t c => c.cycle t) c.slewCycle

/-- A read of TIME_STN_NS: the seconds are latched in the same cycle; all zero while not locked (R346, R355). -/
def Ctl.readStnNs (c : Ctl) (t : Nat) : Ctl × Nat :=
  let l := c.timeLocked t
  let sec := if l then tabGet 0 c.stnSec t else 0
  ((c.put t TIME_STN_SEC_LO_SEC sec).put t TIME_STN_SEC_HI_SEC (sec / 2 ^ 32 % 65536),
    if l then tabGet 0 c.stnNs t else 0)

/-- TIME_STN_NS_READ. -/
def execTimeStnNsRead (t : TileId) (s : State) : Host.Outcome State Fault Refusal :=
  s.onTile t (fun c => { (c.readStnNs t).1 with data := (c.readStnNs t).2 })

/-- A read of TIME_OPTIME_LO latches the high part (R355). -/
def Ctl.readOptime (c : Ctl) (t : Nat) : Ctl × Nat :=
  (c.put t TIME_OPTIME_HI_MS (c.optime / 2 ^ 32 % 65536), c.optime % 2 ^ 32)

/-- TIME_OPTIME_READ. -/
def execTimeOptimeRead (t : TileId) (s : State) : Host.Outcome State Fault Refusal :=
  s.onTile t (fun c => { (c.readOptime t).1 with data := (c.readOptime t).2 })

/-- Operating time and the power-cycle count written to the configuration store (R351). -/
def Ctl.storeOptime (c : Ctl) : Ctl :=
  { c with store :=
      tabSet (tabSet (tabSet c.store (TIME_OPTIME_LO_MS.key 0 0 0) (c.optime % 2 ^ 32)) (TIME_OPTIME_HI_MS.key 0 0 0)
        (c.optime / 2 ^ 32 % 65536)) (TIME_PCYCLE_COUNT.key 0 0 0) (c.get 0 TIME_PCYCLE_COUNT) }

/-- OPERATING_TIME_STORE. -/
def execOperatingTimeStore (s : State) : Host.Outcome State Fault Refusal := s.onModule Ctl.storeOptime

/-- A write of TIME_PTP_CFG: clearing EN takes station time to FREE (R344, R355). -/
def Ctl.ptpCfgWrite (c : Ctl) (o : Origin) (w : Nat) : Ctl × Nat :=
  if !c.mayConfig o then (c.violate o (modAddr 0 0x20002001C) true, eOk)
  else if 3600 < bitsOf w 8 12 then (c, eRange)
  else
    let c := c.put 0 TIME_PTP_CFG_EN (bitsOf w 31 1) |>.put 0 TIME_PTP_CFG_HOLDOVER_S (bitsOf w 8 12)
      |>.put 0 TIME_PTP_CFG_DOMAIN (w % 256)
    (if bit w 31 then c else Ctl.setTime { c with ptp := { c.ptp with chosen := false, heard := [] } } tmFree, eOk)

end Sys2Proof.Machine
end

