-- ==== Sys2Proof/Machine/Chp.lean ====
section
/-! DEFINITION. Machine/Chp.lean: the Casda host protocol: the checks of a received datagram, sessions, responses and
the paths messages leave on (R358 to R363, R371 to R374). -/
namespace Sys2Proof.Machine

/-! ## Sessions and messages -/

/-- A session slot. -/
def Ctl.session (c : Ctl) (slot : Nat) : Session := tabGet {} c.net.sessions slot

/-- A session slot changed. -/
def Ctl.setSession (c : Ctl) (slot : Nat) (x : Session) : Ctl :=
  { c with net := { c.net with sessions := tabSet c.net.sessions slot x } }

/-- The slot of the open session of an identity. -/
def Ctl.slotOf (c : Ctl) (id : Nat) : Option Nat := (List.range 16).find? (fun i => (c.session i).open_ && (c.session i).id == id)

/-- Whether a path has link. -/
def Ctl.linkUp (c : Ctl) (p : Nat) : Bool := c.flag 0 NET_P_LINK p

/-- The paths with link. -/
def Ctl.linked (c : Ctl) : List Nat := [0, 1].filter (fun p => c.linkUp p)

/-- NET_PATH.ACTIVE: 0, 1 or 3 for none. -/
def Ctl.activePath (c : Ctl) : Nat := c.get 0 NET_PATH_ACTIVE

/-- Whether both paths carry every message: for 10 ms after a switch (R373). -/
def Ctl.bothPaths (c : Ctl) : Bool := c.net.bothUntil.any (fun n => decide (c.optime < n))

/-- The paths a response to a request that came on `path` leaves on; none while no path has link (R372, R373). Where that path
has lost its link it leaves on the other (DESIGN CHOICE, assumption 101). -/
def Ctl.respPaths (c : Ctl) (path : Nat) : List Nat :=
  if c.bothPaths || c.activePath == 3 || !c.linkUp path then c.linked else [path]

/-- The paths an unsolicited message leaves on; none while no path is ACTIVE (R373). -/
def Ctl.activePaths (c : Ctl) : List Nat :=
  if c.activePath = 3 then [] else if c.bothPaths then c.linked else [c.activePath]

/-! ## The interface of a path (R357, R358, R377) -/

/-- An IP configuration field of a path as it is in effect. -/
def Ctl.ip (c : Ctl) (F : Field) (p : Nat) (j : Nat := 0) : Nat := tabGet F.reset c.net.ipActive (F.key 0 p j)

/-- The IPv6 address of a path in effect, word 0 most significant. -/
def Ctl.ip6 (c : Ctl) (p : Nat) : Nat :=
  ((c.ip NET_P_IP6_ADDR p 0 * 2 ^ 32 + c.ip NET_P_IP6_ADDR p 1) * 2 ^ 32 + c.ip NET_P_IP6_ADDR p 2) * 2 ^ 32
    + c.ip NET_P_IP6_ADDR p 3

/-- Whether a path takes a datagram: to its own address and port 47,300, no fragment, with the tag the configuration asks
for (R357, R377; assumption 101). -/
def Ctl.ipTakes (c : Ctl) (d : Datagram) : Bool :=
  !d.fragment && d.port == 47300
  && (if c.flag 0 NET_CFG_VLAN_EN then d.tag.any (fun v => v.toNat == c.get 0 NET_CFG_VLAN_ID) else d.tag.isNone)
  && (if d.src.v6 then c.ip NET_P_IP6_EN d.path != 0 && d.dst.toNat == c.ip6 d.path
    else c.ip NET_P_IP4_EN d.path != 0 && d.dst.toNat == c.ip NET_P_IP4_ADDR d.path)

/-- The address on a path's link through which a destination is reached: itself within the prefix, else the gateway or the
router learned; none where there is none (R357, R377). -/
def Ctl.nextHop (c : Ctl) (p : Nat) (e : Endpoint) : Option Nat :=
  let ip := e.ip.toNat
  if e.v6 then
    let n := 2 ^ (128 - c.ip NET_P_IP6_PREFIX p)
    if ip / n = c.ip6 p / n then some ip else tabFind c.net.routers p
  else
    let n := 2 ^ (32 - c.ip NET_P_IP4_PREFIX p)
    if ip / n = c.ip NET_P_IP4_ADDR p / n then some ip
    else if c.ip NET_P_IP4_GW p = 0 then none else some (c.ip NET_P_IP4_GW p)

/-- The tag of what the module sends: priority and VLAN (R357, R377). -/
def Ctl.vlanTag (c : Ctl) : Option Nat :=
  if c.flag 0 NET_CFG_VLAN_EN then some (c.get 0 NET_CFG_VLAN_PCP * 8192 + c.get 0 NET_CFG_VLAN_ID) else none

/-- A message on paths, to where the latest authenticated message came from on each; a path on which none has come carries
none (R357). -/
def Ctl.addressed (c : Ctl) (peers : Tab Endpoint) (paths : List Nat) (m : Msg) : List Sent :=
  (paths.map (fun p => match tabFind peers p with
    | some e => [{ path := p, dest := e, tag := c.vlanTag, msg := m
                   hop := (c.nextHop p e).bind (fun n => tabFind c.net.neighbours (p * 2 ^ 128 + n)) }]
    | none => [])).flatten

/-- Puts a message on paths, as the only one the command has sent. -/
def Ctl.sendOn (c : Ctl) (peers : Tab Endpoint) (paths : List Nat) (m : Msg) : Ctl :=
  { c with net := { c.net with sent := c.addressed peers paths m } }

/-- Puts a message on paths beside those sent already. -/
def Ctl.sendMore (c : Ctl) (peers : Tab Endpoint) (paths : List Nat) (m : Msg) : Ctl :=
  { c with net := { c.net with sent := c.net.sent ++ c.addressed peers paths m } }

/-- The header of a module message as it leaves (R358). -/
def Msg.head (m : Msg) : List Byte :=
  beBytes 2 0x7A5C ++ leBytes 1 m.version ++ leBytes 1 m.type ++ beBytes 4 m.seq ++ beBytes 4 m.session
  ++ beBytes 2 m.payload.length ++ leBytes 1 m.tile ++ leBytes 1 m.status

/-- The datagram of a module message (R358). -/
def Msg.bytes (m : Msg) : List Byte := m.head ++ m.payload ++ m.mac

/-- A message with its MAC under a key (R358). -/
def Msg.signed (m : Msg) (key : List Byte) : Msg := { m with mac := (Config.hmacSha256 key (m.head ++ m.payload)).take 16 }

/-- The next distinct message of a session, in the session's version (R358, R362, R374). -/
def Ctl.nextMsg (c : Ctl) (slot type tile status : Nat) (payload : List Byte) : Msg × Ctl :=
  let x := c.session slot
  let q := (x.tx + 1) % 2 ^ 32
  (Msg.signed { type := type, version := if x.v1 then 1 else 2, session := x.id, seq := q, tile := tile, status := status
                payload := payload } x.key,
    c.setSession slot { x with tx := q })

/-! ## The outgoing queues (R368, R373) -/

/-- Whether a message may be dropped: EVENT and TELEM. -/
def Msg.droppable (m : Msg) : Bool := m.type == 0x05 || m.type == 0x06

/-- Whether two messages are PDUs of one connection: SAFETY of the same tile and CONN. -/
def Msg.samePdu (m n : Msg) : Bool :=
  m.type == 0x08 && n.type == 0x08 && m.tile == n.tile && m.payload.head? == n.payload.head?

/-- A queue with one more message: an unsent PDU of the same connection is replaced in place, and from a full queue the oldest
EVENT or TELEM is dropped; whether one was. -/
def pushMsg (l : List Msg) (m : Msg) : List Msg × Bool :=
  if l.any m.samePdu then (l.map (fun n => if m.samePdu n then m else n), false)
  else if l.length < 64 then (l ++ [m], false)
  else
    match l.find? Msg.droppable with
    | some n => (l.erase n ++ [m], true)
    | none => if m.droppable then (l, true) else (l ++ [m], false)

/-- A message waits in a session's queue; a drop is counted, with event 0x7209 once per episode (R368). -/
def Ctl.enqueue (c : Ctl) (slot : Nat) (m : Msg) : Ctl :=
  let y := c.session slot
  let x := pushMsg y.out m
  if !x.2 then c.setSession slot { y with out := x.1 }
  else
    let c := (c.setSession slot { y with out := x.1, dropEpisode := true }).inc 0 NET_DROP_COUNT
    if y.dropEpisode then c else c.event 0 0x11 0x7209

/-- The single RESP of a request, kept for duplicates (R360, R362); while no path has link it waits (R373). -/
def Ctl.respond (c : Ctl) (slot seq path status : Nat) (result : List Byte) : Ctl :=
  if c.respPaths path = [] then
    let y := c.session slot
    (c.setSession slot { y with waiting := tabErase y.waiting seq }).enqueue slot
      { type := 0x04, seq := 0, status := status, payload := beBytes 4 seq ++ result }
  else
    let x := c.nextMsg slot 0x04 0xFF status (beBytes 4 seq ++ result)
    let c := x.2
    let y := c.session slot
    (c.setSession slot { y with resps := tabSet y.resps seq x.1, waiting := tabErase y.waiting seq }).sendOn y.peers
      (c.respPaths path) x.1

/-- A message of a queue is sent on paths, with the SEQ and MAC of this moment; a RESP is kept for duplicates. -/
def Ctl.sendQueued (slot : Nat) (paths : List Nat) (c : Ctl) (m : Msg) : Ctl :=
  let x := c.nextMsg slot m.type m.tile m.status m.payload
  let c := x.2
  let y := c.session slot
  let c := if m.type = 0x04 then c.setSession slot { y with resps := tabSet y.resps (beNat (m.payload.take 4)) x.1 } else c
  c.sendMore y.peers paths x.1

/-- What waited leaves: on the ACTIVE path everything, and while none is ACTIVE the RESP and SAFETY messages on every path with
link. -/
def Ctl.flushOut (c : Ctl) : Ctl :=
  let all := c.activePath != 3
  let paths := if all then c.activePaths else c.linked
  forN 16 (fun i (c : Ctl) =>
    let x := c.session i
    let go := x.out.filter (fun m => all || !m.droppable)
    if go = [] ∨ paths = [] then c
    else
      go.foldl (Ctl.sendQueued i paths) (c.setSession i { x with
        out := x.out.filter (fun m => !(all || !m.droppable)), dropEpisode := if all then false else x.dropEpisode })) c

/-- The identity under which a side-band command waits for its completion; no CHP session has it (R402, R405). -/
abbrev sideId : Nat := 2 ^ 32

/-- A side-band command is done (R405). -/
def Ctl.sideDone (c : Ctl) (status : Nat) (result : List Byte) : Ctl :=
  { c with twb := { c.twb with state := 2, code := status, res := result } }

/-- The RESP of a request whose response follows completion; none if the session has closed (R363). -/
def Ctl.complete (c : Ctl) (id seq status : Nat) (result : List Byte) : Ctl :=
  if id = sideId then (if c.twb.state = 1 then c.sideDone status result else c)
  else
  match c.slotOf id with
  | none => c
  | some slot =>
    match tabFind (c.session slot).waiting seq with
    | some path => c.respond slot seq path status result
    | none => c

/-- The RESPs of several requests that one operation completes, one each (R360). -/
def Ctl.completeEach (c : Ctl) (l : List (Nat × Nat)) (status : Nat) (result : List Byte) : Ctl :=
  let x := l.foldl (fun (x : Ctl × List Sent) e =>
    let y := Ctl.complete { x.1 with net := { x.1.net with sent := [] } } e.1 e.2 status result
    (y, x.2 ++ y.net.sent)) (c, [])
  { x.1 with net := { x.1.net with sent := if x.2 = [] then c.net.sent else x.2 } }

/-- An EVENT or TELEM message of a subscription: sent on the ACTIVE path, or waiting in the outgoing queue of 64, from which the oldest is
dropped (R368, R373). -/
def Ctl.unsolicited (c : Ctl) (slot sub type tile : Nat) (payload : List Byte) : Ctl :=
  if c.activePath = 3 then c.enqueue slot { type := type, seq := 0, tile := tile, payload := payload, sub := some sub }
  else
    let x := c.nextMsg slot type tile 0 payload
    let c := x.2
    let y := c.session slot
    (c.setSession slot { y with dropEpisode := false }).sendOn y.peers c.activePaths x.1

/-- Recomputes the subscription counts and the supervising flags that registers show from the typed state. -/
def Ctl.supervised (c : Ctl) : Ctl := c.put 0 NET_PATH_SUPERVISED (b2n c.net.supervisor.isSome)

/-! ## Path states (R372, R373) -/

/-- States of a path. -/
abbrev paDown : Nat := 0
abbrev paResync : Nat := 1
abbrev paStandby : Nat := 2
abbrev paActive : Nat := 3

/-- The state of a path. -/
def Ctl.path (c : Ctl) (p : Nat) : Nat := if p = 0 then c.get 0 NET_PATH_STATE_A else c.get 0 NET_PATH_STATE_B

/-- The state of a path set. -/
def Ctl.putPath (c : Ctl) (p st : Nat) : Ctl :=
  if p = 0 then c.put 0 NET_PATH_STATE_A st else c.put 0 NET_PATH_STATE_B st

/-- A path becomes ACTIVE, with event 0x7202; what waited leaves on it. -/
def Ctl.makeActive (c : Ctl) (p : Nat) : Ctl :=
  let c := ((c.putPath p paActive).put 0 NET_PATH_ACTIVE p).event 0 0x11 0x7202
  let c := { c with net := { c.net with bActive := decide (p = 1) && !c.linkUp 0 } }
  c.flushOut

/-- The SUPERVISION message of a path, of the supervising session (R371). -/
def Ctl.supervision (c : Ctl) (slot p : Nat) : Ctl :=
  let n := tabGet 0 c.net.supSent p + 1
  let c := { c with net := { c.net with supSent := tabSet c.net.supSent p n } }
  let x := c.nextMsg slot 0x07 0xFF 0
    (leBytes 1 p ++ leBytes 1 c.activePath ++ leBytes 1 (c.path 0) ++ leBytes 1 (c.path 1) ++ beBytes 4 n
      ++ beBytes 4 ((c.session slot).high.getD 0) ++ leBytes 4 0)
  x.2.sendMore (x.2.session slot).peers [p] x.1

/-- A path is lost: DOWN, counted, 0x7201 with path and cause (0 link, 1 supervision), 0x7204 when the other is DOWN; a
STANDBY path takes over, with a SUPERVISION at once and both paths carrying every message for 10 ms of operating time
(R372, R373). -/
def Ctl.pathLost (c : Ctl) (p cause : Nat) : Ctl :=
  let st := c.path p
  if st = paDown then c
  else
    let q := 1 - p
    let c := ((c.putPath p paDown).inc 0 NET_P_LOSSES p).event 0 0x11 0x7201 0 (leBytes 1 p ++ leBytes 1 cause)
    let c := if c.path q = paDown then c.event 0 0x11 0x7204 else c
    if st ≠ paActive then c
    else
      let c := c.put 0 NET_PATH_ACTIVE 3
      if c.path q = paStandby then
        let c := Ctl.makeActive { c with net := { c.net with bothUntil := some (c.optime + 10), sent := [] } } q
        match c.net.supervisor with
        | some slot => c.supervision slot q
        | none => c
      else c

/-! ## Closing a session (R363) -/

/-- The supervising role is given up: without one a path with link that is not ACTIVE is STANDBY (R372; assumption 13). -/
def Ctl.unsupervise (c : Ctl) : Ctl :=
  let c := Ctl.supervised { c with net := { c.net with supervisor := none } }
  let c := forN 2 (fun p (c : Ctl) => if c.linkUp p && c.path p != paActive then c.putPath p paStandby else c) c
  if c.activePath = 3 then (if c.linkUp 0 then c.makeActive 0 else if c.linkUp 1 then c.makeActive 1 else c) else c

/-- A session closes: its subscriptions, bulk handles and supervising role are released, event 0x7206 with the cause
(0 command, 1 idle, 2 reset). -/
def Ctl.closeSession (c : Ctl) (slot cause : Nat) : Ctl :=
  if !(c.session slot).open_ then c
  else
    let c := { c with net := { c.net with
      sessions := tabErase c.net.sessions slot
      subs := c.net.subs.filter (fun e => e.2.slot != slot)
      bulks := c.net.bulks.filter (fun e => e.2.slot != slot) } }
    let c := if c.net.supervisor = some slot then c.unsupervise else c
    c.event 0 0x11 0x7206 0 (leBytes 1 cause)

/-! ## A datagram received (R360 to R362) -/

/-- The header of a datagram of a type. -/
def dgHeader (d : Datagram) (type : Nat) : List Byte :=
  beBytes 2 d.magic.toNat ++ [d.version] ++ leBytes 1 type ++ beBytes 4 d.seq.toNat ++ beBytes 4 d.session.toNat
  ++ beBytes 2 d.len.toNat ++ [d.tile, d.status]

/-- The TYPE of a datagram that a row of a type receives (R359, R360). -/
def Datagram.typeAs (d : Datagram) (type : Nat) : Nat := match d.asType with | some n => 4 + n.val | none => type

/-- The MAC of a datagram under a key. -/
def dgMac (d : Datagram) (type : Nat) (key : List Byte) : List Byte :=
  (Config.hmacSha256 key (dgHeader d (Datagram.typeAs d type) ++ d.payload)).take 16

/-- Step 1 of R360. -/
def Ctl.formatOk (c : Ctl) (d : Datagram) : Bool :=
  d.payload.length == d.len.toNat && decide (d.len.toNat ≤ 1400) && d.mac.length == 16 && d.magic == 0x7A5C
  && (d.version == 2 || (d.version == 1 && c.flag 0 NET_CFG_COMPAT))

/-- An authentication failure; event 0x7208 at most once per second, with the count (R360, R376). -/
def Ctl.authFailed (c : Ctl) : Ctl :=
  let c := c.inc 0 NET_ERR_AUTH
  let n := c.net.authFails + 1
  if (c.net.authAt.all (fun a => decide (a + 1000 ≤ c.optime))) then
    Ctl.event { c with net := { c.net with authFails := 0, authAt := some c.optime } } 0 0x11 0x7208 0 (leBytes 4 n)
  else { c with net := { c.net with authFails := n } }

/-- What becomes of a datagram after steps 1 to 3 of R360: discarded, a duplicate answered again, or accepted in a
session slot. -/
inductive Received where
  | done (c : Ctl)
  | accepted (slot : Nat) (c : Ctl)

/-- Step 3: the sequence checks of R362. -/
def Ctl.sequence (c : Ctl) (slot : Nat) (d : Datagram) : Received :=
  let x := c.session slot
  let q := d.seq.toNat
  let x := { x with peers := tabSet x.peers d.path d.src }
  match x.high with
  | none => .accepted slot (c.setSession slot { x with high := some q, seen := [q] })
  | some h =>
    let e := frameDiff q h
    if 0 < e then
      .accepted slot (c.setSession slot { x with
        high := some q
        seen := q :: x.seen.filter (fun n => decide (-64 < frameDiff n q))
        resps := x.resps.filter (fun r => decide (-64 < frameDiff r.1 q)) })
    else if e ≤ -64 then .done (c.inc 0 NET_ERR_REPLAY)
    else if x.seen.contains q then
      let c := (c.setSession slot x).inc 0 NET_ERR_DUP
      match tabFind x.resps q with
      | some r => .done (c.sendOn x.peers (c.respPaths d.path) r)
      | none => .done c
    else .accepted slot (c.setSession slot { x with seen := q :: x.seen })

/-- Whether nothing answers a datagram: tile 0 neither in RUN nor CARRIED (R469); a CMD once Standby, Chrysalis or a
shutdown has begun (R322, R324, R476; assumption 26); what the recovery service does not answer (R447). -/
def Ctl.deaf (c : Ctl) (type : Nat) (d : Datagram) : Bool :=
  !c.live 0 || (type == 0x03 && c.pw.leaving != .none)
    || (c.img.recovery && !(type == 0x09
      || (type == 0x03 && [0x7001, 0x7002, 0x7005, 0xB001, 0xB002, 0xB003, 0xB004, 0xB005].contains (beNat (d.payload.take 2)))))

/-- What a path does of a datagram before CHP sees it: nothing where the module is deaf, the path has no link or the datagram is
not for it; a frame with an error is counted in RX_BAD; a request that arrives in an activation pause is held (R357, R377, R451,
R469). -/
def Ctl.arrives (c : Ctl) (type : Nat) (d : Datagram) : Option Ctl :=
  if c.deaf type d || !c.linkUp d.path then some c
  else if !d.crcOk then some (c.inc 0 NET_P_RX_BAD d.path)
  else if !c.ipTakes d then some c
  else if c.img.paused && type != 0x07 && type != 0x08 then
    some { c with net := { c.net with held := c.net.held ++ [(type, d)] } }
  else none

/-- Steps 1 to 3 of R360. -/
def Ctl.receive (c : Ctl) (type : Nat) (d : Datagram) : Received :=
  match c.arrives type d with
  | some c => .done c
  | none =>
  if !c.formatOk d then .done (c.inc 0 NET_ERR_FORMAT)
  else
    match c.slotOf d.session.toNat with
    | none => .done c.authFailed
    | some slot =>
      let x := c.session slot
      if x.v1 ≠ decide (d.version = 1) then .done (c.inc 0 NET_ERR_FORMAT)
      else if dgMac d type x.key ≠ d.mac then .done c.authFailed
      else c.sequence slot d

/-! ## Requests -/

/-- The outcome of a request: its status and result, `later` when the RESP follows completion, `closes` when the session
closes after the RESP, `denied` where the request lies above the role's rights. -/
structure Eff where
  mem : Mem
  ctl : Ctl
  status : Nat := 0
  result : List Byte := []
  later : Bool := false
  closes : Bool := false
  denied : Bool := false
  /-- The bulk handle that the command names (R370). -/
  handle : Option Nat := none

/-- A rejected request changes nothing (R45). -/
def Eff.err (m : Mem) (c : Ctl) (code : Nat) : Eff := { mem := m, ctl := c, status := code }

/-- A request above the role's rights: silent and counted (R44). -/
def Eff.deny (m : Mem) (c : Ctl) (o : Origin) (addr : Nat) (write : Bool) (result : List Byte := []) : Eff :=
  { mem := m, ctl := c.violate o addr write, result := result, denied := true }

/-- The checks of role and argument length that come before a command's own (R44, R46, R366). -/
def guarded (r : Req) (roles : List Role) (len : Nat) (m : Mem) (c : Ctl) (k : Eff) : Eff :=
  if !roles.contains r.role then .deny m c r.origin 0 true
  else if r.args.length ≠ len then .err m c eFormat
  else k

/-- A command whose argument byte at `pos` names a bulk handle, which it releases whatever its outcome; one above the role's
rights has no effect (R44, R370). -/
def Eff.names (e : Eff) (q : Req) (pos : Nat) : Eff :=
  { e with handle := if pos < q.args.length then some (q.arg pos 1) else none }

/-- A bulk handle of a session released. -/
def Ctl.releaseBulk (c : Ctl) (slot h : Nat) : Ctl :=
  match tabFind c.net.bulks h with
  | some b => if b.slot = slot then { c with net := { c.net with bulks := tabErase c.net.bulks h } } else c
  | none => c

/-- The handle that a command names is released with its effect (R370). -/
def Eff.released (e : Eff) (slot : Nat) : Eff :=
  match e.handle with
  | some h => { e with ctl := e.ctl.releaseBulk slot h }
  | none => e

/-- Roles that may send a command. -/
abbrev anyHost : List Role := [.observer, .operator, .engineer, .safety]
/-- Commands whose home chapter names the Operator role alone; its entry overrides R43's table (R224, R264; assumption 29). -/
abbrev opRoles : List Role := [.operator]
/-- The roles of `mode.standby` and `mode.run` (R326). -/
abbrev modeRoles : List Role := [.operator, .management]
/-- Engineer commands. -/
abbrev engRoles : List Role := [.engineer]

/-- The RESP of a request, or its place among the waiting ones. -/
def Eff.answered (e : Eff) (slot seq path : Nat) : Mem × Ctl :=
  if e.later then
    let x := e.ctl.session slot
    (e.mem, e.ctl.setSession slot { x with waiting := tabSet x.waiting seq path })
  else
    let c := e.ctl.respond slot seq path e.status e.result
    (e.mem, if e.closes then c.closeSession slot 0 else c)

/-- A request of a type that reaches step 4, on the arguments after the first `skip` payload bytes: its privilege comes
first, then STATUS and TILE (`tileOk`) and the form `formOk`, its own checks, and the 32 outstanding as the last (R46, R360,
R363). -/
def chpRequest (type skip : Nat) (d : Datagram) (tileOk formOk : Bool) (f : Req → Mem → Ctl → Eff) (m : Mem) (c : Ctl) :
    Mem × Ctl :=
  match c.receive type d with
  | .done c => (m, c)
  | .accepted slot c =>
    let x := c.session slot
    let r : Req := { role := x.role, id := x.id, slot := slot, seq := d.seq.toNat, v1 := x.v1, args := d.payload.drop skip }
    let e := f r m c
    let e :=
      if e.denied then e
      else
        let refused (code : Nat) : Eff := { Eff.err m c code with handle := e.handle }
        let e :=
          if d.status ≠ 0 ∨ ¬ tileOk ∨ ¬ formOk ∨ d.asType.isSome then refused eFormat
          else if e.status = eOk ∧ 32 ≤ x.waiting.length then refused eBusy
          else e
        e.released slot
    e.answered slot d.seq.toNat d.path

/-- A CMD datagram whose payload must carry CODE `code` (R366). -/
def chpCmd (code : Nat) (d : Datagram) (f : Req → Mem → Ctl → Eff) (m : Mem) (c : Ctl) : Mem × Ctl :=
  chpRequest 0x03 4 d (d.tile = 0xFF) (decide (4 ≤ d.payload.length) && beNat (d.payload.take 2) == code) f m c

/-- A CMD as a command of the module. -/
def State.cmd (s : State) (code : Nat) (d : Datagram) (f : Req → Mem → Ctl → Eff) : Host.Outcome State Fault Refusal :=
  s.onModuleM (fun m c => chpCmd code d f m c)

/-! ## Bulk handles (R370) -/

/-- The command that names a handle consumes it: its code and bytes. No command of a version 1 session takes a handle
(R374). -/
def Ctl.takeBulk (c : Ctl) (q : Req) (h : Nat) : Nat × List Byte × Ctl :=
  if q.v1 then (eNotsup, [], c)
  else
    match tabFind c.net.bulks h with
    | none => (eRange, [], c)
    | some b =>
      if b.slot ≠ q.slot then (eRange, [], c)
      else
        let c := { c with net := { c.net with bulks := tabErase c.net.bulks h } }
        if b.data.length < b.len then (eFormat, [], c) else (eOk, b.data.map (fun e => e.2), c)

end Sys2Proof.Machine
end

