-- ==== Sys2Proof/Machine/Network.lean ====
section
/-! DEFINITION. Machine/Network.lean: the network commands, bulk data, supervision, paths and the messages the module
sends (R356, R357, R361 to R377). -/
namespace Sys2Proof.Machine

/-! ## net.open and net.close (R361, R363) -/

/-- A session identity no open session has, from one free value; never zero. -/
def Ctl.newId (c : Ctl) (v : Nat) : Nat :=
  let ids := (List.range 17).map (fun n => (v + n) % (2 ^ 32 - 1) + 1)
  (ids.find? (fun x => (c.slotOf x).isNone)).getD 1

/-- The RESP of the open exchange: SESSION 0, to where the request came from, with its MAC under the role key, or all zero where
there is none (R361; of a ROLE out of range DESIGN CHOICE, assumption 101). -/
def Ctl.openResp (c : Ctl) (d : Datagram) (status : Nat) (result : List Byte) (key : Option (List Byte) := none) : Ctl :=
  let x := c.free
  let m : Msg := { type := 0x04, version := d.version.toNat, seq := x.1 % 2 ^ 32, status := status
                   payload := beBytes 4 d.seq.toNat ++ result, mac := List.replicate 16 0 }
  x.2.sendOn [(d.path.val, d.src)] [d.path] (match key with | some k => m.signed k | none => m)

/-- The role of a number. -/
def roleOf : Nat → Role
  | 0 => .observer
  | 1 => .operator
  | 2 => .engineer
  | _ => .safety

/-- The open exchange: a datagram of SESSION 0 that is no `net.open` names no open session; the MAC is checked under the key
of ROLE before anything else, and a ROLE above 3, for which there can be no key, is out of range (R46, R360, R361, R375). -/
def Ctl.netOpen (c : Ctl) (d : Datagram) : Ctl :=
  let wrong : Bool := d.payload.length != 24 || d.tile != 0xFF || d.status != 0
  match c.arrives 0x03 d with
  | some c => c
  | none =>
  if !c.formatOk d then c.inc 0 NET_ERR_FORMAT
  else if beNat (d.payload.take 2) ≠ 0x7001 then c.authFailed
  else
    let role := beNat ((d.payload.drop 4).take 1)
    let nh := (d.payload.drop 8).take 16
    if 3 < role then c.openResp d (if wrong then eFormat else eRange) []
    else
      match (if d.payload.length < 5 then none else tabFind c.net.keys role) with
      | none => (c.openResp d eAuth []).event 0 0x11 0x7207
      | some key =>
        if dgMac d 0x03 key ≠ d.mac then (c.openResp d eAuth []).event 0 0x11 0x7207
        else if wrong || d.asType.isSome then c.openResp d eFormat [] (some key)
        else
          match (List.range 16).find? (fun i => !(c.session i).open_) with
          | none => c.openResp d eBusy [] (some key)
          | some slot =>
            let x := c.free
            let y := x.2.free
            let id := y.2.newId x.1
            let nm := beBytes 16 y.1
            let ks := Config.hmacSha256 key ([0x53, 0x4B, 0x56, 0x53] ++ nh ++ nm ++ beBytes 4 id)
            let c := y.2.setSession slot { open_ := true, role := roleOf role, id := id, key := ks,
                                           v1 := decide (d.version = 1), peers := [(d.path.val, d.src)] }
            (c.event 0 0x11 0x7205 0 (leBytes 1 role ++ leBytes 4 id)).openResp d eOk (beBytes 4 id ++ nm) (some key)

/-- NET_OPEN, sent with SESSION 0; in a session it is malformed (R358, R361). -/
def execNetOpen (d : Datagram) (s : State) : Host.Outcome State Fault Refusal :=
  if d.session = 0 then s.onModule (fun c => c.netOpen d) else s.cmd 0x7001 d (fun _ m c => .err m c eFormat)

/-- NET_CLOSE: the session closes after its RESP (R363). -/
def execNetClose (d : Datagram) (s : State) : Host.Outcome State Fault Refusal :=
  s.cmd 0x7002 d (fun r m c => guarded r anyHost 0 m c { mem := m, ctl := c, closes := true })

/-- No valid message of a session's host for IDLE_S (R363). -/
def execSessionIdleTimeout (slot : Fin 16) (s : State) : Host.Outcome State Fault Refusal :=
  s.onModule (fun c => c.closeSession slot 1)

/-! ## Subscriptions (R367, R368, R375) -/

/-- The ranges of a TELEM subscription. -/
def telemRanges : Nat → List Byte → List (Nat × Nat)
  | 0, _ => []
  | n + 1, bs => (beNat (bs.take 5), beNat ((bs.drop 6).take 2)) :: telemRanges n (bs.drop 8)

/-- A subscription asked for, by its arguments; none where they are malformed. -/
def Req.subKind (r : Req) : Option SubKind :=
  let n := r.args.length
  match r.arg 0 1 with
  | 0 => if n = 5 then some (.event (r.arg 1 1) (r.arg 2 1) (r.arg 3 2)) else none
  | 1 => if 5 ≤ n ∧ n = 5 + 8 * r.arg 4 1 then
      some (.telem (r.arg 1 1) (r.arg 2 1) (r.arg 3 1) (telemRanges (r.arg 4 1) (r.args.drop 5))) else none
  | _ => if n = 3 then some (.safety (r.arg 1 1) (r.arg 2 1)) else none

/-- Whether what a subscription names exists. -/
def Ctl.subPresent (c : Ctl) : SubKind → Bool
  | .event tiles _ _ => tiles / 2 ^ c.tiles == 0
  | .telem tile _ _ _ => decide (tile < c.tiles)
  | .safety tile conn => decide (tile < c.tiles) && decide (conn < 16)
      && c.get tile BERYL_PA_CONN_KIND conn == 1 && c.get tile BERYL_PA_CONN_MEDIUM conn == 1

/-- Whether the values of a subscription lie in their ranges. -/
def subInRange : SubKind → Bool
  | .event _ _ _ => true
  | .telem tile trig decim rs => decide (trig ≤ 2) && decide (1 ≤ decim) && decide (1 ≤ rs.length)
      && decide (rs.length ≤ 16)
      && rs.all (fun x => x.1 / 2 ^ 36 == tile && (x.1 + x.2 - 1) / 2 ^ 36 == tile && x.1 % 4 == 0 && x.2 % 4 == 0)
      && decide ((rs.map (fun x => x.2)).sum ≤ 1388)
  | .safety _ _ => true

/-- How many subscriptions a session holds. -/
def Ctl.subsOf (c : Ctl) (slot : Nat) : Nat := (c.net.subs.filter (fun e => e.2.slot == slot)).length

/-- `net.subscribe` (R367, R374, R375). -/
def netSubscribe (r : Req) (m : Mem) (c : Ctl) : Eff :=
  if r.arg 0 1 = 2 ∧ r.role = .observer then .deny m c r.origin 0 true
  else
    match r.subKind with
    | none => .err m c eFormat
    | some k =>
      let e := firstErr [(!c.subPresent k && decide (r.arg 0 1 ≤ 2), eAbsent), (r.v1, eNotsup),
        (decide (2 < r.arg 0 1) || !subInRange k, eRange),
        (decide (8 ≤ c.subsOf r.slot) || decide (32 ≤ c.net.subs.length), eBusy)]
      if e ≠ eOk then .err m c e
      else
        let n := ((List.range 32).find? (fun i => (tabFind c.net.subs i).isNone)).getD 0
        { mem := m, result := leBytes 1 n
          ctl := { c with net := { c.net with subs := tabSet c.net.subs n { slot := r.slot, kind := k } } } }

/-- NET_SUBSCRIBE. -/
def execNetSubscribe (d : Datagram) (s : State) : Host.Outcome State Fault Refusal := s.cmd 0x7003 d netSubscribe

/-- A subscription ends, and its messages still queued with it (R489). -/
def Ctl.dropSub (c : Ctl) (slot n : Nat) : Ctl :=
  let c := { c with net := { c.net with subs := tabErase c.net.subs n } }
  let y := c.session slot
  c.setSession slot { y with out := y.out.filter (fun m => m.sub != some n) }

/-- NET_UNSUBSCRIBE (R375, R489). -/
def execNetUnsubscribe (d : Datagram) (s : State) : Host.Outcome State Fault Refusal :=
  s.cmd 0x7004 d (fun r m c => guarded r anyHost 1 m c (
    match tabFind c.net.subs (r.arg 0 1) with
    | none => .err m c eAbsent
    | some x =>
      if x.slot ≠ r.slot then .err m c eAbsent
      else { mem := m, ctl := c.dropSub r.slot (r.arg 0 1) }))

/-- The records of one tile at the head of a queue, at most 20, and the rest (R368). -/
def takeRecords (t : Nat) (l : List (Nat × List Byte)) : List (List Byte) × List (Nat × List Byte) :=
  let pick := (l.filter (fun x => x.1 == t)).take 20
  (pick.map (fun x => x.2), (l.filter (fun x => x.1 != t)) ++ ((l.filter (fun x => x.1 == t)).drop 20))

/-- EVENT_MESSAGE_SEND: an EVENT message of a subscription's oldest waiting tile (R368). -/
def execEventMessageSend (sub : Fin 32) (s : State) : Host.Outcome State Fault Refusal :=
  s.onModule (fun c =>
    match tabFind c.net.subs sub with
    | none => c
    | some x =>
      match x.records with
      | [] => c
      | (t, _) :: _ =>
        let y := takeRecords t x.records
        let c := { c with net := { c.net with subs := tabSet c.net.subs sub { x with records := y.2 } } }
        c.unsolicited x.slot sub 0x05 t (leBytes 1 y.1.length ++ leBytes 3 0 ++ y.1.flatten))

/-- A trigger of the TELEM subscriptions of a tile: a copy falls due every DECIM triggers (R367). -/
def Ctl.telemTrigger (c : Ctl) (t trig : Nat) : Ctl :=
  { c with net := { c.net with subs := c.net.subs.map (fun e =>
      match e.2.kind with
      | .telem tile tr decim _ =>
        if tile = t ∧ tr = trig then
          if decim ≤ e.2.count + 1 then (e.1, { e.2 with count := 0, due := true, frame := c.get t SMP_FRAME_NUM_FRAME })
          else (e.1, { e.2 with count := e.2.count + 1 })
        else e
      | _ => e) } }

/-! ## Bulk transfer (R370) -/

/-- NET_BULK_OPEN (R370, R374, R375). -/
def execNetBulkOpen (d : Datagram) (s : State) : Host.Outcome State Fault Refusal :=
  s.cmd 0x7005 d (fun r m c => guarded r [.engineer, .safety] 4 m c (
    let n := r.arg 0 4
    let e := firstErr [(r.v1, eNotsup), (n == 0 || decide (65536 < n), eRange), (decide (4 ≤ c.net.bulks.length), eBusy)]
    if e ≠ eOk then .err m c e
    else
      let h := ((List.range 4).find? (fun i => (tabFind c.net.bulks i).isNone)).getD 0
      { mem := m, result := leBytes 1 h
        ctl := { c with net := { c.net with bulks := tabSet c.net.bulks h { slot := r.slot, len := n } } } }))

/-- Bytes stored in a bulk buffer from an offset. -/
def bulkStore (t : Tab Byte) (off : Nat) : List Byte → Tab Byte
  | [] => t
  | b :: bs => bulkStore (tabSet t off b) (off + 1) bs

/-- The effect of a BULK message. -/
def chpBulk (r : Req) (m : Mem) (c : Ctl) : Eff :=
  let data := r.args.drop 8
  match tabFind c.net.bulks (r.arg 0 1) with
  | none => .err m c eRange
  | some b =>
    if b.slot ≠ r.slot ∨ b.len < r.arg 4 4 + data.length then .err m c eRange
    else
      { mem := m, ctl := { c with net := { c.net with
          bulks := tabSet c.net.bulks (r.arg 0 1) { b with data := bulkStore b.data (r.arg 4 4) data } } } }

/-- CHP_BULK_RECEIVE: a BULK message (R370, R374). -/
def execChpBulkReceive (d : Datagram) (s : State) : Host.Outcome State Fault Refusal :=
  s.onModuleM (fun m c => chpRequest 0x09 0 d (d.tile = 0xFF)
    (decide (9 ≤ d.payload.length) && decide (d.payload.length ≤ 8 + 1024) && d.version == 2) chpBulk m c)

/-- A handle unused for 60 s is released (R370). -/
def execBulkHandleTimeout (h : Fin 4) (s : State) : Host.Outcome State Fault Refusal :=
  s.onModule (fun c => { c with net := { c.net with bulks := tabErase c.net.bulks h } })

/-! ## Supervision (R371 to R373) -/

/-- The session becomes the supervising one: the ACTIVE path stays ACTIVE, every other path with link enters RESYNC
(R371, R372). -/
def Ctl.supervise (c : Ctl) (slot : Nat) : Ctl :=
  if c.net.supervisor = some slot then c
  else
    let c := Ctl.supervised { c with net := { c.net with supervisor := some slot } }
    forN 2 (fun p (c : Ctl) => if c.linkUp p && c.path p != paActive then c.putPath p paResync else c) c

/-- `net.supervise` with its argument EN (R375). -/
def netSupervise (r : Req) (m : Mem) (c : Ctl) : Eff :=
  guarded r [.operator, .engineer, .safety] 1 m c (
    let e := firstErr [(decide (1 < r.arg 0 1), eRange),
      (c.net.supervisor.isSome && c.net.supervisor != some r.slot, eConflict)]
    if e ≠ eOk then .err m c e
    else if r.arg 0 1 = 1 then { mem := m, ctl := c.supervise r.slot }
    else { mem := m, ctl := if c.net.supervisor = some r.slot then c.unsupervise else c })

/-- NET_SUPERVISE. -/
def execNetSupervise (d : Datagram) (s : State) : Host.Outcome State Fault Refusal := s.cmd 0x7006 d netSupervise
/-- NET_SUPERVISE_RELEASE: the same command with EN 0. -/
def execNetSuperviseRelease (d : Datagram) (s : State) : Host.Outcome State Fault Refusal := s.cmd 0x7006 d netSupervise

/-- The effect of a valid SUPERVISION on its path (R372). -/
def Ctl.supervisionValid (c : Ctl) (p : Nat) : Ctl :=
  if c.path p ≠ paDown ∨ ¬ c.linkUp p then c
  else if c.activePath = 3 then c.makeActive p
  else c.putPath p paResync

/-- A datagram of a type that the module alone sends, in a session: rejected with E_FORMAT (R360). -/
def notHosts (type : Nat) (d : Datagram) (m : Mem) (c : Ctl) : Mem × Ctl :=
  chpRequest type 0 d false false (fun _ m c => .err m c eFormat) m c

/-- SUPERVISION_RECEIVE: valid only in the supervising session, of the right form and on the path it names, where another
counts in NET_ERR.FORMAT; never answered (R360, R371, R377). -/
def execSupervisionReceive (d : Datagram) (s : State) : Host.Outcome State Fault Refusal :=
  s.onModuleM (fun m c =>
    if d.asType.isSome then notHosts 0x07 d m c
    else
      (m, match c.receive 0x07 d with
        | .done c => c
        | .accepted slot c =>
          if d.status ≠ 0 ∨ d.tile ≠ 0xFF ∨ d.payload.length ≠ 16 then c
          else if beNat (d.payload.take 1) ≠ d.path.val then c.inc 0 NET_ERR_FORMAT
          else if c.net.supervisor = some slot then c.supervisionValid d.path else c))

/-- SUPERVISION_SEND: on each path with link (R371, R373). -/
def execSupervisionSend (s : State) : Host.Outcome State Fault Refusal :=
  s.onModule (fun c =>
    match c.net.supervisor with
    | none => c
    | some slot =>
      let c := { c with net := { c.net with sent := [] } }
      c.linked.foldl (fun (c : Ctl) p => c.supervision slot p) c)

/-- No valid SUPERVISION on a path for 25 ms (R372). -/
def execPathSupervisionLoss (p : Fin 2) (s : State) : Host.Outcome State Fault Refusal :=
  s.onModule (fun c => if c.net.supervisor.isSome then c.pathLost p 1 else c)

/-- 1 s in RESYNC without a gap (R372). -/
def execPathResyncDone (p : Fin 2) (s : State) : Host.Outcome State Fault Refusal :=
  s.onModule (fun c => if c.path p = paResync then (c.putPath p paStandby).event 0 0x11 0x7203 else c)

/-- Under COMPAT Path A takes the active role back after 10 s in STANDBY (R372, R373). -/
def execPathCompatRevert (s : State) : Host.Outcome State Fault Refusal :=
  s.onModule (fun c =>
    if c.net.supervisor.isSome && c.flag 0 NET_CFG_COMPAT && c.path 0 == paStandby then
      (if c.path 1 = paActive then c.putPath 1 paStandby else c).makeActive 0
    else c)

/-! ## Links and transceivers (R356, R372) -/

/-- A path's link goes down: the path is lost (R372). -/
def Ctl.linkDown (c : Ctl) (p : Nat) (los : Bool) : Ctl :=
  let c := c.put 0 NET_P_LINK 0 p |>.put 0 NET_P_LOS (b2n los) p |>.put 0 NET_P_SPEED 0 p
  let c := c.pathLost p 0
  if p = 1 then { c with net := { c.net with bActive := false } } else c

/-- SFP_INSERT: an unsupported medium is marked and never enabled, so that a link there was is down (R356). -/
def execSfpInsert (p : Fin 2) (medium : Medium) (rxPower : BitVec 16) (s : State) : Host.Outcome State Fault Refusal :=
  s.onModule (fun c =>
    let ok : Bool := medium != .other
    let ten : Bool := medium == .sr10g || medium == .lr10g
    let c := c.put 0 NET_P_PRESENT 1 p |>.put 0 NET_P_SUPPORTED (b2n ok) p |>.put 0 NET_P_RX_PWR rxPower.toNat p
    let c := { c with net := { c.net with tenGig := tabSet c.net.tenGig p ten } }
    if ok then c else (if c.linkUp p then c.linkDown p false else c).event 0 0x11 0x720A)

/-- PATH_LINK_UP at the rate of the path's medium, 1 or 10 Gbit/s; at another none comes up (R356). Without a supervising
session Path A is active whenever its link is up, unless Path B became active while A was down (R372); with one, what may leave
on any path leaves (R373). -/
def execPathLinkUp (p : Fin 2) (ten : Bool) (s : State) : Host.Outcome State Fault Refusal :=
  s.onModule (fun c =>
    if !c.flag 0 NET_P_SUPPORTED p || c.linkUp p || ten != tabGet false c.net.tenGig p then c
    else
      let c := c.put 0 NET_P_LINK 1 p |>.put 0 NET_P_LOS 0 p |>.put 0 NET_P_SPEED (if ten then 2 else 1) p
      let c := { c with net := { c.net with sent := [] } }
      if c.net.supervisor.isSome then c.flushOut
      else if c.activePath = 3 then c.makeActive p
      else if p.val = 0 ∧ ¬ c.net.bActive then (c.putPath 1 paStandby).makeActive 0
      else c.putPath p paStandby)

/-- PATH_LINK_DOWN, with or without loss of signal (R372). -/
def execPathLinkDown (p : Fin 2) (los : Bool) (s : State) : Host.Outcome State Fault Refusal :=
  s.onModule (fun c => c.linkDown p los)

/-! ## Role keys (R364, R375) -/

/-- Byte strings combined by exclusive or. -/
def xorBytes (a b : List Byte) : List Byte := List.zipWith (fun x y => x ^^^ y) a b

/-- Whether a role may replace the key of a role. -/
def mayKey (r : Role) (n : Nat) : Bool := (decide (r = .engineer) && n != 3) || (decide (r = .safety) && n == 3)

/-- NET_KEY (R364). -/
def execNetKey (d : Datagram) (s : State) : Host.Outcome State Fault Refusal :=
  s.cmd 0x7007 d (fun r m c =>
    if !mayKey r.role (r.arg 0 1) then .deny m c r.origin 0 true
    else if r.args.length ≠ 40 then .err m c eFormat
    else if 3 < r.arg 0 1 then .err m c eRange
    else
      let key := xorBytes (r.bytes 4 32)
        (Config.hmacSha256 (c.session r.slot).key ([0x53, 0x4B, 0x56, 0x4B] ++ beBytes 4 r.seq))
      if (Config.hmacSha256 key [0x53, 0x4B, 0x56, 0x43]).take 4 ≠ r.bytes 36 4 then .err m c eIntegrity
      else { mem := m, ctl := { c with net := { c.net with keys := tabSet c.net.keys (r.arg 0 1) key } } })

/-! ## IP configuration (R357, R377) -/

/-- NET_IP_CONFIG_APPLY: configuration written takes effect. -/
def execNetIpConfigApply (s : State) : Host.Outcome State Fault Refusal :=
  s.onModule (fun c => { c with net := { c.net with
    ipActive := c.net.ipPending.foldl (fun a e => tabSet a e.1 e.2) c.net.ipActive, ipPending := [] } })

/-- A neighbour learned on a path. -/
def Ctl.learn (c : Ctl) (p ip mac : Nat) : Ctl :=
  { c with net := { c.net with neighbours := tabSet c.net.neighbours (p * 2 ^ 128 + ip) mac } }

/-- A message answered on a path, by kind. -/
def Ctl.answerLookup (c : Ctl) (p kind : Nat) : Ctl := { c with net := { c.net with answered := some (p, kind) } }

/-- ARP_NDP_ECHO_RECEIVE: requests for the path's own address are answered, replies and advertisements learned (R357). -/
def execArpNdpEchoReceive (p : Fin 2) (l : Lookup) (s : State) : Host.Outcome State Fault Refusal :=
  s.onModule (fun c =>
    if !c.live 0 || !c.linkUp p then c
    else
      let v4 := c.ip NET_P_IP4_EN p != 0
      let v6 := c.ip NET_P_IP6_EN p != 0
      let me4 := c.ip NET_P_IP4_ADDR p
      match l with
      | .arpRequest a b mac =>
        if v4 && a.toNat == me4 then (c.learn p b.toNat mac.toNat).answerLookup p 0 else c
      | .arpReply a mac => if v4 then c.learn p a.toNat mac.toNat else c
      | .ndpSolicit a b mac =>
        if v6 && a.toNat == c.ip6 p then (c.learn p b.toNat mac.toNat).answerLookup p 1 else c
      | .ndpAdvert a mac => if v6 then c.learn p a.toNat mac.toNat else c
      | .routerAdvert a mac =>
        if v6 then
          Ctl.learn { c with net := { c.net with routers := tabSet c.net.routers p a.toNat } } p a.toNat mac.toNat
        else c
      | .echo4 a => if v4 && a.toNat == me4 then c.answerLookup p 2 else c
      | .echo6 a => if v6 && a.toNat == c.ip6 p then c.answerLookup p 3 else c)

end Sys2Proof.Machine
end

