-- ==== Sys2Proof/Machine/Beryl.lean ====
section
/-! DEFINITION. Machine/Beryl.lean: the safety island: inputs, outputs, resets, black-channel connections and parameter
sessions (R286 to R318, R369, R489). -/
namespace Sys2Proof.Machine

/-! ## Inputs (R298 to R300) -/

/-- SAFETY_INPUT_CHANGE: the filtered states of an input after 3 ticks; a cycle through both de-energised and both
energised clears DISC_FAULT (R298 to R300). -/
def execSafetyInputChange (t : TileId) (i : Fin 8) (a b : Bool) (s : State) : Host.Outcome State Fault Refusal :=
  s.onTile t (fun c =>
    let c := c.put t BERYL_INPUT_CH_A (setBit (c.get t BERYL_INPUT_CH_A) i a)
      |>.put t BERYL_INPUT_CH_B (setBit (c.get t BERYL_INPUT_CH_B) i b)
    let x := c.bry t
    let c :=
      if !bit (c.get t BERYL_INPUT_DISC_FAULT) i then c
      else if !a && !b then c.setBry t { x with opened := i.val :: x.opened.filter (fun n => n != i.val) }
      else if a && b && x.opened.contains i.val then
        (c.put t BERYL_INPUT_DISC_FAULT (setBit (c.get t BERYL_INPUT_DISC_FAULT) i false)).setBry t
          { x with opened := x.opened.filter (fun n => n != i.val) }
      else c
    c.judge t)

/-- DISCREPANCY_FAULT: the disagreement count of an enabled input reaches DISC_MS (R299). -/
def execDiscrepancyFault (t : TileId) (i : Fin 8) (s : State) : Host.Outcome State Fault Refusal :=
  s.onTile t (fun c =>
    let differ := bit (c.get t BERYL_INPUT_CH_A) i != bit (c.get t BERYL_INPUT_CH_B) i
    if !c.flag t BERYL_PA_IN_EN i || !differ || bit (c.get t BERYL_INPUT_DISC_FAULT) i then c
    else
      let x := c.bry t
      let c := c.setBry t { x with opened := x.opened.filter (fun n => n != i.val) }
      ((c.put t BERYL_INPUT_DISC_FAULT (setBit (c.get t BERYL_INPUT_DISC_FAULT) i true)).event t 0x0A 0x6005 0
        (leBytes 1 i)).judge t)

/-! ## Resets (R301, R304 to R307) -/

/-- The causes a deliberate reset clears, of those absent for at least 1 s (R296, R304). -/
def Ctl.clearCauses (c : Ctl) (t : Nat) (gone : BitVec 7) : Ctl :=
  let f : Ctl → Field → Nat → Ctl := fun c F n => if gone.getLsbD n then c.put t F 0 else c
  f (f (f c BERYL_SF5_CLOCK 3) BERYL_SF5_SUPPLY 4) BERYL_SF5_CROSS 5

/-- The reason an output in lock-out is refused; 0 where every condition of R304 holds. -/
def Ctl.resetReason (c : Ctl) (t o : Nat) : Nat :=
  let mapped : Nat → Bool := fun i => bit (c.get t BERYL_PA_MATRIX i) o
  if c.get t BERYL_STATUS_STATE ≠ byRun then 4
  else if c.sf5 t then 3
  else if anyN 8 (fun i => mapped (0x28 + i) && bit (c.get t BERYL_INPUT_DISC_FAULT) i) then 2
  else if anyN 64 (fun i => mapped i && c.demands t i) then 1
  else 0

/-- An output is reset: its lock-out and FAULT clear and channel B closes SOx_LS; a disabled one stays open (R301, R304). -/
def Ctl.resetOut (c : Ctl) (t o : Nat) : Ctl :=
  let c := c.put t BERYL_OUT_LOCKOUT 0 o |>.put t BERYL_OUT_FAULT 0 o |>.inc t BERYL_COUNT_RESETS
    |>.put t BERYL_STATUS_LOCKOUT (setBit (c.get t BERYL_STATUS_LOCKOUT) o false)
    |>.put t BERYL_STATUS_FAULT (setBit (c.get t BERYL_STATUS_FAULT) o false)
  if !c.flag t BERYL_PA_OUT_EN o || (c.bry t).stopped then c
  else
    let x := c.bry t
    (c.setBry t { x with ls := setBit x.ls o true, hsDue := o :: x.hsDue.filter (fun n => n != o)
                         rbDue := x.rbDue.filter (fun n => n != o) }).put t BERYL_OUT_LS_RB 1 o

/-- A deliberate reset of the outputs of a mask, by the button or by message; what it reset is the second result (R304). One
of each kind in a tick count as one: what the first has judged is judged no second time (R307; DESIGN CHOICE, assumption
92). -/
def Ctl.deliberate (c : Ctl) (t mask : Nat) (gone : BitVec 7) (button : Bool) : Ctl × Nat :=
  let c := c.clearCauses t gone
  let c := if c.get t BERYL_STATUS_STATE = bySelftest then c else c.putDemands t
  let was : Bool × Nat × Nat := (c.bry t).resetWas.getD (button, 0, 0)
  let one := was.1 != button
  let l := (List.range 8).filter (fun o => bit mask o && c.flag t BERYL_OUT_LOCKOUT o && !(one && bit was.2.1 o))
  let ok := l.filter (fun o => c.resetReason t o == 0)
  let m := maskN 8 (fun o => ok.contains o)
  let c' := l.foldl (fun (d : Ctl) o =>
    let k := c.resetReason t o
    if k = 0 then d.resetOut t o
    else (d.inc t BERYL_COUNT_REFUSED).event t 0x0A 0x6003 0 (leBytes 1 o ++ leBytes 1 k)) c
  let c' := c'.setBry t { c'.bry t with
    resetWas := some (button, maskN 8 (fun o => l.contains o || bit was.2.1 o), maskN 8 (fun o => bit m o || bit was.2.2 o)) }
  (if m = 0 then c' else c'.event t 0x0A 0x6002 0 (leBytes 1 m),
    if one then maskN 8 (fun o => bit m o || (bit mask o && bit was.2.2 o)) else m)

/-- RESET_BUTTON_RELEASE: a press of `pressMs` after `openMs` with both channels open, the channels released `skewMs`
apart; `gone` names the causes of SF5 absent for at least 1 s (R304, R305). -/
def execResetButtonRelease (t : TileId) (openMs pressMs skewMs : BitVec 16) (gone : BitVec 7) (s : State) :
    Host.Outcome State Fault Refusal :=
  s.onTile t (fun c =>
    let c := (c.put t BERYL_INPUT_LRST_A 0).put t BERYL_INPUT_LRST_B 0
    if 100 ≤ openMs.toNat ∧ 100 ≤ pressMs.toNat ∧ pressMs.toNat ≤ 3000 ∧ skewMs.toNat ≤ 100 then
      ((c.deliberate t 0xFF gone true).1).judge t
    else c)

/-- RESET_STUCK: a press, or one channel alone, lasts over 3,000 ms (R305). -/
def execResetStuck (t : TileId) (a b : Bool) (s : State) : Host.Outcome State Fault Refusal :=
  s.onTile t (fun c =>
    let c := (c.put t BERYL_INPUT_LRST_A (b2n a)).put t BERYL_INPUT_LRST_B (b2n b)
    if (a || b) && !c.flag t BERYL_INPUT_RESET_STUCK then (c.put t BERYL_INPUT_RESET_STUCK 1).event t 0x0A 0x6004 else c)

/-- RESET_STUCK_CLEAR: both channels open together for 100 ms (R305). -/
def execResetStuckClear (t : TileId) (s : State) : Host.Outcome State Fault Refusal :=
  s.onTile t (fun c =>
    c.put t BERYL_INPUT_LRST_A 0 |>.put t BERYL_INPUT_LRST_B 0 |>.put t BERYL_INPUT_RESET_STUCK 0)

/-! ## Outputs (R301 to R303) -/

/-- An output fault: both switches open, lock-out with 0x41, FAULT and event 0x6006 with the switch (0 HS, 1 LS, 2 both). -/
def Ctl.outFault (c : Ctl) (t o sw : Nat) : Ctl :=
  let c := c.openOut t o
  let c := if c.flag t BERYL_OUT_LOCKOUT o then c else (c.latchOut t o 0x41).latchEvent t (2 ^ o) 0x41
  (c.put t BERYL_OUT_FAULT 1 o |>.put t BERYL_STATUS_FAULT (setBit (c.get t BERYL_STATUS_FAULT) o true)).event t 0x0A 0x6006 0
    (leBytes 1 o ++ leBytes 1 sw)

/-- The switch a readback points at: high side wrong, low side wrong. -/
def switchOf (h l : Bool) : Nat := if h && !l then 0 else if l && !h then 1 else 2

/-- OUTPUT_ENERGISE_HS: channel A closes SOx_HS 1 ms after channel B closed SOx_LS (R301). -/
def execOutputEnergiseHs (t : TileId) (o : Fin 8) (s : State) : Host.Outcome State Fault Refusal :=
  s.onTile t (fun c =>
    let x := c.bry t
    if x.hsDue.contains o.val then
      let c := c.setBry t { x with hs := setBit x.hs o true, hsDue := x.hsDue.filter (fun n => n != o.val)
                                   rbDue := o.val :: x.rbDue }
      c.put t BERYL_OUT_ON 1 o |>.put t BERYL_OUT_HS_RB 1 o |>.put t BERYL_STATUS_ON (setBit (c.get t BERYL_STATUS_ON) o true)
    else c)

/-- OUTPUT_READBACK_CHECK: within 5 ms both readbacks must show closed (R301, R303). -/
def execOutputReadbackCheck (t : TileId) (o : Fin 8) (hs ls : Bool) (s : State) : Host.Outcome State Fault Refusal :=
  s.onTile t (fun c =>
    let x := c.bry t
    if !x.rbDue.contains o.val then c
    else
      let c := (c.put t BERYL_OUT_HS_RB (b2n hs) o).put t BERYL_OUT_LS_RB (b2n ls) o
      if hs && ls then c.setBry t { x with rbDue := x.rbDue.filter (fun n => n != o.val) }
      else c.outFault t o (switchOf (!hs) (!ls)))

/-- TEST_PULSE_START: one switch of an energised output opens, HS and LS in turn (R302). -/
def execTestPulseStart (t : TileId) (o : Fin 8) (s : State) : Host.Outcome State Fault Refusal :=
  s.onTile t (fun c =>
    let x := c.bry t
    if c.flag t BERYL_PA_OUT_TEST_EN o && c.flag t BERYL_OUT_ON o && (tabFind x.pulse o).isNone
        && !x.rbDue.contains o.val && (c.outputDemand t o).isNone then
      let high := !x.lastHs.contains o.val
      let rest := x.lastHs.filter (fun n => n != o.val)
      let c := c.setBry t { x with pulse := tabSet x.pulse o high, lastHs := if high then o.val :: rest else rest }
      c.put t (if high then BERYL_OUT_HS_RB else BERYL_OUT_LS_RB) 0 o
    else c)

/-- TEST_PULSE_END: the tested switch must have read open and the other closed; it closes again (R302, R303). -/
def execTestPulseEnd (t : TileId) (o : Fin 8) (hs ls : Bool) (s : State) : Host.Outcome State Fault Refusal :=
  s.onTile t (fun c =>
    let x := c.bry t
    match tabFind x.pulse o with
    | none => c
    | some high =>
      let c := c.setBry t { x with pulse := tabErase x.pulse o }
      let badHs := if high then hs else !hs
      let badLs := if high then !ls else ls
      if badHs || badLs then c.outFault t o (switchOf badHs badLs)
      else (c.put t BERYL_OUT_HS_RB 1 o).put t BERYL_OUT_LS_RB 1 o)

/-- READBACK_MISMATCH: outside a pulse the readbacks differ from the commands in 3 consecutive ticks (R302, R303). -/
def execReadbackMismatch (t : TileId) (o : Fin 8) (hs ls : Bool) (s : State) : Host.Outcome State Fault Refusal :=
  s.onTile t (fun c =>
    let x := c.bry t
    let badHs := hs != bit x.hs o
    let badLs := ls != bit x.ls o
    if (tabFind x.pulse o).isNone && (badHs || badLs) then
      let c := c.outFault t o (switchOf badHs badLs)
      (c.put t BERYL_OUT_HS_RB (b2n (badHs && hs)) o).put t BERYL_OUT_LS_RB (b2n (badLs && ls)) o
    else c)

/-! ## SF5 and the self-test (R296, R297, R308, R315) -/

/-- SF5_CAUSE_DETECT: a cause by its bit in BERYL_SF5, but PARAM, which the self-test finds; LOCKSTEP, ROM and RAM bring
SAFE_HALT (R296, R297). -/
def execSf5CauseDetect (t : TileId) (cause : Fin 6) (s : State) : Host.Outcome State Fault Refusal :=
  s.onTile t (fun c =>
    let F := match cause.val with
      | 0 => BERYL_SF5_LOCKSTEP | 1 => BERYL_SF5_ROM | 2 => BERYL_SF5_RAM | 3 => BERYL_SF5_CLOCK
      | 4 => BERYL_SF5_SUPPLY | _ => BERYL_SF5_CROSS
    if c.flag t F then c
    else
      let c := (c.put t F 1).event t 0x0A 0x6010 0 (leBytes 1 cause)
      (if cause.val < 3 then c.put t BERYL_STATUS_STATE byHalt else c).judge t)

/-- Every enabled output opens and its lock-out latches with a cause, anew where it was latched (R308, R314). -/
def Ctl.lockAll (c : Ctl) (t cause : Nat) : Ctl :=
  let l := (List.range 8).filter (fun o => c.flag t BERYL_PA_OUT_EN o)
  let c := forN 8 (fun o (c : Ctl) => c.openOut t o) c
  (l.foldl (fun (c : Ctl) o => c.latchOut t o cause) c).latchEvents t (l.map (fun o => (o, cause)))

/-- The CRC of the delivery parameters (R315, R318). -/
abbrev deliveryCrc : Nat := 0x474BFE89

/-- The parameters of a tile in a stored copy. -/
def Ctl.berylCopy (c : Ctl) (t : Nat) (second : Bool) : Tab Nat :=
  (if second then c.berylStore2 else c.berylStore).filter (fun e => keyTile e.1 == t)

/-- The active parameters taken from a stored copy. -/
def Ctl.takeCopy (c : Ctl) (t : Nat) (second : Bool) : Ctl :=
  let rest := c.regs.filter (fun e => !(keyTile e.1 == t && keyBlk e.1 == 0x0A && decide (0x800 ≤ keyOff e.1)))
  { c with regs := (c.berylCopy t second).foldl (fun r e => tabSet r e.1 e.2) rest }

/-- The parameter CRC of the active area (R314). -/
def Ctl.activeCrc (c : Ctl) (t : Nat) : Nat := crc32c 0xFFFFFFFF (c.rawBytes 0x0A t 0x800 96)

/-- Whether a stored copy checks: it reads back as it was written, and its CRC holds. -/
def Ctl.copyChecks (c : Ctl) (t : Nat) (second intact : Bool) : Bool :=
  intact && (c.takeCopy t second).activeCrc t == tabGet deliveryCrc c.berylCrc (t * 2 + b2n second)

/-- A stored copy written from the active area, with its CRC. -/
def Ctl.storeCopy (c : Ctl) (t : Nat) (second : Bool) : Ctl :=
  let area := c.regs.filter (fun e => keyTile e.1 == t && keyBlk e.1 == 0x0A && decide (0x800 ≤ keyOff e.1))
  let put : Tab Nat → Tab Nat := fun s => area.foldl (fun r e => tabSet r e.1 e.2) (s.filter (fun e => keyTile e.1 != t))
  let c := if second then { c with berylStore2 := put c.berylStore2 } else { c with berylStore := put c.berylStore }
  { c with berylCrc := tabSet c.berylCrc (t * 2 + b2n second) (c.activeCrc t) }

/-- BERYL_SELF_TEST_COMPLETE: the first stored copy that checks gives the parameters, and the other copy is rewritten from
it; where neither does, SF5 demands with PARAM; every enabled output is in lock-out with 0x42 (R308, R315). The operands say
which copies read back as they were written. -/
def execBerylSelfTestComplete (t : TileId) (copy1 copy2 : Bool) (s : State) : Host.Outcome State Fault Refusal :=
  s.onTile t (fun c =>
    if c.get t BERYL_STATUS_STATE ≠ bySelftest then c
    else
      let c := if c.copyChecks t false copy1 then (c.takeCopy t false).storeCopy t true
        else if c.copyChecks t true copy2 then (c.takeCopy t true).storeCopy t false
        else (c.put t BERYL_SF5_PARAM 1).event t 0x0A 0x6010 0 (leBytes 1 6)
      let c := (c.put t BERYL_STATUS_STATE byRun).lockAll t 0x42
      (c.event t 0x0A 0x6030).judge t)

/-! ## Black channel (R309 to R313) -/

/-- Valid CAN FD lengths. -/
def canLengths : List Nat := [0, 1, 2, 3, 4, 5, 6, 7, 8, 12, 16, 20, 24, 32, 48, 64]

/-- The smallest valid CAN FD length of at least `n` bytes. -/
def canLength (n : Nat) : Nat := (canLengths.find? (fun k => decide (n ≤ k))).getD 64

/-- The verdict of R312 on a PDU against a connection: 0 accepted, 7 a duplicate, else the reason code. -/
def Ctl.pduCheck (c : Ctl) (t n : Nat) (p : List Byte) : Nat :=
  let len := c.get t BERYL_PA_CONN_DATA_LEN n
  let can := c.get t BERYL_PA_CONN_MEDIUM n == 0
  let cid := c.get t BERYL_PA_CONN_CID32 n
  let d := (beNat ((p.drop 2).take 2) + 65536 - c.get t BERYL_CONN_STAT_SEQ n) % 65536
  let base := (c.conn t n).base
  if p.length ≠ (if can then canLength (len + 10) else len + 10) then 1
  else if crc32c cid (p.take (6 + len)) ≠ beNat ((p.drop (6 + len)).take 4) then 2
  else if beNat (p.take 2) ≠ cid % 65536 then 3
  else if beNat ((p.drop 4).take 2) ≠ c.get t BERYL_PA_CONN_WD_MS n then 4
  else if base && d == 0 then 7
  else if base && decide (c.get t BERYL_PA_CONN_SEQ_WIN n < d) then 5
  else if can && (p.drop (10 + len)).any (fun b => b != 0) then 6
  else 0

/-- An invalid PDU: event 0x6007, WHY, and no base until the next valid one (R312). -/
def Ctl.pduInvalid (c : Ctl) (t n why : Nat) : Ctl :=
  let c := c.setConn t n { c.conn t n with base := false }
  (c.put t BERYL_CONN_STAT_WHY why n |>.put t BERYL_CONN_STAT_LIVE 0 n).event t 0x0A 0x6007 0 (leBytes 1 n ++ leBytes 1 why)

/-- CONSUME_PDU_RECEIVE: channel A checks the private slot of a consume connection (R312, R313). -/
def execConsumePduReceive (t : TileId) (n : Fin 16) (s : State) : Host.Outcome State Fault Refusal :=
  s.onTile t (fun c =>
    let x := c.conn t n
    match x.slot with
    | none => c
    | some p =>
      let c := c.setConn t n { x with slot := none }
      if !c.flag t BERYL_PA_CONN_EN n || c.get t BERYL_PA_CONN_KIND n != 0 || c.get t BERYL_STATUS_STATE == bySelftest then c
      else
        let v := c.pduCheck t n p
        if v = 7 then c
        else if v ≠ 0 then (c.pduInvalid t n v).judge t
        else
          let c := c.setConn t n { c.conn t n with base := true, wd := true, strobe := true }
          (c.put t BERYL_CONN_STAT_SEQ (beNat ((p.drop 2).take 2)) n
            |>.put t BERYL_CONN_STAT_LIVE (((p.drop 6).headD 0).toNat % 2) n).judge t)

/-- CONSUME_WATCHDOG_EXPIRY: WD_MS since the last valid PDU, on the watchdogs of both channels (R287, R312). -/
def execConsumeWatchdogExpiry (t : TileId) (n : Fin 16) (s : State) : Host.Outcome State Fault Refusal :=
  s.onTile t (fun c =>
    let x := c.conn t n
    if c.flag t BERYL_PA_CONN_EN n && c.get t BERYL_PA_CONN_KIND n == 0 && x.wd then
      (((c.setConn t n { x with wd := false, strobe := false }).put t BERYL_CONN_STAT_LIVE 0 n).event t 0x0A 0x6008 0 (leBytes 1 n)).judge t
    else c)

/-- The next status PDU of a produce connection and the state after it (R309 to R311). -/
def Ctl.producePdu (c : Ctl) (t n : Nat) : List Byte × Ctl :=
  let seq := if (c.conn t n).sent then (c.get t BERYL_CONN_STAT_SEQ n + 1) % 65536 else 0
  let cid := c.get t BERYL_PA_CONN_CID32 n
  let body := beBytes 2 cid ++ beBytes 2 seq ++ beBytes 2 (c.get t BERYL_PA_CONN_WD_MS n)
    ++ leBytes 1 (c.get t BERYL_STATUS_ON) ++ leBytes 1 (c.get t BERYL_STATUS_LOCKOUT)
    ++ leBytes 1 (128 * b2n (c.sf5 t) + 64 * c.get t BERYL_INPUT_RESET_STUCK) ++ [0]
  (body ++ beBytes 4 (crc32c cid body),
    ((c.setConn t n { c.conn t n with sent := true }).put t BERYL_CONN_STAT_SEQ seq n).put t BERYL_CONN_STAT_LIVE 1 n)

/-- SAFETY_MESSAGE_RECEIVE: a host SAFETY message goes to the private slot of an enabled consume connection on Ethernet,
whatever the state of the tile; any other, and one in a version 1 session, counts in NET_ERR.FORMAT (R33, R313, R369, R374). -/
def execSafetyMessageReceive (d : Datagram) (s : State) : Host.Outcome State Fault Refusal :=
  s.onModuleM (fun m c =>
    if d.asType.isSome then notHosts 0x08 d m c
    else
      (m, match c.receive 0x08 d with
        | .done c => c
        | .accepted slot c =>
          let r := (c.session slot).role
          let t := d.tile.toNat
          let n := (d.payload.headD 0).toNat
          if (r = .operator ∨ r = .engineer ∨ r = .safety) ∧ ¬ (c.session slot).v1 ∧ d.status = 0 ∧ 2 ≤ d.payload.length
              ∧ t < c.tiles ∧ n < 16 ∧ c.flag t BERYL_PA_CONN_EN n ∧ c.get t BERYL_PA_CONN_KIND n = 0
              ∧ c.get t BERYL_PA_CONN_MEDIUM n = 1 then
            c.setConn t n { c.conn t n with slot := some (d.payload.drop 2) }
          else c.inc 0 NET_ERR_FORMAT))

/-- BERYL_RESET: the PDU of a reset connection in `beryl.reset`; `gone` as at the button (R306, R317). -/
def execBerylReset (d : Datagram) (gone : BitVec 7) (s : State) : Host.Outcome State Fault Refusal :=
  s.cmd 0x6001 d (fun r m c => guarded r [.safety] 12 m c (
    let t := r.arg 0 1
    let p := r.bytes 1 11
    if c.tiles ≤ t then .err m c eAbsent
    else if c.get t BERYL_STATUS_STATE = byHalt then .err m c eState
    else
      match (List.range 16).find? (fun n => c.flag t BERYL_PA_CONN_EN n && c.get t BERYL_PA_CONN_KIND n == 2
          && c.get t BERYL_PA_CONN_CID32 n % 65536 == beNat (p.take 2)) with
      | none => { mem := m, ctl := c.event t 0x0A 0x6007 0 (leBytes 1 0xFF ++ leBytes 1 3), status := eIntegrity }
      | some n =>
        let v := c.pduCheck t n p
        if v = 7 then { mem := m, ctl := c, result := [0] }
        else if v ≠ 0 then { mem := m, ctl := c.pduInvalid t n v, status := eIntegrity }
        else
          let c := c.setConn t n { c.conn t n with base := true }
          let c := c.put t BERYL_CONN_STAT_SEQ (beNat ((p.drop 2).take 2)) n
          let x := c.deliberate t ((p.drop 6).headD 0).toNat gone false
          { mem := m, ctl := x.1.judge t, result := leBytes 1 x.2 }))

/-! ## Safety-parameter sessions (R314, R317, R318) -/

/-- Registers of a block copied from one range of offsets to another of the same layout and reset values. -/
def Ctl.copyRegs (c : Ctl) (t k src dst len : Nat) : Ctl :=
  let within : Nat → Nat × Nat → Bool := fun o e =>
    keyTile e.1 == t && keyBlk e.1 == k && decide (o ≤ keyOff e.1) && decide (keyOff e.1 < o + len)
  let kept := c.regs.filter (fun e => !within dst e)
  { c with regs := (c.regs.filter (within src)).foldl (fun r e => tabSet r (e.1 + dst * 32 - src * 32) e.2) kept }

/-- The registers of a session opened or written: OPEN and the seconds until the time-out. -/
def Ctl.putSession (c : Ctl) (t : Nat) (isOpen : Bool) : Ctl :=
  (c.rephase t 32).put t BERYL_SESSION_OPEN (b2n isOpen) |>.put t BERYL_SESSION_REMAIN (if isOpen then 600 else 0)
    |>.put t BERYL_STATUS_SESSION (b2n isOpen)

/-- The parameter session of a tile ends. -/
def Ctl.endSession (c : Ctl) (t : Nat) : Ctl := (c.setBry t { c.bry t with owner := none }).putSession t false

/-- Whether the pending area breaks a range, a rule of R311 or the number of connections a CAN port takes (R381), judged for
enabled entries only (R314). -/
def Ctl.paramRange (c : Ctl) (t : Nat) : Bool :=
  anyN 8 (fun i => c.flag t BERYL_PP_IN_EN i
    && (decide (c.get t BERYL_PP_IN_DISC_MS i < 10) || decide (1000 < c.get t BERYL_PP_IN_DISC_MS i)))
  || anyN 8 (fun o => c.flag t BERYL_PP_OUT_EN o
    && (decide (c.get t BERYL_PP_OUT_TP_LEN o < 10) || decide (50 < c.get t BERYL_PP_OUT_TP_LEN o)
      || decide (c.get t BERYL_PP_OUT_TP_PERIOD o < 100) || decide (10000 < c.get t BERYL_PP_OUT_TP_PERIOD o)))
  || anyN 16 (fun n => c.flag t BERYL_PP_CONN_EN n && (
    let k := c.get t BERYL_PP_CONN_KIND n
    let eth := c.flag t BERYL_PP_CONN_MEDIUM n
    let w := c.get t BERYL_PP_CONN_SEQ_WIN n
    let l := c.get t BERYL_PP_CONN_DATA_LEN n
    let cid := c.get t BERYL_PP_CONN_CID32 n
    let wd := c.get t BERYL_PP_CONN_WD_MS n
    decide (k = 3) || (decide (k = 2) && !eth) || decide (w < 1) || decide (8 < w) || decide (l < 1)
      || decide ((if eth then 1024 else 54) < l) || (decide (k = 1) && decide (l ≠ 4)) || (decide (k = 2) && decide (l ≠ 1))
      || (!c.flag t BERYL_PP_CONN_EXT n && decide (2048 ≤ c.get t BERYL_PP_CONN_CAN_ID n))
      || decide (cid = 0) || decide (cid = 0xFFFFFFFF) || decide (wd < 10) || decide (60000 < wd)))
  || anyN 8 (fun p =>
    let on : Nat → Nat := fun k => countN 16 (fun n => c.flag t BERYL_PP_CONN_EN n && c.get t BERYL_PP_CONN_KIND n == k
      && !c.flag t BERYL_PP_CONN_MEDIUM n && c.get t BERYL_PP_CONN_PORT n == p)
    decide (4 < on 1) || decide (8 < on 0))

/-- Whether two enabled consume connections on one medium have equal CONN_ID (R314). -/
def Ctl.paramConflict (c : Ctl) (t : Nat) : Bool :=
  let consume : Nat → Bool := fun n => c.flag t BERYL_PP_CONN_EN n && c.get t BERYL_PP_CONN_KIND n == 0
  anyN 16 (fun n => consume n && anyN n (fun k => consume k
    && c.get t BERYL_PP_CONN_MEDIUM n == c.get t BERYL_PP_CONN_MEDIUM k
    && c.get t BERYL_PP_CONN_CID32 n % 65536 == c.get t BERYL_PP_CONN_CID32 k % 65536))

/-- Whether the parameter words of a connection differ between the pending and the active area. -/
def Ctl.connChanged (c : Ctl) (t n : Nat) : Bool :=
  anyN 4 (fun w => c.rawWord 0x0A t (0x480 + 16 * n + 4 * w) != c.rawWord 0x0A t (0x880 + 16 * n + 4 * w))

/-- The confirmed parameters are stored and become active (R314, R315). -/
def Ctl.confirmParams (c : Ctl) (t crc : Nat) : Ctl :=
  let changed := (List.range 16).filter (fun n => c.connChanged t n)
  let c := (c.copyRegs t 0x0A 0x400 0x800 0x180).put t BERYL_SF5_PARAM 0
  let c := (c.storeCopy t false).storeCopy t true
  let c := changed.foldl (fun (c : Ctl) n =>
    (c.setConn t n {}).put t BERYL_CONN_STAT_LIVE 0 n |>.put t BERYL_CONN_STAT_SEQ 0 n) c
  ((c.lockAll t 0x43).event t 0x0A 0x6021 0 (leBytes 4 crc)).endSession t |>.judge t

/-- `beryl.param_session` (R314, R317). -/
def berylParamSession (r : Req) (m : Mem) (c : Ctl) : Eff :=
  if r.role ≠ .safety then .deny m c r.origin 0 true
  else
    let t := r.arg 0 1
    let op := r.arg 1 1
    let isOpen := c.flag t BERYL_SESSION_OPEN
    let mine := (c.bry t).owner == some r.id
    let orphan := match (c.bry t).owner with | some o => (c.slotOf o).isNone | none => true
    let e := firstErr [(r.args.length != (if op = 1 then 6 else 2), eFormat), (!c.running t, eAbsent),
      (decide (2 < op), eRange), (op == 0 && isOpen, eState), (op == 1 && !(isOpen && mine), eState),
      (op == 2 && !(isOpen && (mine || orphan)), eState)]
    if e ≠ eOk then .err m c e
    else
      match op with
      | 0 =>
        let c := (c.copyRegs t 0x0A 0x800 0x400 0x180).setBry t { c.bry t with owner := some r.id }
        { mem := m, ctl := (c.putSession t true).event t 0x0A 0x6020 }
      | 1 =>
        let crc := crc32c 0xFFFFFFFF (c.rawBytes 0x0A t 0x400 96)
        let e := firstErr [(crc != r.arg 2 4, eIntegrity), (c.paramRange t, eRange), (c.paramConflict t, eConflict)]
        if e ≠ eOk then .err m c e else { mem := m, ctl := c.confirmParams t crc }
      | _ => { mem := m, ctl := (c.endSession t).event t 0x0A 0x6022 }

/-- BERYL_PARAM_OPEN: `beryl.param_session` with operation 0. -/
def execBerylParamOpen (d : Datagram) (s : State) : Host.Outcome State Fault Refusal := s.cmd 0x6002 d berylParamSession
/-- BERYL_PARAM_CONFIRM: `beryl.param_session` with operation 1. -/
def execBerylParamConfirm (d : Datagram) (s : State) : Host.Outcome State Fault Refusal := s.cmd 0x6002 d berylParamSession
/-- BERYL_PARAM_ABORT: `beryl.param_session` with operation 2. -/
def execBerylParamAbort (d : Datagram) (s : State) : Host.Outcome State Fault Refusal := s.cmd 0x6002 d berylParamSession

/-- A write of word `k` of the pending area: the Safety role alone, in the CHP session that opened the parameter session
(R42, R43, R314). -/
def Ctl.berylParamWrite (c : Ctl) (o : Origin) (t k w : Nat) : Ctl × Nat :=
  match o with
  | .host .safety q =>
    if !c.running t then (c, eAbsent)
    else if !c.flag t BERYL_SESSION_OPEN || (c.bry t).owner != some q then (c, eState)
    else
      let c := (fieldsAt 0x0A t (0x400 + 4 * k)).foldl (fun (c : Ctl) f => c.put t f.field (f.of w) f.i f.j) c
      ((c.rephase t 32).put t BERYL_SESSION_REMAIN 600, eOk)
  | _ => (c.violate o (modAddr t (0x2000A0400 + 4 * k)) true, eOk)

/-- BERYL_PARAM_WRITE. -/
def execBerylParamWrite (t : TileId) (o : Origin) (k : Fin 96) (w : Word) (s : State) : Host.Outcome State Fault Refusal :=
  s.onAccess o (fun c => c.access o t 0x0A (fun c => c.berylParamWrite o t k w.toNat))

/-- BERYL_SESSION_TIMEOUT: 600 s without a write (R314). -/
def execBerylSessionTimeout (t : TileId) (s : State) : Host.Outcome State Fault Refusal :=
  s.onTile t (fun c => if c.flag t BERYL_SESSION_OPEN then (c.endSession t).event t 0x0A 0x6022 else c)

end Sys2Proof.Machine
end

