-- ==== Sys2Proof/Machine/Block.lean ====
section
/-! DEFINITION. Machine/Block.lean: what a block monitor of a ring does with the frames it receives (R119 to R147, R164,
R169) and in its bleed cycle (R228 to R230). A block in ship state acts on nothing but K28.5 (assumption 14). -/
namespace Sys2Proof.Machine

/-- One byte into the CRC-16 of R121. -/
def crc16Byte (crc : Nat) (b : Byte) : Nat :=
  forN 8 (fun _ c => if c.testBit 15 then (c * 2 % 65536) ^^^ 0x1021 else c * 2 % 65536) (crc ^^^ (b.toNat * 256))

/-- CRC-16 with polynomial 0x1021 and initial value 0xFFFF (R121). -/
def crc16 (l : List Byte) : Nat := l.foldl crc16Byte 0xFFFF

/-- A response element after SOR: its bytes and their CRC-16. -/
def element (l : List Byte) : List Byte := l ++ beBytes 2 (crc16 l)

/-- The number of a ring position: tile, ring, block. -/
def blkKey (t r b : Nat) : Nat := t * 16384 + r * 512 + b

/-- A block monitor. -/
def Ctl.blk (c : Ctl) (t r b : Nat) : Blk := tabGet {} c.blks (blkKey t r b)

/-- A block monitor changed. -/
def Ctl.setBlk (c : Ctl) (t r b : Nat) (x : Blk) : Ctl := { c with blks := tabSet c.blks (blkKey t r b) x }

/-- A block's step on a fitted tile's ring. -/
def State.onBlk (s : State) (t : TileId) (r : RingId) (b : BlockId) (f : Blk → Blk) :
    Host.Outcome State Fault Refusal :=
  s.onTile t (fun c => c.setBlk t r b (f (c.blk t r b)))

/-- Block STATUS (R123). -/
def Blk.status (x : Blk) : Nat :=
  b2n x.cmpOv * 64 + b2n x.cmpUv * 32 + b2n x.cmpOt * 16 + b2n x.thrLocked * 8 + b2n x.wdogStop * 4 + b2n x.lossDs * 2
  + b2n x.lossUs

/-- Address and STATUS, the first two bytes of a response element (R123, R124). -/
def Blk.head2 (x : Blk) : List Byte := beBytes 2 (x.addr.getD 0 % 512 * 128 + x.status)

/-- The command response element of R123. -/
def Blk.commandResponse (x : Blk) (seq rcode : Nat) (data : List Byte) : List Byte :=
  element (x.head2 ++ leBytes 1 x.counter ++ leBytes 1 seq ++ leBytes 1 rcode ++ leBytes 1 data.length ++ data)

/-- Whether no comparator stops the tone (R135, R146). -/
def Blk.passesTone (x : Blk) : Bool := !x.ship && !x.cmpOv && !x.cmpUv && !x.cmpOt

/-! ## Receiving a frame (R118, R120 to R122) -/

/-- A big-endian field of a frame's data. -/
def reqArg (fr : List Byte) (p n : Nat) : Nat := beNat ((fr.drop p).take n)

end Sys2Proof.Machine

namespace Sys2Proof

open Machine

/-- The six header bytes of a frame (R120). -/
def RingFrame.header (fr : RingFrame) : List Byte :=
  [fr.type, fr.cmd] ++ beBytes 2 fr.addr.toNat ++ [fr.seq, fr.len]

/-- Whether a frame's CRC is that of its header and data (R121). -/
def RingFrame.crcOk (fr : RingFrame) : Bool := crc16 (fr.header ++ fr.req) == fr.crc.toNat

/-- Whether a frame is for all blocks (R120). -/
def RingFrame.broadcast (fr : RingFrame) : Bool := fr.addr.toNat % 1024 == 0x3FF

/-- Whether a frame found whole is a POST frame, which no block answers (R120). -/
def RingFrame.post (fr : RingFrame) : Bool := fr.type.toNat == 6

/-- Whether a frame is of a type and, for CMD and POST frames, of a command code (R120). -/
def RingFrame.names (fr : RingFrame) (type cmd : Nat) : Bool :=
  fr.type.toNat == type && (decide (type < 5) || fr.cmd.toNat == cmd)

/-- The block addresses a RETRY frame lists (R120). -/
def RingFrame.listed (fr : RingFrame) : List Nat :=
  (List.range ((fr.req.length - 4) / 2)).map (fun i => reqArg fr.req (4 + 2 * i) 2 % 1024)

end Sys2Proof

namespace Sys2Proof.Machine

/-- The request length of a command code; none for a code that is not assigned (R127). -/
def reqLen (cmd : Nat) : Option Nat :=
  match cmd with
  | 0x01 | 0x03 | 0x04 | 0x06 | 0x0B | 0x0C | 0x11 | 0x12 => some 0
  | 0x02 => some 6
  | 0x05 => some 16
  | 0x07 | 0x09 | 0x0A => some 2
  | 0x08 | 0x10 => some 4
  | _ => none

/-- What executing a command gives: RCODE, response data, the block. -/
abbrev BlkResult := Nat × List Byte × Blk

/-- A CMD or POST frame addressed to the block or to all: the duplicate rule of R126, the request length (R127), the counter
of R128, and for a unicast CMD the response. -/
def Blk.command (x : Blk) (fr : RingFrame) (len : Nat) (f : Blk → BlkResult) : Blk :=
  let q := fr.seq.toNat
  if !fr.broadcast && x.addr != some (fr.addr.toNat % 1024) then x
  else if fr.broadcast && x.lastBc == some q then x
  else if !fr.broadcast && x.lastUni == some q then (if fr.post then x else { x with sent := x.response })
  else
    let z : BlkResult := if fr.req.length = len then f x else (eFormat, [], x)
    let y := z.2.2
    let y := { y with
      lastBc := if fr.broadcast then some q else y.lastBc
      lastUni := if fr.broadcast then y.lastUni else some q
      counter := if z.1 = eOk then (y.counter + 1) % 256 else y.counter }
    if fr.broadcast || fr.post then y
    else { y with response := y.commandResponse q z.1 z.2.1, sent := y.commandResponse q z.1 z.2.1 }

/-- A CRC error seen by a block: on its upstream side, or on its downstream side where it is reached from the tail. -/
def Blk.crcError (x : Blk) : Blk :=
  if x.fromTail then { x with aborts := true, crcDown := satAdd 16 x.crcDown 1 }
  else { x with aborts := true, crcUp := satAdd 16 x.crcUp 1 }

/-- A frame reaches a block, over what a whole frame of the type and code does there: a frame with a wrong CRC is forwarded
with ABORT and not acted on, an aborted one is discarded, another TYPE is discarded, an unassigned command code is answered
with E_FORMAT; a frame of another operation of the table is that operation's (R120 to R122, R127; assumption 86). -/
def Blk.receive (x : Blk) (fr : RingFrame) (type cmd : Nat) (f : Blk → Blk) : Blk :=
  if x.ship then x
  else if fr.abort then { x with aborts := true }
  else if !fr.crcOk then x.crcError
  else
    let x := { x with aborts := false }
    if fr.names type cmd then f x
    else if (fr.type.toNat = 5 ∨ fr.type.toNat = 6) ∧ reqLen fr.cmd.toNat = none then
      x.command fr fr.req.length (fun x => (eFormat, [], x))
    else x

/-- A frame reaches a block of a ring; one found corrupt counts in RING_ERR.CRC as aborted (R122, R155). -/
def Ctl.frameAt (c : Ctl) (t r b : Nat) (fr : RingFrame) (type cmd : Nat) (f : Blk → Blk) : Ctl :=
  let x := c.blk t r b
  (if !x.ship && !fr.abort && !fr.crcOk then c.inc t RING_ERR_CRC r else c).setBlk t r b (x.receive fr type cmd f)

/-- A frame received by a block of a fitted tile's ring. -/
def State.onFrame (s : State) (t : TileId) (r : RingId) (b : BlockId) (fr : RingFrame) (type cmd : Nat) (f : Blk → Blk) :
    Host.Outcome State Fault Refusal :=
  s.onTile t (fun c => c.frameAt t r b fr type cmd f)

/-- A CMD frame of a code received by a block, with the length its request has. -/
def State.onCmd (s : State) (t : TileId) (r : RingId) (b : BlockId) (fr : RingFrame) (cmd len : Nat) (f : Blk → BlkResult) :
    Host.Outcome State Fault Refusal :=
  s.onFrame t r b fr 5 cmd (fun x => x.command fr len f)

/-- A POST frame of a code received by a block. -/
def State.onPost (s : State) (t : TileId) (r : RingId) (b : BlockId) (fr : RingFrame) (cmd len : Nat) (f : Blk → BlkResult) :
    Host.Outcome State Fault Refusal :=
  s.onFrame t r b fr 6 cmd (fun x => x.command fr len f)

/-! ## Sampling (R124, R130, R147, R159, R164) -/

/-- SYNC accepted, with its frame number, ALIGN and burst byte: the conversion is timed from its arrival (R130); a block with
a zero burst mask ignores a SYNC whose burst byte is not zero (R164). -/
def execBlockSyncReceive (t : TileId) (r : RingId) (b : BlockId) (h : RingHeader) (req : List Byte) (e : RingEnd)
    (interval : Word) (s : State) : Host.Outcome State Fault Refusal :=
  let fr : RingFrame := { toRingHeader := h, toRingEnd := e, req := req }
  s.onFrame t r b fr 1 0 (fun x =>
    let frame := reqArg fr.req 0 4
    let align := reqArg fr.req 4 2
    let burst := reqArg fr.req 6 1
    if fr.req.length ≠ 8 ∨ x.addr = none ∨ (burst ≠ 0 ∧ x.burst = 0) then x
    else if burst = 0 then { x with sync := some (frame, 0, align), frame := frame, interval := interval.toNat }
    else { x with sync := some (frame, burst, align) })

/-- A frame conversion: the next roles come into force; a block that becomes a head block integrates from here on
(R147, R159). -/
def Blk.convertFrame (x : Blk) (a : Analog) : Blk :=
  let mc : Int := (x.chargeRest : Int) + a.charge.toInt
  let was := x.head
  let q : Nat := if was ∧ x.nextHead then ofSigned 32 (mc / 1000) else 0
  { x with
    sync := none, head := x.nextHead, mwb := x.nextMwb, kept := []
    chargeRest := if was ∧ x.nextHead then (mc % 1000).toNat else 0
    sample := ((List.range 16).map (fun i => beBytes 2 (a.cells.getD i 0).toNat)).flatten
      ++ ((List.range 6).map (fun i => beBytes 2 (a.temps.getD i 0).toNat)).flatten
      ++ beBytes 2 a.stack.toNat ++ [a.die] ++ beBytes 2 (x.conduct &&& (65535 ^^^ x.suspended))
      ++ (if x.nextHead then beBytes 2 a.current.toNat ++ beBytes 4 q else []) }

/-- A burst conversion: the masked cells and the stack voltage, every other measurement field zero (R164). -/
def Blk.convertBurst (x : Blk) (a : Analog) : Blk :=
  { x with
    sync := none, kept := []
    sample := ((List.range 16).map (fun i => if bit x.burst i then beBytes 2 (a.cells.getD i 0).toNat else leBytes 2 0)).flatten
      ++ leBytes 12 0 ++ beBytes 2 a.stack.toNat ++ leBytes 3 0 ++ (if x.head then leBytes 6 0 else []) }

/-- BLOCK_CONVERSION. -/
def execBlockConversion (t : TileId) (r : RingId) (b : BlockId) (a : Analog) (s : State) :
    Host.Outcome State Fault Refusal :=
  s.onBlk t r b (fun x =>
    match x.sync with
    | none => x
    | some (_, burst, _) => if x.ship then x else if burst = 0 then x.convertFrame a else x.convertBurst a)

/-- The sample response element put on the ring: built once for a conversion and kept until the next; WDOG_STOP has then
been reported (R123, R124, R133, R229). -/
def Blk.sendSample (x : Blk) : Blk :=
  if x.addr = none then x
  else if x.kept = [] then
    let el := element (x.head2 ++ leBytes 1 x.counter ++ x.sample)
    { x with sent := el, kept := el, wdogStop := false }
  else { x with sent := x.kept }

/-- COLLECT: every block appends its sample response. -/
def execCollect (t : TileId) (r : RingId) (b : BlockFrame) (s : State) : Host.Outcome State Fault Refusal :=
  s.onFrame t r b.block b.frame 2 0 Blk.sendSample

/-- RETRY: a listed block appends it again (R120, R133). -/
def execRetry (t : TileId) (r : RingId) (b : BlockId) (fr : RingFrame) (s : State) : Host.Outcome State Fault Refusal :=
  s.onFrame t r b fr 3 0 (fun x => if fr.listed.any (fun a => x.addr == some a) then x.sendSample else x)

/-! ## ASSIGN (R137, R150) -/

/-- ASSIGN with COUNT, ACC and FLAGS, over a block's measured upstream link and retime delays in ns; the frame goes on with
its CRC computed again (R121). A block that takes an address has no segment-end role and no tail direction (R528). -/
def execAssign (t : TileId) (r : RingId) (b : BlockId) (h : RingHeader) (req : List Byte) (crc : BitVec 16) (abort : Bool)
    (upstream retime : BitVec 16) (s : State) : Host.Outcome State Fault Refusal :=
  let fr : RingFrame := { toRingHeader := h, toRingEnd := { crc := crc, abort := abort }, req := req }
  s.onFrame t r b fr 4 0 (fun x =>
    if fr.req.length ≠ 7 then x
    else
      let n := reqArg fr.req 0 2
      let a := reqArg fr.req 2 4 + upstream.toNat
      let flags := reqArg fr.req 6 1
      let count := (if bit flags 1 then n + 65535 else n + 1) % 65536
      let acc := (a + retime.toNat) % 2 ^ 32
      let x := { x with arrival := a
                        assignOut := (count, acc, crc16 (fr.header ++ beBytes 2 count ++ beBytes 4 acc ++ leBytes 1 flags)) }
      if bit flags 0 then x
      else { x with addr := some n, counter := 0, pending := none, cmd := {}, conduct := 0, fromTail := false, segEnd := false })

/-! ## Commands (R126 to R128) -/

/-- READ_ID: UID, TYPE and steps. -/
def execReadId (t : TileId) (r : RingId) (b : BlockId) (fr : RingFrame) (s : State) :
    Host.Outcome State Fault Refusal :=
  s.onCmd t r b fr 0x01 0 (fun x =>
    let k := blkKey t r b
    (eOk, beBytes 8 (Config.blockUid k) ++ beBytes 2 0x1016 ++ beBytes 2 (Config.blockStep k), x))

/-- SET_THR: E_LOCKED when locked. -/
def execSetThr (t : TileId) (r : RingId) (b : BlockId) (fr : RingFrame) (s : State) : Host.Outcome State Fault Refusal :=
  s.onCmd t r b fr 0x02 6 (fun x =>
    if x.thrLocked then (eLocked, [], x)
    else (eOk, [], { x with ov := reqArg fr.req 0 2, uv := reqArg fr.req 2 2, ot := reqArg fr.req 4 2 }))

/-- LOCK_THR. -/
def execLockThr (t : TileId) (r : RingId) (b : BlockId) (fr : RingFrame) (s : State) :
    Host.Outcome State Fault Refusal :=
  s.onCmd t r b fr 0x03 0 (fun x => (eOk, [], { x with thrLocked := true }))

/-- READ_THR: OV, UV, OT and the lock flag. -/
def execReadThr (t : TileId) (r : RingId) (b : BlockId) (fr : RingFrame) (s : State) :
    Host.Outcome State Fault Refusal :=
  s.onCmd t r b fr 0x04 0 (fun x =>
    (eOk, beBytes 2 x.ov ++ beBytes 2 x.uv ++ beBytes 2 x.ot ++ leBytes 1 (b2n x.thrLocked), x))

/-- CHALLENGE: the authentication response starts (R142). -/
def execChallenge (t : TileId) (r : RingId) (b : BlockId) (fr : RingFrame) (s : State) :
    Host.Outcome State Fault Refusal :=
  s.onCmd t r b fr 0x05 16 (fun x => (eOk, [], { x with challenge := fr.req, authReady := false }))

/-- BLOCK_AUTH_READY: the response can be read. -/
def execBlockAuthReady (t : TileId) (r : RingId) (b : BlockId) (s : State) : Host.Outcome State Fault Refusal :=
  s.onBlk t r b (fun x => if x.challenge = [] then x else { x with authReady := true })

/-- The authentication response of a block with a key and an identity (R142). -/
def authAnswer (key challenge : List Byte) (uid ring addr : Nat) : List Byte :=
  (Config.hmacSha256 key (challenge ++ beBytes 8 uid ++ beBytes 2 ring ++ beBytes 2 addr)).take 16

/-- AUTH_READ: the response, or E_BUSY until it is ready. -/
def execAuthRead (t : TileId) (r : RingId) (b : BlockId) (fr : RingFrame) (s : State) :
    Host.Outcome State Fault Refusal :=
  s.onCmd t r b fr 0x06 0 (fun x =>
    if x.authReady then
      (eOk, authAnswer (Config.blockKey (blkKey t r b)) x.challenge (Config.blockUid (blkKey t r b)) (t.val * 32 + r.val)
        (x.addr.getD 0), x)
    else (eBusy, [], x))

/-- SET_ROLE: HEAD and measure-while-balancing from the next conversion (R147). -/
def execSetRole (t : TileId) (r : RingId) (b : BlockId) (fr : RingFrame) (s : State) :
    Host.Outcome State Fault Refusal :=
  s.onCmd t r b fr 0x07 2 (fun x =>
    let w := reqArg fr.req 0 2
    (eOk, [], { x with nextHead := bit w 0, nextMwb := bit w 1 }))

/-- SET_POS: direction in bit 0 and segment end in bit 1 of byte 0 (R127; assumption 15). -/
def execSetPos (t : TileId) (r : RingId) (b : BlockId) (fr : RingFrame) (s : State) : Host.Outcome State Fault Refusal :=
  s.onCmd t r b fr 0x08 4 (fun x =>
    let w := reqArg fr.req 0 2
    (eOk, [], { x with fromTail := bit w 0, segEnd := bit w 1 }))

/-- The cells beside a wire. -/
def wireMask (w : Nat) : Nat := (if 1 ≤ w then 2 ^ (w - 1) else 0) + (if w ≤ 15 then 2 ^ w else 0)

/-- OPEN_TEST in a block: bleeding beside the wire is suspended; the answer follows after 200 µs (R169). A wire above 16
names nothing and is answered with E_RANGE (assumption 15). -/
def Blk.openTestStart (x : Blk) (fr : RingFrame) : Blk :=
  let w := reqArg fr.req 0 1
  if fr.req.length = 2 ∧ w ≤ 16 ∧ ¬ fr.broadcast ∧ x.addr = some (fr.addr.toNat % 1024) ∧ x.lastUni ≠ some fr.seq.toNat then
    { x with openTest := some (w, fr.seq.toNat), suspended := wireMask w, lastUni := some fr.seq.toNat, response := []
             sent := [] }
  else x.command fr 2 (fun x => (eRange, [], x))

/-- OPEN_TEST. -/
def execOpenTest (t : TileId) (r : RingId) (b : BlockId) (fr : RingFrame) (s : State) :
    Host.Outcome State Fault Refusal :=
  s.onFrame t r b fr 5 0x09 (fun x => x.openTestStart fr)

/-- After 200 µs the block answers with the changes of the cells below and above; a change with no cell is 0 (R169). -/
def execOpenTestSinkDone (t : TileId) (r : RingId) (b : BlockId) (below above : BitVec 16) (s : State) :
    Host.Outcome State Fault Refusal :=
  s.onBlk t r b (fun x =>
    match x.openTest with
    | none => x
    | some (w, q) =>
      let y := { x with openTest := none, suspended := 0, counter := (x.counter + 1) % 256 }
      let z := y.commandResponse q eOk (beBytes 2 (if 1 ≤ w then below.toNat else 0)
        ++ beBytes 2 (if w ≤ 15 then above.toNat else 0))
      { y with response := z, sent := z })

/-- BURST: the burst mask (R164). -/
def execBurst (t : TileId) (r : RingId) (b : BlockId) (fr : RingFrame) (s : State) : Host.Outcome State Fault Refusal :=
  s.onCmd t r b fr 0x0A 2 (fun x => (eOk, [], { x with burst := reqArg fr.req 0 2 }))

/-- PING. -/
def execPing (t : TileId) (r : RingId) (b : BlockId) (fr : RingFrame) (s : State) : Host.Outcome State Fault Refusal :=
  s.onCmd t r b fr 0x0B 0 (fun x => (eOk, [], x))

/-- READ_STATUS: the CRC errors seen upstream and downstream, the die temperature as measured, and the reset count. -/
def execReadStatus (t : TileId) (r : RingId) (b : BlockId) (fr : RingFrame) (s : State) :
    Host.Outcome State Fault Refusal :=
  s.onTile t (fun c =>
    let die := c.measure
    die.2.frameAt t r b fr 5 0x0C (fun x => x.command fr 0 (fun k =>
      (eOk, beBytes 2 k.crcUp ++ beBytes 2 k.crcDown ++ beBytes 2 die.1 ++ beBytes 2 k.resets, k))))

/-! ## Bleeding (R228 to R230) -/

/-- SET_DUTY: the command becomes pending and refreshes the watchdog; a zero map takes effect on receipt (R228). -/
def execSetDuty (t : TileId) (r : RingId) (b : BlockId) (fr : RingFrame) (s : State) : Host.Outcome State Fault Refusal :=
  s.onPost t r b fr 0x10 4 (fun x =>
    let d : Duty := { map := reqArg fr.req 0 2, duty := reqArg fr.req 2 1
                      alt := bit (reqArg fr.req 3 1) 0 }
    if d.map = 0 then (eOk, [], { x with pending := none, cmd := d, conduct := 0 })
    else (eOk, [], { x with pending := some d }))

/-- QUIET: a block not set for measure-while-balancing switches every cell off until the end of the cycle (R228). -/
def execQuiet (t : TileId) (r : RingId) (b : BlockId) (fr : RingFrame) (s : State) : Host.Outcome State Fault Refusal :=
  s.onPost t r b fr 0x11 0 (fun x => (eOk, [], if x.mwb then x else { x with conduct := 0, quiet := true }))

/-- SHIP: no conversion, no bleeding, no tone; the command is cleared (R146, R228). -/
def execShip (t : TileId) (r : RingId) (b : BlockId) (fr : RingFrame) (s : State) : Host.Outcome State Fault Refusal :=
  s.onPost t r b fr 0x12 0 (fun x =>
    (eOk, [], { x with ship := true, sync := none, pending := none, cmd := {}, conduct := 0 }))

/-- K28.5 for 10 ms ends ship state; the block has no address (R146). -/
def execShipStateExit (t : TileId) (r : RingId) (b : BlockId) (s : State) : Host.Outcome State Fault Refusal :=
  s.onBlk t r b (fun x => if x.ship then { x with ship := false, addr := none } else x)

/-- The cells of a command that conduct in a cycle: under ALT only those of the parity of its frame (R228, R230). -/
def Duty.cells (d : Duty) (frame : Nat) : Nat :=
  if d.duty = 0 then 0
  else if d.alt then d.map &&& (if frame % 2 = 0 then 0x5555 else 0xAAAA) else d.map

/-- A cycle begins: the latest pending command, or the one held, is applied (R228). -/
def execBleedCycleStart (t : TileId) (r : RingId) (b : BlockId) (s : State) : Host.Outcome State Fault Refusal :=
  s.onBlk t r b (fun x =>
    let d := x.pending.getD x.cmd
    { x with pending := none, cmd := d, quiet := false, conduct := if x.ship then 0 else d.cells x.frame })

/-- duty × T has elapsed: the cells stop conducting (R228, R232). -/
def execBleedOnTimeEnd (t : TileId) (r : RingId) (b : BlockId) (s : State) : Host.Outcome State Fault Refusal :=
  s.onBlk t r b (fun x => { x with conduct := 0 })

/-- No SET_DUTY for 2 s while a command with a non-zero map is held (R229). -/
def execBleedWatchdogExpiry (t : TileId) (r : RingId) (b : BlockId) (s : State) : Host.Outcome State Fault Refusal :=
  s.onBlk t r b (fun x =>
    if (x.pending.getD x.cmd).map = 0 then x
    else { x with pending := none, cmd := {}, conduct := 0, wdogStop := true })

/-! ## Comparators, beacon and power (R128, R135, R136) -/

/-- A comparator trips: 0 over-voltage, 1 under-voltage, 2 over-temperature. -/
def execBlockComparatorTrip (t : TileId) (r : RingId) (b : BlockId) (which : Fin 3) (s : State) :
    Host.Outcome State Fault Refusal :=
  s.onBlk t r b (fun x =>
    match which with
    | 0 => { x with cmpOv := true }
    | 1 => { x with cmpUv := true }
    | _ => { x with cmpOt := true })

/-- Comparators of a block clear: over-voltage in bit 0, under-voltage in bit 1, over-temperature in bit 2; with all three
clear it passes the tone again (R135). -/
def execBlockComparatorClear (t : TileId) (r : RingId) (b : BlockComparators) (s : State) : Host.Outcome State Fault Refusal :=
  s.onBlk t r b.block (fun x => { x with cmpOv := x.cmpOv && !bit b.which.toNat 0, cmpUv := x.cmpUv && !bit b.which.toNat 1,
                                         cmpOt := x.cmpOt && !bit b.which.toNat 2 })

/-- The blocks between a segment-end block and the port its beacon goes to, in the order BEACON reaches them (R136, R150). -/
def Ctl.beaconWay (c : Ctl) (t r b : Nat) : List Nat :=
  if (c.blk t r b).fromTail then (List.range (c.get t RING_STATUS_COUNT r - (b + 1))).map (fun i => b + 1 + i)
  else (List.range b).reverse

/-- BEACON_SEND: a segment-end block sends BEACON while it receives the tone; each block on the way back, which then receives
the tone too, forwards it while none of its own comparators is tripped (R136). -/
def execBeaconSend (t : TileId) (r : RingId) (b : BlockId) (tone : Bool) (s : State) : Host.Outcome State Fault Refusal :=
  s.onTile t (fun c =>
    let sends := (c.blk t r b).segEnd && tone && !(c.blk t r b).ship
    let c1 := c.setBlk t r b { c.blk t r b with beacon := sends }
    ((c.beaconWay t r b).foldl (fun (z : Ctl × Bool) k =>
      let on := z.2 && (z.1.blk t r k).passesTone
      (z.1.setBlk t r k { z.1.blk t r k with beacon := on }, on)) (c1, sends)).1)

/-- BLOCK_POWER_CYCLE: the counter is zero, the command cleared, the thresholds unlocked at values the manual does not
give (R128, R127, R228; assumption 16). -/
def execBlockPowerCycle (t : TileId) (r : RingId) (b : BlockId) (s : State) : Host.Outcome State Fault Refusal :=
  s.onTile t (fun c =>
    let x := c.free
    let y := x.2.free
    let z := y.2.free
    z.2.setBlk t r b { ov := x.1 % 65536, uv := y.1 % 65536, ot := z.1 % 65536
                       resets := ((c.blk t r b).resets + 1) % 65536 })

end Sys2Proof.Machine
end

