-- ==== Sys2Proof/Machine/OpenWire.lean ====
section
/-! DEFINITION. Machine/OpenWire.lean: the ring controller's record of a ring, and sense-wire breaks: suspicion, tests,
verdicts, confirmed wires (R168 to R171, R180). -/
namespace Sys2Proof.Machine

/-- A ring as its controller holds it. -/
def Ctl.rng (c : Ctl) (t r : Nat) : Rng := tabGet {} c.rings (t * 32 + r)

/-- A ring changed. -/
def Ctl.setRng (c : Ctl) (t r : Nat) (x : Rng) : Ctl := { c with rings := tabSet c.rings (t * 32 + r) x }

/-- The cell ID of cell `n` of a block (R8). -/
def cellId (t r b : Nat) (n : Nat := 0) : Nat := t * 2 ^ 18 + r * 2 ^ 13 + b * 16 + n

/-- An event of the ring and sampling class about a block, recorded by the tile itself, or by its partner while the tile
is down (R153). -/
def Ctl.ringEvent (c : Ctl) (t r b code : Nat) (payload : List Byte := []) : Ctl :=
  c.event (c.recorderOf t) 0x03 code (cellId t r b) payload

/-- Ring states (RING_STATUS.STATE, R148). -/
abbrev rgOff : Nat := 0
abbrev rgIdle : Nat := 1
abbrev rgEnum : Nat := 2
abbrev rgRun : Nat := 3
abbrev rgSplit : Nat := 4
abbrev rgFault : Nat := 5

/-- The state of a ring. -/
def Ctl.rstate (c : Ctl) (t r : Nat) : Nat := c.get t RING_STATUS_STATE r

/-- Whether a ring is in RUN or SPLIT. -/
def Ctl.ringUp (c : Ctl) (t r : Nat) : Bool := c.rstate t r == rgRun || c.rstate t r == rgSplit

/-- Whether a block is enumerated. -/
def Ctl.present? (c : Ctl) (t r b : Nat) : Bool := c.flag t RING_BLK_PRESENT r b

/-- Controller frames queued behind those that wait (R129). -/
def Ctl.queue (c : Ctl) (t r : Nat) (l : List Tx) : Ctl :=
  let x := c.rng t r
  c.setRng t r { x with ctl := x.ctl ++ l }

/-- Open-wire findings of a block. -/
def Ctl.owOf (c : Ctl) (t r b : Nat) : Ow := tabGet {} c.ow (blkKey t r b)

/-- Open-wire findings of a block changed, and its entry of the open-wire table with its stored copy (R171, R475). -/
def Ctl.setOw (c : Ctl) (t r b : Nat) (x : Ow) : Ctl :=
  let i := r * 512 + b
  let conf := match x.confirmed with | [] => 0 | w :: _ => w + 1
  let susp := match x.mirrored with | w :: _ => w + 1 | [] => if x.sumFail then 0x1F else 0
  let multi := b2n (decide (2 ≤ x.confirmed.length))
  let c := { c with ow := tabSet c.ow (blkKey t r b) x }
  let c := c.put t SMP_OW_CONF_WIRE conf i |>.put t SMP_OW_SUSP_WIRE susp i |>.put t SMP_OW_MULTI multi i
  { c with store := tabSet (tabSet c.store (SMP_OW_CONF_WIRE.key t i) conf) (SMP_OW_MULTI.key t i) multi }

/-- The wires whose break the record of a frame carries (R171). -/
def Ow.at (x : Ow) (g : Nat) : List Nat :=
  x.confirmed.filter (fun w => match tabFind x.since w with | some f => decide (0 ≤ frameDiff g f) | none => true)
    ++ (x.ended.filter (fun e => decide (frameDiff g e.2.2 < 0)
        && (match e.2.1 with | some f => decide (0 ≤ frameDiff g f) | none => true))).map (fun e => e.1)

/-- The frame of a block's next record. -/
def Ctl.nextRecord (c : Ctl) (t r b : Nat) : Nat :=
  let n := c.get t SMP_FRAME_NUM_FRAME
  if (c.rng t r).got.contains b || (c.rng t r).swept then (n + 1) % 2 ^ 32 else n

/-- Queues open-wire tests of wires of a block (R169). -/
def Ctl.owTest (c : Ctl) (t r b : Nat) (wires : List Nat) : Ctl :=
  let x := c.owOf t r b
  let new := wires.filter (fun w => !x.pending.contains w)
  (c.setOw t r b { x with pending := x.pending ++ new }).queue t r
    (new.map (fun w => { addr := b, cmd := 0x09, req := [BitVec.ofNat 8 w, 0] }))

/-- The tests of a ring are no longer outstanding: its queue has been dropped. -/
def Ctl.owRingDrop (c : Ctl) (t r : Nat) : Ctl :=
  { c with ow := c.ow.map (fun e => if e.1 / 512 = t * 32 + r then (e.1, { e.2 with pending := [] }) else e) }

/-- A suspicion found in a record: mirrored wires or a failed sum check, with event 0x1020 where it is new and the tests it
schedules (R168). -/
def Ctl.owSuspect (c : Ctl) (t r b : Nat) (mirrored : List Nat) (sumFail : Bool) : Ctl :=
  let x := c.owOf t r b
  let new := mirrored.filter (fun w => !x.mirrored.contains w)
  let c := c.setOw t r b { x with mirrored := x.mirrored ++ new, sumFail := x.sumFail || sumFail
                                  untested := if sumFail && !x.sumFail then List.range 17 else x.untested }
  let c := new.foldl (fun (c : Ctl) w => c.ringEvent t r b 0x1020 (leBytes 1 w)) c
  let c := if sumFail && !x.sumFail then c.ringEvent t r b 0x1020 (leBytes 1 0xFF) else c
  if c.flag t SMP_OW_CFG_EN then c.owTest t r b (if sumFail then List.range 17 else mirrored) else c

/-- A wire confirmed broken (R170, R171). -/
def Ctl.owConfirm (c : Ctl) (t r b w : Nat) : Ctl :=
  let x := c.owOf t r b
  if x.confirmed.contains w then c.setOw t r b { x with passes := tabErase x.passes w }
  else (c.setOw t r b { x with
      confirmed := x.confirmed ++ [w], mirrored := x.mirrored.filter (fun v => v != w)
      since := tabSet x.since w (c.nextRecord t r b) }).ringEvent t r b 0x1021

/-- A test without collapse (R170, R171). -/
def Ctl.owPass (c : Ctl) (t r b w : Nat) : Ctl :=
  let x := c.owOf t r b
  if x.confirmed.contains w then
    let n := tabGet 0 x.passes w + 1
    if c.get t SMP_OW_CFG_PASS_CLEAR ≤ n then
      let n := c.nextRecord t r b
      (c.setOw t r b { x with
        confirmed := x.confirmed.filter (fun v => v != w), passes := tabErase x.passes w, since := tabErase x.since w
        ended := (w, tabFind x.since w, n) :: x.ended.filter (fun e => decide (frameDiff n e.2.2 < 1200)) }).ringEvent
        t r b 0x1023
    else c.setOw t r b { x with passes := tabSet x.passes w n }
  else if x.mirrored.contains w then
    let c := c.setOw t r b { x with mirrored := x.mirrored.filter (fun v => v != w) }
    if x.sumFail then c else c.ringEvent t r b 0x1022
  else c

/-- The result of a test of wire `w`: collapse when either change reaches T_COLLAPSE; a sum mismatch is decided once every wire
has given the result of a test since it was found (R169, R170). -/
def Ctl.owResult (c : Ctl) (t r b w : Nat) (below above : Int) : Ctl :=
  let lim := c.get t SMP_OW_CFG_T_COLLAPSE * 100
  let collapse := decide (lim ≤ below.natAbs) || decide (lim ≤ above.natAbs)
  let x := c.owOf t r b
  let c := c.setOw t r b { x with pending := x.pending.filter (fun v => v != w)
                                  untested := x.untested.filter (fun v => v != w) }
  let c := if collapse then c.owConfirm t r b w else c.owPass t r b w
  let y := c.owOf t r b
  if y.untested = [] ∧ y.sumFail then c.setOw t r b { y with sumFail := false, mirrored := [] } else c

/-- A test whose transaction failed: no longer outstanding. -/
def Ctl.owDrop (c : Ctl) (t r b w : Nat) : Ctl :=
  let x := c.owOf t r b
  c.setOw t r b { x with pending := x.pending.filter (fun v => v != w) }

/-- OW_SCHEDULED_TEST: the interval of a wire elapses (R169). -/
def execOwScheduledTest (t : TileId) (r : RingId) (b : BlockId) (w : Fin 17) (s : State) :
    Host.Outcome State Fault Refusal :=
  s.onTile t (fun c =>
    if c.flag t SMP_OW_CFG_EN && c.ringUp t r && c.present? t r b then c.owTest t r b [w.val] else c)

/-- OW_RETEST_TIMER: a confirmed wire is tested every 60 s (R171). -/
def execOwRetestTimer (t : TileId) (r : RingId) (b : BlockId) (w : Fin 17) (s : State) :
    Host.Outcome State Fault Refusal :=
  s.onTile t (fun c =>
    if (c.owOf t r b).confirmed.contains w.val && c.ringUp t r && c.present? t r b then c.owTest t r b [w.val] else c)

/-- A tile argument that must name a tile in RUN, and a ring argument (R33, R46). -/
def Ctl.ringAbsent (c : Ctl) (t r : Nat) : Bool := !c.running t || decide (32 ≤ r)

/-- The tests of all 17 wires of a block are outstanding and wait for the next frame (R181). -/
def Ctl.owLater (c : Ctl) (t r b : Nat) : Ctl :=
  let c := c.setOw t r b { c.owOf t r b with pending := List.range 17 }
  let g := c.rng t r
  c.setRng t r { g with later := g.later ++ (List.range 17).map (fun w =>
    { addr := b, cmd := 0x09, req := [BitVec.ofNat 8 w, 0] }) }

/-- SMP_OW_TEST: tests of all 17 wires of a block, launched in the next frame (R181). -/
def execSmpOwTest (d : Datagram) (s : State) : Host.Outcome State Fault Refusal :=
  s.cmd 0x1010 d (fun r m c => guarded r engRoles 4 m c (
    let t := r.arg 0 1
    let g := r.arg 1 1
    let b := r.arg 2 2
    let e := firstErr [(c.ringAbsent t g || decide (512 ≤ b) || !c.present? t g b, eAbsent),
      ((c.owOf t g b).pending != [], eBusy)]
    if e ≠ eOk then .err m c e else { mem := m, ctl := c.owLater t g b }))

end Sys2Proof.Machine
end

