-- ==== Sys2Proof/Machine/Ring.lean ====
section
/-! DEFINITION. Machine/Ring.lean: the ring controller: transactions, enumeration, identities, ring states, breaks, the
fault tone and the ring commands (R103, R104, R117, R128 to R155, R528, R529). -/
namespace Sys2Proof.Machine

/-! ## Completion of transactions (R104, R132) -/

/-- A posted transaction completes: response, RSP_LEN, COUNTER and then STATUS go to the descriptor, and tasks that RWAIT
it resume with the code (R104). A response longer than RSP_CAP is cut to it, and without a response RSP_LEN and COUNTER are 0
(DESIGN CHOICE, assumption 94). -/
def completeTx (x : MC) (tx : Tx) (status counter : Nat) (data : List Byte) : MC :=
  match tx.desc with
  | none => x
  | some (t, k, p) =>
    let d := data.take tx.cap
    let m := memStore x.1 (localAddr t k tx.rsp) d
    let m := memWrite m (localAddr t k (p + 6)) (BitVec.ofNat 8 d.length)
    let m := memWrite m (localAddr t k (p + 7)) (BitVec.ofNat 8 counter)
    let m := memWrite m (localAddr t k (p + 3)) (BitVec.ofNat 8 status)
    (m, (slotsOf k).foldl (fun (c : Ctl) i =>
      if (c.task t i).wait = .ring p then c.resume t i (BitVec.ofNat 32 status) else c) x.2)

/-- Every transaction of a list completes with E_ABSENT (R132). -/
def completeAbsent (x : MC) (l : List Tx) : MC := l.foldl (fun x tx => completeTx x tx eAbsent 0 []) x

/-! ## Ring states (R148, R149) -/

/-- The bit of a ring set in RING_EVT, and interrupt source 0x04 (R149). -/
def Ctl.ringChanged (c : Ctl) (t r : Nat) : Ctl :=
  let g := c.recorderOf t
  (c.put t RING_EVT_CHANGED (setBit (c.get t RING_EVT_CHANGED) r true)).irq g 0x04

/-- The RING_TONE bit of a ring: every end that supervises the tone reports it present: the tail in RUN, both in SPLIT
(R135, R136, R155). -/
def Ctl.toneBit (c : Ctl) (t r : Nat) : Ctl :=
  let g := c.rng t r
  let ok := if c.rstate t r = rgSplit then !g.toneLostHead && !g.toneLostTail else !g.toneLostTail
  c.put t RING_TONE_TONE (setBit (c.get t RING_TONE_TONE) r ok)

/-- TAIL_SEG of the blocks of a ring in RUN or SPLIT: in SPLIT those from SPLIT_AT on are reached from the tail, in RUN every
block of a ring in REVERSE (R125, R150, R151, R453). -/
def Ctl.tailSegs (c : Ctl) (t r : Nat) : Ctl :=
  let k := if c.rstate t r = rgSplit then c.get t RING_STATUS_SPLIT_AT r else if c.get t RING_CTRL_MODE r = 2 then 0 else 0x3FF
  forN (c.get t RING_STATUS_COUNT r) (fun b (c : Ctl) => c.put t RING_BLK_TAIL_SEG (b2n (decide (k ≤ b))) r b) c

/-- Blocks whose BURST command a ring drops unsent or unanswered are owed it again (R166). -/
def Ctl.burstOwed (c : Ctl) (t r : Nat) (l : List Tx) : Ctl :=
  let keys := (l.filter (fun y => y.cmd == 0x0A && y.desc.isNone)).map (fun y => blkKey t r y.addr)
  if keys = [] then c
  else
    let x := tabGet {} c.bursts t
    { c with bursts := tabSet c.bursts t { x with due := (x.due ++ keys).eraseDups } }

/-- A change of state of a ring with its events; transactions of a ring that leaves RUN and SPLIT complete with E_ABSENT
(R132, R149, R153). -/
def ringState (x : MC) (t r st : Nat) : MC :=
  let c := x.2
  let old := c.rstate t r
  if old = st then x
  else
    let up : Bool := st == rgRun || st == rgSplit
    let g := c.rng t r
    let k := g.splitAt.getD 0x3FF
    let lost := if up then [] else g.posted ++ g.flight
    let c := if up then c else
      ((c.burstOwed t r (g.ctl ++ g.flight)).owRingDrop t r).setRng t r { g with
        posted := [], flight := [], ctl := [], splitAt := none, toRun := false, rejoining := false, suspect := false
        collecting := false, missRun := [], measuring := false, later := [] }
    let c := (c.put t RING_STATUS_STATE st r).put t RING_STATUS_SPLIT_AT (if st = rgSplit then k else 0x3FF) r
    let c := if up then c.tailSegs t r else c
    let c := (c.ringChanged t r).toneBit t r
    let c :=
      if st = rgRun then c.ringEvent t r 0 (if old = rgSplit then 0x1004 else 0x1001)
      else if st = rgSplit then c.ringEvent t r 0 0x1003 (leBytes 2 k)
      else if (old = rgRun ∨ old = rgSplit) ∧ (st = rgIdle ∨ st = rgFault) then c.ringEvent t r 0 0x1002
      else c
    completeAbsent (x.1, c.judge t) lost

/-- A ring enters FAULT with its cause: 1 FOREIGN, 2 TWO_BREAKS, 3 NO_BLOCK, 4 TIMEOUT, 5 NO_THRESHOLDS (R155). -/
def ringFault (x : MC) (t r cause pos : Nat) : MC :=
  let x := x.on (fun c =>
    let c := c.put t RING_FAULT_CAUSE cause r |>.put t RING_FAULT_POSITION pos r
    c.setRng t r { c.rng t r with step := 0 })
  ringState x t r rgFault

/-- Whether the end that drives a ring has lock: head in NORMAL, tail in REVERSE (R148). -/
def Ctl.drivingLock (c : Ctl) (t r : Nat) : Bool :=
  if c.get t RING_CTRL_MODE r = 2 then c.flag t RING_LINK_TAIL_LOCK r else c.flag t RING_LINK_HEAD_LOCK r

/-- The block table of a ring cleared (R172: PRESENT stays set until the ring next enters ENUM or OFF), but for the stale
marks, which end as R220 says (assumption 98). -/
def Ctl.clearBlocks (c : Ctl) (t r : Nat) : Ctl :=
  { c with regs := c.regs.filter (fun e => !(keyTile e.1 == t && keyBlk e.1 == 3
      && decide (0x8000 + r * 0x400 ≤ keyOff e.1) && decide (keyOff e.1 < 0x8400 + r * 0x400)
      && e.1 % 32 != RING_BLK_STALE.lo)) }

/-- The entries of a table by ring position that belong to one ring. -/
def ringPart (l : Tab Nat) (t r : Nat) : Tab Nat := l.filter (fun e => e.1 / 512 == t * 32 + r)

/-- A table by ring position with the part of one ring replaced. -/
def withRingPart (l : Tab Nat) (t r : Nat) (part : Tab Nat) : Tab Nat :=
  part.foldl (fun l e => tabSet l e.1 e.2) (l.filter (fun e => e.1 / 512 != t * 32 + r))

/-- What an enumeration of a ring may change, before it begins. -/
def Ctl.enumBefore (c : Ctl) (t r : Nat) : EnumBefore :=
  { count := c.get t RING_STATUS_COUNT r, loop := c.get t RING_LOOP_NS r
    inventory := ringPart c.inventory t r, identity := ringPart c.identity t r }

/-- The steps done of an enumeration that starts again are taken back (R528). -/
def Ctl.enumUndo (c : Ctl) (t r : Nat) : Ctl :=
  let b := (c.rng t r).before
  let c := c.put t RING_STATUS_COUNT b.count r |>.put t RING_LOOP_NS b.loop r
  { c with inventory := withRingPart c.inventory t r b.inventory, identity := withRingPart c.identity t r b.identity }

/-- Enumeration starts, or starts again, from step 1 of R137; with the driving end locked ASSIGN is sent at once. The policy
is that of the start (R141); identities found before are forgotten; transactions posted to its blocks, which are no longer
enumerated, complete with E_ABSENT (R132). -/
def enumStart (x : MC) (t r : Nat) : MC :=
  let again := x.2.rstate t r == rgEnum
  let x := if again then completeAbsent x ((x.2.rng t r).posted ++ (x.2.rng t r).flight) else x
  let x := ringState x t r rgEnum
  x.on (fun c =>
    let c := if again then c.enumUndo t r else c
    let before := if again then (c.rng t r).before else c.enumBefore t r
    let policy := if again then (c.rng t r).policy else c.flag t RING_CTRL_POLICY r
    let c := ((c.clearBlocks t r).owRingDrop t r).put t RING_FAULT_CAUSE 0 r |>.put t RING_FAULT_POSITION 0 r
      |>.put t RING_QSTAT_STALE 0 r
    let c := { c with found := c.found.filter (fun e => e.1 / 512 != t * 32 + r) }
    let g := c.rng t r
    c.setRng t r { g with
      step := if c.drivingLock t r then 2 else 1
      ctl := [], posted := [], flight := [], later := [], splitAt := none, toRun := false, rejoining := false
      suspect := false, slots := []
      held := [], duty := [], dutyHeld := [], dutyWait := [], refreshed := [], stopFrom := [], mismatch := []
      challenge := [], authTries := [], missRun := [], policy := policy, before := before })

/-- A ring whose links are both unlocked goes to IDLE from ENUM, RUN or SPLIT (R149). -/
def ringIdle (x : MC) (t r : Nat) : MC :=
  let x := x.on (fun c => c.setRng t r { c.rng t r with step := 0 })
  ringState x t r rgIdle

/-- The address of the block state table entry of a block (R245). -/
def blockState (t idx : Nat) : Nat := modAddr t (0x0E000000 + idx * 64)

/-- Wire learning of a ring abandoned, its block's cycle number idle: MWB cleared, the ring or balancing OFF (R245, R489). -/
def dropLearn (t r : Nat) (x : MC) : MC :=
  let c := Ctl.put { x.2 with learns := tabErase x.2.learns (t * 32 + r) } t BAL_RING_CFG_WIRE_BUSY 0 r
  match (tabGet {} x.2.learns (t * 32 + r)).block with
  | some b => (memPut x.1 (blockState t (r * 512 + b) + 0x23) 1 0xFF, c)
  | none => (x.1, c)

/-- A write of MODE (R148, R149, R489): OFF from any state, IDLE from OFF. -/
def ringMode (x : MC) (t r mode : Nat) : MC :=
  let x := x.on (fun c => c.put t RING_CTRL_MODE mode r)
  if mode = 0 then
    (dropLearn t r (ringState x t r rgOff)).on (fun c =>
      let c := c.clearBlocks t r
      let c := c.setRng t r { c.rng t r with step := 0, slots := [], held := [], ctl := [], later := [] }
      { c with ow := c.ow.map (fun e =>
          if e.1 / 512 = t * 32 + r then (e.1, { e.2 with mirrored := [], sumFail := false, pending := [], untested := [] }) else e)
               regs := c.regs.filter (fun e => !(keyTile e.1 == t && keyBlk e.1 == 4 && e.1 % 32 == 6
                 && decide (0x8000 + r * 1024 ≤ keyOff e.1) && decide (keyOff e.1 < 0x8400 + r * 1024))) })
  else if x.2.rstate t r = rgOff then ringState x t r rgIdle
  else x

/-! ## Links (R117, R149, R528) -/

/-- Whether a receiver of the module is one of a ring's ends: head or tail. -/
def portEnd : RingReceiver → Option Bool
  | .head => some false
  | .tail => some true
  | .upstream _ => none
  | .downstream _ => none

/-- Whether the receiver at an end of a ring holds lock. -/
def Ctl.endLock (c : Ctl) (t r : Nat) (tail : Bool) : Bool :=
  c.flag t (if tail then RING_LINK_TAIL_LOCK else RING_LINK_HEAD_LOCK) r

/-- The lock of a receiver: the module's in RING_LINK, a block's as LOSS_US or LOSS_DS of its STATUS (R123, R155). -/
def Ctl.linkAt (c : Ctl) (t r : Nat) (rx : RingReceiver) (locked : Bool) : Ctl :=
  match rx with
  | .head => c.put t RING_LINK_HEAD_LOCK (b2n locked) r
  | .tail => c.put t RING_LINK_TAIL_LOCK (b2n locked) r
  | .upstream b => c.setBlk t r b { c.blk t r b with lossUs := !locked }
  | .downstream b => c.setBlk t r b { c.blk t r b with lossDs := !locked }

/-- Whether every link of a ring is locked: both ends, and the links of its blocks (R149). -/
def Ctl.linksLocked (c : Ctl) (t r : Nat) : Bool :=
  c.endLock t r false && c.endLock t r true
    && !anyN (c.get t RING_STATUS_COUNT r) (fun b => (c.blk t r b).lossUs || (c.blk t r b).lossDs)

/-- Whether both sides of the link before block `k` hold lock (R151). -/
def Ctl.facingLocked (c : Ctl) (t r k : Nat) : Bool :=
  (if k = 0 then c.endLock t r false else !(c.blk t r (k - 1)).lossDs)
    && (if k = c.get t RING_STATUS_COUNT r then c.endLock t r true else !(c.blk t r k).lossUs)

/-- RING_LINK_LOCK: a receiver locks, an end with its equaliser setting. The driving end of a ring in IDLE starts enumeration,
an end that gains lock starts one under way again (R149, R528). -/
def execRingLinkLock (t : TileId) (r : RingId) (rx : RingReceiver) (eq : Byte) (s : State) :
    Host.Outcome State Fault Refusal :=
  s.onTileM t (fun m c =>
    match portEnd rx with
    | none => (m, c.linkAt t r rx true)
    | some tail =>
      let had := c.endLock t r tail
      let c := (c.linkAt t r rx true).put t (if tail then RING_LINK_EQ_TAIL else RING_LINK_EQ_HEAD) eq.toNat r
      let st := c.rstate t r
      let drives : Bool := tail == decide (c.get t RING_CTRL_MODE r = 2)
      if st = rgIdle ∧ drives ∧ c.flag t RING_CTRL_AUTO_ENUM r then enumStart (m, c) t r
      else if st = rgEnum ∧ (c.rng t r).step < 8 ∧ ¬ had then enumStart (m, c) t r
      else (m, c))

/-- RING_LINK_LOSS: a receiver reports loss of lock. With both ends unlocked the ring goes to IDLE, in ENUM it starts again,
in RUN the loss of the tail raises suspicion of a break; no link has then stayed locked (R149, R150, R528). -/
def execRingLinkLoss (t : TileId) (r : RingId) (rx : RingReceiver) (s : State) : Host.Outcome State Fault Refusal :=
  s.onTileM t (fun m c =>
    let had := match portEnd rx with | some tail => c.endLock t r tail | none => false
    let c := c.linkAt t r rx false
    let c := c.setRng t r { c.rng t r with missRun := [] }
    let st := c.rstate t r
    if !had then (m, c)
    else if !(c.endLock t r false || c.endLock t r true) && (st == rgEnum || st == rgRun || st == rgSplit) then
      ringIdle (m, c) t r
    else if st = rgEnum ∧ (c.rng t r).step < 8 then enumStart (m, c) t r
    else if st = rgRun ∧ rx = .tail then (m, c.setRng t r { c.rng t r with suspect := true })
    else (m, c))

/-! ## Enumeration (R137 to R145) -/

/-- Frames to every block of a ring. -/
def toAll (n cmd : Nat) (req : Nat → List Byte) : List Tx :=
  (List.range n).map (fun b => { addr := b, cmd := cmd, req := req b })

/-- Whether a block is the head block of a valid entry of the active string map. -/
def Ctl.isHead (c : Ctl) (t r b : Nat) : Bool :=
  anyN 32 (fun i => c.flag t RING_SMAP_ACT_VALID r i && c.get t RING_SMAP_ACT_FIRST r i == b)

/-- SET_ROLE request of a block: HEAD in bit 0, measure-while-balancing in bit 1 (R127, R236). -/
def Ctl.roleReq (c : Ctl) (t r b : Nat) : List Byte :=
  beBytes 2 (b2n (c.isHead t r b) + 2 * c.get t BAL_RING_CFG_MWB r)

/-- The table entries of blocks 0 to n − 1 of a ring just counted: PRESENT, expected counter 0; a position without a block is
not stale. -/
def Ctl.setPresent (c : Ctl) (t r n : Nat) : Ctl :=
  forN 512 (fun b (c : Ctl) => if b < n then c.put t RING_BLK_PRESENT 1 r b else c.put t RING_BLK_STALE 0 r b) c

/-- Step 3 done with N blocks, before block `k` of which a break lies where there is one: the count, event 0x1010 where it
differs from RING_EXPECT, and READ_ID to every block (R137, R138). -/
def enumCounted (x : MC) (t r n : Nat) (k : Option Nat) : MC :=
  let x := x.on (fun c => c.put t RING_STATUS_COUNT n r)
  if n = 0 then ringFault x t r 3 0
  else x.on (fun c =>
    let c := c.setPresent t r n
    let c := c.setRng t r { c.rng t r with step := 4, splitAt := k, ctl := toAll n 0x01 (fun _ => []), everEnum := true }
    if c.get t RING_EXPECT_COUNT r ≠ 0 ∧ c.get t RING_EXPECT_COUNT r ≠ n then c.ringEvent t r 0 0x1010 else c)

/-- The identity check of one position (R141, R144): STALE writes the inventory at once and marks the position; under AUTH
every block is challenged. -/
def Ctl.checkIdentity (c : Ctl) (t r b : Nat) : Ctl :=
  let key := blkKey t r b
  let id := tabGet 0 c.found key
  let want := tabGet 0 c.inventory key
  let same := decide (id = want)
  let c := if !same && want != 0 then (c.put t RING_BLK_SWAPPED 1 r b).ringEvent t r b 0x1011 else c
  if (c.rng t r).policy then
    if same then { c with identity := tabErase c.identity key }
    else
      let c := { c with inventory := tabSet c.inventory key id, identity := tabSet c.identity key 3 }
      (c.put t RING_BLK_STALE 1 r b).inc t RING_QSTAT_STALE r
  else
    let v := c.free
    let ch := beBytes 16 v.1
    let g := v.2.rng t r
    v.2.setRng t r { g with challenge := tabSet g.challenge b ch
                            ctl := g.ctl ++ [{ addr := b, cmd := 0x05, req := ch }] }

/-- The block passes authentication: a swapped or adopted identity goes into the inventory, and what was marked of the block
before it is over (R142; assumption 98). -/
def Ctl.authPass (c : Ctl) (t r b : Nat) : Ctl :=
  let key := blkKey t r b
  let id := tabGet 0 c.found key
  let want := tabGet 0 c.inventory key
  if id = want then { c with identity := tabErase c.identity key }
  else Ctl.put { c with inventory := tabSet c.inventory key id, identity := tabSet c.identity key (if want = 0 then 1 else 2) }
    t RING_BLK_STALE 0 r b

/-- The block fails: quarantine, with event 0x1012 (R143). -/
def Ctl.quarantine (c : Ctl) (t r b : Nat) : Ctl :=
  ({ c with identity := tabSet c.identity (blkKey t r b) 4 } : Ctl).put t RING_BLK_QUAR 1 r b |>.ringEvent t r b 0x1012

/-- The next step of R137 once every transaction of a step has completed. -/
def enumAdvance (x : MC) (t r : Nat) : MC :=
  let c := x.2
  let g := c.rng t r
  let n := c.get t RING_STATUS_COUNT r
  if c.rstate t r ≠ rgEnum ∨ g.ctl ≠ [] ∨ g.flight ≠ [] then x
  else
    match g.step with
    | 4 =>
      if c.get t RING_THR_V_OV r = 0 then ringFault x t r 5 0
      else (x.1, c.setRng t r { g with step := 5, ctl := toAll n 0x04 (fun _ => []) })
    | 5 => (x.1, c.setRng t r { g with step := 6, ctl := toAll n 0x07 (fun b => c.roleReq t r b) })
    | 6 =>
      let c := c.setRng t r { g with step := 7 }
      let c := (List.range n).foldl (fun (c : Ctl) b => c.checkIdentity t r b) c
      let g := c.rng t r
      (x.1, if g.ctl = [] then c.setRng t r { g with step := 8, toRun := g.splitAt.isNone } else c)
    | 7 => (x.1, c.setRng t r { g with step := 8, toRun := g.splitAt.isNone })
    | _ => x

/-- What an identity read gives: a block that is no SKV1016 is a foreign device (R3, R137). -/
def enumIdentity (x : MC) (t r b : Nat) (data : List Byte) : MC :=
  if beNat ((data.drop 8).take 2) ≠ 0x1016 ∨ data.length ≠ 12 then
    ringFault (x.on (fun c => c.ringEvent t r b 0x1013)) t r 1 b
  else x.on (fun c => { c with found := tabSet c.found (blkKey t r b) (beNat (data.take 8)) })

/-- What a threshold read gives (R137 step 5). -/
def Ctl.enumThresholds (c : Ctl) (t r b : Nat) (data : List Byte) : Ctl :=
  let want := beBytes 2 (c.get t RING_THR_V_OV r) ++ beBytes 2 (c.get t RING_THR_V_UV r)
    ++ beBytes 2 (c.get t RING_THR_T_OT r)
  if beNat ((data.drop 6).take 1) % 2 = 0 then
    c.queue t r [{ addr := b, cmd := 0x02, req := want }, { addr := b, cmd := 0x03 }]
  else if data.take 6 = want then c
  else (c.put t RING_BLK_THR_MISMATCH 1 r b).ringEvent t r b 0x1014

/-- What an AUTH_READ gives: the answer judged, or another try on E_BUSY up to four (R142). -/
def Ctl.enumAuth (c : Ctl) (t r b rcode : Nat) (data : List Byte) : Ctl :=
  let g := c.rng t r
  let uid := tabGet 0 c.found (blkKey t r b)
  let key := Config.hmacSha256 Config.plantKey ([0x53, 0x4B, 0x56, 0x42] ++ beBytes 8 uid)
  let n := tabGet 0 g.authTries b + 1
  if rcode = eOk then
    if data = authAnswer key (tabGet [] g.challenge b) uid (t * 32 + r) b then c.authPass t r b else c.quarantine t r b
  else if n < 4 then
    c.setRng t r { g with authTries := tabSet g.authTries b n, ctl := g.ctl ++ [{ addr := b, cmd := 0x06 }] }
  else c.quarantine t r b

/-- A controller frame's outcome acts on enumeration, roles, positions and open-wire tests. In enumeration steps 5 and 6 a
block that gives no correct response is passed over, and the next step follows (DESIGN CHOICE, assumption 95). A SET_ROLE of a
ring in RUN or SPLIT that ends without a response has not completed in its frame and is issued again in the slots that follow
(R147; DEDUCED, assumption 95). -/
def controllerDone (x : MC) (t r : Nat) (tx : Tx) (rcode : Nat) (data : List Byte) : MC :=
  let b := tx.addr
  let step := (x.2.rng t r).step
  if tx.cmd = 0x09 then
    x.on (fun c =>
      let w := (tx.req.headD 0).toNat
      if rcode = eOk ∧ data.length = 4 then
        c.owResult t r b w (toSigned 16 (beNat (data.take 2))) (toSigned 16 (beNat (data.drop 2)))
      else c.owDrop t r b w)
  else if tx.cmd = 0x07 then
    if rcode = eOk then
      x.on (fun c =>
        let w := beNat tx.req
        let c := if w % 2 = 1 ∧ ¬ c.flag t RING_BLK_HEAD r b then
            { c with headFrom := tabSet c.headFrom (blkKey t r b) ((c.get t SMP_FRAME_NUM_FRAME + 2) % 2 ^ 32) }
          else c
        (c.put t RING_BLK_HEAD (w % 2) r b).put t RING_BLK_MWB (w / 2 % 2) r b)
    else if (rcode = eTimeout ∨ rcode = eIntegrity) ∧ x.2.ringUp t r then
      x.on (fun c => c.queue t r [{ addr := b, cmd := 0x07, req := c.roleReq t r b }])
    else x
  else if x.2.rstate t r ≠ rgEnum then x
  else if tx.cmd = 0x01 ∧ step = 4 then
    if rcode = eOk then enumIdentity x t r b data
    else ringFault (x.on (fun c => c.ringEvent t r b 0x1013)) t r 1 b
  else if tx.cmd = 0x04 ∧ step = 5 then (if rcode = eOk then x.on (fun c => c.enumThresholds t r b data) else x)
  else if tx.cmd = 0x05 ∧ step = 7 then
    x.on (fun c => if rcode = eOk then c.queue t r [{ addr := b, cmd := 0x06 }] else c.quarantine t r b)
  else if tx.cmd = 0x06 ∧ step = 7 then
    x.on (fun c => if rcode = eOk ∨ rcode = eBusy then c.enumAuth t r b rcode data else c.quarantine t r b)
  else x

/-- A transaction has its outcome: posted ones complete into their descriptor, controller ones act; enumeration moves on
(R104, R132, R137). -/
def txOutcome (x : MC) (t r : Nat) (tx : Tx) (rcode counter : Nat) (data : List Byte) : MC :=
  let x := x.on (fun c =>
    let g := c.rng t r
    let c := c.setRng t r { g with flight := g.flight.filter (fun y => !(y.seq == tx.seq && y.addr == tx.addr)) }
    if rcode = eTimeout then c.inc t RING_ERR_TIMEOUT r else c)
  let x := if tx.desc.isSome then completeTx x tx rcode counter data else controllerDone x t r tx rcode data
  enumAdvance x t r

/-! ## Launch, response, retry (R128, R129, R132) -/

/-- The expected counter of a block advanced (R128). -/
def Ctl.expect (c : Ctl) (t r b : Nat) : Ctl := c.incMod t RING_BLK_EXP_COUNTER r b

/-- The expected counters of every block of a ring advanced, for a broadcast (R128). -/
def Ctl.expectAll (c : Ctl) (t r : Nat) : Ctl :=
  forN (c.get t RING_STATUS_COUNT r) (fun b (c : Ctl) => c.expect t r b) c

/-- A command frame put on the ring with the next SEQ. -/
def Ctl.launch (c : Ctl) (t r : Nat) (tx : Tx) : Ctl :=
  let g := c.rng t r
  let c := if tx.addr = 0x3FF then c.expectAll t r else c.expect t r tx.addr
  let tx := { tx with seq := g.seq }
  c.setRng t r { g with seq := (g.seq + 1) % 256
                        flight := if tx.post || tx.addr == 0x3FF then g.flight else g.flight ++ [tx] }

/-- The filled duty slot of the lowest block that may be sent: not held for the quiet window, its block not quarantined
(R134, R143). -/
def Ctl.dutyReady (c : Ctl) (t r : Nat) : Option (Nat × Duty) :=
  let g := c.rng t r
  g.slots.find? (fun e => !(g.quiet && g.held.contains e.1) && !c.flag t RING_BLK_QUAR r e.1)

/-- Whether a frame may be launched now: a POST frame always; a CMD frame with no COLLECT or RETRY train on the ring and no
duty slot to send first, and SET_ROLE only in the slots that follow the frame's sweep (R129, R147). -/
def Ctl.launchable (c : Ctl) (t r : Nat) (tx : Tx) : Bool :=
  let g := c.rng t r
  tx.post || c.rstate t r == rgEnum
    || (!(g.collecting && !g.swept) && (tx.cmd != 0x07 || g.swept) && (c.dutyReady t r).isNone)

/-- Whether a block can be reached: enumerated, and on a carried ring in SPLIT not before the break (R132, R529). -/
def Ctl.reachable (c : Ctl) (t r b : Nat) : Bool :=
  c.present? t r b && !(c.get t RING_CTRL_MODE r == 2 && c.rstate t r == rgSplit
    && decide (b < c.get t RING_STATUS_SPLIT_AT r))

/-- RING_TX_LAUNCH: a retry that waited, else the first controller frame that may be launched, then a posted transaction; a
posted one whose block is no longer enumerated or not reachable completes with E_ABSENT (R129, R132). -/
def execRingTxLaunch (t : TileId) (r : RingId) (s : State) : Host.Outcome State Fault Refusal :=
  s.onTileM t (fun m c =>
    let g := c.rng t r
    if c.rstate t r ≠ rgEnum ∧ ¬ c.ringUp t r then (m, c)
    else if g.flight.any (fun y => y.again && c.launchable t r y) then
      (m, c.setRng t r { g with flight := g.flight.map (fun y =>
        if some y = g.flight.find? (fun y => y.again && c.launchable t r y) then { y with again := false } else y) })
    else
      match g.ctl.find? (c.launchable t r), g.posted with
      | some tx, _ => enumAdvance (m, (c.setRng t r { g with ctl := g.ctl.erase tx }).launch t r tx) t r
      | none, [] => (m, c)
      | none, tx :: rest =>
        if !c.launchable t r tx then (m, c)
        else
          let c := c.setRng t r { g with posted := rest }
          if c.reachable t r tx.addr then (m, c.launch t r tx) else completeTx (m, c) tx eAbsent 0 [])

/-- A duty written into a block's slot; in the quiet window that of a block not set for measure-while-balancing is held; a
quarantined block is sent none (R134, R143). -/
def Ctl.dutySlot (c : Ctl) (t r b : Nat) (d : Duty) : Ctl :=
  let g := c.rng t r
  let hold := g.quiet && !c.flag t RING_BLK_MWB r b
  if c.flag t RING_BLK_QUAR r b then c
  else c.setRng t r { g with
    slots := tabSet g.slots b d
    held := if hold then b :: g.held.filter (fun n => n != b) else g.held.filter (fun n => n != b) }

/-- The duties a block held in the cycles from `f` on put right: what was sent for them is taken as lost (R239). -/
def Ctl.cycleHeld (c : Ctl) (t r b f : Nat) (d : Option Duty) : Ctl :=
  let fix : Tab Duty → Tab Duty := fun l => match d with | some d => tabSet l b d | none => tabErase l b
  { c with cycles := tabSet c.cycles (t * 32 + r) ((tabGet [] c.cycles (t * 32 + r)).map
      (fun (e : Nat × Tab Duty) => if 0 ≤ frameDiff e.1 f then (e.1, fix e.2) else e)) }

/-- The counter comparison of R128. Where duty frames were lost the block's current duty is sent again: a newer one that waits
in its slot, else the last sent, under R134. Of several SET_DUTY frames to a block of which some were lost, the last are taken as the
lost ones (DESIGN CHOICE, assumption 88). -/
def Ctl.counterCheck (c : Ctl) (t r b count : Nat) : Ctl :=
  let g := c.rng t r
  let diff := (c.get t RING_BLK_EXP_COUNTER r b + 256 - count % 256) % 256
  let wait := tabGet [] g.dutyWait b
  let lost := if diff ≤ wait.length then diff else 0
  let got := (wait.take (wait.length - lost)).getLast?
  let from_ := ((wait.drop (wait.length - lost)).headD (0, c.get t SMP_FRAME_NUM_FRAME, {})).2.1
  let g' := { g with
    dutyWait := tabErase g.dutyWait b
    dutyHeld := match got with | some e => tabSet g.dutyHeld b e.2.2 | none => g.dutyHeld
    refreshed := match got with | some e => tabSet g.refreshed b e.1 | none => g.refreshed }
  if diff = 0 then c.setRng t r g'
  else if diff ≤ wait.length then
    let c := c.setRng t r g'
    let c := match tabFind g.slots b, tabFind g.duty b with
      | none, some d => c.dutySlot t r b d
      | _, _ => c
    let c := c.cycleHeld t r b from_ (tabFind g'.dutyHeld b)
    (c.put t RING_BLK_EXP_COUNTER count r b).put t RING_ERR_TIMEOUT (satAdd 8 (c.get t RING_ERR_TIMEOUT r) diff) r
  else
    let c := c.setRng t r { g' with mismatch := b :: g.mismatch.filter (fun n => n != b) }
    ((c.put t RING_BLK_EXP_COUNTER count r b).inc t RING_ERR_CNT r).ringEvent t r b 0x1015

/-- A record shows WDOG_STOP: without a SET_DUTY that arrived since, the block holds no command (R229, R239). -/
def Ctl.wdogSeen (c : Ctl) (t r b : Nat) (old : Rng) : Ctl :=
  let g := c.rng t r
  let c := c.setRng t r { g with stopFrom := match tabFind old.refreshed b with
    | some f => tabSet g.stopFrom b f | none => tabErase g.stopFrom b }
  if tabFind g.refreshed b = tabFind old.refreshed b then
    let g := c.rng t r
    (c.setRng t r { g with dutyHeld := tabErase g.dutyHeld b
                           duty := if (tabFind g.slots b).isSome then g.duty else tabErase g.duty b }).cycleHeld t r b (c.get t SMP_FRAME_NUM_FRAME) none
  else c

/-- Whether the bytes of a response element carry the right CRC (R121). -/
def elementOk (l : List Byte) : Bool :=
  decide (8 ≤ l.length) && crc16 (l.take (l.length - 2)) == beNat (l.drop (l.length - 2))

/-- RING_TX_RESPONSE: a response element to the CMD frame of a SEQ (R123, R128, R132). -/
def execRingTxResponse (t : TileId) (r : RingId) (seq : Byte) (el : List Byte) (s : State) :
    Host.Outcome State Fault Refusal :=
  s.onTileM t (fun m c =>
    match (c.rng t r).flight.find? (fun y => y.seq == seq.toNat) with
    | none => (m, c)
    | some tx =>
      let g := c.rng t r
      if !elementOk el || beNat (el.take 2) / 128 != tx.addr || beNat ((el.drop 3).take 1) != seq.toNat then
        (m, (c.setRng t r { g with flight := g.flight.map (fun y => if y.seq = tx.seq then { y with corrupt := true } else y) }).inc
          t RING_ERR_CRC r)
      else
        let count := beNat ((el.drop 2).take 1)
        let rcode := beNat ((el.drop 4).take 1)
        let data := (el.drop 6).take (beNat ((el.drop 5).take 1))
        let c := if rcode = eOk then c else c.put t RING_BLK_EXP_COUNTER (c.get t RING_BLK_EXP_COUNTER r tx.addr + 255) r tx.addr
        txOutcome (m, c.counterCheck t r tx.addr count) t r tx rcode count data)

/-- RING_TX_RETRY_TIMEOUT: no correct response for 1 ms: sent again with the same SEQ up to RETRIES times, as soon as a CMD
frame may be launched, then E_TIMEOUT or, where a corrupt response came, E_INTEGRITY (R129, R132). -/
def execRingTxRetryTimeout (t : TileId) (r : RingId) (seq : Byte) (s : State) : Host.Outcome State Fault Refusal :=
  s.onTileM t (fun m c =>
    match (c.rng t r).flight.find? (fun y => y.seq == seq.toNat) with
    | none => (m, c)
    | some tx =>
      let g := c.rng t r
      if tx.again then (m, c)
      else if tx.tries < c.get t RING_CTRL_RETRIES r then
        (m, c.setRng t r { g with flight := g.flight.map (fun y =>
          if y.seq = tx.seq then { y with tries := y.tries + 1, again := !c.launchable t r tx } else y) })
      else txOutcome (m, c) t r tx (if tx.corrupt then eIntegrity else eTimeout) 0 [])

/-! ## ASSIGN at the far end, breaks, rejoin (R137, R149 to R151, R529) -/

/-- ASSIGN reaches the far end with COUNT and ACC: step 3 of enumeration, or the end of a rejoin pass or of the MEASURE_ONLY
pass of a hand-over or hand-back, which gives the loop delay anew (R137, R151, R453, R455). -/
def execAssignAtTail (t : TileId) (r : RingId) (count : Fin 513) (acc : BitVec 24) (s : State) :
    Host.Outcome State Fault Refusal :=
  s.onTileM t (fun m c =>
    let g := c.rng t r
    if c.rstate t r = rgEnum ∧ g.step = 2 then
      enumCounted (m, c.put t RING_LOOP_NS acc.toNat r) t r count none
    else if c.rstate t r = rgSplit ∧ g.rejoining then
      if count.val = c.get t RING_STATUS_COUNT r then
        let k := c.get t RING_STATUS_SPLIT_AT r
        let pos := (List.range (count.val - k)).map (fun i => ({ addr := k + i, cmd := 0x08, req := leBytes 4 0 } : Tx))
        let c := c.put t RING_LOOP_NS acc.toNat r
        (m, c.setRng t r { g with rejoining := false, toRun := true, splitAt := none
                                  ctl := g.ctl ++ [{ addr := k - 1, cmd := 0x08, req := leBytes 4 0 }] ++ pos })
      else (m, c.setRng t r { g with rejoining := false })
    else if c.rstate t r = rgRun ∧ g.measuring then
      let c := c.setRng t r { g with measuring := false }
      (m, if count.val = c.get t RING_STATUS_COUNT r then c.put t RING_LOOP_NS acc.toNat r else c)
    else (m, c))

/-- No ASSIGN at the tail within 5 ms: a break exists (R137, R150). -/
def execAssignTimeout (t : TileId) (r : RingId) (s : State) : Host.Outcome State Fault Refusal :=
  s.onTile t (fun c =>
    let g := c.rng t r
    if c.rstate t r = rgEnum ∧ g.step = 2 then c.setRng t r { g with suspect := true }
    else c.setRng t r { g with rejoining := false, measuring := false })

/-- An enumeration step exceeds its bound (R149). -/
def execEnumStepTimeout (t : TileId) (r : RingId) (s : State) : Host.Outcome State Fault Refusal :=
  s.onTileM t (fun m c => if c.rstate t r = rgEnum ∧ (c.rng t r).step < 8 then ringFault (m, c) t r 4 0 else (m, c))

/-- SET_POS with the segment-end bit to blocks k − 1 and k and the direction bit to blocks k to n − 1 (R150). -/
def posFrames (k n : Nat) : List Tx :=
  (if 1 ≤ k then [({ addr := k - 1, cmd := 0x08, req := [0x00, 0x02, 0, 0] } : Tx)] else [])
  ++ (List.range (n - k)).map (fun i =>
    { addr := k + i, cmd := 0x08, req := [0x00, if i = 0 then 0x03 else 0x01, 0, 0] })

/-- BREAK_LOCATED: the break that is suspected lies before block `k`; `n` is the count of both segments where enumeration
counts them; with two or more breaks, or a second one in SPLIT, the ring enters FAULT (R149, R150). -/
def execBreakLocated (t : TileId) (r : RingId) (k n : Fin 513) (twoBreaks : Bool) (s : State) :
    Host.Outcome State Fault Refusal :=
  s.onTileM t (fun m c =>
    let g := c.rng t r
    let st := c.rstate t r
    if st = rgEnum ∧ g.step = 2 ∧ g.suspect then
      if twoBreaks then ringFault (m, c) t r 2 k
      else
        let x := enumCounted (m, c.setRng t r { g with suspect := false }) t r n (some k.val)
        x.on (fun c => if c.rstate t r = rgEnum then c.queue t r (posFrames k n) else c)
    else if st = rgSplit then ringFault (m, c) t r 2 k
    else if st = rgRun ∧ g.suspect then
      if twoBreaks then ringFault (m, c) t r 2 k
      else
        (m, c.setRng t r { g with
          suspect := false, splitAt := some k.val, ctl := g.ctl ++ posFrames k (c.get t RING_STATUS_COUNT r) })
    else (m, c))

/-- CARRIED_BREAK_LOCATE: on a carried ring whose break is suspected the lowest address that answers from the tail is `k`; its
SET_POS keeps the direction the hand-over gave it (R453, R529). -/
def execCarriedBreakLocate (t : TileId) (r : RingId) (k : Fin 513) (s : State) : Host.Outcome State Fault Refusal :=
  s.onTileM t (fun m c =>
    let g := c.rng t r
    if c.tileState t ≠ tsCarried ∨ c.get t RING_CTRL_MODE r ≠ 2 then (m, c)
    else if c.rstate t r = rgSplit then ringFault (m, c) t r 2 k
    else if c.rstate t r = rgRun ∧ g.suspect then
      (m, c.setRng t r { g with suspect := false, splitAt := some k.val
                                ctl := g.ctl ++ [{ addr := k.val, cmd := 0x08, req := [0x00, 0x03, 0, 0] }] })
    else (m, c))

/-- REJOIN_ATTEMPT: the facing links of the two segments have held lock for 1 s; a MEASURE_ONLY pass around the whole loop
(R151, R529). -/
def execRejoinAttempt (t : TileId) (r : RingId) (s : State) : Host.Outcome State Fault Refusal :=
  s.onTile t (fun c =>
    if c.rstate t r = rgSplit ∧ c.flag t RING_CTRL_AUTO_REJOIN r ∧ c.tileState t ≠ tsCarried
        ∧ c.facingLocked t r (c.get t RING_STATUS_SPLIT_AT r) then
      c.setRng t r { c.rng t r with rejoining := true }
    else c)

/-- MISSING_COUNT_REENUM: a block missing for 3 consecutive frames while every link stays locked, AUTO_ENUM = 1 (R149). -/
def execMissingCountReenum (t : TileId) (r : RingId) (s : State) : Host.Outcome State Fault Refusal :=
  s.onTileM t (fun m c =>
    if c.ringUp t r && c.flag t RING_CTRL_AUTO_ENUM r && c.linksLocked t r
        && (c.rng t r).missRun.any (fun e => decide (3 ≤ e.2)) then enumStart (m, c) t r
    else (m, c))

/-! ## Duty slots and QUIET (R134, R232) -/

/-- The first cycle a SET_DUTY launched in frame `f` reaches: cycle `f` until the frame's COLLECT leaves, 5 µs after that
cycle begins, then the next (R131, R228). -/
def Rng.cycleFrom (g : Rng) (f : Nat) : Nat := if g.collecting || g.swept then (f + 1) % 2 ^ 32 else f

/-- SET_DUTY on the ring: the duty of its blocks as sent, waiting for their next responses (R128). -/
def Rng.dutySent (g : Rng) (f : Nat) (l : List Nat) (d : Duty) : Rng :=
  { g with duty := l.foldl (fun (l : Tab Duty) b => tabSet l b d) g.duty
           dutyWait := l.foldl (fun (l : Tab (List (Nat × Nat × Duty))) b =>
             tabSet l b (tabGet [] l b ++ [(f, g.cycleFrom f, d)])) g.dutyWait }

/-- The duty of a block in the cycle of frame `f`, which a SET_DUTY of that frame reached (R228, R239). -/
def Ctl.cycleSent (c : Ctl) (t r b f : Nat) (d : Duty) : Ctl :=
  let l := tabGet [] c.cycles (t * 32 + r)
  let l := if l.any (fun e => e.1 == f) then l.map (fun e => if e.1 = f then (e.1, tabSet e.2 b d) else e)
    else l ++ [(f, [(b, d)])]
  { c with cycles := tabSet c.cycles (t * 32 + r) l }

/-- DUTY_SLOT_SEND: the filled slot of the lowest block that may be sent goes out as SET_DUTY; before the frame's COLLECT it
still reaches the cycle of the frame (R127, R134, R228). -/
def execDutySlotSend (t : TileId) (r : RingId) (s : State) : Host.Outcome State Fault Refusal :=
  s.onTile t (fun c =>
    let g := c.rng t r
    match if c.ringUp t r then c.dutyReady t r else none with
    | none => c
    | some (b, d) =>
      let f := c.get t SMP_FRAME_NUM_FRAME
      let c := c.setRng t r (Rng.dutySent
        { g with slots := tabErase g.slots b, held := g.held.filter (fun n => n != b) } f [b] d)
      let c := if g.cycleFrom f = f then c.cycleSent t r b f d else c
      c.launch t r { addr := b, cmd := 0x10, post := true
                     req := beBytes 2 d.map ++ leBytes 1 d.duty ++ leBytes 1 (b2n d.alt) })

/-- QUIET_LAUNCH: the quiet window opens; QUIET goes out to every block unless it is 0 (R134, R232). -/
def execQuietLaunch (t : TileId) (r : RingId) (s : State) : Host.Outcome State Fault Refusal :=
  s.onTile t (fun c =>
    if !c.ringUp t r || c.get t BAL_CFG_QUIET == 0 then c
    else (c.setRng t r { c.rng t r with quiet := true }).launch t r { addr := 0x3FF, cmd := 0x11, post := true })

/-! ## The fault tone (R135, R136, R155) -/

/-- The tone verdict of a receiver (R135). -/
def Ctl.toneAt (c : Ctl) (t r : Nat) (tail lost : Bool) : Ctl :=
  let g := c.rng t r
  (c.setRng t r (if tail then { g with toneLostTail := lost } else { g with toneLostHead := lost })).toneBit t r |>.judge t

/-! ## Ring commands (R154) -/

/-- Whether a tile serves its partner's section or takes part in a hand-over or hand-back. -/
def Ctl.carryBusy (c : Ctl) (t : Nat) : Bool :=
  c.hasCarry && (c.carry t == csServing || c.carry t == csHandover || c.carry t == csHandback)

/-- Whether an image activation runs. -/
def Ctl.activating (c : Ctl) : Bool := c.img.stage == .activating || c.img.stage == .fallback

/-- The checks of an enumeration request on the rings of a mask (R154). -/
def Ctl.enumerateCode (c : Ctl) (t mask : Nat) : Nat :=
  firstErr [(anyN 32 (fun r => bit mask r && c.rstate t r == rgOff), eState),
    (anyN 32 (fun r => bit mask r && c.rstate t r == rgEnum), eBusy), (c.carryBusy t, eBusy), (c.activating, eBusy)]

/-- Enumeration started on the rings of a mask. -/
def enumerateRings (x : MC) (t mask : Nat) : MC :=
  forN 32 (fun r (x : MC) => if bit mask r then enumStart x t r else x) x

/-- RING_ENUMERATE. -/
def execRingEnumerate (d : Datagram) (s : State) : Host.Outcome State Fault Refusal :=
  s.cmd 0x1001 d (fun r m c => guarded r engRoles 5 m c (
    let t := r.arg 0 1
    let e := if !c.running t then eAbsent else c.enumerateCode t (r.arg 1 4)
    if e ≠ eOk then .err m c e
    else
      let x := enumerateRings (m, c) t (r.arg 1 4)
      { mem := x.1, ctl := x.2 }))

/-- Whether any active string map entry of a ring is valid. -/
def Ctl.mapValid (c : Ctl) (t r : Nat) : Bool := anyN 32 (fun i => c.flag t RING_SMAP_ACT_VALID r i)

/-- RING_MODE: MODE, POLICY, AUTO_ENUM, AUTO_REJOIN and RETRIES, one byte each (R154, R366). -/
def execRingMode (d : Datagram) (s : State) : Host.Outcome State Fault Refusal :=
  s.cmd 0x1002 d (fun q m c => guarded q engRoles 7 m c (
    let t := q.arg 0 1
    let r := q.arg 1 1
    let mode := q.arg 2 1
    let e := firstErr [(c.ringAbsent t r, eAbsent),
      (decide (1 < mode) || decide (1 < q.arg 3 1) || decide (1 < q.arg 4 1) || decide (1 < q.arg 5 1)
        || decide (3 < q.arg 6 1), eRange),
      (mode == 0 && c.mapValid t r, eConflict), (c.rstate t r == rgEnum, eBusy)]
    if e ≠ eOk then .err m c e
    else
      let c := c.put t RING_CTRL_POLICY (q.arg 3 1) r |>.put t RING_CTRL_AUTO_ENUM (q.arg 4 1) r
        |>.put t RING_CTRL_AUTO_REJOIN (q.arg 5 1) r |>.put t RING_CTRL_RETRIES (q.arg 6 1) r
      let x := ringMode (m, c) t r mode
      { mem := x.1, ctl := x.2 }))

/-- A write of RING_CTRL: MODE 3 is refused, REVERSE is System's alone, ENUM acts as `ring.enumerate` (R155). A write that
repeats the MODE in force is no write of REVERSE, and ENUM beside MODE 0 does nothing: the ring goes OFF (DESIGN CHOICE,
assumption 96). -/
def ringCtrlWrite (m : Mem) (c : Ctl) (o : Origin) (t r w : Nat) : MC × Nat :=
  let mode := w % 4
  if !c.mayConfig o || (mode == 2 && !c.isSystem o && c.get t RING_CTRL_MODE r != 2) then
    ((m, c.violate o (modAddr t (0x200030100 + r * 0x40)) true), eOk)
  else
    let e := firstErr [(bit w 2 && !c.running t, eAbsent), (mode == 3, eRange),
      (bit w 2 && c.enumerateCode t (2 ^ r) != eOk, c.enumerateCode t (2 ^ r))]
    if e ≠ eOk then ((m, c), e)
    else
      let c := c.put t RING_CTRL_AUTO_REJOIN (bitsOf w 11 1) r |>.put t RING_CTRL_AUTO_ENUM (bitsOf w 10 1) r
        |>.put t RING_CTRL_RETRIES (bitsOf w 8 2) r |>.put t RING_CTRL_POLICY (bitsOf w 7 1) r
      let x := if c.get t RING_CTRL_MODE r = mode then (m, c) else ringMode (m, c) t r mode
      (if bit w 2 ∧ mode ≠ 0 then enumStart x t r else x, eOk)

/-- RING_CTRL_ENUM: a write of RING_CTRL that sets ENUM and leaves the rest as it stands (R155). -/
def execRingCtrlEnum (t : TileId) (o : Origin) (r : RingId) (s : State) : Host.Outcome State Fault Refusal :=
  s.onAccessM o (fun m c => accessM m c o t 0x03 (fun m c => ringCtrlWrite m c o t r
    (c.get t RING_CTRL_AUTO_REJOIN r * 2048 + c.get t RING_CTRL_AUTO_ENUM r * 1024 + c.get t RING_CTRL_RETRIES r * 256
      + c.get t RING_CTRL_POLICY r * 128 + 4 + c.get t RING_CTRL_MODE r)))

/-- The checks shared by the operations of `ring.inventory`: first block, count 1 to 128 (R154). -/
def Ctl.inventoryCode (c : Ctl) (q : Req) : Nat :=
  let t := q.arg 0 1
  let r := q.arg 1 1
  let op := q.arg 2 1
  let n := q.arg 5 1
  firstErr [(q.args.length != 6 + (if op = 0 then 8 * n else 0), eFormat), (c.ringAbsent t r, eAbsent),
    (decide (2 < op) || n == 0 || decide (128 < n) || decide (512 < q.arg 3 2 + n), eRange),
    (op == 1 && !(c.rng t r).everEnum, eState), (c.rstate t r == rgEnum, eBusy)]

/-- `ring.inventory`: 0 WRITE stores the identities, 1 ADOPT copies those found at the last enumeration, 2 CLEAR zeroes
the entries (R154). -/
def ringInventory (q : Req) (m : Mem) (c : Ctl) : Eff :=
  if !engRoles.contains q.role then .deny m c q.origin 0 true
  else
    let e := c.inventoryCode q
    if e ≠ eOk then .err m c e
    else
      let key := blkKey (q.arg 0 1) (q.arg 1 1) (q.arg 3 2)
      let f : Nat → Ctl → Ctl := fun i c =>
        let v := match q.arg 2 1 with | 0 => q.arg (6 + 8 * i) 8 | 1 => tabGet 0 c.found (key + i) | _ => 0
        { c with inventory := if v = 0 then tabErase c.inventory (key + i) else tabSet c.inventory (key + i) v }
      { mem := m, ctl := forN (q.arg 5 1) f c }

/-- RING_INVENTORY_WRITE: `ring.inventory` with operation 0. -/
def execRingInventoryWrite (d : Datagram) (s : State) : Host.Outcome State Fault Refusal := s.cmd 0x1003 d ringInventory
/-- RING_INVENTORY_ADOPT: `ring.inventory` with operation 1. -/
def execRingInventoryAdopt (d : Datagram) (s : State) : Host.Outcome State Fault Refusal := s.cmd 0x1003 d ringInventory
/-- RING_INVENTORY_CLEAR: `ring.inventory` with operation 2. -/
def execRingInventoryClear (d : Datagram) (s : State) : Host.Outcome State Fault Refusal := s.cmd 0x1003 d ringInventory

/-- RING_TRUST: quarantine of a block ends until the next enumeration; its identity goes into the inventory under STALE
only (R143, R154). -/
def execRingTrust (d : Datagram) (s : State) : Host.Outcome State Fault Refusal :=
  s.cmd 0x1004 d (fun q m c => guarded q engRoles 4 m c (
    let t := q.arg 0 1
    let r := q.arg 1 1
    let b := q.arg 2 2
    let e := firstErr [(c.ringAbsent t r || decide (512 ≤ b) || !c.present? t r b, eAbsent),
      (!c.flag t RING_BLK_QUAR r b, eState)]
    if e ≠ eOk then .err m c e
    else
      let key := blkKey t r b
      let c := { c with identity := tabErase c.identity key
                        inventory := if (c.rng t r).policy then tabSet c.inventory key (tabGet 0 c.found key)
                          else c.inventory }
      { mem := m, ctl := (c.put t RING_BLK_QUAR 0 r b).ringEvent t r b 0x1016 }))

/-! ## RPOST and RWAIT (R101, R103, R104) -/

/-- The tile whose section a target word names: this tile's, or its partner's while it serves it (R101). -/
def Ctl.targetTile (c : Ctl) (t w : Nat) : Option Nat :=
  if bit w 14 then (if c.serves t then some (partner t) else none) else some t

/-- Codes any task may post; the other assigned codes are the ring controller's (R127). -/
def postable (cmd : Nat) : Bool := cmd == 0x01 || cmd == 0x04 || cmd == 0x0B || cmd == 0x0C || (reqLen cmd).isNone

/-- The checks of RPOST on the descriptor bytes, in the order of R46 (R104). A transaction leaves the queue of 8 when it is
launched (DESIGN CHOICE, assumption 84). Bit 15 of TARGET is ignored, and RSP_CAP may be below the length of the response
(DESIGN CHOICE, assumption 94). -/
def Ctl.rpostCode (c : Ctl) (t : Nat) (p : Nat) (d : List Byte) : Nat :=
  let target := leNat (d.take 2)
  let cmd := leNat ((d.drop 2).take 1)
  let n := leNat ((d.drop 4).take 1)
  let cap := leNat ((d.drop 5).take 1)
  let req := leNat ((d.drop 8).take 4)
  let rsp := leNat ((d.drop 12).take 4)
  let r := target / 512 % 32
  let b := target % 512
  let ok := match c.targetTile t target with | some g => c.present? g r b | none => false
  let full := match c.targetTile t target with | some g => decide (8 ≤ (c.rng g r).posted.length) | none => false
  firstErr [(!localOk p 16 16 || decide (0x40000 < req + n) || !localOk rsp cap 4
      || (match reqLen cmd with | some k => n != k | none => false), eFormat),
    (!ok, eAbsent), (decide (48 < n) || decide (64 < cap), eRange), (!postable cmd, eLocked), (full, eBusy)]

/-- RPOST: the request is copied and queued, STATUS becomes 0xFF (R104); on a ring outside ENUM, RUN and SPLIT, where the block
cannot be reached, the transaction completes at once with E_ABSENT (R132). -/
def execRpost (t : TileId) (k : CoreId) (d a : Fin 32) (s : State) : Host.Outcome State Fault Refusal :=
  s.onTileM t (fun m c =>
    let i := (c.runningTask t k).getD 0
    let p := ((c.task t i).reg a).toNat
    let ds := memBytes m (localAddr t k p) 16
    let e := if localOk p 16 16 then c.rpostCode t p ds else eFormat
    let g := (c.targetTile t (leNat (ds.take 2))).getD 0
    let r := leNat (ds.take 2) / 512 % 32
    let tx : Tx := { addr := leNat (ds.take 2) % 512, cmd := leNat ((ds.drop 2).take 1)
                     req := memBytes m (localAddr t k (leNat ((ds.drop 8).take 4))) (leNat ((ds.drop 4).take 1))
                     desc := some (t.val, k.val, p), rsp := leNat ((ds.drop 12).take 4)
                     cap := leNat ((ds.drop 5).take 1) }
    let w := wordD d a 0x02 0x00
    let c' := c.instr t k w false (fun i c =>
      if e = eOk then
        let q := c.rng g r
        (c.setRng g r { q with posted := q.posted ++ [tx] }).retireCode t i d eOk
      else c.retireCode t i d e)
    let posted := e == eOk && (c'.rng g r).posted != (c.rng g r).posted
    let x : MC := (if posted then memWrite m (localAddr t k (p + 3)) 0xFF else m, c')
    if posted && c.rstate g r != rgEnum && !c.ringUp g r then
      completeTx (x.on (fun c' => c'.setRng g r { c'.rng g r with posted := (c.rng g r).posted })) tx eAbsent 0 []
    else x)

/-- RWAIT: STATUS at once when the descriptor is not pending, else when it completes (R104). -/
def execRwait (t : TileId) (k : CoreId) (d a : Fin 32) (s : State) : Host.Outcome State Fault Refusal :=
  s.onTileR t (fun m c => c.instr t k (wordD d a 0x02 0x01) false (fun i c =>
    let p := ((c.task t i).reg a).toNat
    if !localOk p 16 16 then c.retireCode t i d eFormat
    else
      let st := (memRead m (localAddr t k (p + 3))).toNat
      if st = 0xFF then c.blockOn t i d (.ring p) 2 else c.retireCode t i d st))

end Sys2Proof.Machine
end

