-- ==== Sys2Proof/Machine/Limits.lean ====
section
/-! DEFINITION. Machine/Limits.lean: block records and the limit checker: checks, filters, trip lines, commits of limit
sets and ring selections (R172 to R175, R183, R527). -/
namespace Sys2Proof.Machine

/-! ## Block records (R125, R161) -/

/-- A block record as the limit checker sees it; the frame charge is signed, in mC (R125). -/
structure Rec where
  missing : Bool := false
  status : Nat := 0
  counter : Nat := 0
  quality : Nat := 0
  volts : List Nat := List.replicate 16 0
  temps : List Int := List.replicate 6 0
  stack : Nat := 0
  shunt : Int := 0
  die : Int := 0
  charge : Int := 0
  bleed : Nat := 0
  crc : Nat := 0
  offset : Nat := 0
  head : Bool := false

/-- The 64 bytes of a record, little-endian (R125). -/
def Rec.bytes (x : Rec) : List Byte :=
  leBytes 2 x.status ++ leBytes 1 x.counter ++ leBytes 1 x.quality ++ (x.volts.map (fun v => leBytes 2 v)).flatten
  ++ (x.temps.map (fun v => leBytes 2 (ofSigned 16 v))).flatten ++ leBytes 2 x.stack ++ leBytes 2 (ofSigned 16 x.shunt)
  ++ leBytes 2 (ofSigned 16 x.die) ++ leBytes 4 (ofSigned 32 x.charge) ++ leBytes 2 x.bleed ++ leBytes 2 x.crc
  ++ leBytes 2 x.offset

/-- Σ V − 20 × stack in 100 µV (R168, R527). -/
def Rec.sumError (x : Rec) : Int := ((x.volts.sum : Nat) : Int) - ((20 * x.stack : Nat) : Int)

/-! ## Filters (R172 to R174) -/

/-- The number of a filter: position, limit, endpoint (63 for the whole block) and form (R527). A cell derived from the stack
keeps the cell's own filter, whose form is 0 (R171; assumption 44). -/
def limKey (t r b lim ep form : Nat) : Nat := (blkKey t r b * 8 + lim) * 512 + ep * 8 + form

/-- The ring, tile × 32 + ring, of a filter. -/
def limRing (k : Nat) : Nat := k / 512 / 8 / 512
/-- The limit of a filter. -/
def limOf (k : Nat) : Nat := k / 512 % 8
/-- The endpoint of a filter as events give it. -/
def limEp (k : Nat) : Nat := if k / 8 % 64 = 63 then 0xFF else k / 8 % 64

/-- LIMIT_RING_SEL of a ring as in force. -/
def Ctl.sel (c : Ctl) (t r : Nat) : Nat := tabGet 0x3F0000 c.selAct (t * 32 + r)
/-- The limit set of a ring. -/
def Ctl.setOf (c : Ctl) (t r : Nat) : Nat := c.sel t r % 8
/-- Whether a temperature channel of a ring is checked. -/
def Ctl.tempOn (c : Ctl) (t r j : Nat) : Bool := bit (c.sel t r) (16 + j)

/-- The filter count of a limit of a set. -/
def Ctl.filterOf (c : Ctl) (t s lim : Nat) : Nat :=
  match lim with
  | 0 => c.get t LIMIT_SET_ACT_F_OV s
  | 1 => c.get t LIMIT_SET_ACT_F_UV s
  | 2 | 3 => c.get t LIMIT_SET_ACT_F_T s
  | 4 => c.get t LIMIT_SET_ACT_F_OC s
  | 5 => c.get t LIMIT_SET_ACT_F_SUM s
  | _ => c.get t LIMIT_SET_ACT_F_MISS s

/-- FORM of a filter's events: a cell that is derived from the stack has the form 2 (R171, R527). -/
def Ctl.limForm (c : Ctl) (k : Nat) : Nat :=
  let conf := (tabGet ({} : Ow) c.ow (k / 512 / 8)).confirmed
  if limOf k < 2 ∧ k % 8 = 0 ∧ ((limEp k = 0 ∧ conf = [0]) ∨ (limEp k = 15 ∧ conf = [16])) then 2 else k % 8

/-- The trip or clear event of a filter (R174, R527). -/
def Ctl.limEvent (c : Ctl) (t k : Nat) (trip : Bool) (value : Int) : Ctl :=
  let code := if !trip then 0x1031 else if limOf k = 6 then 0x1032 else 0x1030
  c.event (c.recorderOf t) 0x05 code (k / 512 / 8 * 16)
    (leBytes 1 (limOf k) ++ leBytes 1 (limEp k) ++ leBytes 1 (c.limForm k) ++ leBytes 4 (ofSigned 32 value))

/-- One sample of one endpoint for one limit: `cond` trips it, `hold` keeps it tripped; a limit whose EN bit is clear
never trips (R173, R183). -/
def Ctl.judgeLim (c : Ctl) (t r b lim ep form : Nat) (cond hold : Bool) (value : Int) : Ctl :=
  let s := c.setOf t r
  if !bit (c.get t LIMIT_SET_ACT_EN s) lim then c
  else
    let k := limKey t r b lim ep form
    let x := tabGet {} c.lims k
    let toward := if x.trip then !hold else cond
    let put : Lim → Ctl := fun y => { c with lims := tabSet c.lims k y }
    if !toward then (if x.run = 0 then c else put { x with run := 0 })
    else if x.run + 1 < c.filterOf t s lim then put { x with run := x.run + 1 }
    else Ctl.limEvent (put { trip := !x.trip, run := 0 }) t k (!x.trip) value

/-- A voltage quantity of `n` cells against `n` times OV and UV (R171, R172). -/
def Ctl.judgeVolt (c : Ctl) (t r b ep form n : Nat) (v : Int) : Ctl :=
  let s := c.setOf t r
  let ov : Int := (n * c.get t LIMIT_SET_ACT_OV s : Nat)
  let uv : Int := (n * c.get t LIMIT_SET_ACT_UV s : Nat)
  let h : Int := (n * c.get t LIMIT_SET_ACT_HYST_V s : Nat)
  (c.judgeLim t r b 0 ep form (decide (ov ≤ v)) (decide (ov - h ≤ v)) v).judgeLim t r b 1 ep form
    (decide (v ≤ uv)) (decide (v ≤ uv + h)) v

/-- The voltage checks of a record, with the replacements of R171. A filter whose form is no longer judged stands as it was
left, and a trip of it keeps its line (DESIGN CHOICE, assumption 97). -/
def Ctl.judgeVolts (c : Ctl) (t r b : Nat) (x : Rec) : Ctl :=
  let conf := (c.owOf t r b).confirmed
  let cell : Nat → Int := fun n => ((x.volts.getD n 0 : Nat) : Int)
  let derived : Nat → Int := fun n => ((20 * x.stack : Nat) : Int) - (((x.volts.sum : Nat) : Int) - cell n)
  let one : Nat → Ctl → Ctl := fun n c => c.judgeVolt t r b n 0 1 (cell n)
  match conf with
  | [] => forN 16 one c
  | [w] =>
    let c := forN 16 (fun n (c : Ctl) => if n = w ∨ n + 1 = w then c else one n c) c
    if w = 0 then c.judgeVolt t r b 0 0 1 (derived 0)
    else if w = 16 then c.judgeVolt t r b 15 0 1 (derived 15)
    else c.judgeVolt t r b (w - 1) 1 2 (cell (w - 1) + cell w)
  | _ => c.judgeVolt t r b 63 3 16 ((20 * x.stack : Nat) : Int)

/-- The temperature checks of a record. -/
def Ctl.judgeTemps (c : Ctl) (t r b : Nat) (x : Rec) : Ctl :=
  let s := c.setOf t r
  let ot := c.getInt t LIMIT_SET_ACT_OT s
  let ut := c.getInt t LIMIT_SET_ACT_UT s
  let h : Int := (c.get t LIMIT_SET_ACT_HYST_T s : Nat)
  forN 6 (fun j (c : Ctl) =>
    if c.tempOn t r j then
      let v := x.temps.getD j 0
      (c.judgeLim t r b 2 (32 + j) 0 (decide (ot ≤ v)) (decide (ot - h ≤ v)) v).judgeLim t r b 3 (32 + j) 0
        (decide (v ≤ ut)) (decide (v ≤ ut + h)) v
    else c) c

/-- The current check of a head block's record. -/
def Ctl.judgeCurrent (c : Ctl) (t r b : Nat) (x : Rec) : Ctl :=
  let s := c.setOf t r
  let chg : Int := (c.get t LIMIT_SET_ACT_OC_CHG s : Nat)
  let dis : Int := (c.get t LIMIT_SET_ACT_OC_DIS s : Nat)
  let h : Int := (c.get t LIMIT_SET_ACT_HYST_I s : Nat)
  if x.head then
    c.judgeLim t r b 4 39 0 (decide (chg ≤ x.shunt) || decide (dis ≤ -x.shunt))
      (decide (chg - h ≤ x.shunt) || decide (dis - h ≤ -x.shunt)) x.shunt
  else c

/-- The sum check of a FRESH record (R168). -/
def Ctl.judgeSum (c : Ctl) (t r b : Nat) (x : Rec) : Ctl :=
  let s := c.setOf t r
  let e := x.sumError
  let tol := 20 * c.get t LIMIT_SET_ACT_SUM_TOL s
  let h := 20 * c.get t LIMIT_SET_ACT_HYST_SUM s
  c.judgeLim t r b 5 63 4 (decide (tol < e.natAbs)) (decide ((tol : Int) - h < e.natAbs)) e

/-- The trip registers of a tile as its filters stand: the lines count enabled limits, the fields of a set every endpoint
tripped in the rings that use it (R174, R175, R183). -/
def Ctl.limLines (c : Ctl) (t : Nat) : Ctl :=
  let en : Nat → Nat × Lim → Bool := fun s e => e.2.trip && limRing e.1 / 32 == t && c.setOf t (limRing e.1 % 32) == s
    && bit (c.get t LIMIT_SET_ACT_EN s) (limOf e.1)
  let rings := c.lims.filter (fun e => e.2.trip && limRing e.1 / 32 == t)
  let c := c.put t LIMIT_RING_TRIP_RING (maskN 32 (fun r => rings.any (fun e => limRing e.1 % 32 == r)))
  let c := forN 8 (fun s (c : Ctl) =>
    let l := rings.filter (fun e => c.setOf t (limRing e.1 % 32) == s)
    let eps := (l.map (fun e => (e.1 / 512 / 8, e.1 / 8 % 64))).eraseDups
    c.put t LIMIT_SET_ACT_LIMITS (maskN 7 (fun k => l.any (fun e => limOf e.1 == k))) s
      |>.put t LIMIT_SET_ACT_TRIPPED (if eps.length < 65536 then eps.length else 65535) s) c
  c.put t LIMIT_TRIP_LINE (maskN 8 (fun s => rings.any (en s)))

/-- Whether the verdict on a block's latest record is not OK: an endpoint of it is tripped or counts toward its trip
(DEDUCED, assumption 87). -/
def Ctl.limBad (c : Ctl) (t r b : Nat) : Bool :=
  c.lims.any (fun e => e.1 / 512 / 8 == blkKey t r b && (e.2.trip || e.2.run != 0)
    && bit (c.get t LIMIT_SET_ACT_EN (c.setOf t r)) (limOf e.1))

/-- The limit checker judges a record of an enumerated block: MISS on every record, the others on one that is not MISSING;
the verdicts reach Beryl, one that is not OK raises interrupt source 0x03 (R77, R172, R174). -/
def Ctl.limitCheck (c : Ctl) (t r b : Nat) (x : Rec) : Ctl :=
  let c := c.judgeLim t r b 6 63 4 x.missing x.missing 0
  let c := if x.missing then c
    else
      let c := ((c.judgeVolts t r b x).judgeTemps t r b x).judgeCurrent t r b x
      if bit x.quality 0 then c.judgeSum t r b x else c
  let c := (c.limLines t).judge t
  if c.limBad t r b then c.irq (c.recorderOf t) 0x03 else c

/-! ## Commits (R175) -/

/-- Whether the pending copy of a set fails its checks. -/
def Ctl.limitRange (c : Ctl) (t s : Nat) : Bool :=
  let ov := c.get t LIMIT_SET_PEND_OV s
  let uv := c.get t LIMIT_SET_PEND_UV s
  let ot := c.getInt t LIMIT_SET_PEND_OT s
  let ut := c.getInt t LIMIT_SET_PEND_UT s
  let f := c.rawWord 5 t (0x118 + s * 0x40)
  decide (ov ≤ uv) || decide (ot ≤ ut) || anyN 6 (fun k => bitsOf f (4 * k) 4 == 0)
    || decide (ov - uv ≤ 2 * c.get t LIMIT_SET_PEND_HYST_V s)
    || decide (ot - ut ≤ ((2 * c.get t LIMIT_SET_PEND_HYST_T s : Nat) : Int))
    || decide (c.get t LIMIT_SET_PEND_OC_CHG s + c.get t LIMIT_SET_PEND_OC_DIS s ≤ 2 * c.get t LIMIT_SET_PEND_HYST_I s)
    || decide (c.get t LIMIT_SET_PEND_SUM_TOL s ≤ 2 * c.get t LIMIT_SET_PEND_HYST_SUM s)

/-- A write of LIMIT_COMMIT: the sets of the mask are checked and wait for the next frame instant; one that fails rejects
the write. -/
def Ctl.limitCommit (c : Ctl) (o : Origin) (t w : Nat) : Ctl × Nat :=
  if !c.mayConfig o then (c.violate o (modAddr t 0x200050008) true, eOk)
  else if anyN 8 (fun s => bit w s && c.limitRange t s) then (c, eRange)
  else
    (forN 8 (fun s (c : Ctl) =>
      let l := (List.range 8).map (fun k => c.rawWord 5 t (0x100 + s * 0x40 + 4 * k))
      if bit w s then { c with limCommit := tabSet c.limCommit (t * 8 + s) l } else c) c, eOk)

/-- LIMIT_COMMIT_WRITE. -/
def execLimitCommitWrite (t : TileId) (o : Origin) (w : Word) (s : State) : Host.Outcome State Fault Refusal :=
  s.onAccess o (fun c => c.access o t 0x05 (fun c => c.limitCommit o t w.toNat))

/-- A write of LIMIT_RING_SEL_r, in force from the next frame instant. -/
def Ctl.limitSelWrite (c : Ctl) (o : Origin) (t r w : Nat) : Ctl × Nat :=
  if !c.mayConfig o then (c.violate o (modAddr t (0x200050800 + 4 * r)) true, eOk)
  else ((c.put t LIMIT_RING_SEL_TEMP_MASK (bitsOf w 16 6) r).put t LIMIT_RING_SEL_SET (w % 8) r, eOk)

/-- LIMIT_RING_SEL_WRITE. -/
def execLimitRingSelWrite (t : TileId) (o : Origin) (r : RingId) (w : Word) (s : State) :
    Host.Outcome State Fault Refusal :=
  s.onAccess o (fun c => c.access o t 0x05 (fun c => c.limitSelWrite o t r w.toNat))

/-- A word of a limit set without the fields that do not belong to a limit, for telling whether its values changed: the
limit, its hysteresis and its filter count. -/
def limValues (l : List Nat) (lim : Nat) : List Nat :=
  let w : Nat → Nat := fun k => l.getD k 0
  match lim with
  | 0 => [w 0 % 65536, w 4 % 65536, w 6 % 16, w 7 % 2]
  | 1 => [w 0 / 65536, w 4 % 65536, w 6 / 16 % 16, w 7 / 2 % 2]
  | 2 => [w 1 % 65536, w 4 / 65536, w 6 / 256 % 16, w 7 / 4 % 2]
  | 3 => [w 1 / 65536, w 4 / 65536, w 6 / 256 % 16, w 7 / 8 % 2]
  | 4 => [w 2, w 5 % 65536, w 6 / 4096 % 16, w 7 / 16 % 2]
  | 5 => [w 3 % 65536, w 5 / 65536, w 6 / 65536 % 16, w 7 / 32 % 2]
  | _ => [w 6 / 1048576 % 16, w 7 / 64 % 2]

/-- Tripped filters of a list clear, each with event 0x1031 and no sample (R175, R527). -/
def Ctl.clearLims (c : Ctl) (t : Nat) (l : List (Nat × Lim)) : Ctl :=
  (l.filter (fun e => e.2.trip)).foldl (fun (c : Ctl) e =>
    Ctl.limEvent { c with lims := tabSet c.lims e.1 {} } t e.1 false 0) c

/-- A committed set becomes active as a whole. -/
def Ctl.limitActivate (c : Ctl) (t s : Nat) (new : List Nat) : Ctl :=
  let old := (List.range 8).map (fun k => c.rawWord 5 t (0x500 + s * 0x40 + 4 * k))
  let mine : Nat × Lim → Bool := fun e => limRing e.1 / 32 == t && c.setOf t (limRing e.1 % 32) == s
  let changed : Nat → Bool := fun k => limValues old k != limValues new k
  let off : Nat → Bool := fun k => bit (old.getD 7 0) k && !bit (new.getD 7 0) k
  let restart : Nat × Lim → Nat × Lim := fun e => if mine e && changed (limOf e.1) then (e.1, { e.2 with run := 0 }) else e
  let c := { c with lims := c.lims.map restart }
  let c := c.clearLims t (c.lims.filter (fun e => mine e && off (limOf e.1)))
  let c := (List.range 8).foldl (fun (c : Ctl) k =>
    (fieldsAt 5 t (0x500 + s * 0x40 + 4 * k)).foldl (fun (c : Ctl) f => c.put t f.field (f.of (new.getD k 0)) f.i f.j) c) c
  c.limLines t

/-- A ring selection takes the value of its register. -/
def Ctl.selActivate (c : Ctl) (t r : Nat) : Ctl :=
  let old := c.sel t r
  let new := c.get t LIMIT_RING_SEL_TEMP_MASK r * 65536 + c.get t LIMIT_RING_SEL_SET r
  if old = new then c
  else
    let mine : Nat × Lim → Bool := fun e => limRing e.1 == t * 32 + r
    let temp : Nat × Lim → Bool := fun e => mine e && decide (32 ≤ limEp e.1) && decide (limEp e.1 < 38)
    let gone : Nat × Lim → Bool := fun e => temp e && bit old (16 + (limEp e.1 - 32)) && !bit new (16 + (limEp e.1 - 32))
    let added : Nat × Lim → Bool := fun e => temp e && !bit old (16 + (limEp e.1 - 32)) && bit new (16 + (limEp e.1 - 32))
    let restart : Nat × Lim → Nat × Lim := fun e =>
      if (mine e && old % 8 != new % 8) || added e then (e.1, { e.2 with run := 0 }) else e
    let c := { c with lims := c.lims.map restart }
    let c := c.clearLims t (c.lims.filter gone)
    Ctl.limLines { c with selAct := tabSet c.selAct (t * 32 + r) new } t

/-- What was committed for the frame instant becomes active on a tile. -/
def Ctl.limitsActivate (c : Ctl) (t : Nat) : Ctl :=
  let c := forN 8 (fun s (c : Ctl) =>
    match tabFind c.limCommit (t * 8 + s) with
    | some l => (Ctl.limitActivate { c with limCommit := tabErase c.limCommit (t * 8 + s) } t s l).configCopied t
    | none => c) c
  forN 32 (fun r (c : Ctl) => c.selActivate t r) c

end Sys2Proof.Machine
end

