-- ==== Sys2Proof/Machine/Sampling.lean ====
section
/-! DEFINITION. Machine/Sampling.lean: the sweep of a ring, block records in the sample history, open-wire suspicion,
compensation, burst sampling, the frame-period switch, the tone receivers and SFETCH (R105, R125, R131 to R136, R156 to
R168, R237). -/
namespace Sys2Proof.Machine

/-! ## Small statistics -/

/-- Insertion into an ascending list. -/
def insertAsc (v : Int) : List Int → List Int
  | [] => [v]
  | w :: r => if v ≤ w then v :: w :: r else w :: insertAsc v r

/-- A list in ascending order. -/
def sortAsc (l : List Int) : List Int := l.foldr insertAsc []

/-- The median: the lower of the two middle values for an even number (R178); 0 for none. -/
def median (l : List Int) : Int := (sortAsc l).getD ((l.length - 1) / 2) 0

/-- The median absolute deviation (R178). -/
def mad (l : List Int) : Nat := (median (l.map (fun v => ((v - median l).natAbs : Int)))).toNat

/-! ## Where a record lies (R40, R454) -/

/-- The module address of a block record of frame `n` of tile `t`'s section: the sample history, or the partner's carry
history while the section is carried. -/
def Ctl.recordAddr (c : Ctl) (t n idx : Nat) : Nat :=
  if c.tileState t = tsCarried then modAddr (partner t) (0x0F000000 + n % 16 * 0x100000 + idx * 64)
  else modAddr t (0x10000000 + n % 1200 * 0x100000 + idx * 64)

/-! ## A sample response (R124, R125, R161) -/

/-- Status bits beside the block's own: CNT_MISMATCH, TAIL_SEG and QUARANTINE (R125). -/
def Ctl.recStatus (c : Ctl) (t r b : Nat) : Nat :=
  b2n ((c.rng t r).mismatch.contains b) * 2 ^ 14
  + b2n (c.flag t RING_BLK_TAIL_SEG r b || c.get t RING_CTRL_MODE r == 2) * 2 ^ 13 + b2n (c.flag t RING_BLK_QUAR r b) * 2 ^ 12

/-- Whether a response element comes from the conversion of frame `n`: a block that made no conversion in the frame sends again
the response it kept of an earlier one (R130, R133, R161). -/
def Ctl.freshIn (c : Ctl) (t r b n : Nat) (el : List Byte) : Bool :=
  let x := c.blk t r b
  !(x.kept == el && (x.frame != n || x.sync.isSome))

/-- The quality of a record (R161). -/
def Ctl.qualityOf (c : Ctl) (t r b : Nat) (retried suspect : Bool) (bleed : Nat) (fresh : Bool) : Nat :=
  b2n ((c.owOf t r b).confirmed != []) * 128 + b2n retried * 64 + b2n (c.flag t RING_BLK_QUAR r b) * 32 + b2n suspect * 16
  + b2n (bleed != 0) * 4 + b2n (c.flag t RING_BLK_STALE r b) * 2 + b2n fresh

/-- The measurements of a response element of 54 bytes, or of 60 from a head block. -/
def parseSample (el : List Byte) : Rec :=
  let u : Nat → Nat → Nat := fun p n => beNat ((el.drop p).take n)
  let head := el.length == 60
  { status := u 1 1 % 128
    counter := u 2 1
    volts := (List.range 16).map (fun n => u (3 + 2 * n) 2)
    temps := (List.range 6).map (fun n => toSigned 16 (u (35 + 2 * n) 2))
    stack := u 47 2
    die := toSigned 8 (u 49 1) * 100
    bleed := u 50 2
    shunt := if head then toSigned 16 (u 52 2) else 0
    charge := if head then toSigned 32 (u 54 4) else 0
    crc := u (el.length - 2) 2
    head := head }

/-! ## Open-wire suspicion (R168) -/

/-- The wires on which two frames' voltages show a mirrored step. -/
def mirroredWires (tMirror : Nat) (now before : List Nat) : List Nat :=
  let ch := (List.range 16).map (fun n => ((now.getD n 0 : Nat) : Int) - ((before.getD n 0 : Nat) : Int))
  let m := median ch
  let d : Nat → Int := fun n => ch.getD n 0 - m
  let t : Int := (tMirror * 10 : Nat)
  ((List.range 15).filter (fun n =>
    ((decide (t ≤ d n) && decide (d (n + 1) ≤ -t)) || (decide (d n ≤ -t) && decide (t ≤ d (n + 1))))
      && decide (4 * ((d n + d (n + 1)).natAbs : Int) ≤ t))).map (fun n => n + 1)

/-- What the in-line checks of R168 find in a FRESH record: mirrored wires not yet confirmed, and a failed sum check. -/
def Ctl.owFind (c : Ctl) (t r b n : Nat) (x : Rec) : List Nat × Bool :=
  let conf := (c.owOf t r b).confirmed
  let wires := match tabFind c.raw (blkKey t r b) with
    | some (f, v) => if (f + 1) % 2 ^ 32 = n then mirroredWires (c.get t SMP_OW_CFG_T_MIRROR) x.volts v else []
    | none => []
  (wires.filter (fun w => !conf.contains w),
    decide (20 * c.get t LIMIT_SET_ACT_SUM_TOL (c.setOf t r) < x.sumError.natAbs))

/-! ## Compensation (R237) -/

/-- A quotient rounded to nearest, halves away from zero. -/
def roundAway (x : Int) (d : Nat) : Int :=
  let q : Nat := (2 * x.natAbs + d) / (2 * d)
  if x < 0 then -(q : Int) else q

/-- The voltage of a cell corrected for the drops on its wires: `w` in 0.01 mΩ, `rb` in 0.1 Ω. -/
def compensated (w v : List Nat) (bleed rb n : Nat) : Int :=
  let i : Nat → Int := fun k => if k < 16 ∧ bit bleed k then ((v.getD k 0 : Nat) : Int) else 0
  let below : Int := if n = 0 then 0 else i (n - 1)
  ((v.getD n 0 : Nat) : Int) + roundAway (((w.getD n 0 : Nat) : Int) * (i n - below)
    + ((w.getD (n + 1) 0 : Nat) : Int) * (i n - i (n + 1))) (10000 * rb)

/-- The compensation stage on a record with a non-zero bleed map: it acts only where every wire beside a bleeding cell is
learned and R_BLEED is set; a voltage beyond the field is a free value. -/
def compensate (m : Mem) (c : Ctl) (t r b : Nat) (x : Rec) : Rec × Ctl :=
  let rb := c.get t BAL_RING_CFG_R_BLEED r
  let a := blockState t (r * 512 + b)
  let w := (List.range 17).map (fun k => memNat m (a + 2 * k) 2)
  let learned := (List.range 16).all (fun n => !bit x.bleed n || (w.getD n 0 != 0xFFFF && w.getD (n + 1) 0 != 0xFFFF))
  if x.bleed = 0 ∨ rb = 0 ∨ ¬ learned then (x, c)
  else
    let v := (List.range 16).map (fun n =>
      let y := compensated w x.volts x.bleed rb n
      if 0 ≤ y ∧ y < 65536 then y.toNat else Config.freeValue (c.fresh + n) % 65536)
    ({ x with volts := v, quality := x.quality + 8 }, { c with fresh := c.fresh + 16 })

/-! ## Storing records (R162) -/

/-- The listed cells of a block take their voltages in the burst entry under way. -/
def Ctl.burstPut (c : Ctl) (t : Nat) (key quality : Nat) (volts : List Nat) : Ctl :=
  let x := tabGet {} c.bursts t
  match x.entry with
  | none => c
  | some e =>
    let cells := (List.range x.list.length).foldl (fun (l : Tab (Nat × Nat)) i =>
      let id := x.list.getD i 0
      if id / 16 = key then tabSet l i (volts.getD (id % 16) 0, quality) else l) e.cells
    { c with bursts := tabSet c.bursts t { x with entry := some { e with cells := cells } } }

/-- States of a DMA channel (R426). -/
abbrev dmDisabled : Nat := 0
/-- IDLE. -/
abbrev dmIdle : Nat := 1
/-- RUN. -/
abbrev dmRun : Nat := 2
/-- HALTED. -/
abbrev dmHalted : Nat := 3

/-- A channel. -/
def Ctl.chn (c : Ctl) (t ch : Nat) : Dma := tabGet {} c.dma (t * 16 + ch)

/-- Whether channels 0 and 1 of a tile are halted. -/
def Ctl.recordsHalted (c : Ctl) (t : Nat) : Bool := c.get t DMA_CH_STATE 0 == dmHalted || c.get t DMA_CH_STATE 1 == dmHalted

/-- A record write of channel 0 or 1 done: it is the last job accepted and completed (R428; a job for each record, DESIGN
CHOICE, assumption 107). -/
def Ctl.recordDone (c : Ctl) (p ch : Nat) : Ctl :=
  let c := c.incMod p DMA_CH_JOBS ch
  Ctl.put { c with dmaTurn := tabSet c.dmaTurn (p * 4) ch } p DMA_CH_DONE (c.get p DMA_CH_JOBS ch) ch |>.put p DMA_CH_LAST eOk ch

/-- A record of ring `r` written to its slot: channel 0 writes those of even rings, 1 those of odd ones, of the tile that serves
the section; a halted channel holds it until it resumes (R162, R414, R415, R423). -/
def recordPut (r a : Nat) (b : List Byte) (x : MC) : MC :=
  let p := a / 2 ^ 36
  let ch := r % 2
  if x.2.get p DMA_CH_STATE ch = dmHalted then
    let y := x.2.chn p ch
    x.on (fun c => { c with dma := tabSet c.dma (p * 16 + ch) { y with records := y.records ++ [(a, b)] } })
  else (memStore x.1 a b, x.2.recordDone p ch)

/-- A record of a block's response passes the limit checker and the compensation stage into the history. -/
def takeRecord (m : Mem) (c : Ctl) (t r b : Nat) (x : Rec) (fresh : Bool) : MC :=
  let n := c.get t SMP_FRAME_NUM_FRAME
  let key := blkKey t r b
  let found := if fresh then c.owFind t r b n x else ([], false)
  let suspect := found.1 != [] || found.2
  let g := c.rng t r
  let x := { x with status := x.status + c.recStatus t r b
                    quality := c.qualityOf t r b (decide (0 < g.passes)) suspect x.bleed fresh
                    offset := (c.blk t r b).arrival / 10 % 65536 }
  let c := if suspect then c.owSuspect t r b found.1 found.2 else c
  let g := c.rng t r
  let c := c.setRng t r { g with mismatch := g.mismatch.filter (fun k => k != b), got := b :: g.got
                                 missRun := tabErase g.missRun b }
  let c := (if fresh then { c with raw := tabSet c.raw key (n, x.volts) } else c).limitCheck t r b x
  let y := compensate m c t r b x
  let c := match (tabGet {} y.2.bursts t).entry with
    | some e => if e.j = 0 then y.2.burstPut t key y.1.quality y.1.volts else y.2
    | none => y.2
  recordPut r (c.recordAddr t n (r * 512 + b)) y.1.bytes (m, c)

/-- SAMPLE_RESPONSE_RECEIVE: a response element of COLLECT or RETRY (R123 to R125, R128, R133). -/
def execSampleResponseReceive (t : TileId) (r : RingId) (el : List Byte) (s : State) : Host.Outcome State Fault Refusal :=
  s.onTileM t (fun m c =>
    let g := c.rng t r
    let b := beNat (el.take 2) / 128
    if !c.live t || !c.ringUp t r || !c.frameOpen.contains t.val || !g.collecting || g.swept then (m, c)
    else if (el.length ≠ 54 ∧ el.length ≠ 60) ∨ ¬ elementOk el then (m, c.inc t RING_ERR_CRC r)
    else if !c.present? t r b || g.got.contains b then (m, c)
    else
      let x := parseSample el
      let c1 := c.counterCheck t r b x.counter
      takeRecord m (if bit x.status 2 then c1.wdogSeen t r b g else c1) t r b x
        (c.freshIn t r b (c.get t SMP_FRAME_NUM_FRAME) el))

/-- COLLECT_LAUNCH: 455 µs after the frame instant (R131). -/
def execCollectLaunch (t : TileId) (r : RingId) (s : State) : Host.Outcome State Fault Refusal :=
  s.onTile t (fun c =>
    if c.live t && c.ringUp t r && c.frameOpen.contains t.val then c.setRng t r { c.rng t r with collecting := true } else c)

/-- The enumerated blocks of a ring without a record in this frame, ascending. -/
def Ctl.missingBlocks (c : Ctl) (t r : Nat) : List Nat :=
  (List.range 512).filter (fun b => c.present? t r b && !(c.rng t r).got.contains b)

/-- RETRY_PASS_LAUNCH: up to 8 of the lowest blocks still missing, at most two passes (R133). -/
def execRetryPassLaunch (t : TileId) (r : RingId) (s : State) : Host.Outcome State Fault Refusal :=
  s.onTile t (fun c =>
    let g := c.rng t r
    let l := (c.missingBlocks t r).take 8
    if c.ringUp t r && g.collecting && !g.swept && decide (g.passes < 2) && l != [] then
      c.setRng t r { g with passes := g.passes + 1, listed := l }
    else c)

/-- A record with MISSING set at a position, and for an enumerated block of a ring in RUN or SPLIT its other status bits
(R125, R162). -/
def putMissing (t n r b : Nat) (x : MC) : MC :=
  let c := x.2
  recordPut r (c.recordAddr t n (r * 512 + b))
    (leBytes 2 (0x8000 + (if c.ringUp t r && c.present? t r b then c.recStatus t r b % 2 ^ 14 else 0)) ++ List.replicate 62 0) x

/-- The positions of a ring without a record are filled; enumerated ones are judged MISSING (R162, R172). -/
def fillRing (x : MC) (t r : Nat) : MC :=
  let n := x.2.get t SMP_FRAME_NUM_FRAME
  let got := (x.2.rng t r).got
  let x := forN 512 (fun b (x : MC) => if got.contains b then x else putMissing t n r b x) x
  let miss := x.2.missingBlocks t r
  let c := miss.foldl (fun (c : Ctl) b => c.limitCheck t r b { missing := true, status := 0x8000 }) x.2
  let g := c.rng t r
  (x.1, c.setRng t r { g with
    swept := true
    missRun := if c.linksLocked t r then miss.foldl (fun l b => tabSet l b (tabGet 0 l b + 1)) g.missRun else [] })

/-- Whether the end of a sweep raises suspicion of a break: a COLLECT that did not reach the tail while the head is locked,
or on a ring driven from its tail one that brought nothing from the blocks beyond some point (R150, R529). -/
def Ctl.sweepSuspect (c : Ctl) (t r : Nat) (reached : Bool) : Bool :=
  let miss := c.missingBlocks t r
  c.rstate t r == rgRun
    && (if c.get t RING_CTRL_MODE r = 2 then miss != [] && miss == List.range miss.length
        else !reached && c.endLock t r false)

/-- RING_SWEEP_END: the sweep is done or cut at 11 ms; it may raise suspicion of a break (R133, R150, R162, R529). -/
def execRingSweepEnd (t : TileId) (r : RingId) (reached : Bool) (s : State) : Host.Outcome State Fault Refusal :=
  s.onTileM t (fun m c =>
    let g := c.rng t r
    if !c.live t || !c.ringUp t r || !c.frameOpen.contains t.val || g.swept then (m, c)
    else
      let x := fillRing (m, c) t r
      if c.sweepSuspect t r reached then x.on (fun c => c.setRng t r { c.rng t r with suspect := true }) else x)

/-! ## The tone receivers (R135, R136, R294) -/

/-- TONE_LOSS_REPORT. -/
def execToneLossReport (t : TileId) (r : RingId) (tail : Bool) (s : State) : Host.Outcome State Fault Refusal :=
  s.onTile t (fun c => c.toneAt t r tail true)

/-- TONE_RESTORED: the receiver sees the tone again; in SPLIT a port counts BEACON alone. -/
def execToneRestored (t : TileId) (r : RingId) (tail : Bool) (s : State) : Host.Outcome State Fault Refusal :=
  s.onTile t (fun c => if c.rstate t r = rgSplit then c else c.toneAt t r tail false)

/-- BEACON_RECEIVE: keeps the supervision of a split ring's port alive. -/
def execBeaconReceive (t : TileId) (r : RingId) (tail : Bool) (s : State) : Host.Outcome State Fault Refusal :=
  s.onTile t (fun c => if c.rstate t r = rgSplit then c.toneAt t r tail false else c)

/-- BEACON_TIMEOUT: no BEACON for 2 ms. -/
def execBeaconTimeout (t : TileId) (r : RingId) (tail : Bool) (s : State) : Host.Outcome State Fault Refusal :=
  s.onTile t (fun c => if c.rstate t r = rgSplit then c.toneAt t r tail true else c)

/-! ## Frame period (R157) -/

/-- Whether a tile is being carried, handed over or handed back. -/
def Ctl.carryUnderWay (c : Ctl) : Bool :=
  anyN c.tiles (fun t => c.carry t != csNone && c.carry t != csUnserved)

/-- A write of SMP_FRAME_CFG on tile 0. -/
def Ctl.frameNextWrite (c : Ctl) (o : Origin) (next : Nat) : Ctl × Nat :=
  let ahead := frameDiff (c.get 0 SMP_FRAME_SWITCH_AT) (c.get 0 SMP_FRAME_NUM_FRAME)
  if !c.mayConfig o then (c.violate o (modAddr 0 0x200040000) true, eOk)
  else
    let e := if next = 0 then eOk
      else firstErr [(decide (ahead < 4) || decide (65536 < ahead), eRange), (c.activating || c.carryUnderWay, eBusy)]
    if e ≠ eOk then (c, e) else (c.put 0 SMP_FRAME_CFG_NEXT next, eOk)

/-- FRAME_PERIOD_NEXT_WRITE. -/
def execFramePeriodNextWrite (o : Origin) (next : Fin 4) (s : State) : Host.Outcome State Fault Refusal :=
  s.onAccess o (fun c => c.access o 0 0x04 (fun c => c.frameNextWrite o next))

/-- The frame period in ms. -/
def Ctl.periodMs (c : Ctl) : Nat :=
  match c.get 0 SMP_FRAME_CFG_PERIOD with
  | 1 => 50
  | 2 => 100
  | _ => 200

/-! ## Burst sampling (R164 to R167) -/

/-- The mask of a block in a burst list. -/
def burstMask (l : List Nat) (key : Nat) : Nat := maskN 16 (fun n => l.contains (key * 16 + n))

/-- The checks of a commit of the burst list (R46, R166). -/
def Ctl.burstCode (c : Ctl) (t count : Nat) : Nat :=
  let l := (List.range (if count < 1024 then count else 1024)).map (fun i => c.get t SMP_BURST_LIST_CELL i)
  let here : Nat → Bool := fun id => id / 2 ^ 18 == t
  let blocks := (l.map (fun id => id / 16)).eraseDups
  firstErr [(l.any (fun id => here id && !c.present? t (id / 2 ^ 13 % 32) (id / 16 % 512)), eAbsent),
    (decide (1024 < count) || l.any (fun id => !here id)
      || anyN 32 (fun r => decide (128 < (blocks.filter (fun k => k / 512 % 32 == r)).length)), eRange),
    (decide (l.eraseDups.length ≠ l.length), eConflict)]

/-- A write of SMP_BURST_CTRL. -/
def Ctl.burstCtrlWrite (c : Ctl) (o : Origin) (t w : Nat) : Ctl × Nat :=
  let count := w % 2048
  if !c.mayConfig o then (c.violate o (modAddr t 0x200040030) true, eOk)
  else if !bit w 31 then
    if 1024 < count then (c, eRange) else (c.put t SMP_BURST_CTRL_COUNT count, eOk)
  else
    let e := c.burstCode t count
    if e ≠ eOk then (c, e)
    else
      let l := (List.range count).map (fun i => c.get t SMP_BURST_LIST_CELL i)
      let c := c.put t SMP_BURST_CTRL_COUNT count
      ({ c with bursts := tabSet c.bursts t { tabGet {} c.bursts t with committed := some l } }, eOk)

/-- BURST_LIST_COMMIT: a write with COMMIT set. -/
def execBurstListCommit (t : TileId) (o : Origin) (count : Fin 2048) (s : State) : Host.Outcome State Fault Refusal :=
  s.onAccess o (fun c => c.access o t 0x04 (fun c => c.burstCtrlWrite o t (2 ^ 31 + count.val)))

/-- A frame instant brings a committed list to the rings: BURST to every block whose mask changes, on a ring not in RUN or
SPLIT once it is there; the new list samples once those commands have completed (R166). -/
def Ctl.burstApply (c : Ctl) (t : Nat) : Ctl :=
  let x := tabGet {} c.bursts t
  let x : Burst := match x.committed with
    | some l =>
      let old := x.next.getD x.list
      let keys := ((old ++ l).map (fun id => id / 16)).eraseDups
      { x with committed := none, next := some l
               due := (x.due ++ keys.filter (fun k => burstMask old k != burstMask l k)).eraseDups }
    | none => x
  let now := x.due.filter (fun k => c.ringUp t (k / 512 % 32))
  let c := { c with bursts := tabSet c.bursts t { x with due := x.due.filter (fun k => !now.contains k) } }
  let c := now.foldl (fun (c : Ctl) k =>
    c.queue t (k / 512 % 32) [{ addr := k % 512, cmd := 0x0A, req := beBytes 2 (burstMask (x.next.getD x.list) k) }]) c
  match x.next with
  | none => c
  | some l =>
    if anyN 32 (fun r => ((c.rng t r).ctl ++ (c.rng t r).flight).any (fun y => y.cmd == 0x0A && y.desc.isNone)) then c
    else
      let y := tabGet {} c.bursts t
      ({ c with bursts := tabSet c.bursts t { y with next := none, list := l } } : Ctl).put t SMP_BURST_CTRL_ACTIVE (b2n (l != []))

/-- A burst entry opens at a sub-instant. -/
def Ctl.burstOpen (c : Ctl) (t j : Nat) : Ctl :=
  let x := tabGet {} c.bursts t
  if x.list = [] then c
  else
    let lock := c.timeLocked t
    { c with bursts := tabSet c.bursts t { x with entry := some {
        seq := (c.get t SMP_BURST_SEQ_VALUE + 1) % 2 ^ 32
        frame := c.get t SMP_FRAME_NUM_FRAME
        j := j
        ns := c.get t TIME_NS32_VALUE
        stnNs := if lock then tabGet 0 c.stnNs t else 0
        stnSec := if lock then tabGet 0 c.stnSec t else 0 } } }

/-- BURST_SUB_INSTANT: SYNC with burst byte `j`; a ring with listed cells whose sweep is not done skips it (R164, R165). -/
def execBurstSubInstant (t : TileId) (j : Fin 20) (s : State) : Host.Outcome State Fault Refusal :=
  s.onTile t (fun c =>
    let x := tabGet {} c.bursts t
    if j = 0 ∨ c.periodMs / 10 ≤ j.val ∨ x.list = [] ∨ ¬ c.live t then c
    else
      let late := (List.range 32).filter (fun r => c.ringUp t r && !(c.rng t r).swept
        && x.list.any (fun id => id / 2 ^ 13 % 32 == r))
      let c := c.burstOpen t j
      let y := tabGet {} c.bursts t
      let c := { c with bursts := tabSet c.bursts t { y with entry := y.entry.map (fun e => { e with skipped := late }) } }
      late.foldl (fun (c : Ctl) r => (c.inc t SMP_BURST_SKIP_VALUE).event (c.recorderOf t) 0x04 0x1025 (cellId t r 0)) c)

/-- The blocks the next RETRY frame of a burst lists on a ring: up to 8 of those that have not answered and have been listed
less often than twice, those not yet listed first (R165). -/
def Burst.nextListed (x : Burst) (e : BurstEntry) (t r : Nat) : List Nat :=
  let blocks := ((x.list.filter (fun id => id / 2 ^ 13 == t * 32 + r)).map (fun id => id / 16)).eraseDups
  let open_ := blocks.filter (fun k => !e.got.contains k)
  let asked : Nat → List Nat := fun n => open_.filter (fun k => tabGet 0 e.asked k == n)
  if asked 0 = [] then (asked 1).take 8 else (asked 0).take 8

/-- A response element to a burst RETRY frame that lists some blocks (R164, R165). -/
def Ctl.burstTake (t r : Nat) (listed : List Nat) (c : Ctl) (el : List Byte) : Ctl :=
  let key := blkKey t r (beNat (el.take 2) / 128)
  if (el.length ≠ 54 ∧ el.length ≠ 60) ∨ ¬ elementOk el then c.inc t RING_ERR_CRC r
  else if !listed.contains key then c
  else
    let x := parseSample el
    let c := c.burstPut t key (c.qualityOf t r (key % 512) false false x.bleed
      (c.freshIn t r (key % 512) (c.get t SMP_FRAME_NUM_FRAME) el)) x.volts
    let y := tabGet {} c.bursts t
    { c with bursts := tabSet c.bursts t { y with entry := y.entry.map (fun e => { e with got := key :: e.got }) } }

/-- BURST_COLLECT: one RETRY frame after a burst conversion, with the responses it brings; a ring that skips the
sub-instant, or that is not in RUN or SPLIT, is not asked (R165, R166). -/
def execBurstCollect (t : TileId) (r : RingId) (els : List (List Byte)) (s : State) : Host.Outcome State Fault Refusal :=
  s.onTile t (fun c =>
    let x := tabGet {} c.bursts t
    match x.entry with
    | none => c
    | some e =>
      if e.j = 0 ∨ e.skipped.contains r.val ∨ ¬ c.ringUp t r then c
      else
        let l := x.nextListed e t r
        let e := { e with asked := l.foldl (fun (k : Tab Nat) b => tabSet k b (tabGet 0 k b + 1)) e.asked }
        els.foldl (Ctl.burstTake t r l) { c with bursts := tabSet c.bursts t { x with entry := some e } })

/-- The bytes of a burst entry of a list of `n` cells (R167). -/
def BurstEntry.bytes (e : BurstEntry) (n : Nat) : List Byte :=
  leBytes 4 e.seq ++ leBytes 4 e.frame ++ leBytes 1 e.j ++ [0] ++ leBytes 2 n ++ leBytes 4 e.ns ++ leBytes 4 e.stnNs
  ++ leBytes 4 e.stnSec ++ List.replicate 40 0
  ++ ((List.range 1024).map (fun i => leBytes 2 (tabGet (0, 0) e.cells i).1)).flatten
  ++ (List.range 1024).map (fun i => BitVec.ofNat 8 (tabGet (0, 0) e.cells i).2)
  ++ List.replicate 956 0 ++ leBytes 4 e.seq

/-- BURST_ENTRY_COMPLETE: every ring has delivered, or 5 ms have passed (R167). -/
def execBurstEntryComplete (t : TileId) (s : State) : Host.Outcome State Fault Refusal :=
  s.onTileM t (fun m c =>
    let x := tabGet {} c.bursts t
    match x.entry with
    | none => (m, c)
    | some e =>
      let a := modAddr t (c.get t SMP_BURST_BASE_BASE * 2 ^ 26 + e.seq % 16384 * 4096)
      let c := ({ c with bursts := tabSet c.bursts t { x with entry := none } }).put t SMP_BURST_SEQ_VALUE e.seq
      (memStore m a (e.bytes x.list.length), c.irq t 0x02))

/-! ## SFETCH (R105, R454) -/

/-- The checks of SFETCH. -/
def Ctl.sfetchCode (c : Ctl) (t f w : Nat) : Nat :=
  let idx := w % 16384
  let back := frameDiff (c.get t SMP_LAST_COMPLETE_FRAME) f
  let span : Int := if bit w 14 then 14 else 1198
  let ok := match c.targetTile t w with | some g => c.present? g (idx / 512) (idx % 512) | none => false
  firstErr [(bitsOf w 15 5 != 0, eFormat), (!ok || decide (back < 0) || decide (span < back), eAbsent)]

/-- SFETCH: a record of a complete frame within the window; the task waits for the copy. -/
def execSfetch (t : TileId) (k : CoreId) (d a : Fin 32) (s : State) : Host.Outcome State Fault Refusal :=
  s.onTile t (fun c => c.instr t k (wordD d a 0x03 0x00) (decide (a.val % 2 = 1)) (fun i c =>
    let f := ((c.task t i).reg a).toNat
    let w := ((c.task t i).reg (a.val + 1)).toNat
    let e := c.sfetchCode t f w
    if e ≠ eOk then c.retireCode t i d e else c.blockOn t i d (.fetch f w (bitsOf w 20 12 * 64)) 2))

/-- SFETCH_DONE: the 64 bytes are in local memory and the task resumes with OK. -/
def execSfetchDone (t : TileId) (i : TaskId) (s : State) : Host.Outcome State Fault Refusal :=
  s.onTileM t (fun m c =>
    match (c.task t i).wait with
    | .fetch f w dst =>
      let g := (c.targetTile t w).getD t
      (memStore m (localAddr t (i.val / 64) dst) (memBytes m (c.recordAddr g f (w % 16384)) 64), c.resume t i 0)
    | _ => (m, c))

end Sys2Proof.Machine
end

