-- ==== Sys2Proof/Machine/CellModel.lean ====
section
/-! DEFINITION. Machine/CellModel.lean: chemistry profiles, the cell record and the numbers of the cell model: filter, least
squares, anchors and states of power (R186, R187, R194, R195, R208, R213, R214). Reals are exact rationals; what a
program rounds, and functions without exact values, are opaque constants of Config (assumptions 17 and 18). -/
namespace Sys2Proof.Machine

/-! ## FP32 fields -/

/-- The value of an FP32 pattern; an infinity or NaN reads as its exponent and fraction would. -/
def f32Val (n : Nat) : Rat :=
  let e : Nat := n / 2 ^ 23 % 256
  let f : Nat := n % 2 ^ 23
  let v : Rat := if e = 0 then (f : Rat) / (2 ^ 149 : Nat)
    else if 150 ≤ e then ((2 ^ 23 + f) * 2 ^ (e - 150) : Nat) else ((2 ^ 23 + f : Nat) : Rat) / (2 ^ (150 - e) : Nat)
  if n / 2 ^ 31 % 2 = 1 then -v else v

/-- An FP32 field read. -/
def memF32 (m : Mem) (a : Nat) : Rat := f32Val (memNat m a 4)
/-- An FP32 field written. -/
def putF32 (m : Mem) (a : Nat) (x : Rat) : Mem := memPut m a 4 (Config.f32 x % 2 ^ 32)
/-- `x` as the program rounds it, held to an unsigned field of `w` bits. -/
def toField (w : Nat) (x : Rat) : Nat := (clampInt 0 (2 ^ w - 1 : Nat) (Config.fix x)).toNat
/-- `x` as the program rounds it, in a signed field of `w` bits. -/
def toSField (w : Nat) (x : Rat) : Nat :=
  ofSigned w (clampInt (-(2 ^ (w - 1) : Nat)) (2 ^ (w - 1) - 1 : Nat) (Config.fix x))
/-- The larger of two. -/
def rmax (x y : Rat) : Rat := if x < y then y else x
/-- The smaller of two. -/
def rmin (x y : Rat) : Rat := if x < y then x else y
/-- The magnitude. -/
def rabs (x : Rat) : Rat := if x < 0 then -x else x
/-- A quotient; free for a zero divisor, of which the spec states no result. -/
def rdiv (x y : Rat) : Rat := if y = 0 then Config.divZero x else x / y

/-! ## Chemistry profiles (R187, R213) -/

/-- A profile as its bytes lie in DRAM. -/
structure Prof where
  m : Mem
  a : Nat

/-- The mirror of profile `k` of a tile. -/
def profAddr (t k : Nat) : Nat := modAddr t (0x0D100000 + k * 0x1000)

/-- An unsigned 16-bit field. -/
def Prof.u16 (p : Prof) (o : Nat) : Nat := memNat p.m (p.a + o) 2
/-- A voltage field in V. -/
def Prof.volt (p : Prof) (o : Nat) : Rat := (p.u16 o : Rat) / 10000
/-- C_NOM in mAh, RS_BOL in Ω. -/
def Prof.cNom (p : Prof) : Nat := memNat p.m (p.a + 0x7E8) 4
def Prof.rsBol (p : Prof) : Rat := (memNat p.m (p.a + 0x7EC) 4 : Rat) / 1000000000
def Prof.vMax (p : Prof) : Rat := p.volt 0x7E0
def Prof.vMin (p : Prof) : Rat := p.volt 0x7E2
def Prof.vTop (p : Prof) : Rat := p.volt 0x7E4
def Prof.topBand (p : Prof) : Rat := p.volt 0x7E6
/-- A state of charge or sigma of the word at `o`, as a fraction. -/
def Prof.frac (p : Prof) (o : Nat) : Rat := (p.u16 o : Rat) / 10000
def Prof.zMin (p : Prof) : Rat := p.frac 0x7F0
def Prof.zMax (p : Prof) : Rat := p.frac 0x7F2
/-- Slopes in mV per %. -/
def Prof.steepSlope (p : Prof) : Rat := (p.u16 0x7F4 : Rat) / 100
def Prof.kneeSlope (p : Prof) : Rat := (p.u16 0x7F6 : Rat) / 100
def Prof.kneeSoc (p : Prof) : Rat := p.frac 0x7F8
def Prof.topSigma (p : Prof) : Rat := p.frac 0x7FA
def Prof.kneeSigma (p : Prof) : Rat := p.frac 0x7FC
def Prof.eta (p : Prof) : Rat := (p.u16 0x7FE : Rat) / 65536
/-- The FP32 constants GAMMA, QN_Z_THRU, QN_Z_HOUR, QN_U, QN_H, R_TH, TAU_TH, R_SA, TAU_S by number. -/
def Prof.const (p : Prof) (k : Nat) : Rat := memF32 p.m (p.a + 0x800 + 4 * k)

/-- A temperature breakpoint, 0.01 °C. -/
def Prof.bp (p : Prof) (k : Nat) : Int := toSigned 16 (p.u16 (2 * k))

/-- The breakpoint below a temperature and how far it lies toward the next; the nearest one outside the range. -/
def Prof.tpos (p : Prof) (tc : Rat) : Nat × Rat :=
  let b : Nat → Rat := fun k => (p.bp k : Rat)
  if tc ≤ b 0 then (0, 0)
  else if b 7 ≤ tc then (6, 1)
  else
    let k := ((List.range 7).filter (fun k => decide (b k ≤ tc))).getLastD 0
    (k, rdiv (tc - b k) (b (k + 1) - b k))

/-- A per-breakpoint value at a temperature. -/
def Prof.atT (p : Prof) (tc : Rat) (f : Nat → Rat) : Rat :=
  let x := p.tpos tc
  f x.1 + x.2 * (f (x.1 + 1) - f x.1)

/-- OCV and HYS at a grid point, in V, at a temperature in 0.01 °C. -/
def Prof.ocvK (p : Prof) (tc : Rat) (k : Nat) : Rat := p.atT tc (fun t => p.volt (0x010 + 2 * (t * 101 + k)))
def Prof.hysK (p : Prof) (tc : Rat) (j : Nat) : Rat := p.atT tc (fun t => p.volt (0x660 + 2 * (t * 21 + j)))
/-- k_T, I_MAX_DIS and I_MAX_CHG at a temperature. -/
def Prof.kT (p : Prof) (tc : Rat) : Rat := p.atT tc (fun t => (p.u16 (0x7B0 + 2 * t) : Rat) / 4096)
def Prof.iDis (p : Prof) (tc : Rat) : Rat := p.atT tc (fun t => (p.u16 (0x7C0 + 2 * t) : Rat) / 10)
def Prof.iChg (p : Prof) (tc : Rat) : Rat := p.atT tc (fun t => (p.u16 (0x7D0 + 2 * t) : Rat) / 10)

/-- The interval of an `n`-step table that holds `z`, 0 to 1. -/
def gridOf (n : Nat) (z : Rat) : Nat :=
  let k := (z * (n : Rat)).floor.toNat
  if k < n then k else n - 1

/-- OCV(z, T) in V. -/
def Prof.ocv (p : Prof) (z tc : Rat) : Rat :=
  if z < 0 ∨ 1 < z then Config.beyond 0 z tc
  else
    let k := gridOf 100 z
    p.ocvK tc k + (z * 100 - (k : Rat)) * (p.ocvK tc (k + 1) - p.ocvK tc k)

/-- ∂OCV/∂z in V per unit z. -/
def Prof.slope (p : Prof) (z tc : Rat) : Rat :=
  if z < 0 ∨ 1 < z then Config.beyond 1 z tc
  else (p.ocvK tc (gridOf 100 z + 1) - p.ocvK tc (gridOf 100 z)) * 100

/-- HYS(z, T) in V, and ∂HYS/∂z. -/
def Prof.hys (p : Prof) (z tc : Rat) : Rat :=
  if z < 0 ∨ 1 < z then Config.beyond 3 z tc
  else
    let j := gridOf 20 z
    p.hysK tc j + (z * 20 - (j : Rat)) * (p.hysK tc (j + 1) - p.hysK tc j)
def Prof.hysSlope (p : Prof) (z tc : Rat) : Rat :=
  if z < 0 ∨ 1 < z then Config.beyond 4 z tc
  else (p.hysK tc (gridOf 20 z + 1) - p.hysK tc (gridOf 20 z)) * 20

/-- OCV⁻¹(U, T): the lowest z at which the interpolated OCV reaches U. -/
def Prof.inv (p : Prof) (u tc : Rat) : Rat :=
  match (List.range 101).find? (fun k => decide (u ≤ p.ocvK tc k)) with
  | none => Config.beyond 2 u tc
  | some 0 => 0
  | some k => (((k - 1 : Nat) : Rat) + rdiv (u - p.ocvK tc (k - 1)) (p.ocvK tc k - p.ocvK tc (k - 1))) / 100

/-- Whether a state lies in the steep region. -/
def Prof.steep (p : Prof) (z tc : Rat) : Bool := decide (p.steepSlope ≤ p.slope z tc * 10)

/-! ## The cell record (R214) -/

/-- A cell record as the estimator works on it: the filter in V and fractions, resistances in Ω, times in s, temperatures
in 0.01 °C, charge in mC. -/
structure Cell where
  flags : Nat
  vLast : Nat
  ocvEst : Nat
  soc : Nat
  sigma : Nat
  cap : Nat
  rs : Rat
  ra : Rat
  tauA : Rat
  rb : Rat
  tauB : Rat
  tCore : Int
  tSurf : Int
  sd : Int
  sop : List Nat
  sohC : Nat
  sohR : Nat
  capSigma : Nat
  lastAnchor : Nat
  anomCause : Nat
  anomaly : Nat
  conf : Nat
  pass : Nat
  lastQ : Nat
  age : Nat
  iPrev : Rat
  x : List Rat
  p : List Rat
  th : List Rat
  rp : List Rat
  qSince : Int
  zAnchor : Rat
  sigAnchor : Rat
  yPrev : Rat
  aInnov : Rat
  kneeV : Rat
  kneeQ : Rat
  bleedQ : Nat
  restSlot : Nat
  sess : List Rat
  sdAnchorT : Nat

/-- The record at an address. -/
def Cell.load (m : Mem) (a : Nat) : Cell :=
  let u : Nat → Nat → Nat := fun o n => memNat m (a + o) n
  let f : Nat → Rat := fun o => memF32 m (a + o)
  let fs : Nat → Nat → List Rat := fun o n => (List.range n).map (fun i => f (o + 4 * i))
  { flags := u 0 4, vLast := u 4 2, ocvEst := u 6 2, soc := u 8 2, sigma := u 0xA 2, cap := u 0xC 4
    rs := (u 0x10 4 : Rat) / 1000000000, ra := (u 0x14 4 : Rat) / 1000000000, tauA := (u 0x18 4 : Rat) / 1000
    rb := (u 0x1C 4 : Rat) / 1000000000, tauB := (u 0x20 4 : Rat) / 1000
    tCore := toSigned 16 (u 0x24 2), tSurf := toSigned 16 (u 0x26 2), sd := toSigned 32 (u 0x28 4)
    sop := (List.range 4).map (fun i => u (0x2C + 2 * i) 2), sohC := u 0x34 2, sohR := u 0x36 2, capSigma := u 0x38 2
    lastAnchor := u 0x3A 1, anomCause := u 0x3B 1, anomaly := u 0x3C 2, conf := u 0x3E 2, pass := u 0x40 4
    lastQ := u 0x44 4, age := u 0x48 4, iPrev := f 0x4C, x := fs 0x50 4, p := fs 0x60 10, th := fs 0x88 4
    rp := fs 0x98 10, qSince := toSigned 64 (u 0xC0 8), zAnchor := f 0xC8, sigAnchor := f 0xCC, yPrev := f 0xD0
    aInnov := f 0xD4, kneeV := f 0xD8, kneeQ := f 0xDC, bleedQ := u 0xE0 4, restSlot := u 0xE4 2
    sess := fs 0xE8 3, sdAnchorT := u 0xF4 4 }

/-- The record stored at an address; ID and flags last (R193, step 11). -/
def Cell.store (c : Cell) (m : Mem) (a : Nat) : Mem :=
  let fs : List Rat → List Byte := fun l => (l.map (fun x => leBytes 4 (Config.f32 x % 2 ^ 32))).flatten
  let nano : Rat → List Byte := fun x => leBytes 4 (toField 32 (x * 1000000000))
  let milli : Rat → List Byte := fun x => leBytes 4 (toField 32 (x * 1000))
  let m := memStore m (a + 4) (leBytes 2 c.vLast ++ leBytes 2 c.ocvEst ++ leBytes 2 c.soc ++ leBytes 2 c.sigma
    ++ leBytes 4 c.cap ++ nano c.rs ++ nano c.ra ++ milli c.tauA ++ nano c.rb ++ milli c.tauB
    ++ leBytes 2 (ofSigned 16 c.tCore) ++ leBytes 2 (ofSigned 16 c.tSurf) ++ leBytes 4 (ofSigned 32 c.sd)
    ++ (c.sop.map (fun v => leBytes 2 v)).flatten ++ leBytes 2 c.sohC ++ leBytes 2 c.sohR ++ leBytes 2 c.capSigma
    ++ leBytes 1 c.lastAnchor ++ leBytes 1 c.anomCause ++ leBytes 2 c.anomaly ++ leBytes 2 c.conf ++ leBytes 4 c.pass
    ++ leBytes 4 c.lastQ ++ leBytes 4 c.age ++ fs [c.iPrev] ++ fs c.x ++ fs c.p ++ fs c.th ++ fs c.rp
    ++ leBytes 8 (ofSigned 64 c.qSince) ++ fs [c.zAnchor, c.sigAnchor, c.yPrev, c.aInnov, c.kneeV, c.kneeQ]
    ++ leBytes 4 c.bleedQ ++ leBytes 2 c.restSlot ++ [0, 0] ++ fs c.sess ++ leBytes 4 c.sdAnchorT)
  memPut m a 4 c.flags

/-- Flag bits of the ID word. -/
abbrev cfValid : Nat := 31
abbrev cfStale : Nat := 30
abbrev cfRelearn : Nat := 29
abbrev cfUntrusted : Nat := 28
abbrev cfExcluded : Nat := 27
abbrev cfNoString : Nat := 26
abbrev cfFlagged : Nat := 25
abbrev cfRest : Nat := 24
abbrev cfSession : Nat := 23
abbrev cfLostQ : Nat := 22

/-- A flag of the ID word. -/
def Cell.flag (c : Cell) (k : Nat) : Bool := bit c.flags k
/-- A flag of the ID word set. -/
def Cell.put (c : Cell) (k : Nat) (b : Bool) : Cell := { c with flags := setBit c.flags k b }
/-- A conflict flag: 0 FLAT_CONFLICT, 1 EMPTY_SIDE, 2 FULL_SIDE, 3 REANCHORED, 4 CAP_PAUSED. -/
def Cell.cf (c : Cell) (k : Nat) : Bool := bit c.conf k
/-- A conflict flag set. -/
def Cell.putCf (c : Cell) (k : Nat) (b : Bool) : Cell := { c with conf := setBit c.conf k b }
/-- STEEP_COUNT set. -/
def Cell.putSteep (c : Cell) (n : Nat) : Cell := { c with conf := c.conf % 32 + (n % 8) * 32 + c.conf / 256 * 256 }

def Cell.z (c : Cell) : Rat := c.x.getD 0 0
def Cell.ua (c : Cell) : Rat := c.x.getD 1 0
def Cell.ub (c : Cell) : Rat := c.x.getD 2 0
def Cell.h (c : Cell) : Rat := c.x.getD 3 0
def Cell.tc (c : Cell) : Rat := (c.tCore : Rat)
/-- Capacity in mC; at least one mAh. -/
def Cell.capQ (c : Cell) : Rat := 3600 * ((if c.cap = 0 then 1 else c.cap : Nat) : Rat)

/-! ## The filter (R186, R194) -/

/-- The place of an entry in an upper triangle of order 4. -/
def tri (i j : Nat) : Nat :=
  let a := if i ≤ j then i else j
  let b := if i ≤ j then j else i
  a * 4 - a * (a + 1) / 2 + b

/-- An entry of a symmetric matrix of order 4. -/
def symAt (p : List Rat) (i j : Nat) : Rat := p.getD (tri i j) 0

/-- A symmetric matrix of order 4 from its entries. -/
def symOf (f : Nat → Nat → Rat) : List Rat :=
  [f 0 0, f 0 1, f 0 2, f 0 3, f 1 1, f 1 2, f 1 3, f 2 2, f 2 3, f 3 3]

/-- The scalar product of vectors of order 4. -/
def dot4 (u v : List Rat) : Rat := (List.range 4).foldl (fun s i => s + u.getD i 0 * v.getD i 0) 0

/-- A symmetric matrix times a vector. -/
def symMul (p u : List Rat) : List Rat := (List.range 4).map (fun i => dot4 ((List.range 4).map (fun j => symAt p i j)) u)

/-- z held within −0.10 to 1.10. -/
def zHold (x : List Rat) : List Rat := rmax (-(1 : Rat) / 10) (rmin (11 / 10) (x.getD 0 0)) :: x.drop 1

/-- The decay over Δt of a pair with time constant `tau`; none for a pair never learned. -/
def decay (dt tau : Rat) : Rat := if tau = 0 then 0 else Config.exp (-(dt / tau))

/-- The time update over Δt s with charge q mC and the variance lost frames add. -/
def Cell.timeUpdate (c : Cell) (pr : Prof) (dt : Rat) (q : Int) (lostVar : Rat) : Cell :=
  let qr := (q : Rat)
  let ibar := rdiv qr (1000 * dt)
  let a := decay dt c.tauA
  let b := decay dt c.tauB
  let thru := rabs qr / c.capQ
  let e := if q = 0 then 1 else Config.exp (-(pr.const 0 * thru))
  let sgn : Rat := if q < 0 then -1 else if 0 < q then 1 else 0
  let eta := if 0 < q then pr.eta else 1
  let f : List Rat := [1, a, b, e]
  let n : List Rat := [(pr.const 1 * thru) * (pr.const 1 * thru) + pr.const 2 * dt / 3600 + lostVar, pr.const 3 * dt,
    pr.const 3 * dt, pr.const 4 * thru]
  { c with
    x := zHold [c.z + eta * qr / c.capQ, a * c.ua + c.ra * (1 - a) * ibar, b * c.ub + c.rb * (1 - b) * ibar,
      if q = 0 then c.h else e * c.h + (1 - e) * sgn]
    p := symOf (fun i j => f.getD i 0 * symAt c.p i j * f.getD j 0 + (if i = j then n.getD i 0 else 0)) }

/-- A Kalman measurement with row `hr`, innovation ν and variance `r`. -/
def Cell.kalman (c : Cell) (hr : List Rat) (nu r : Rat) : Cell :=
  let ph := symMul c.p hr
  let s := dot4 hr ph + r
  { c with
    x := zHold ((List.range 4).map (fun i => c.x.getD i 0 + rdiv (ph.getD i 0) s * nu))
    p := symOf (fun i j => symAt c.p i j - rdiv (ph.getD i 0) s * ph.getD j 0) }

/-- The observation row of R194. -/
def Cell.obsRow (c : Cell) (pr : Prof) : List Rat :=
  [pr.slope c.z c.tc + c.h * pr.hysSlope c.z c.tc, 1, 1, pr.hys c.z c.tc]

/-- Modelled voltage at a current. -/
def Cell.model (c : Cell) (pr : Prof) (i : Rat) : Rat :=
  pr.ocv c.z c.tc + pr.hys c.z c.tc * c.h + c.ua + c.ub + c.rs * i

/-- Innovation and innovation variance of a voltage. -/
def Cell.innov (c : Cell) (pr : Prof) (v i sigmaV : Rat) : Rat × Rat :=
  let hr := c.obsRow pr
  let d := c.rs * i / 20
  (v - c.model pr i, dot4 hr (symMul c.p hr) + sigmaV * sigmaV + d * d)

/-- The voltage update, with its gate at 5 × √S. -/
def Cell.voltUpdate (c : Cell) (pr : Prof) (v i sigmaV : Rat) : Cell :=
  let y := c.innov pr v i sigmaV
  let d := c.rs * i / 20
  if 25 * y.2 < y.1 * y.1 then c else c.kalman (c.obsRow pr) y.1 (sigmaV * sigmaV + d * d)

/-! ## Recursive least squares (R195) -/

/-- Whether new values of R_s, R_a and c1 are adopted. -/
def rlsOk (c1 c2 c3 c4 ref : Rat) : Bool :=
  decide (0 < c1) && decide (c1 < 1) && decide (0 < c4) && decide (rabs (c3 + c1 * c2) ≤ c2 / 5)
    && decide (ref / 4 ≤ c2) && decide (c2 ≤ 8 * ref)

/-- One tracker update with regressor `phi` and observation `y` over Δt; whether it was adopted. -/
def Cell.rls (c : Cell) (pr : Prof) (phi : List Rat) (y dt : Rat) : Cell × Bool :=
  let lam : Rat := 9995 / 10000
  let g := symMul c.rp phi
  let s := lam + dot4 phi g
  let err := y - dot4 phi c.th
  let th := (List.range 4).map (fun i => c.th.getD i 0 + rdiv (g.getD i 0) s * err)
  let rp := symOf (fun i j => (symAt c.rp i j - rdiv (g.getD i 0) s * g.getD j 0) / lam)
  let k : Nat → Rat := fun i => th.getD i 0
  if rlsOk (k 0) (k 1) (k 2) (k 3) (pr.rsBol * pr.kT c.tc) then
    ({ c with th := th, rp := rp, rs := k 1, ra := rdiv (k 3) (1 - k 0), tauA := rdiv (-dt) (Config.ln (k 0)) }, true)
  else (c, false)

/-- The tracker re-seeded from R_s, R_a and τ_a (R207). -/
def Cell.reseed (c : Cell) (dt : Rat) : Cell :=
  let c1 := decay dt c.tauA
  { c with th := [c1, c.rs, -(c1 * c.rs), c.ra * (1 - c1)] }

/-! ## State of power (R208) -/

/-- V0, R_eff and the discharge and charge currents at a horizon in s. -/
def Cell.power (c : Cell) (pr : Prof) (tau : Rat) : Rat × Rat × Rat × Rat :=
  let a := decay tau c.tauA
  let b := decay tau c.tauB
  let s := pr.slope c.z c.tc
  let cap : Rat := c.capQ / 3600
  let v0 := pr.ocv c.z c.tc + pr.hys c.z c.tc * c.h + c.ua * a + c.ub * b
  let re := c.rs + c.ra * (1 - a) + c.rb * (1 - b) + s * tau / (36 / 10 * cap)
  let free := c.cf 0
  let zd := (c.z - pr.zMin) * (36 / 10) * cap / tau
  let zc := (pr.zMax - c.z) * (36 / 10) * cap / tau
  let vd := rdiv (v0 - pr.vMin) re
  let vc := rdiv (pr.vMax - v0) re
  let id := rmax 0 (rmin (if free then vd else rmin vd zd) (pr.iDis c.tc))
  let ic := rmax 0 (rmin (if free then vc else rmin vc zc) (pr.iChg c.tc))
  (v0, re, id, ic)

/-- The four published powers: discharge at 10 s and 60 s, charge at 10 s and 60 s. -/
def Cell.sopOf (c : Cell) (pr : Prof) : List Nat :=
  let f : Rat → Rat × Rat := fun tau =>
    let y := c.power pr tau
    (y.2.2.1 * (y.1 - y.2.1 * y.2.2.1), y.2.2.2 * (y.1 + y.2.1 * y.2.2.2))
  [toField 16 (f 10).1, toField 16 (f 60).1, toField 16 (f 10).2, toField 16 (f 60).2]

/-! ## The relaxation fit (R196) -/

/-- The 3 × 3 determinant of rows `a`, `b`, `c`. -/
def det3 (a b c : List Rat) : Rat :=
  let g : List Rat → Nat → Rat := fun l i => l.getD i 0
  g a 0 * (g b 1 * g c 2 - g b 2 * g c 1) - g a 1 * (g b 0 * g c 2 - g b 2 * g c 0)
    + g a 2 * (g b 0 * g c 1 - g b 1 * g c 0)

/-- The least-squares fit of V(t) = U∞ + A e^(−t/τa) + B e^(−t/τb) to points (t, V): U∞, B, the residual sum of squares and
((XᵀX)⁻¹)₁₁. -/
def fitAt (tauA tauB : Rat) (pts : List (Rat × Rat)) : Rat × Rat × Rat × Rat :=
  let row : Rat → List Rat := fun t => [1, decay t tauA, decay t tauB]
  let n : Nat → Nat → Rat := fun i j => pts.foldl (fun s p => s + (row p.1).getD i 0 * (row p.1).getD j 0) 0
  let y : Nat → Rat := fun i => pts.foldl (fun s p => s + (row p.1).getD i 0 * p.2) 0
  let r : Nat → List Rat := fun i => [n i 0, n i 1, n i 2]
  let sub : Nat → Nat → List Rat := fun k i => (List.range 3).map (fun j => if j = k then y i else n i j)
  let d := det3 (r 0) (r 1) (r 2)
  let sol : Nat → Rat := fun k => rdiv (det3 (sub k 0) (sub k 1) (sub k 2)) d
  let res := pts.foldl (fun s p =>
    let e := p.2 - (sol 0 + sol 1 * (row p.1).getD 1 0 + sol 2 * (row p.1).getD 2 0)
    s + e * e) 0
  (sol 0, sol 2, res, rdiv (n 1 1 * n 2 2 - n 1 2 * n 1 2) d)

/-- The best of 16 fits with τb spaced geometrically from 30 s to 3,600 s: τb, then as `fitAt`. -/
def fitBest (tauA : Rat) (pts : List (Rat × Rat)) : Rat × Rat × Rat × Rat × Rat :=
  let all := (List.range 16).map (fun (k : Nat) =>
    let tb : Rat := 30 * Config.exp ((k : Rat) / 15 * Config.ln 120)
    (tb, fitAt tauA tb pts))
  all.foldl (fun b f => if f.2.2.2.1 < b.2.2.2.1 then f else b) (all.headD (30, 0, 0, 0, 0))

end Sys2Proof.Machine
end

