-- ==== Sys2Proof/Machine/LearnedValues.lean ====
section
/-! DEFINITION. Machine/LearnedValues.lean: the estimator's tables, learned-value records and their commits
(R215 to R219, R224). -/
namespace Sys2Proof.Machine

/-- A real as the state keeps it: its FP32 pattern. -/
def enc (x : Rat) : Nat := Config.f32 x % 2 ^ 32

/-- What the estimator keeps of a cell, by cell ID. -/
def Ctl.cx (c : Ctl) (id : Nat) : CellX := tabGet {} c.cellx id
/-- That of a cell changed. -/
def Ctl.setCx (c : Ctl) (id : Nat) (x : CellX) : Ctl := { c with cellx := tabSet c.cellx id x }
/-- What the estimator keeps of a string. -/
def Ctl.sx (c : Ctl) (h r s : Nat) : StrX := tabGet {} c.strx ((h * 32 + r) * 32 + s)
/-- That of a string changed. -/
def Ctl.setSx (c : Ctl) (h r s : Nat) (x : StrX) : Ctl := { c with strx := tabSet c.strx ((h * 32 + r) * 32 + s) x }
/-- The estimator of a tile changed. -/
def Ctl.setEst (c : Ctl) (t : Nat) (x : Est) : Ctl := { c with est := tabSet c.est t x }

/-- Station time that has locked within 30 min of a tile's start-up is noted for the off-time correction (R219). -/
def Ctl.timelyLock (c : Ctl) (t : Nat) : Ctl :=
  if !(c.estOf t).timely && c.timeLocked t && decide (tabGet 0 c.ticks t ≤ 1800000) then
    c.setEst t { c.estOf t with timely := true }
  else c

/-- The string of a block in the active map. -/
def Ctl.stringOf (c : Ctl) (h r b : Nat) : Option Nat :=
  (List.range 32).find? (fun s => c.flag h RING_SMAP_ACT_VALID r s && decide (c.get h RING_SMAP_ACT_FIRST r s ≤ b)
    && decide (b ≤ c.get h RING_SMAP_ACT_LAST r s))

/-- The strings of the active map of a ring. -/
def Ctl.mapNow (c : Ctl) (h r : Nat) : List MapString :=
  ((List.range 32).filter (fun s => c.flag h RING_SMAP_ACT_VALID r s)).map (fun s =>
    { slot := s, first := c.get h RING_SMAP_ACT_FIRST r s, last := c.get h RING_SMAP_ACT_LAST r s
      prof := c.get h RING_SMAP_ACT_PROFILE r s, moved := (c.sx h r s).moved.isSome
      full := tabFind c.headFrom (blkKey h r (c.get h RING_SMAP_ACT_FIRST r s)) })

/-- The strings of the map that was active at a frame. -/
def Ctl.mapAt (c : Ctl) (h r g : Nat) : List MapString :=
  match ((tabGet [] c.oldMaps (h * 32 + r)).filter (fun e => decide (frameDiff g e.1 < 0))).getLast? with
  | some e => e.2
  | none => c.mapNow h r

/-- The string of a block in the map of a frame. -/
def Ctl.stringAt (c : Ctl) (h r b g : Nat) : Option MapString :=
  (c.mapAt h r g).find? (fun e => decide (e.first ≤ b) && decide (b ≤ e.last))

/-- The profile of a block's cells (R190, R213). -/
def Ctl.profOf (c : Ctl) (h r b : Nat) : Nat :=
  match c.stringOf h r b with
  | some s => c.get h RING_SMAP_ACT_PROFILE r s
  | none => c.get h EST_RING_PROF_PROFILE r

/-- Where the cell record of a section lies for the tile that executes its pass: carried records lie in the carry-record
area (R40, R453, R454). -/
def cellAddr (p h idx : Nat) : Nat := modAddr p ((if h = p then 0 else 0x04000000) + idx * 256)

/-- The tile that estimates a section: itself, or its partner while that serves it. -/
def Ctl.execOf (c : Ctl) (h : Nat) : Nat := if !c.running h && c.serves (partner h) then partner h else h

/-- The sections a tile's pass covers. -/
def Ctl.sections (c : Ctl) (t : Nat) : List Nat := if c.serves t then [t, partner t] else [t]

/-! ## Learned-value records (R215, R217) -/

/-- The learned-value record of a cell: slots 0 and 1, 2 the legacy slot. -/
def lvAddr (h slot idx : Nat) : Nat := modAddr h (0x108000000 + slot * 0x2000000 + idx * 128)

/-- Whether a record is valid for its position. -/
def lvValid (m : Mem) (a idx : Nat) (h : Nat) : Bool :=
  crc32c 0xFFFFFFFF (memBytes m a 124) == memNat m (a + 0x7C) 4 && memRead m (a + 4) == 2
    && memNat m a 4 % 2 ^ 21 == h * 2 ^ 18 + idx

/-- The record of a slot in the current format; with `older`, one of the confirmed image's format is converted (R217, R462). -/
def lvTake (m : Mem) (a idx h : Nat) (older : Bool) : Option (List Byte) :=
  if lvValid m a idx h then some (memBytes m a 128)
  else if older then Config.ofLegacy (memBytes m a 128)
  else none

/-- GEN of a record. -/
def lvGenOf (b : List Byte) : Nat := leNat ((b.drop 8).take 4)

/-- The slot and the bytes of a cell's newest valid record. -/
def lvPick (m : Mem) (h idx : Nat) (older : Bool) : Option (Nat × List Byte) :=
  match lvTake m (lvAddr h 0 idx) idx h older, lvTake m (lvAddr h 1 idx) idx h older with
  | none, none => none
  | some a, none => some (0, a)
  | none, some b => some (1, b)
  | some a, some b => some (if 0 < frameDiff (lvGenOf b) (lvGenOf a) then (1, b) else (0, a))

/-- The slot of a cell's newest valid record. -/
def lvNewest (m : Mem) (h idx : Nat) (older : Bool := false) : Option Nat := (lvPick m h idx older).map (fun e => e.1)

/-- Whether a tile runs a trial image whose learned-value format is not that of the confirmed one, so that it may find records
of the older format (R462). -/
def Ctl.lvOlder (c : Ctl) (t : Nat) : Bool :=
  c.img.boot.legacyLv && (c.img.onB.contains t != (c.img.boot.stateB == .confirmed))

/-- Station seconds a commit records: zero when not locked. -/
def Ctl.lvSeconds (c : Ctl) (t : Nat) : Nat := if c.timeLocked t then tabGet 0 c.stnSec t else 0

/-- The 128 bytes of a cell's record. -/
def lvBytes (m : Mem) (c : Ctl) (p h idx gen : Nat) : List Byte :=
  let x := Cell.load m (cellAddr p h idx)
  let k := c.cx (h * 2 ^ 18 + idx)
  let u := memBytes m (cellAddr p h idx)
  let bs : Nat → Nat → List Byte := fun o n => ((u 256).drop o).take n
  let body := leBytes 4 (h * 2 ^ 18 + idx + b2n (x.flag cfStale) * 2 ^ 31 + b2n (x.flag cfRelearn) * 2 ^ 30
      + b2n (x.cf 4) * 2 ^ 29)
    ++ leBytes 1 2 ++ leBytes 1 (c.profOf h (idx / 8192) (idx / 16 % 512)) ++ leBytes 2 0 ++ leBytes 4 gen
    ++ leBytes 4 (enc x.z) ++ leBytes 4 (enc (Config.sqrt (symAt x.p 0 0))) ++ leBytes 4 (enc x.h)
    ++ leBytes 4 x.cap ++ leBytes 4 x.capSigma ++ bs 0x10 20 ++ bs 0x28 4 ++ leBytes 4 x.age ++ leBytes 1 x.lastAnchor
    ++ leBytes 3 0 ++ leBytes 6 (c.lvSeconds p) ++ leBytes 2 0 ++ leBytes 6 c.optime ++ leBytes 2 0
    ++ leBytes 4 (k.throughput / 3600000) ++ leBytes 4 k.capAccepted ++ bs 0xC0 16 ++ List.replicate 20 0
  body ++ leBytes 4 (crc32c 0xFFFFFFFF body)

/-- One record written into the slot that does not hold the newest valid one, and into the legacy slot while an image in
trial has another format (R217, R218). -/
def lvStore (m : Mem) (c : Ctl) (p h idx gen : Nat) : Mem :=
  let b := lvBytes m c p h idx gen
  let m := memStore m (lvAddr h (if lvNewest m h idx (c.lvOlder p) = some 0 then 1 else 0) idx) b
  if c.img.boot.legacyLv && (c.img.stage == .activating || c.img.stage == .trial) then
    memStore m (lvAddr h 2 idx) (Config.toLegacy b)
  else m

/-- Whether the record of a cell holds its values: VALID is set, and a block that has just been enumerated has had them
restored or initialised (R214, R219). -/
def Ctl.liveCell (c : Ctl) (m : Mem) (p h idx : Nat) : Bool :=
  bit (memNat m (cellAddr p h idx) 4) cfValid && !(c.cx (h * 2 ^ 18 + idx)).blank

/-- The cells of a section whose records hold values. -/
def validCells (m : Mem) (c : Ctl) (p h : Nat) : List Nat := (List.range 262144).filter (fun i => c.liveCell m p h i)

/-! ## Commits (R216, R217) -/

/-- A commit starts, or joins the one under way; a power-fail or eject commit gives its cause to the one it joins, and the
System tasks it preempts with an access outstanding are marked (R73, R216). -/
def Ctl.startCommit (c : Ctl) (t cause : Nat) (cells : Option (List Nat)) : Ctl :=
  let e := c.estOf t
  let x := match e.commit with
    | none => (cause, cells)
    | some (k, l) =>
      (if cause = 4 ∨ cause = 7 then cause else k,
        match l, cells with | some a, some b => some (a ++ b.filter (fun i => !a.contains i)) | _, _ => none)
  let c := if cause = 4 ∨ cause = 7 then forN 4 (fun k (c : Ctl) => if c.level t k = 1 then c.suspend t k else c) c else c
  (c.setEst t { e with commit := some x }).put t EST_LV_STATUS_BUSY 1

/-- The records of a commit are written; with a first failing offset, those below it only, and the cores run on. Slots of a carried section that
cannot be reached keep theirs (R217, R454). -/
def lvCommit (m : Mem) (c : Ctl) (t : Nat) (failAt : Option Nat) (reach : Bool) : MC :=
  let e := c.estOf t
  match e.commit with
  | none => (m, c)
  | some (cause, cells) =>
    let gen := (tabGet 0 c.lvGen t + 1) % 2 ^ 32
    let ok : Nat → Bool := fun i => match failAt with | some a => decide (i * 128 < a % 0x2000000) | none => true
    let m := (c.sections t).foldl (fun m h =>
      if h ≠ t ∧ ¬ reach then m
      else ((validCells m c t h).filter (fun i => ok i && (match cells with | some l => l.contains (h * 2 ^ 18 + i) | none => true))).foldl
        (fun m i => lvStore m c t h i gen) m) m
    let c := Ctl.put { c.setEst t { e with commit := none } with lvGen := tabSet c.lvGen t gen } t EST_LV_STATUS_BUSY 0
    let c := forN 4 (fun k (c : Ctl) => c.sched t k) (c.put t EST_LV_STATUS_CAUSE cause)
    match failAt with
    | some a => (m, c.event t 0x06 0x2051 0 (leBytes 4 a))
    | none => (m, (c.put t EST_LV_STATUS_GEN gen).event t 0x06 0x2050 0 (leBytes 1 cause))

/-- LV_COMMIT_INTERVAL: the commit interval elapses (R216, R225). -/
def execLvCommitInterval (t : TileId) (s : State) : Host.Outcome State Fault Refusal :=
  s.onTile t (fun c => if c.running t && c.flag t EST_LV_CFG_EN then c.startCommit t 0 none else c)

/-! ## Reading a record back (R219) -/

/-- A cell restored from the bytes of a current-format record: P₁₁ grows by OFF_SIGMA, the other variances start anew. -/
def lvCell (b : List Byte) (offSigma : Nat) (old : Cell) : Cell :=
  let u : Nat → Nat → Nat := fun o n => leNat ((b.drop o).take n)
  let s := f32Val (u 0x10 4)
  let d : Rat := (offSigma : Rat) / 10000
  { old with
    flags := b2n (bit (u 0 4) 31) * 2 ^ 30 + b2n (bit (u 0 4) 30) * 2 ^ 29
    x := [f32Val (u 0x0C 4), 0, 0, f32Val (u 0x14 4)]
    p := symOf (fun i j => if i ≠ j then 0 else if i = 0 then s * s + d * d else Config.initVar i)
    cap := u 0x18 4, capSigma := u 0x1C 4, rs := (u 0x20 4 : Rat) / 1000000000, ra := (u 0x24 4 : Rat) / 1000000000
    tauA := (u 0x28 4 : Rat) / 1000, rb := (u 0x2C 4 : Rat) / 1000000000, tauB := (u 0x30 4 : Rat) / 1000
    sd := toSigned 32 (u 0x34 4), age := u 0x38 4, lastAnchor := u 0x3C 1
    conf := b2n (bit (u 0 4) 29) * 16, qSince := toSigned 64 (u 0x58 8), zAnchor := f32Val (u 0x60 4)
    sigAnchor := f32Val (u 0x64 4), rp := symOf (fun i j => if i = j then Config.initVar 4 else 0) }

/-- The record a reload takes: the newest of slots 0 and 1, or the legacy one (R218, R219, R462). -/
def lvSource (m : Mem) (h idx : Nat) (legacy older : Bool) : Option (List Byte) :=
  if legacy then Config.ofLegacy (memBytes m (lvAddr h 2 idx) 128) else (lvPick m h idx older).map (fun e => e.2)

/-- Z lowered for the time off and sigma widened by half of that (R219). -/
def Cell.offTime (c : Cell) (secs : Nat) : Cell :=
  let d := ((c.sd : Rat) * (secs : Rat)) / (3600000 * ((if c.cap = 0 then 1 else c.cap : Nat) : Rat))
  { c with
    x := zHold ((c.z - d) :: c.x.drop 1)
    p := symOf (fun i j => symAt c.p i j + (if i = 0 ∧ j = 0 then d * d / 4 else 0)) }

end Sys2Proof.Machine
end

