-- ==== Sys2Proof/Machine/CellUpdate.lean ====
section
/-! DEFINITION. Machine/CellUpdate.lean: one cell's update of an estimator pass, step by step (R190 to R203, R207 to R211). -/
namespace Sys2Proof.Machine

/-- What the record of the frame allows for a cell: voltage in V, and the columns of R192. -/
structure Seen where
  v : Rat
  volt : Bool
  anch : Bool
  params : Bool
  untrusted : Bool
  excluded : Bool

/-- What a frame does of a session: nothing, an accumulation at cos θ and sin θ, its result, or its end without one (R206). -/
inductive SessAct where
  | idle
  | add (ct st : Rat)
  | done (y : Sess)
  | drop (abandoned : Bool)

/-- The inputs of one update: control state and section for the settings, profile, Δt in s and ms, frame period in ms,
charge in mC, lost-frame variance and whether a frame was lost, mean current, shunt current at the conversion, frame, the
record, whether a top anchor is offered, the string's state and the population entry of self-discharge, whether the string
rests, the points of a fit that is due and how many instants of it have passed, what the frame does of a session. -/
structure In where
  c : Ctl
  h : Nat
  id : Nat
  pr : Prof
  dt : Rat
  ms : Nat
  period : Nat
  q : Int
  var : Rat
  lost : Bool
  ibar : Rat
  i : Option Rat
  f : Nat
  see : Seen
  top : Bool
  sx : StrX
  sd : Option (Int × Nat)
  resting : Bool
  fit : Option (List (Rat × Rat))
  fits : Nat
  act : SessAct

/-- An anchor applied in step 5 as later steps need it: its value and sigma, z just before it, and whether capacity learning
was paused then (R200, R210). -/
structure Anchor where
  z : Rat
  sigma : Rat
  before : Rat
  paused : Bool

/-- A cell under update: its record, the estimator's own state, its record after the time update, the events raised, the
kind of the anchor applied and the anchor, the innovation ratio. -/
structure Upd where
  c : Cell
  x : CellX
  ct : Cell
  ev : List Nat := []
  anchor : Option Nat := none
  applied : Option Anchor := none
  ratio : Option Rat := none

/-- A setting of the section. -/
def In.get (a : In) (F : Field) : Rat := (a.c.get a.h F : Rat)
/-- Operating time in s. -/
def In.now (a : In) : Nat := a.c.optime / 1000
/-- Capacity in Ah. -/
def Cell.capAh (c : Cell) : Rat := c.capQ / 3600000

/-- Step 2: surface and core temperature; `input` is the mapped input, `tb` the mean of the block's enabled inputs (R191). -/
def Upd.temps (u : Upd) (a : In) (input : Option Int) (tb : Option Rat) : Upd :=
  let c := u.c
  let p := a.ibar * (a.ibar * c.rs + c.ua + c.ub)
  let ds := decay a.dt (a.pr.const 8)
  let dc := decay a.dt (a.pr.const 6)
  let ts : Rat := match input, tb with
    | some v, _ => (v : Rat)
    | none, some b => b + ((c.tSurf : Rat) - b) * ds + 100 * p * a.pr.const 7 * (1 - ds)
    | none, none => (c.tSurf : Rat)
  let tc := ts + ((c.tCore : Rat) - ts) * dc + 100 * p * a.pr.const 5 * (1 - dc)
  { u with c := { c with tSurf := Config.fix ts, tCore := Config.fix tc } }

/-- Step 3, with the charge counters and the anchor age. -/
def Upd.time (u : Upd) (a : In) : Upd :=
  let c := u.c.timeUpdate a.pr a.dt a.q a.var
  let ms := u.x.ageMs + a.ms
  let c := { c with qSince := c.qSince + a.q, age := satAdd 32 c.age (ms / 1000) }
  { u with
    c := c
    ct := c
    x := { u.x with ageMs := ms % 1000, throughput := u.x.throughput + a.q.natAbs
                    capVar := enc (f32Val u.x.capVar + a.var) } }

/-- How many instants of the fit lie within a rest of `ms`: REST_MIN and every further 60 s up to 1,800 s (R196). -/
def fitsDue (restMin ms : Nat) : Nat :=
  let s := ms / 1000
  if s < restMin then 0 else 1 + ((if s < 1800 then s else 1800) - restMin) / 60

/-- The relaxation fit of a cell to the points of its buffer: with the slow pair it sets after a steady current, and the
anchor it offers; the pair is set only where the record permits parameters (R192, R196). -/
def restFit (pr : Prof) (z : StrX) (maxSigma : Rat) (params : Bool) (pts : List (Rat × Rat)) (cell : Cell) :
    Cell × Option (Nat × Nat × Nat) :=
  if pts.length < 3 then (cell, none)
  else
    let f := fitBest cell.tauA pts
    let tauB := f.1
    let u := f.2.1
    let su := Config.sqrt (f.2.2.2.1 / ((pts.length : Nat) : Rat)) * Config.sqrt f.2.2.2.2 + 5 / 10000
    let za := pr.inv (u - pr.hys cell.z cell.tc * cell.h) cell.tc
    let sa := rdiv su (pr.slope za cell.tc)
    (if params ∧ 3000 * tauB ≤ (z.curMs : Rat) ∧ z.curI ≠ 0 then { cell with tauB := tauB, rb := rdiv f.2.2.1 ((z.curI : Rat) / 50) }
      else cell,
      if sa * 10000 ≤ maxSigma then some (enc za, enc sa, toField 16 (u * 10000)) else none)

/-- The fit of step 4. -/
def Upd.fit (u : Upd) (a : In) : Upd :=
  match a.fit with
  | none => u
  | some pts =>
    let y := restFit a.pr a.sx (a.get EST_ANCHOR2_MAX_SIGMA) a.see.params pts u.c
    { u with c := y.1, x := { u.x with fits := a.fits, offer := y.2 } }

/-- The knee window of step 4: whether a knee anchor is offered; KNEE_V and KNEE_Q hold the start of the window (R198). -/
def Upd.knee (u : Upd) (a : In) : Bool × Upd :=
  let c := u.c
  let dis := -a.ibar
  let x := if a.pr.kneeSoc + 2 / 10 < c.z then { u.x with kneeArmed := true } else u.x
  if dis < c.capAh / 20 ∨ c.capAh < dis ∨ ¬ a.see.anch then
    (false, { u with x := { x with kneeOpen := false, kneeSlope := none } })
  else
    let v := a.see.v - c.rs * a.i.getD a.ibar
    let q := x.kneeCharge + a.q
    let span := rabs (q : Rat) / c.capQ
    if ¬ x.kneeOpen then
      (false, { u with c := { c with kneeV := v, kneeQ := (c.qSince : Rat) }, x := { x with kneeOpen := true, kneeCharge := 0 } })
    else if span < 1 / 100 then (false, { u with x := { x with kneeCharge := q } })
    else
      let slope := 1000 * (c.kneeV - v) / (100 * span)
      let offer := x.kneeArmed && decide (a.pr.kneeSlope ≤ slope) && decide (rabs (c.z - a.pr.kneeSoc) ≤ 15 / 100)
        && (match x.kneeSlope with | some p => decide (f32Val p < a.pr.kneeSlope) | none => false)
      (offer, { u with
        c := { c with kneeV := v, kneeQ := (c.qSince : Rat) }
        x := { x with kneeCharge := 0, kneeSlope := some (enc slope), kneeArmed := x.kneeArmed && !offer } })

/-- Step 8: a capacity measurement at the anchor applied, where the record permits it (R200). -/
def Upd.capacity (u : Upd) (a : In) (n : Anchor) : Upd :=
  let c := u.c
  let x := u.x
  let za := n.z
  let sig := n.sigma
  let dz := za - c.zAnchor
  let cm := rdiv (c.qSince : Rat) (3600 * dz)
  let span := Config.sqrt (c.sigAnchor * c.sigAnchor + sig * sig + f32Val x.capVar)
  let sm := rabs cm * span / (if dz = 0 then 1 else rabs dz)
  let cap := (c.cap : Rat)
  let days : Rat := ((a.c.optime - x.capAt : Nat) : Rat) / 86400000
  let pc := (c.capSigma : Rat) * (c.capSigma : Rat) + cap * cap / 1000000 * days
  let use := x.capAnchor && !n.paused && decide (4 / 10 ≤ rabs dz) && decide ((a.pr.cNom : Rat) / 2 ≤ cm)
    && decide (cm ≤ (a.pr.cNom : Rat) * 12 / 10)
  let y : Cell × CellX :=
    if use then
      let k := rdiv pc (pc + sm * sm)
      ({ c with cap := toField 32 (cap + k * (cm - cap)), capSigma := toField 16 (Config.sqrt ((1 - k) * pc)) },
        { x with capAt := a.c.optime, capNew := x.capNew + 1, capAccepted := satAdd 32 x.capAccepted 1 })
    else (c, x)
  { u with
    c := { y.1 with qSince := 0, zAnchor := za, sigAnchor := sig }
    x := { y.2 with capAnchor := true, capVar := enc 0 } }

/-- Step 10: a self-discharge measurement at the anchor applied (R210). -/
def Upd.selfDischarge (u : Upd) (a : In) (n : Anchor) : Upd :=
  let dt := a.now - u.c.sdAnchorT
  let im := -(n.z - n.before) * 3600000 * (u.c.cap : Rat) / (dt : Rat)
  let sd := if a.see.params ∧ u.x.sdClean ∧ 21600 ≤ dt then toSigned 32 (toSField 32 ((u.c.sd : Rat) + (im - (u.c.sd : Rat)) / 4))
    else u.c.sd
  { u with c := { u.c with sd := sd, sdAnchorT := a.now % 2 ^ 32 }, x := { u.x with sdClean := true } }

/-- What follows of the anchor applied, if any. -/
def Upd.atAnchor (u : Upd) (f : Anchor → Upd) : Upd :=
  match u.applied with
  | some n => f n
  | none => u

/-- Step 5: one anchor applied (R199); the conflict counters are reset. -/
def Upd.anchorAt (u : Upd) (kind : Nat) (za sig : Rat) : Upd :=
  let zb := u.c.z
  let paused := u.c.cf 4
  let u := { u with c := u.c.kalman [1, 0, 0, 0] (za - zb) (sig * sig) }
  let c := u.c.putSteep 0
  let u := if c.cf 0 then { u with ev := u.ev ++ [0x2012] } else u
  let c := ((c.putCf 0 false).putCf 1 false).putCf 2 false
  let c := if kind = 2 then (c.putCf 3 false).putCf 4 false else c
  { u with
    c := { c with age := 0, lastAnchor := kind }
    x := { u.x with flatClean := 0, ageMs := 0, anchored := true
                    topTaken := u.x.topTaken || kind == 2
                    uInf := if kind = 1 then u.x.offer.map (fun o => o.2.2) else u.x.uInf }
    anchor := some kind
    applied := some { z := za, sigma := sig, before := zb, paused := paused } }

/-- Steps 4 and 5: a top anchor before a knee anchor before a rest anchor; an offer holds for one update. -/
def Upd.anchors (u : Upd) (a : In) : Upd :=
  let k := u.knee a
  let u := k.2
  let u :=
    if ¬ a.see.anch then u
    else if a.top ∧ ¬ u.x.topTaken ∧ a.pr.vTop - a.pr.topBand ≤ a.see.v then u.anchorAt 2 1 a.pr.topSigma
    else if k.1 then u.anchorAt 3 a.pr.kneeSoc a.pr.kneeSigma
    else match u.x.offer with
      | some (z, s, _) => u.anchorAt 1 (f32Val z) (f32Val s)
      | none => u
  { u with x := { u.x with offer := none } }

/-- SIGMA_V in V. -/
def In.sigmaV (a : In) : Rat := a.get EST_MEAS_SIGMA_V / 10000

/-- Step 6, and the innovation ratio of R211. -/
def Upd.voltage (u : Upd) (a : In) : Upd :=
  if ¬ a.see.volt then u
  else
    let i := a.i.getD a.ibar
    let y := u.c.innov a.pr a.see.v i a.sigmaV
    { u with
      c := u.c.voltUpdate a.pr a.see.v i a.sigmaV
      ratio := some (rdiv (rabs y.1) (Config.sqrt y.2)) }

/-- The steep rule of step 7 (R202). -/
def Upd.steepRule (u : Upd) (a : In) : Upd :=
  let c := u.c
  if a.see.volt ∧ a.pr.steep c.z c.tc then
    let i := a.i.getD a.ibar
    let zv := a.pr.inv (a.see.v - c.rs * i - c.ua - c.ub - a.pr.hys c.z c.tc * c.h) c.tc
    let n := c.conf / 32 % 8 + 1
    if rabs (zv - c.z) * 10000 ≤ a.get EST_CONFLICT_STEEP_DIFF then { u with c := c.putSteep 0 }
    else if n < a.c.get a.h EST_CONFLICT_COUNT then { u with c := c.putSteep n }
    else
      let s := rdiv a.sigmaV (a.pr.slope c.z c.tc)
      { u with
        c := ((({ c with
          x := zHold (zv :: c.x.drop 1)
          p := symOf (fun i j => if i = 0 ∧ j = 0 then s * s else if i = 0 ∨ j = 0 then 0 else symAt c.p i j)
          age := 0, qSince := 0, lastAnchor := 4 } : Cell).putSteep 0).putCf 3 true).putCf 4 true
        x := { u.x with ageMs := 0, capAnchor := false, sdClean := false }
        ev := u.ev ++ [0x2010] }
  else { u with c := c.putSteep 0 }

/-- An update without a new conflict, whose z lies out of range or within it: a conflict ends after COUNT consecutive updates
within (R203). -/
def Upd.flatEnd (u : Upd) (a : In) (out : Bool) : Upd :=
  if ¬ u.c.cf 0 then u
  else if out then { u with x := { u.x with flatClean := 0 } }
  else if u.x.flatClean + 1 < a.c.get a.h EST_CONFLICT_COUNT then { u with x := { u.x with flatClean := u.x.flatClean + 1 } }
  else
    { u with
      c := ((u.c.putCf 0 false).putCf 1 false).putCf 2 false
      x := { u.x with flatClean := 0 }
      ev := u.ev ++ [0x2012] }

/-- The flat rule of step 7, on the time-updated z (R203). -/
def Upd.flatRule (u : Upd) (a : In) : Upd :=
  let z := u.ct.z
  let out := decide (z < 0) || decide (1 < z)
  let between := a.see.volt && decide (a.pr.ocv a.pr.kneeSoc u.c.tc ≤ a.see.v)
    && decide (a.see.v ≤ a.pr.vTop - a.pr.topBand)
  if out && between then
    { u with
      c := ((u.c.putCf 0 true).putCf 1 (decide (z < 0))).putCf 2 (decide (1 < z))
      x := { u.x with flatClean := 0 }
      ev := if u.c.cf 0 then u.ev else u.ev ++ [0x2011] }
  else u.flatEnd a out

/-- The parameter tracker of step 8 (R195). -/
def Upd.track (u : Upd) (a : In) : Upd :=
  let ct := u.ct
  match a.i with
  | none => { u with x := { u.x with paramsPrev := false } }
  | some i =>
    if ¬ a.see.params then { u with c := { u.c with iPrev := i }, x := { u.x with paramsPrev := false } }
    else
      let y := a.see.v - a.pr.ocv ct.z ct.tc - a.pr.hys ct.z ct.tc * ct.h - ct.ub
      let due := u.x.paramsPrev && a.ms == a.period && u.x.dtPrev == a.ms
        && decide (u.c.capAh / 20 ≤ rabs (i - u.c.iPrev))
      let z := if due then u.c.rls a.pr [u.c.yPrev, i, u.c.iPrev, a.ibar] y a.dt else (u.c, false)
      { u with
        c := { z.1 with yPrev := y, iPrev := i }
        x := { u.x with paramsPrev := true, dtPrev := a.ms, rlsAdopted := u.x.rlsAdopted + (if z.2 then 1 else 0) } }

/-! ## Sessions (R206, R207) -/

/-- The phasor of a signal from its sums over `n` frames, as real and imaginary part. -/
def phasor (xc xs sx cs sn : Rat) (n : Nat) : Rat × Rat :=
  let mean := rdiv sx (n : Rat)
  (xc - mean * cs, -(xs - mean * sn))

/-- Rs, Ra and the sum of squared differences of the fit of Rs + Ra / (1 + jωτ) to results (ω, Re, Im), by linear least
squares for a given τ. -/
def pairFit (tau : Rat) (l : List (Rat × Rat × Rat)) : Rat × Rat × Rat :=
  let g : Rat → Rat := fun w => 1 / (1 + w * tau * (w * tau))
  let sum : (Rat × Rat × Rat → Rat) → Rat := fun f => l.foldl (fun s e => s + f e) 0
  let n : Rat := ((l.length : Nat) : Rat)
  let sg := sum (fun e => g e.1)
  let sr := sum (fun e => e.2.1)
  let sp := sum (fun e => g e.1 * e.2.1 - e.1 * tau * g e.1 * e.2.2)
  let d := n * sg - sg * sg
  let rs := rdiv (sg * sr - sg * sp) d
  let ra := rdiv (n * sp - sg * sr) d
  (rs, ra, sum (fun e =>
    let x := e.2.1 - (rs + ra * g e.1)
    let y := e.2.2 + ra * e.1 * tau * g e.1
    x * x + y * y))

/-- The least-squares fit of Rs + Ra / (1 + jωτa) to two results (ω, Re, Im): Rs, Ra and τa in s, over the whole milliseconds
TAU_A can hold; of equal fits the shortest (R207; DESIGN CHOICE, assumption 17). -/
def twoFit (l : List (Rat × Rat × Rat)) : Rat × Rat × Rat :=
  let at_ : Nat → Rat := fun k => ((k + 1 : Nat) : Rat) / 1000
  let best := forN (2 ^ 32 - 1) (fun k (b : Nat × Rat) =>
    let r := (pairFit (at_ k) l).2.2
    if r < b.2 then (k, r) else b) (0, (pairFit (at_ 0) l).2.2)
  let y := pairFit (at_ best.1) l
  (y.1, y.2.1, at_ best.1)

/-- A cell's result of a complete session (R207). -/
def sessCell (y : Sess) (pr : Prof) (dt : Rat) (cell : Cell) (k : CellX) (now : Nat) : Cell × CellX :=
  let f32 := f32Val
  let i := phasor (f32 y.xc) (f32 y.xs) (f32 y.x) (f32 y.cs) (f32 y.sn) y.n
  let v := phasor (cell.sess.getD 0 0) (cell.sess.getD 1 0) (cell.sess.getD 2 0) (f32 y.cs) (f32 y.sn) y.n
  let d := i.1 * i.1 + i.2 * i.2
  let w : Nat → Rat := fun f => 2 * Config.pi * (f : Rat) / 1000
  let zb : Rat := 1 + w y.freq * cell.tauB * (w y.freq * cell.tauB)
  let re := rdiv (v.1 * i.1 + v.2 * i.2) d - cell.rb / zb
  let im := rdiv (v.2 * i.1 - v.1 * i.2) d + cell.rb * w y.freq * cell.tauB / zb
  let day := k.results.filter (fun e => decide (now < e.2.2.2 + 86400000))
  let other := day.find? (fun e => decide (4 * e.1 ≤ y.freq) || decide (4 * y.freq ≤ e.1))
  let t2 := 1 + w y.freq * cell.tauA * (w y.freq * cell.tauA)
  let ra1 := rdiv (-(im * t2)) (w y.freq * cell.tauA)
  let new : Rat × Rat × Rat := match other with
    | none => (re - ra1 / t2, ra1, cell.tauA)
    | some e => twoFit [(w y.freq, re, im), (w e.1, f32 e.2.1, f32 e.2.2.1)]
  let c1 := decay dt new.2.2
  let k := { k with results := (y.freq, enc re, enc im, now) :: day.filter (fun e => e.1 != y.freq) }
  if rlsOk c1 new.1 (-(c1 * new.1)) (new.2.1 * (1 - c1)) (pr.rsBol * pr.kT cell.tc) then
    (({ cell with rs := new.1, ra := new.2.1, tauA := new.2.2 } : Cell).reseed dt, k)
  else (cell, k)

/-- A cell's part of a frame of a session: a usable voltage into its sums, or its result once the session is complete and
every record of it was usable. -/
def sessStep (act : SessAct) (see : Seen) (pr : Prof) (dt : Rat) (now : Nat) (z : Cell × CellX) : Cell × CellX :=
  match act with
  | .idle => z
  | .drop _ => z
  | .add ct st =>
    let c := z.1.put cfSession true
    if see.params then
      ({ c with sess := [c.sess.getD 0 0 + see.v * ct, c.sess.getD 1 0 + see.v * st, c.sess.getD 2 0 + see.v] }, z.2)
    else (c, { z.2 with sessBad := true })
  | .done y => if z.2.sessBad || !z.1.flag cfSession then z else sessCell y pr dt z.1 z.2 now

/-- Step 9. -/
def Upd.session (u : Upd) (a : In) : Upd :=
  let y := sessStep a.act a.see a.pr ((a.period : Rat) / 1000) a.c.optime (u.c, u.x)
  { u with c := y.1, x := y.2 }

/-- A ratio of R211 to the string's median. -/
def devRatio (v med mad : Rat) : Rat := rdiv (rabs (v - med)) (rmax mad (rabs med / 50))

/-- The anomaly score and its cause (R211). -/
def Upd.score (u : Upd) (a : In) : Nat × Nat :=
  let rs := rdiv u.c.rs (a.pr.kT u.c.tc) * 1000000000
  let l : List Rat := [u.c.aInnov,
    match a.sd with
    | some (med, mad) => rdiv (rabs ((u.c.sd - med : Int) : Rat)) (rmax (mad : Rat) (a.get LIMIT_ADAPT_SD_FLOOR))
    | none => 0,
    devRatio rs (a.sx.rsMed : Rat) (a.sx.rsMad : Rat), devRatio (u.c.cap : Rat) (a.sx.capMed : Rat) (a.sx.capMad : Rat)]
  let best := l.foldl rmax 0
  let v := toField 16 (best * 256)
  (v, if v = 0 then 0 else (l.findIdx (fun x => decide (x = best))) + 1)

/-- A fraction in 0.01 %, held to 0 % to 100 %. -/
def pct (z : Rat) : Nat := toField 16 (rmax 0 (rmin 1 z) * 10000)

/-- Steps 10 and 11 (R194, R203, R208 to R211) but for self-discharge: the published fields and the flags of the ID word. -/
def Upd.publish (u : Upd) (a : In) (noString : Bool) : Upd :=
  let c := match u.ratio with
    | some r => { u.c with aInnov := (9 * u.c.aInnov + r) / 10 }
    | none => u.c
  let u := { u with c := c }
  let d := if c.z < 0 then -c.z else if 1 < c.z then c.z - 1 else 0
  let p0 := symAt c.p 0 0
  let sig := Config.sqrt (if c.cf 0 then p0 + d * d else p0)
  let sc := u.score a
  let flagAt := a.c.get a.h EST_CONFLICT_ANOM_FLAG * 16
  let run := if flagAt ≤ sc.1 then u.x.anomRun + 1 else 0
  let told := decide (flagAt ≤ sc.1) && u.x.anomTold
  let tell := decide (a.c.get a.h EST_CONFLICT_ANOM_COUNT ≤ run) && !told
  let soc := pct c.z
  let near : Rat → Bool := fun z => decide (rabs (rmax 0 (rmin 1 c.z) - z) ≤ 5 / 100)
  let burst := (tabGet {} a.c.bursts a.h).list.contains a.id
  let flagged := decide (flagAt ≤ sc.1) || c.cf 0 || c.restSlot != 0xFFFF || c.flag cfSession || burst || near a.pr.zMin || near a.pr.zMax
  let relearned := decide (1 ≤ u.x.capNew) && decide (100 ≤ u.x.rlsAdopted)
  let ocv := match u.x.uInf with | some v => v | none => toField 16 (a.pr.ocv c.z c.tc * 10000)
  let c := { c with
    vLast := if a.see.volt then toField 16 (a.see.v * 10000) else c.vLast
    ocvEst := ocv, soc := soc, sigma := toField 16 (sig * 10000)
    sop := if noString then [0, 0, 0, 0] else c.sopOf a.pr
    sohC := toField 16 (rdiv (c.cap : Rat) (a.pr.cNom : Rat) * 10000)
    sohR := toField 16 (rdiv a.pr.rsBol (rdiv c.rs (a.pr.kT c.tc)) * 10000)
    anomaly := sc.1, anomCause := sc.2, pass := a.f, lastQ := a.f, flags := setBit c.flags cfValid true }
  let c := (((((c.put cfFlagged flagged).put cfLostQ a.lost).put cfUntrusted a.see.untrusted).put cfExcluded
    a.see.excluded).put cfNoString noString).put cfRest a.resting
  let c := if relearned then c.put cfRelearn false else c
  { u with
    c := { c with flags := c.flags / 2 ^ 21 * 2 ^ 21 + a.id }
    x := { u.x with anomRun := run, anomTold := told || tell, capNew := if relearned then 0 else u.x.capNew
                    rlsAdopted := if relearned then 0 else u.x.rlsAdopted }
    ev := if tell then u.ev ++ [0x2030] else u.ev }

/-- The update of a cell of a string, from step 2 on (R193). -/
def Upd.string (u : Upd) (a : In) (input : Option Int) (tb : Option Rat) : Upd :=
  let u := (((u.temps a input tb).time a).fit a).anchors a
  let u := u.voltage a
  let u := if u.anchor.isSome then u else (u.steepRule a).flatRule a
  let u := u.track a
  let u := u.atAnchor (fun n => if a.see.params then u.capacity a n else u)
  let u := u.session a
  (u.atAnchor (fun n => u.selfDischarge a n)).publish a false

/-- The update of a cell of no string (R190). It is no steep excess, and a conflict it brings along ends by the rule of R203. -/
def Upd.loose (u : Upd) (a : In) (input : Option Int) (tb : Option Rat) : Upd :=
  let u := u.temps a input tb
  let ms := u.x.ageMs + a.ms
  let z := a.pr.inv (if a.see.volt then a.see.v else (u.c.vLast : Rat) / 10000) u.c.tc
  let s := rdiv a.sigmaV (a.pr.slope z u.c.tc)
  let known := a.see.volt || u.c.vLast != 0
  let c : Cell := { u.c with
    x := zHold [if known then z else u.c.z, 0, 0, 0]
    p := if known then symOf (fun i j => if i = 0 ∧ j = 0 then s * s else 0) else u.c.p
    age := satAdd 32 u.c.age (ms / 1000) }
  let x := { u.x with ageMs := ms % 1000, paramsPrev := false, kneeOpen := false, kneeSlope := none }
  let u : Upd := { u with c := c.putSteep 0, x := x }
  (u.flatEnd a (decide (c.z < 0) || decide (1 < c.z))).publish a true

/-- The adoption rule (R220): state of charge from a usable voltage, C_NOM, the profile's Rs; Ra, Rb, their time constants
and SD as the record holds them. -/
def Cell.adopt (c : Cell) (pr : Prof) (v sigmaV : Rat) (ts : Int) : Cell :=
  let tc : Rat := (ts : Rat)
  let z := pr.inv v tc
  let s := rmax (1 / 10) (rdiv sigmaV (pr.slope z tc))
  { c with
    flags := 2 ^ cfRelearn, tCore := ts, tSurf := ts
    x := zHold [z, 0, 0, 0]
    p := symOf (fun i j => if i ≠ j then 0 else if i = 0 then s * s else Config.initVar i)
    cap := pr.cNom, capSigma := toField 16 ((pr.cNom : Rat) / 20), rs := pr.rsBol * pr.kT tc
    rp := symOf (fun i j => if i = j then Config.initVar 4 else 0)
    conf := 0, lastAnchor := 0, age := 0, qSince := 0, restSlot := 0xFFFF }

/-- A block swapped and passed, or marked stale: values kept, sigmas at least their floors, the tracker reset (R220). -/
def Cell.swapped (c : Cell) (staleSigma : Rat) (stale : Bool) : Cell :=
  let s := staleSigma / 10000
  let floor := c.cap / 20
  let c := { c with
    p := symOf (fun i j => if i = 0 ∧ j = 0 then rmax (symAt c.p 0 0) (s * s) else symAt c.p i j)
    capSigma := if c.capSigma < floor then (if floor < 65536 then floor else 65535) else c.capSigma
    rp := symOf (fun i j => if i = j then Config.initVar 4 else 0) }
  let c := c.put cfRelearn true
  if stale then c.put cfStale true else c

end Sys2Proof.Machine
end

