-- ==== Sys2Proof/Machine/Estimation.lean ====
section
/-! DEFINITION. Machine/Estimation.lean: the estimator's pass, rests and their fits, sessions, string summaries, restoring
and the estimation commands (R184 to R225). -/
namespace Sys2Proof.Machine

/-- A pass: the tile that executes it, the section and the frame. -/
structure Run where
  p : Nat
  h : Nat
  f : Nat

/-- Whether a frame's records of the section can still be read and were taken by the present recorder (R185, R454). -/
def Run.readable (x : Run) (c : Ctl) (g : Nat) : Bool :=
  let back := frameDiff (c.get x.p SMP_LAST_COMPLETE_FRAME) g
  decide (0 ≤ back) && decide (back ≤ if x.h = x.p then 1198 else 14)
    && (match tabFind c.secFrom x.h with | some f => decide (0 ≤ frameDiff g f) | none => true)

/-- The period of a frame in ms: that before the earliest switch which came after it, else the present one (R157, R188). -/
def Ctl.periodOf (c : Ctl) (g : Nat) : Nat :=
  match (c.switches.filter (fun e => decide (frameDiff g e.1 < 0))).getLast? with
  | some e => e.2
  | none => c.periodMs

/-- Time in ms from the instant of a frame to the latest switch of the period, which it comes before (R157). -/
def toSwitch (g : Nat) : List (Nat × Nat) → Int
  | [] => 0
  | (f, p) :: l =>
    match l with
    | (f', _) :: _ => if frameDiff g f' < 0 then frameDiff f f' * p + toSwitch g l else frameDiff f g * p
    | [] => frameDiff f g * p

/-- Time in ms from the instant of frame `a` to that of frame `b` (R157, R206). -/
def Ctl.elapsed (c : Ctl) (a b : Nat) : Int :=
  match c.switches with
  | [] => frameDiff b a * c.periodMs
  | e :: _ =>
    let at_ : Nat → Int := fun g => if frameDiff g e.1 < 0 then -toSwitch g c.switches else frameDiff g e.1 * c.periodMs
    at_ b - at_ a

/-! ## Charge (R188, R189) -/

/-- The strings of a ring's map at the pass's frame. -/
def Run.map (x : Run) (c : Ctl) (r : Nat) : List MapString := c.mapAt x.h r x.f

/-- A string of that map by its slot. -/
def Run.str (x : Run) (c : Ctl) (r s : Nat) : Option MapString := (x.map c r).find? (fun e => e.slot == s)

/-- The first block of a string, its head. -/
def Run.head (x : Run) (c : Ctl) (r s : Nat) : Nat := match x.str c r s with | some e => e.first | none => 0

/-- The profile of a string. -/
def Run.prof (x : Run) (m : Mem) (c : Ctl) (r s : Nat) : Prof :=
  { m := m, a := profAddr x.h (match x.str c r s with | some e => e.prof | none => 0) }

/-- The profile of a block's cells (R190). -/
def Run.blockProf (x : Run) (m : Mem) (c : Ctl) (r b : Nat) : Prof :=
  { m := m, a := profAddr x.h (match c.stringAt x.h r b x.f with | some e => e.prof | none => c.get x.h EST_RING_PROF_PROFILE r) }

/-- The head block's charge of a frame, by the map of that frame; none where it is lost or the map has no such string. -/
def Run.charge (x : Run) (m : Mem) (c : Ctl) (r s g : Nat) : Option Int :=
  match (c.mapAt x.h r g).find? (fun e => e.slot == s) with
  | none => none
  | some e =>
    let settled := !e.moved || (match e.full with | some n => decide (0 ≤ frameDiff g n) | none => false)
    let a := c.recordAddr x.h g (r * 512 + e.first)
    if x.readable c g && settled && !bit (memNat m a 2) 15 then some (toSigned 32 (memNat m (a + 0x36) 4)) else none

/-- The charge of the latest earlier frame of a string that was not lost. -/
def Run.standAt (x : Run) (m : Mem) (c : Ctl) (r s g : Nat) : Int :=
  match (List.range 1198).findSome? (fun i => x.charge m c r s ((g + 2 ^ 32 - 1 - i) % 2 ^ 32)) with
  | some q => q
  | none => match (c.sx x.h r s).stands.find? (fun e => decide (frameDiff e.1 g < 0)) with | some e => e.2 | none => 0

/-- Charge, time and lost-frame variance summed over frames. -/
structure Chg where
  q : Int := 0
  ms : Nat := 0
  var : Rat := 0
  lost : Bool := false

/-- The frames after `last` up to the pass's frame, for a cell of a block with capacity `capQ` mC, each under the map of its
frame; in a frame whose map has the block in no string there is no charge. -/
def Run.sum (x : Run) (m : Mem) (c : Ctl) (r b last : Nat) (pr : Prof) (capQ : Rat) : Chg :=
  (List.range (frameDiff x.f last).toNat).foldl (fun (y : Chg) i =>
    let g := (last + 1 + i) % 2 ^ 32
    let ms := c.periodOf g
    match c.stringAt x.h r b g with
    | none => { y with ms := y.ms + ms }
    | some e =>
      match x.charge m c r e.slot g with
      | some q => { y with q := y.q + q, ms := y.ms + ms }
      | none =>
        let q := x.standAt m c r e.slot g
        let d := rdiv (rabs (q : Rat) + pr.iDis 2500 * (ms : Rat)) capQ
        { y with q := y.q + q, ms := y.ms + ms, var := y.var + d * d, lost := true }) {}

/-- The head block's shunt current at the conversion, in 20 mA; none where its record is MISSING. -/
def Run.shunt (x : Run) (m : Mem) (c : Ctl) (r s : Nat) : Option Int :=
  let a := c.recordAddr x.h x.f (r * 512 + x.head c r s)
  if x.readable c x.f && !bit (memNat m a 2) 15 then some (toSigned 16 (memNat m (a + 0x32) 2)) else none

/-- A shunt current in A. -/
def amps (i : Int) : Rat := (i : Rat) / 50

/-! ## What a record shows (R191, R192) -/

/-- What the record of the frame allows for cell `n` of a block. -/
def Run.seen (x : Run) (m : Mem) (c : Ctl) (r b n : Nat) : Seen :=
  let a := c.recordAddr x.h x.f (r * 512 + b)
  let q := memNat m (a + 3) 1
  let fresh := x.readable c x.f && bit q 0 && !bit (memNat m a 2) 15
  let brk := match (c.owOf x.h r b).at x.f with
    | [] => false
    | [w] => n == w || n + 1 == w
    | _ => true
  let out := brk || (bit q 2 && !bit q 3)
  let volt := fresh && !bit q 5 && !out
  { v := (memNat m (a + 4 + 2 * n) 2 : Rat) / 10000, volt := volt, anch := volt, params := volt && !bit q 1
    untrusted := fresh && bit q 5, excluded := !fresh || (!bit q 5 && out) }

/-- The enabled temperature inputs of a FRESH record, by channel. -/
def Run.inputs (x : Run) (m : Mem) (c : Ctl) (r b : Nat) : Tab Int :=
  let a := c.recordAddr x.h x.f (r * 512 + b)
  if x.readable c x.f && bit (memNat m (a + 3) 1) 0 then
    ((List.range 6).filter (fun j => c.tempOn x.h r j)).map (fun j => (j, toSigned 16 (memNat m (a + 0x24 + 2 * j) 2)))
  else []

/-- Their mean; none with none. -/
def meanOf (l : Tab Int) : Option Rat :=
  if l = [] then none else some (((l.map (fun e => e.2)).sum : Int) / ((l.length : Nat) : Rat))

/-! ## Cells of a section -/

/-- The ID word of a cell's record. -/
def Run.word (x : Run) (m : Mem) (idx : Nat) : Nat := memNat m (cellAddr x.p x.h idx) 4
/-- The ID word with a flag set. -/
def Run.setFlag (x : Run) (m : Mem) (idx k : Nat) (v : Bool) : Mem :=
  memPut m (cellAddr x.p x.h idx) 4 (setBit (x.word m idx) k v)
/-- The ID of a cell. -/
def Run.id (x : Run) (idx : Nat) : Nat := x.h * 2 ^ 18 + idx

/-- The cells of the enumerated blocks of a string. -/
def Run.cells (x : Run) (c : Ctl) (r s : Nat) : List Nat :=
  match x.str c r s with
  | none => []
  | some e =>
    ((List.range ((e.last + 1 - e.first) * 16)).filter (fun i => c.present? x.h r (e.first + i / 16))).map (fun i =>
      r * 8192 + e.first * 16 + i)

/-- Those whose records hold values. -/
def Run.used (x : Run) (m : Mem) (c : Ctl) (r s : Nat) : List Nat := (x.cells c r s).filter (fun i => c.liveCell m x.p x.h i)

/-- The cell of a string with the oldest anchor, as events name it (R205, R223). -/
def Run.oldest (x : Run) (m : Mem) (c : Ctl) (r s : Nat) : Nat :=
  let l := (x.used m c r s).filter (fun i => !bit (x.word m i) cfExcluded)
  let age : Nat → Nat := fun i => memNat m (cellAddr x.p x.h i + 0x48) 4
  x.id (l.foldl (fun b i => if age b < age i then i else b) (l.headD (r * 8192 + x.head c r s * 16)))

/-- An event about a string. -/
def Run.event (x : Run) (m : Mem) (c : Ctl) (r s code : Nat) (payload : List Byte := []) : Ctl :=
  c.event x.p 0x06 code (x.oldest m c r s) payload

/-! ## Rests (R196) -/

/-- Where a rest buffer lies. -/
def bufAddr (p k : Nat) : Nat := modAddr p (0x0D200000 + k * 128)

/-- A rest starts: each cell but excluded ones takes a buffer; with too few left the string is not fitted. -/
def Run.restStart (x : Run) (m : Mem) (c : Ctl) (r s : Nat) : MC :=
  let e := c.estOf x.p
  let l := (x.used m c r s).filter (fun i => !bit (x.word m i) cfExcluded)
  let free := (List.range 32768).filter (fun k => !e.bufs.any (fun b => b.2 == k))
  let y := { c.sx x.h r s with rest := some 0, resters := x.cells c r s, pts := 0, spacing := 1, noPool := false }
  if free.length < l.length then
    (m, x.event m (c.setSx x.h r s { y with noPool := true }) r s 0x2023)
  else
    let give := l.zip free
    (give.foldl (fun m g => memPut m (cellAddr x.p x.h g.1 + 0xE4) 2 g.2) m,
      give.foldl (fun (c : Ctl) g => c.setCx (x.id g.1) { c.cx (x.id g.1) with fits := 0 })
        ((c.setSx x.h r s y).setEst x.p { e with bufs := give.foldl (fun t g => tabSet t (x.id g.1) g.2) e.bufs }))

/-- Cells leave a rest: their buffers are freed. -/
def Run.restFree (x : Run) (m : Mem) (c : Ctl) (l : List Nat) : MC :=
  let e := c.estOf x.p
  let c := c.setEst x.p { e with bufs := e.bufs.filter (fun b => !l.any (fun i => x.id i == b.1)) }
  (l.foldl (fun m i => if bit (x.word m i) cfValid then
      memPut (x.setFlag m i cfRest false) (cellAddr x.p x.h i + 0xE4) 2 0xFFFF else m) m,
    l.foldl (fun (c : Ctl) i => c.setCx (x.id i) { c.cx (x.id i) with offer := none, uInf := none }) c)

/-- A rest ends: the buffers of every cell that took part or is of the string are freed. -/
def Run.restEnd (x : Run) (m : Mem) (c : Ctl) (r s : Nat) : MC :=
  let y := c.sx x.h r s
  x.restFree m (c.setSx x.h r s { y with rest := none, resters := [], noPool := false })
    (x.cells c r s ++ y.resters.filter (fun i => !(x.cells c r s).contains i))

/-- Cells that a change of the map has taken out of a resting string leave its rest. -/
def Run.restLeave (x : Run) (m : Mem) (c : Ctl) (r s : Nat) : MC :=
  let y := c.sx x.h r s
  let gone := y.resters.filter (fun i => !(x.cells c r s).contains i)
  if gone = [] then (m, c)
  else x.restFree m (c.setSx x.h r s { y with resters := y.resters.filter (fun i => (x.cells c r s).contains i) }) gone

/-- The rests of strings that the map of the frame no longer has are over. -/
def Run.restsOver (x : Run) (z : MC) : MC :=
  ((z.2.strx.filter (fun e => e.1 / 1024 == x.h && e.2.rest.isSome)).map (fun e => (e.1 / 32 % 32, e.1 % 32))).foldl
    (fun z e => if (x.str z.2 e.1 e.2).isSome then x.restLeave z.1 z.2 e.1 e.2 else x.restEnd z.1 z.2 e.1 e.2) z

/-- A point goes into the buffers when its time has come; a full buffer drops every second point (an unusable record leaves
the point empty). -/
def Run.restPoint (x : Run) (m : Mem) (c : Ctl) (r s ms : Nat) : MC :=
  let y := c.sx x.h r s
  if y.noPool ∨ ms < y.pts * y.spacing * 1000 then (m, c)
  else
    let bufs := (c.estOf x.p).bufs
    let l := (x.cells c r s).filterMap (fun i => (tabFind bufs (x.id i)).map (fun k => (i, k)))
    let m := l.foldl (fun m g =>
      let see := x.seen m c r (g.1 / 16 % 512) (g.1 % 16)
      let a := c.recordAddr x.h x.f (g.1 / 16)
      memPut m (bufAddr x.p g.2 + 2 * y.pts) 2 (if see.volt then memNat m (a + 4 + 2 * (g.1 % 16)) 2 else 0)) m
    if y.pts + 1 < 64 then (m, c.setSx x.h r s { y with pts := y.pts + 1 })
    else
      (l.foldl (fun m g =>
        let old := (List.range 32).map (fun k => memNat m (bufAddr x.p g.2 + 4 * k) 2)
        memStore m (bufAddr x.p g.2) (old.map (fun v => leBytes 2 v)).flatten) m,
        c.setSx x.h r s { y with pts := 32, spacing := y.spacing * 2 })

/-- The points in the rest buffer of a cell; none without a buffer. -/
def Run.points (x : Run) (m : Mem) (c : Ctl) (r s idx : Nat) : Option (List (Rat × Rat)) :=
  (tabFind (c.estOf x.p).bufs (x.id idx)).map (fun k =>
    let z := c.sx x.h r s
    ((List.range z.pts).map (fun j => (((j * z.spacing : Nat) : Rat), (memNat m (bufAddr x.p k + 2 * j) 2 : Rat) / 10000))).filter
      (fun p => p.2 != 0))

/-- How many instants of the fit the rest of a string has passed; none without a rest that is fitted. -/
def Ctl.restFits (c : Ctl) (h r s : Nat) : Nat :=
  match (c.sx h r s).rest with
  | some ms => if (c.sx h r s).noPool then 0 else fitsDue (c.get h EST_ANCHOR_REST_MIN) ms
  | none => 0

/-- The fit of one cell that has one due, outside its update. -/
def Run.fitCell (x : Run) (r s idx : Nat) (y : MC) : MC :=
  let n := y.2.restFits x.h r s
  let k := y.2.cx (x.id idx)
  match x.points y.1 y.2 r s idx with
  | none => y
  | some pts =>
    if n ≤ k.fits then y
    else
      let a := cellAddr x.p x.h idx
      let o := restFit (x.prof y.1 y.2 r s) (y.2.sx x.h r s) (y.2.get x.h EST_ANCHOR2_MAX_SIGMA : Rat)
        (x.seen y.1 y.2 r (idx / 16 % 512) (idx % 16)).params pts (Cell.load y.1 a)
      (o.1.store y.1 a, y.2.setCx (x.id idx) { k with fits := n, offer := o.2 })

/-- Whether a fit of a resting string is due that the pass has not run: at REST_MIN and every further 60 s up to 1,800 s. -/
def Ctl.fitDue (c : Ctl) (h r s : Nat) : Bool :=
  let x : Run := { p := c.execOf h, h := h, f := c.get (c.execOf h) EST_PASS_FRAME }
  (x.cells c r s).any (fun i => (tabFind (c.estOf x.p).bufs (x.id i)).isSome && decide ((c.cx (x.id i)).fits < c.restFits h r s))

/-- REST_FIT: the fit due of a resting string, for cells whose update has not run it; their next update takes the anchors it
offers. -/
def execRestFit (t : TileId) (r : RingId) (str : StringId) (s : State) : Host.Outcome State Fault Refusal :=
  s.onTileM t (fun m c =>
    let p := c.execOf t
    if !c.running p || c.systemHeld p || !c.fitDue t r str then (m, c)
    else
      let x : Run := { p := p, h := t, f := c.get p EST_PASS_FRAME }
      (x.cells c r str).foldl (fun y i => x.fitCell r str i y) (m, c))

/-! ## Sessions (R206, R207) -/

/-- The phase of the conversion of frame `g` in a session, in turns. -/
def Sess.turns (y : Sess) (c : Ctl) (g : Nat) : Rat :=
  (y.freq : Rat) / 1000 * (((c.elapsed y.frame0 g - (y.ms0 : Int) : Int) : Rat) / 1000 + 42 / 100000)

/-- What the pass's frame does of a string's session: accepted or not at its first, abandoned when it has ended early, the
ladder is at L2 or a frame of its 20 cycles is lost for the head (R206). -/
def Run.sessAct (x : Run) (lvl : Nat) (m : Mem) (c : Ctl) (r s : Nat) : SessAct :=
  match (c.sx x.h r s).sess with
  | none => .idle
  | some y =>
    if ¬ y.judged ∧ (1000000 < 4 * y.freq * c.periodMs ∨ 1 < lvl) then .drop false
    else if y.bad ∨ 1 < lvl then .drop true
    else
      let th := y.turns c x.f
      if th < 0 then .idle
      else if 20 ≤ th then .done y
      else
        match x.charge m c r s x.f, x.shunt m c r s with
        | some _, some _ => .add (Config.cos th) (Config.sin th)
        | _, _ => .drop true

/-- A session leaves a string: its cells lose their sums and their mark. -/
def Run.sessEnd (x : Run) (m : Mem) (c : Ctl) (r s : Nat) : MC :=
  let l := x.used m c r s
  (l.foldl (fun m i => memClear (x.setFlag m i cfSession false) (cellAddr x.p x.h i + 0xE8) 12) m,
    (l.foldl (fun (c : Ctl) i => c.setCx (x.id i) { c.cx (x.id i) with sessBad := false }) c).setSx x.h r s
      { c.sx x.h r s with sess := none })

/-- A session frame of the cells the pass has not updated (R206). -/
def Run.sessOthers (x : Run) (lvl : Nat) (done : List Nat) (r s : Nat) (z : MC) : MC :=
  let act := x.sessAct lvl z.1 z.2 r s
  let dt : Rat := (z.2.periodOf x.f : Rat) / 1000
  match act with
  | .idle | .drop _ => z
  | _ =>
    ((x.used z.1 z.2 r s).filter (fun i => !done.contains i)).foldl (fun (z : MC) i =>
      let a := cellAddr x.p x.h i
      let o := sessStep act (x.seen z.1 z.2 r (i / 16 % 512) (i % 16)) (x.prof z.1 z.2 r s) dt z.2.optime
        (Cell.load z.1 a, z.2.cx (x.id i))
      (o.1.store z.1 a, z.2.setCx (x.id i) o.2)) z

/-- The string's own part of a session frame, after its cells: its sums, or the end with event 0x2040 or 0x2041. -/
def Run.session (x : Run) (lvl r s : Nat) (z : MC) : MC :=
  let m := z.1
  let c := z.2
  match (c.sx x.h r s).sess, x.sessAct lvl m c r s with
  | none, _ => z
  | some y, .idle => (m, c.setSx x.h r s { c.sx x.h r s with sess := some { y with judged := true } })
  | some y, .add ct st =>
    let i : Rat := match x.shunt m c r s with | some i => amps i | none => 0
    let add : Nat → Rat → Nat := fun n v => enc (f32Val n + v)
    (m, c.setSx x.h r s { c.sx x.h r s with sess := some { y with
      judged := true, n := y.n + 1, xc := add y.xc (i * ct), xs := add y.xs (i * st), x := add y.x i
      cs := add y.cs ct, sn := add y.sn st } })
  | some _, .done _ =>
    let n := ((x.used m c r s).filter (fun i => !(c.cx (x.id i)).sessBad && bit (x.word m i) cfSession)).length
    x.sessEnd m (x.event m c r s 0x2040 (leBytes 1 r ++ leBytes 1 s ++ leBytes 2 n)) r s
  | some _, .drop told => x.sessEnd m (if told then x.event m c r s 0x2041 else c) r s

/-! ## A string's part of a pass -/

/-- The steady current of a frame (R196). -/
def StrX.current (y : StrX) (i : Int) (ms : Nat) : StrX :=
  if rabs (amps i - amps y.curI) ≤ Config.steadyTol then { y with curMs := y.curMs + ms } else { y with curI := i, curMs := 0 }

/-- The top window of a frame (R197); when the window is left, an offer that gave anchors has been used. -/
def StrX.top (y : StrX) (i : Int) (topAmps : Rat) : StrX :=
  if 0 < i ∧ amps i ≤ topAmps then { y with topRun := y.topRun + 1 }
  else
    let y := if y.topUsed then { y with topHigh := false, topArmed := false, topUsed := false } else y
    { y with topRun := 0, topHigh := y.topHigh || decide (topAmps < amps i) }

/-- The string's inputs of a frame: current, rest, buffers (R196, R197). -/
def Run.string (x : Run) (r s : Nat) (z : MC) : MC :=
  let m := z.1
  let c := z.2
  let pr := x.prof m c r s
  let ms := c.periodOf x.f
  let i := x.shunt m c r s
  let nom : Rat := (pr.cNom : Rat) / 1000000
  let rest := match x.charge m c r s x.f, i with
    | some _, some i => decide (rabs (amps i) ≤ (c.get x.h EST_ANCHOR2_I_REST : Rat) * nom)
    | _, _ => false
  let y := c.sx x.h r s
  let was := y.topUsed
  let y := match i with
    | some i =>
      let y := y.top i ((c.get x.h EST_ANCHOR2_TOP_C : Rat) * nom)
      if rest then y else y.current i ms
    | none => { y with topRun := 0 }
  let c := c.setSx x.h r s y
  let c := if was && !y.topUsed then
      (x.cells c r s).foldl (fun (c : Ctl) i => c.setCx (x.id i) { c.cx (x.id i) with topTaken := false }) c
    else c
  match rest, y.rest with
  | true, none =>
    let z := x.restStart m c r s
    x.restPoint z.1 z.2 r s 0
  | true, some e => x.restPoint m (c.setSx x.h r s { y with rest := some (e + ms) }) r s (e + ms)
  | false, some _ => x.restEnd m c r s
  | false, none => (m, c)

/-- Frames that a pass skips are lost: rests end, steady currents and top windows begin anew, and a session with a frame among
them is abandoned (R185, R189, R196, R197, R206). -/
def Run.skipped (x : Run) (first last r s : Nat) (z : MC) : MC :=
  let z := if (z.2.sx x.h r s).rest.isSome then x.restEnd z.1 z.2 r s else z
  let c := z.2.setSx x.h r s { z.2.sx x.h r s with curMs := 0, topRun := 0 }
  match (c.sx x.h r s).sess with
  | some y =>
    if y.turns c first < 20 ∧ 0 ≤ y.turns c last then x.sessEnd z.1 (x.event z.1 c r s 0x2041) r s else (z.1, c)
  | none => (z.1, c)

/-! ## Restoring and identities (R219, R220) -/

/-- The temperature a cell starts from: the mean of its block's inputs, else what its record holds. -/
def Run.startTemp (x : Run) (m : Mem) (c : Ctl) (r b : Nat) (old : Int) : Int :=
  match meanOf (x.inputs m c r b) with | some t => Config.fix t | none => old

/-- Where the cells of a block are restored from: by a reload all, by that of the start-up a block first enumerated since,
else none but those without a record. -/
def Run.source (x : Run) (c : Ctl) (r b : Nat) : Option Nat :=
  let e := c.estOf x.p
  match e.reload with
  | some k => some k
  | none => if x.h = x.p ∧ !e.loaded.contains (r * 512 + b) then e.startup else none

/-- A cell's record and hidden part as its learned values `bs` give them: all of them where they were learned under the
profile in force, else the values a swap keeps (R219; assumption 90). -/
def Run.fromLv (x : Run) (m : Mem) (c : Ctl) (r b : Nat) (bs : List Byte) (old empty : Cell) (k0 wait : CellX) : Cell × CellX :=
  let last := (x.f + 2 ^ 32 - 1) % 2 ^ 32
  let word : Nat → Nat → Nat := fun o k => leNat ((bs.drop o).take k)
  let k := lvCell bs (c.get x.h EST_LV_CFG_OFF_SIGMA) old
  let accepted := word 0x54 4
  let through := word 0x50 4 * 3600000
  if (x.blockProf m c r b).a = profAddr x.h (word 5 1) then
    let t := x.startTemp m c r b old.tSurf
    let at_ := word 0x48 6
    let anchored := decide (1 ≤ k.lastAnchor) && decide (k.lastAnchor ≤ 3)
    ({ k with tCore := t, tSurf := t, lastQ := last, pass := last, restSlot := 0xFFFF, sdAnchorT := at_ / 1000 - k.age
              flags := k.flags + empty.flags },
      { k0 with
        lvSec := word 0x40 6, capAnchor := anchored && word 0x64 4 != 0, capAt := at_, capVar := enc 0, sdClean := anchored
        paramsPrev := false, capAccepted := accepted, throughput := through, initDue := false, blank := false })
  else
    ({ empty with ra := k.ra, tauA := k.tauA, rb := k.rb, tauB := k.tauB, sd := k.sd },
      { wait with capAccepted := accepted, throughput := through })

/-- A cell without a valid record, or under a reload, is restored or waits for the adoption rule, which takes what a record of
another profile has of the block (R219, R220; what a restored cell counts from, DESIGN CHOICE, assumption 90). -/
def Run.restore (x : Run) (r b n : Nat) (z : MC) : MC :=
  let m := z.1
  let c := z.2
  let idx := r * 8192 + b * 16 + n
  let id := x.id idx
  let a := cellAddr x.p x.h idx
  let src := x.source c r b
  if bit (memNat m a 4) cfValid && src.isNone then z
  else
    let old := Cell.load m a
    let k0 := c.cx id
    let wait : CellX := { k0 with initDue := true, blank := true }
    let empty : Cell := { old with restSlot := 0xFFFF, flags := 2 ^ cfValid + id }
    let y := match lvSource m x.h idx (src = some 1) (c.lvOlder x.p) with
      | none => (empty, wait)
      | some bs => x.fromLv m c r b bs old empty k0 wait
    (y.1.store m a, c.setCx id y.2)

/-- What enumeration found of a block acts on the records of its cells: an adopted block keeps Ra to SD where the records
are its own (R220; DEDUCED, assumption 91). -/
def Run.identity (x : Run) (r b : Nat) (z : MC) : MC :=
  let key := blkKey x.h r b
  let kind := tabGet 0 z.2.identity key
  let uid := tabFind z.2.found key
  let own := uid.isSome && tabFind z.2.cellUid key == uid
  let l := (List.range 16).map (fun n => r * 8192 + b * 16 + n)
  if kind = 4 then z
  else
    let y := if kind = 0 then z else l.foldl (fun (z : MC) i =>
      let a := cellAddr x.p x.h i
      let k := z.2.cx (x.id i)
      if kind = 1 then
        (if own then z.1 else memClear (memClear z.1 (a + 0x14) 16) (a + 0x28) 4,
          z.2.setCx (x.id i) { k with initDue := true, blank := k.blank || !own })
      else
        (((Cell.load z.1 a).swapped (z.2.get x.h EST_MEAS_STALE_SIGMA : Rat) (kind = 3)).store z.1 a,
          z.2.setCx (x.id i) { k with rlsAdopted := 0, capNew := 0, anchored := false })) z
    y.on (fun c => { c with
      identity := tabErase c.identity key
      cellUid := match uid with | some u => tabSet c.cellUid key u | none => c.cellUid })

/-- The adoption rule where it is due and a usable voltage has come. -/
def Run.init (x : Run) (r b n : Nat) (z : MC) : MC :=
  let idx := r * 8192 + b * 16 + n
  let k := z.2.cx (x.id idx)
  let see := x.seen z.1 z.2 r b n
  if ¬ k.initDue ∨ ¬ see.volt then z
  else
    let a := cellAddr x.p x.h idx
    let old := Cell.load z.1 a
    let last := (x.f + 2 ^ 32 - 1) % 2 ^ 32
    let t := x.startTemp z.1 z.2 r b old.tSurf
    let cell := old.adopt (x.blockProf z.1 z.2 r b) see.v ((z.2.get x.h EST_MEAS_SIGMA_V : Rat) / 10000) t
    let cell := { cell with lastQ := last, pass := last, flags := cell.flags + 2 ^ cfValid + x.id idx }
    let cell := cell.put cfStale (z.2.flag x.h RING_BLK_STALE r b)
    let e := z.2.estOf x.p
    let c := if x.h = x.p ∧ ¬ e.restored ∧ k.blank then z.2.setEst x.p { e with initialised := e.initialised + 1 } else z.2
    (cell.store z.1 a, c.setCx (x.id idx) {
      capAccepted := k.capAccepted, throughput := k.throughput, capAt := z.2.optime })

/-! ## A cell's part of a pass -/

/-- The level's spacing of updates by frame period in ms (R221). -/
def everyN (lvl ms : Nat) : Nat :=
  match lvl with
  | 0 => 1
  | 1 => 2
  | 2 => if ms = 50 then 10 else if ms = 100 then 5 else 3
  | _ => if ms = 50 then 20 else if ms = 100 then 10 else 5

/-- Whether a cell is due at the pass's frame (R221). -/
def Run.due (x : Run) (m : Mem) (c : Ctl) (lvl idx : Nat) : Bool :=
  (lvl == 1 && bit (x.word m idx) cfFlagged) || (x.f + idx / 16) % everyN lvl (c.periodOf x.f) == 0

/-- The population entry of a string for self-discharge, where valid (R177, R211). -/
def Run.sdStats (x : Run) (m : Mem) (r s : Nat) : Option (Int × Nat) :=
  let a := modAddr x.h (0x0C000000 + x.f % 2 * 0x80000 + 0x40000 + (r * 32 + s) * 16)
  if bit (memNat m (a + 0xF) 1) 2 then some (toSigned 32 (memNat m (a + 8) 4), memNat m (a + 0xC) 2) else none

/-- What a pass gathers: memories and control state, cells updated, and anchors applied with their kinds. -/
structure Pass where
  z : MC
  done : List Nat := []
  anch : List (Nat × Nat) := []

/-- One cell of a pass (R193). -/
def Run.cell (x : Run) (lvl r b n : Nat) (y : Pass) : Pass :=
  let m := y.z.1
  let c := y.z.2
  let idx := r * 8192 + b * 16 + n
  let a := cellAddr x.p x.h idx
  let cell := Cell.load m a
  let id := x.id idx
  if ¬ c.liveCell m x.p x.h idx ∨ ¬ x.due m c lvl idx ∨ frameDiff x.f cell.lastQ ≤ 0 then y
  else
    let pr := x.blockProf m c r b
    let str := (c.stringAt x.h r b x.f).map (fun e => e.slot)
    let k := c.cx id
    let late := k.lvSec != 0 && c.timeLocked x.p && (c.estOf x.p).timely
    let cell := if late then cell.offTime (tabGet 0 c.stnSec x.p - tabGet 0 c.ticks x.p / 1000 - k.lvSec) else cell
    let k := if late then { k with lvSec := 0 } else k
    let cell := cell.put cfStale (c.flag x.h RING_BLK_STALE r b && cell.flag cfStale)
    let ch := x.sum m c r b cell.lastQ pr cell.capQ
    let q := ch.q - (if str.isSome then (cell.bleedQ : Int) else 0)
    let dt : Rat := (ch.ms : Rat) / 1000
    let sx := match str with | some s => c.sx x.h r s | none => {}
    let inp := x.inputs m c r b
    let mapped := c.get x.h (EST_TMAP_CELL n)
    let fits := match str with | some s => c.restFits x.h r s | none => 0
    let i : In := {
      c := c, h := x.h, id := id, pr := pr, dt := dt, ms := ch.ms, period := c.periodOf x.f, q := q, var := ch.var
      lost := ch.lost, ibar := rdiv (q : Rat) (1000 * dt)
      i := (match str with | some s => x.shunt m c r s | none => none).map amps
      f := x.f, see := x.seen m c r b n, top := sx.topHigh && sx.topArmed && decide (2 ≤ sx.topRun), sx := sx
      sd := match str with | some s => x.sdStats m r s | none => none
      resting := sx.rest.isSome
      fit := if k.fits < fits then (match str with | some s => x.points m c r s idx | none => none) else none
      fits := fits
      act := match str with | some s => x.sessAct lvl m c r s | none => .idle }
    let u : Upd := { c := { cell with bleedQ := 0 }, x := k, ct := cell }
    let u := if str.isSome then u.string i (tabFind inp mapped) (meanOf inp) else u.loose i (tabFind inp mapped) (meanOf inp)
    let c := u.ev.foldl (fun (c : Ctl) e =>
      let c := c.event x.p 0x06 e id
      if e = 0x2010 then c.inc x.h EST_COUNT_REANCHOR else if e = 0x2011 then c.inc x.h EST_COUNT_CONFLICT else c) c
    { z := (u.c.store m a, c.setCx id u.x), done := idx :: y.done
      anch := match u.anchor with | some k => (idx, k) :: y.anch | none => y.anch }

/-- The enumerated blocks of the section's rings in RUN or SPLIT. -/
def Run.blocks (x : Run) (c : Ctl) : List (Nat × Nat) :=
  (((List.range 32).filter (fun r => c.ringUp x.h r)).map (fun r =>
    ((List.range 512).filter (fun b => c.present? x.h r b)).map (fun b => (r, b)))).flatten

/-- The records of positions of a ring in RUN or SPLIT that have no enumerated block are zero (R214). -/
def Run.clearAbsent (x : Run) (m : Mem) (c : Ctl) : Mem :=
  forN 16384 (fun k m =>
    if c.ringUp x.h (k / 512) && !c.present? x.h (k / 512) (k % 512) then memClear m (cellAddr x.p x.h (k * 16)) 4096
    else m) m

/-! ## String summaries (R212) -/

/-- Where a copy of the string summaries of a section lies. -/
def summaryBase (h copy : Nat) : Nat := modAddr h (0x0D000000 + copy * 0x10000)

/-- The flags of a summary. -/
def Run.sumFlags (x : Run) (m : Mem) (c : Ctl) (r s : Nat) (l : List Cell) : Nat :=
  let y := c.sx x.h r s
  let first := x.head c r s
  b2n ((x.shunt m c r s).isNone || !c.flag x.h RING_BLK_HEAD r first) * 32 + b2n y.sess.isSome * 16 + b2n y.rest.isSome * 8
    + b2n (bit (c.get x.h EST_REST_REQ_STRING r) s) * 4 + b2n (l.any (fun k => k.cf 0)) * 2
    + b2n (l.any (fun k => k.cf 0 || k.flag cfExcluded || k.flag cfUntrusted))

/-- A summary entry of a string. -/
def Run.summary (x : Run) (m : Mem) (c : Ctl) (r s : Nat) : List Byte :=
  let pr := x.prof m c r s
  let l := (x.used m c r s).map (fun i => Cell.load m (cellAddr x.p x.h i))
  let minOf : List Rat → Rat := fun v => v.foldl rmin (v.headD 0)
  let side : Rat → Bool → Rat × Rat := fun tau chg =>
    let ps := l.map (fun k => k.power pr tau)
    let i := minOf (ps.map (fun p => if chg then p.2.2.2 else p.2.2.1))
    (i, i * ps.foldl (fun a p => a + (p.1 + (if chg then p.2.1 * i else -(p.2.1 * i)))) 0)
  let four := [side 10 false, side 60 false, side 10 true, side 60 true]
  let soc := l.map (fun k => (k.soc : Int))
  let mean : Rat := rdiv ((soc.sum : Int) : Rat) ((l.length : Nat) : Rat)
  let sorted := sortAsc soc
  let z : Sess := (c.sx x.h r s).sess.getD { num := 0, freq := 0, frame0 := 0, ms0 := 0 }
  leBytes 4 x.f ++ (four.map (fun e => leBytes 4 (toField 32 e.2))).flatten
    ++ (four.map (fun e => leBytes 2 (toField 16 (e.1 * 10)))).flatten
    ++ leBytes 2 (toField 16 mean) ++ leBytes 2 (sorted.headD 0).toNat ++ leBytes 2 (sorted.getLastD 0).toNat
    ++ leBytes 2 l.length ++ leBytes 2 (x.sumFlags m c r s l) ++ leBytes 2 0
    ++ leBytes 4 z.xc ++ leBytes 4 z.xs ++ leBytes 4 z.x ++ leBytes 4 z.n
    ++ leBytes 2 (Config.f16 (f32Val z.cs)) ++ leBytes 2 (Config.f16 (f32Val z.sn)) ++ leBytes 4 x.f

/-- The strings of the maps at the pass's frame. -/
def Run.strings (x : Run) (c : Ctl) : List (Nat × Nat) :=
  ((List.range 32).map (fun r => (x.map c r).map (fun e => (r, e.slot)))).flatten

/-- The copy of the frame: every entry copied from the other copy, those of strings updated written anew. -/
def Run.summaries (x : Run) (c : Ctl) (done : List Nat) (m : Mem) : Mem :=
  let base := summaryBase x.h (x.f % 2)
  let m' := memCopy m (summaryBase x.h ((x.f + 1) % 2)) base 0x10000
  (x.strings c).foldl (fun m' e =>
    if (x.cells c e.1 e.2).any (fun i => done.contains i) then
      memStore m' (base + (e.1 * 32 + e.2) * 64) (x.summary m c e.1 e.2)
    else m') m'

/-! ## The end of a pass (R197, R204, R205, R211, R220) -/

/-- The string's medians, the top re-arm, the rest request and the age event. -/
def Run.stringEnd (x : Run) (m : Mem) (anch : List (Nat × Nat)) (r s : Nat) (c : Ctl) : Ctl :=
  let pr := x.prof m c r s
  let l := (x.used m c r s).map (fun i => (i, Cell.load m (cellAddr x.p x.h i)))
  let rs := l.map (fun e => Config.fix (rdiv e.2.rs (pr.kT e.2.tc) * 1000000000))
  let cap := l.map (fun e => (e.2.cap : Int))
  let mine := anch.filter (fun e => l.any (fun k => k.1 == e.1))
  let mean : Int := (l.map (fun e => (e.2.soc : Int))).sum / (l.length : Int)
  let y := c.sx x.h r s
  let y := match x.charge m c r s x.f with
    | some q => { y with stands := (x.f, q) :: y.stands.take 31 }
    | none => y
  let y := { y with
    rsMed := median rs, rsMad := (mad rs : Int), capMed := median cap, capMad := (mad cap : Int)
    topUsed := y.topUsed || mine.any (fun e => e.2 == 2), topArmed := y.topArmed || (l.length != 0 && decide (mean < 9000)) }
  let c := c.setSx x.h r s y
  let live := l.filter (fun e => !e.2.flag cfExcluded)
  let socs := live.map (fun e => (e.2.soc : Int))
  let z : Rat := (median socs : Rat) / 10000
  let tc : Rat := (median (live.map (fun e => e.2.tCore)) : Rat)
  let old := live.any (fun e => decide (c.get x.h EST_ANCHOR_REST_AGE * 3600 < e.2.age))
  let req := bit (c.get x.h EST_REST_REQ_STRING r) s
  let setReq : Bool → Ctl → Ctl := fun v c =>
    c.put x.h EST_REST_REQ_STRING (setBit (c.get x.h EST_REST_REQ_STRING r) s v) r
  let c :=
    if mine ≠ [] then (setReq false c).setSx x.h r s { y with reqAt := none, blocked := 0 }
    else if !req && old && decide (y.blocked ≤ c.optime) && pr.steep z tc then
      x.event m ((setReq true c).setSx x.h r s { y with reqAt := some c.optime }) r s 0x2020
    else c
  let limit := c.get x.h EST_ANCHOR_AGE_LIMIT * 3600
  let exceeded := live.filter (fun e => decide (limit < e.2.age))
  let y := c.sx x.h r s
  match y.ageAt with
  | some a =>
    if l.all (fun e => decide (e.2.age * 1000 < c.optime - a)) then c.setSx x.h r s { y with ageAt := none } else c
  | none =>
    if exceeded = [] then c
    else x.event m (c.setSx x.h r s { y with ageAt := some c.optime }) r s 0x2022 (leBytes 4 exceeded.length)

/-- Stale blocks all of whose cells have had an anchor since the mark are cleared from the next frame (R220). -/
def Run.staleEnd (x : Run) (c : Ctl) : Ctl :=
  (x.blocks c).foldl (fun (c : Ctl) e =>
    let key := blkKey x.h e.1 e.2
    if c.flag x.h RING_BLK_STALE e.1 e.2 && !c.staleDue.contains key
        && (List.range 16).all (fun n => (c.cx (key * 16 + n)).anchored) then
      { c with staleDue := key :: c.staleDue }
    else c) c

/-- The counts of EST_CELLS. -/
def Run.counts (x : Run) (m : Mem) (c : Ctl) : Ctl :=
  let l := validCells m c x.p x.h
  let limit := c.get x.h EST_ANCHOR_AGE_LIMIT * 3600
  let sat : Nat → Nat := fun n => if n < 65536 then n else 65535
  (c.put x.h EST_CELLS_OLD_ANCHOR (sat (l.filter (fun i => decide (limit < memNat m (cellAddr x.p x.h i + 0x48) 4))).length)).put
    x.h EST_CELLS_FLAGGED (sat (l.filter (fun i => bit (x.word m i) cfFlagged)).length)

/-- The anchors of a pass start their commits: a top anchor that of its string, any other that of its cell (R216). -/
def Run.commits (x : Run) (c : Ctl) (anch : List (Nat × Nat)) : Ctl :=
  let tops := (x.strings c).filter (fun e => (x.cells c e.1 e.2).any (fun i => anch.contains (i, 2)))
  let topCells := (tops.map (fun e => (x.cells c e.1 e.2).map (fun i => x.id i))).flatten
  let others := (anch.filter (fun e => e.2 != 2)).map (fun e => x.id e.1)
  let c := if topCells = [] then c else c.startCommit x.p 1 (some topCells)
  if others = [] then c else c.startCommit x.p 2 (some others)

/-- The records a pass published are mirrored into the partner's carry-record area (R453). -/
def Run.mirror (x : Run) (done : List Nat) (z : MC) : MC :=
  let q := partner x.p
  if !z.2.hasCarry || x.h != x.p || !z.2.running q then z
  else
    (done.foldl (fun m i => memCopy m (cellAddr x.p x.p i) (cellAddr q x.p i) 256) z.1, z.2.put q CARRY_MIRROR_VALUE x.f)

/-- The pass over one section. -/
def Run.pass (x : Run) (lvl : Nat) (z : MC) : MC :=
  let bs := x.blocks z.2
  let z := (x.clearAbsent z.1 z.2, z.2)
  let each : (Nat → Nat → Nat → MC → MC) → MC → MC := fun f z =>
    bs.foldl (fun z e => forN 16 (fun n z => f e.1 e.2 n z) z) z
  let z := each (fun r b n z => x.restore r b n z) z
  let z := bs.foldl (fun z e => x.identity e.1 e.2 z) z
  let z := each (fun r b n z => x.init r b n z) z
  let z := (x.strings z.2).foldl (fun z e => x.string e.1 e.2 z) (x.restsOver z)
  let y := bs.foldl (fun (y : Pass) e => (List.range 16).foldl (fun y n => x.cell lvl e.1 e.2 n y) y) { z := z }
  let z := (x.strings y.z.2).foldl (fun z e => x.session lvl e.1 e.2 (x.sessOthers lvl y.done e.1 e.2 z)) y.z
  let c := (x.strings z.2).foldl (fun (c : Ctl) e => x.stringEnd z.1 y.anch e.1 e.2 c) z.2
  let c := x.counts z.1 (x.staleEnd (x.commits c y.anch))
  x.mirror y.done (x.summaries c y.done z.1, c)

/-- Event 0x2052 once no ring enumerates and no cell of the section waits for its values any more (R219). -/
def Run.restored (x : Run) (m : Mem) (c : Ctl) : Ctl :=
  let e := c.estOf x.p
  let left := (x.blocks c).any (fun k => (List.range 16).any (fun i => !c.liveCell m x.p x.h (k.1 * 8192 + k.2 * 16 + i)))
  if e.restored ∨ left ∨ x.blocks c = [] ∨ anyN 32 (fun r => c.rstate x.h r == rgEnum) then c
  else
    let c := c.setEst x.p { e with initialised := 0, restored := true }
    if e.initialised = 0 then c else c.event x.p 0x06 0x2052 0 (leBytes 4 e.initialised)

/-- The highest T_CORE over the valid cells of each container goes into its loop input, unless that has a CAN source (R268,
R269). -/
def Run.coreFeed (x : Run) (m : Mem) (c : Ctl) : Ctl :=
  forN 32 (fun k (c : Ctl) =>
    if !c.flag x.h BAL_CONT_VALID k || c.get x.h LOOP_IN_MAP_SRC (224 + k) != 0 then c
    else
      let a := c.get x.h BAL_CONT_RING_A k
      let b := if c.flag x.h BAL_CONT_TWO k then c.get x.h BAL_CONT_RING_B k else a
      let l := ((validCells m c x.p x.h).filter (fun i => i / 8192 == a || i / 8192 == b)).map (fun i =>
        toSigned 16 (memNat m (cellAddr x.p x.h i + 0x24) 2))
      match l with
      | [] => c
      | v :: r =>
        let top := r.foldl (fun w u => if w < u then u else w) v
        (c.putInt x.h LOOP_IN_VALUE (roundAway (top * 65536) 100) (224 + k)).incMod x.h LOOP_IN_UPDATES (224 + k)) c

/-- The pass of frame `f` of a tile whose latest complete frame is `last`, over its own section and the one it serves (R184,
R193, R212, R221, R222). -/
def estimatorRun (t f last : Nat) (x : MC) : MC :=
  let c := x.2
  let lvl := c.get t PWR_LADDER_LEVEL
  let c := c.timelyLock t
  let e := c.estOf t
  let c := (c.put t EST_STATUS_LEVEL lvl).setEst t { e with next := some ((f + 1) % 2 ^ 32) }
  let z := (c.sections t).foldl (fun z h => Run.pass { p := t, h := h, f := f } lvl z) (x.1, c)
  let own : Run := { p := t, h := t, f := f }
  let z := z.on (fun c =>
    let e := c.estOf t
    let new := ((own.blocks c).map (fun k => k.1 * 512 + k.2)).filter (fun k => !e.loaded.contains k)
    c.setEst t { e with reload := none, loaded := e.loaded ++ new })
  let c := own.restored z.1 z.2
  let c := (c.sections t).foldl (fun (c : Ctl) h => Run.coreFeed { p := t, h := h, f := f } z.1 c) c
  let left := (frameDiff last f).toNat
  let e := c.estOf t
  let c := (c.put t EST_PASS_FRAME f).put t EST_STATUS_BACKLOG (if left < 65536 then left else 65535)
  let c := c.setEst t { e with passed := true, backlogged := e.backlogged && left != 0 }
  let c := { c with planDue := t :: c.planDue.filter (fun k => k != t) }
  (z.1, c.telemTrigger t 1)

/-- Every string of a tile's sections over frames its estimator skips. -/
def skipFrames (t first last : Nat) (x : MC) : MC :=
  (x.2.sections t).foldl (fun x h =>
    let y : Run := { p := t, h := h, f := last }
    (y.strings x.2).foldl (fun x e => y.skipped first last e.1 e.2 x) x) x

/-- ESTIMATOR_PASS: the pass of the oldest frame not yet passed; frames that have left the history are skipped (R184, R185,
R193, R212, R216, R221, R222). -/
def execEstimatorPass (t : TileId) (s : State) : Host.Outcome State Fault Refusal :=
  s.onTileM t (fun m c =>
    let last := c.get t SMP_LAST_COMPLETE_FRAME
    match (c.estOf t).next with
    | none => (m, c)
    | some n =>
      let back := frameDiff last n
      if !c.running t || c.systemHeld t || decide (back < 0) then (m, c)
      else if 1198 < back then
        let c := c.event t 0x06 0x2002 0 (leBytes 4 (back - 1198).toNat)
        estimatorRun t ((last + 2 ^ 32 - 1198) % 2 ^ 32) last (skipFrames t n ((last + 2 ^ 32 - 1199) % 2 ^ 32) (m, c))
      else estimatorRun t n last (m, c))

/-! ## Requests and commands (R204, R220, R224) -/

/-- REST_REQUEST_EXPIRY: 60 min without a grant (R204). -/
def execRestRequestExpiry (t : TileId) (r : RingId) (str : StringId) (s : State) : Host.Outcome State Fault Refusal :=
  s.onTileR t (fun m c =>
    let x : Run := { p := c.execOf t, h := t, f := c.get (c.execOf t) EST_PASS_FRAME }
    if !c.systemHeld x.p && bit (c.get t EST_REST_REQ_STRING r) str && !bit (c.get t DISP_REST_GNT_STRING r) str then
      let c := c.put t EST_REST_REQ_STRING (setBit (c.get t EST_REST_REQ_STRING r) str false) r
      x.event m (c.setSx t r str { c.sx t r str with reqAt := none, blocked := c.optime + 3600000 }) r str 0x2021
    else c)

/-- A write of EST_STALE_CLEAR. -/
def Ctl.staleClearWrite (c : Ctl) (o : Origin) (t w : Nat) : Ctl × Nat :=
  let b := w % 16384
  if !c.isSystem o then (c.violate o (modAddr t 0x200060030) true, eOk)
  else if !c.flag t RING_BLK_STALE (b / 512) (b % 512) then (c, eState)
  else ({ c with staleDue := (t * 16384 + b) :: c.staleDue.filter (fun k => k != t * 16384 + b) }, eOk)

/-- EST_STALE_CLEAR. -/
def execEstStaleClear (t : TileId) (o : Origin) (w : Word) (s : State) : Host.Outcome State Fault Refusal :=
  s.onAccess o (fun c => c.access o t 0x06 (fun c => c.staleClearWrite o t w.toNat))

/-- EST_ANCHOR_REQUEST: `est.anchor_request`. -/
def execEstAnchorRequest (d : Datagram) (s : State) : Host.Outcome State Fault Refusal :=
  s.cmd 0x2001 d (fun q m c => guarded q engRoles 6 m c (
    let t := q.arg 0 1
    let r := q.arg 1 1
    let mask := q.arg 2 4
    let bad := anyN 32 (fun i => bit mask i && !c.flag t RING_SMAP_ACT_VALID r i)
    if c.ringAbsent t r || bad then .err m c eAbsent
    else
      let x : Run := { p := t, h := t, f := c.get t EST_PASS_FRAME }
      let new := (List.range 32).filter (fun i => bit mask i && !bit (c.get t EST_REST_REQ_STRING r) i)
      let c := new.foldl (fun (c : Ctl) i =>
        let c := c.put t EST_REST_REQ_STRING (setBit (c.get t EST_REST_REQ_STRING r) i true) r
        x.event m (c.setSx t r i { c.sx t r i with reqAt := some c.optime }) r i 0x2020) c
      { mem := m, ctl := c }))

/-- The tiles an argument names: one, or every fitted tile for 0xFF. -/
def Ctl.named (c : Ctl) (t : Nat) : List Nat := if t = 0xFF then List.range c.tiles else [t]

/-- Whether an argument names a tile that is absent or does not run. -/
def Ctl.namedAbsent (c : Ctl) (t : Nat) : Bool := (c.named t).any (fun k => !c.running k)

/-- The checks of a chemistry profile's bytes (R213, R224). -/
def profCode (b : List Byte) : Nat :=
  let u : Nat → Nat := fun o => leNat ((b.drop o).take 2)
  let bp : Nat → Int := fun k => toSigned 16 (u (2 * k))
  firstErr [
    (crc32c 0xFFFFFFFF (b.take 0x824) != leNat ((b.drop 0x824).take 4), eIntegrity),
    (anyN 7 (fun k => decide (bp (k + 1) ≤ bp k))
      || anyN 800 (fun k => decide (u (0x010 + 2 * (k / 100 * 101 + k % 100 + 1)) < u (0x010 + 2 * (k / 100 * 101 + k % 100))))
      || decide (u 0x7E0 ≤ u 0x7E2) || decide (u 0x7F2 ≤ u 0x7F0), eRange)]

/-- Whether a string of `n` cells at `v` × 100 µV would pass 1,500 V (R15). -/
def over1500 (n v : Nat) : Bool := decide (15000000 < n * v)

/-- EST_PROFILE: `est.profile`; the handle is consumed whatever the outcome (R370). -/
def execEstProfile (d : Datagram) (s : State) : Host.Outcome State Fault Refusal :=
  s.cmd 0x2002 d (fun q m c => Eff.names (q := q) (pos := 2) (guarded q engRoles 3 m c (
    let x := c.takeBulk q (q.arg 2 1)
    let b := x.2.1
    let c := x.2.2
    let k := q.arg 1 1
    let l := c.named (q.arg 0 1)
    let code := profCode b
    let clash := l.any (fun t => anyN 1024 (fun i =>
      c.flag t RING_SMAP_ACT_VALID (i / 32) (i % 32) && c.get t RING_SMAP_ACT_PROFILE (i / 32) (i % 32) == k
        && over1500 ((c.get t RING_SMAP_ACT_LAST (i / 32) (i % 32) + 1 - c.get t RING_SMAP_ACT_FIRST (i / 32) (i % 32)) * 16)
          (leNat ((b.drop 0x7E0).take 2))))
    let got := x.1 == eOk
    let e := firstErr [(x.1 == eFormat || (got && b.length != 0x828), eFormat), (c.namedAbsent (q.arg 0 1), eAbsent),
      (x.1 == eNotsup, eNotsup), (got && code == eIntegrity, eIntegrity),
      (x.1 == eRange || decide (7 < k) || (got && code == eRange), eRange), (clash, eConflict)]
    if e ≠ eOk then .err m c e
    else
      { mem := m, ctl := l.foldl (fun (c : Ctl) t => { c with
          profiles := tabSet c.profiles (t * 8 + k) b
          profDue := (t * 8 + k) :: c.profDue.filter (fun n => n != t * 8 + k) }) c })))

/-- EST_CELL_INIT: `est.cell_init`. -/
def execEstCellInit (d : Datagram) (s : State) : Host.Outcome State Fault Refusal :=
  s.cmd 0x2003 d (fun q m c => guarded q engRoles 6 m c (
    let t := q.arg 0 1
    let r := q.arg 1 1
    let b := q.arg 2 2
    if c.ringAbsent t r || decide (512 ≤ b) || !c.present? t r b then .err m c eAbsent
    else
      { mem := m, ctl := forN 16 (fun n (c : Ctl) =>
          if bit (q.arg 4 2) n then c.setCx (cellId t r b n) { c.cx (cellId t r b n) with initDue := true } else c) c }))

/-- LV_BACKUP: `lv.backup`; the response follows the commits. -/
def lvBackup (q : Req) (m : Mem) (c : Ctl) : Eff :=
  guarded q opRoles 1 m c (
    let l := c.named (q.arg 0 1)
    let e := firstErr [(c.namedAbsent (q.arg 0 1), eAbsent), (l.any (fun t => c.committing t [4, 7]), eBusy)]
    if e ≠ eOk then .err m c e
    else
      let c := l.foldl (fun (c : Ctl) t => c.startCommit t 8 none) c
      { mem := m, ctl := { c with backups := c.backups ++ [(q.id, q.seq, l)] }, later := true })

/-- LV_BACKUP: `lv.backup`. -/
def execLvBackup (d : Datagram) (s : State) : Host.Outcome State Fault Refusal := s.cmd 0x2010 d lvBackup

/-- LV_RESTORE: `lv.restore`; the cells it initialises are counted for event 0x2052 as those of a start-up are (R219, R224). -/
def execLvRestore (d : Datagram) (s : State) : Host.Outcome State Fault Refusal :=
  s.cmd 0x2011 d (fun q m c => guarded q engRoles 2 m c (
    let l := c.named (q.arg 0 1)
    let src := q.arg 1 1
    let none? := src == 1 && l.any (fun t => !anyN 262144 (fun i => (lvSource m t i true false).isSome))
    let mode := c.get 0 DISP_CTRL_MODE
    let e := firstErr [(c.namedAbsent (q.arg 0 1) || none?, eAbsent), (decide (1 < src), eRange),
      (mode != 1 && mode != 2, eState)]
    if e ≠ eOk then .err m c e
    else { mem := m, ctl := l.foldl (fun (c : Ctl) t => c.setEst t { c.estOf t with reload := some src, restored := false }) c }))

end Sys2Proof.Machine
end

