-- ==== Sys2Proof/Machine/Balancing.lean ====
section
/-! DEFINITION. Machine/Balancing.lean: the balancing planner, container heat budgets, wire learning, bleed charge, BDUTY and
the balancing commands (R106, R226 to R245). -/
namespace Sys2Proof.Machine

/-! ## Duties (R230 to R232) -/

/-- A record of the latest complete frame of a block. -/
def Ctl.latest (c : Ctl) (t r b : Nat) : Nat := c.recordAddr t (c.get t SMP_LAST_COMPLETE_FRAME) (r * 512 + b)

/-- Whether a record at an address is MISSING. -/
def recMissing (m : Mem) (a : Nat) : Bool := bit (memNat m a 2) 15

/-- The duty cap of a die temperature in whole °C. -/
def dieCapOf (d : Int) : Nat :=
  if d ≤ 70 then 100
  else if d ≤ 95 then ((100 * 25 - 80 * (d - 70)) / 25).toNat
  else if d ≤ 110 then (20 * (110 - d) / 15).toNat
  else 0

/-- The duty cap of a block by its die temperature in frame L (R231). -/
def dieCap (m : Mem) (c : Ctl) (t r b : Nat) : Nat :=
  let a := c.latest t r b
  if recMissing m a then 0 else dieCapOf (toSigned 16 (memNat m (a + 0x34) 2) / 100)

/-- The quiet cap of a block not set for measure-while-balancing (R232). -/
def Ctl.quietCap (c : Ctl) (t : Nat) : Nat :=
  let n := c.periodMs * 10
  100 * (n - c.get t BAL_CFG_QUIET - 5) / n

/-- Both caps on a duty. -/
def capped (m : Mem) (c : Ctl) (t r b d : Nat) : Nat :=
  let d := if dieCap m c t r b < d then dieCap m c t r b else d
  if c.flag t RING_BLK_MWB r b then d else if c.quietCap t < d then c.quietCap t else d

/-- Whether two adjacent cells of a map are set. -/
def adjacent (map : Nat) : Bool := anyN 15 (fun n => bit map n && bit map (n + 1))

/-- BDUTY; in MANUAL its duty is a manual duty like one of `bal.manual` (R106, R240, R241, R454). Bits [15:7] of the duty
word that are not zero are answered with E_FORMAT, a code the rule does not name (DESIGN CHOICE, assumption 85). -/
def execBduty (t : TileId) (k : CoreId) (d a : Fin 32) (s : State) : Host.Outcome State Fault Refusal :=
  s.onTileR t (fun m c => c.instr t k (wordD d a 0x04 0x00) (decide (a.val % 2 = 1)) (fun i c =>
    let w := ((c.task t i).reg a).toNat
    let v := ((c.task t i).reg (a.val + 1)).toNat
    let r := w % 16384 / 512
    let b := w % 512
    let map := v / 65536
    let ok := match c.targetTile t w with | some g => c.present? g r b | none => false
    let e := firstErr [(bitsOf v 7 9 != 0, eFormat), (!ok, eAbsent), (decide (100 < v % 128), eRange),
      (bit w 14 || (c.level t k == 0 && c.get t BAL_CTRL_MODE != 2), eState), (c.flag t RING_BLK_QUAR r b, eLocked),
      (adjacent map && !c.flag t BAL_RING_CFG_ADJACENT_PERMIT r, eConflict)]
    if e ≠ eOk then c.retireCode t i d e
    else
      let cap := dieCap m c t r b
      let duty := if cap < v % 128 then cap else v % 128
      let k := blkKey t r b
      let c := if c.get t BAL_CTRL_MODE ≠ 2 then c
        else { c with manual := if map = 0 then tabErase c.manual k else tabSet c.manual k { map := map, duty := v % 128 } }
      (c.dutySlot t r b { map := map, duty := duty, alt := !c.flag t BAL_RING_CFG_ADJACENT_PERMIT r }).retire t i d
        (BitVec.ofNat 32 (duty * 256))))

/-! ## Containers (R233, R234) -/

/-- The container of a ring. -/
def Ctl.contOf (c : Ctl) (t r : Nat) : Option Nat :=
  (List.range 32).find? (fun k => c.flag t BAL_CONT_VALID k
    && (c.get t BAL_CONT_RING_A k == r || (c.flag t BAL_CONT_TWO k && c.get t BAL_CONT_RING_B k == r)))

/-- The budget of a ring's container in W; zero without an entry or while it is stale. -/
def Ctl.budgetOf (c : Ctl) (t r : Nat) : Nat :=
  match c.contOf t r with
  | some k => if c.flag t BAL_HEAT_STALE k then 0 else c.get t BAL_HEAT_BUDGET k
  | none => 0

/-- A heat-budget frame of a container (R233). -/
def Ctl.heatFrame (c : Ctl) (t k : Nat) (data : List Byte) : Ctl :=
  if data.length < 4 then c
  else if bit (data.getD 3 0).toNat 0 then
    let c := (c.rephase t k).put t BAL_HEAT_BUDGET (beNat (data.take 2)) k |>.put t BAL_HEAT_STALE 0 k |>.put t BAL_HEAT_AGE 0 k
    if c.heatEp.contains (t * 32 + k) then
      Ctl.event { c with heatEp := c.heatEp.filter (fun n => n != t * 32 + k) } t 0x07 0x3003
        (cellId t (c.get t BAL_CONT_RING_A k) 0)
    else c
  else c.put t BAL_HEAT_BUDGET 0 k

/-- HEAT_BUDGET_STALE: BUDGET_AGE has passed without a valid frame. -/
def execHeatBudgetStale (t : TileId) (k : Fin 32) (s : State) : Host.Outcome State Fault Refusal :=
  s.onTile t (fun c =>
    let n := t.val * 32 + k.val
    if !c.running t || !c.flag t BAL_CONT_VALID k || c.heatEp.contains n then c
    else
      let c := c.put t BAL_HEAT_BUDGET 0 k |>.put t BAL_HEAT_STALE 1 k
      Ctl.event { c with heatEp := n :: c.heatEp } t 0x07 0x3002 (cellId t (c.get t BAL_CONT_RING_A k) 0))

/-! ## The block state table (R245) -/

/-- The command last issued to a block. -/
def tableDuty (m : Mem) (t r b : Nat) : Nat × Nat :=
  let a := blockState t (r * 512 + b)
  (memNat m (a + 0x24) 2, memNat m (a + 0x22) 1)

/-- A flag of the entry of a block: 0 ZERO_SENT, 1 WITHHELD, 2 MANUAL. -/
def tableFlag (m : Mem) (t r b k : Nat) (v : Bool) : Mem :=
  let a := blockState t (r * 512 + b) + 0x26
  memPut m a 2 (setBit (memNat m a 2) k v)

/-- A duty issued to a block that is not quarantined: its slot, and the entry of the table (R143, R245). -/
def issue (z : MC) (t r b map duty : Nat) : MC :=
  let a := blockState t (r * 512 + b)
  let m := memPut (memPut (memPut z.1 (a + 0x22) 1 duty) (a + 0x24) 2 map) (a + 0x38) 4 (z.2.get t SMP_FRAME_NUM_FRAME)
  let m := if map = 0 then m else tableFlag m t r b 0 false
  if z.2.flag t RING_BLK_QUAR r b then z
  else (m, z.2.dutySlot t r b { map := map, duty := duty, alt := !z.2.flag t BAL_RING_CFG_ADJACENT_PERMIT r })

/-- Whether a block that can be sent a duty may hold a command: the one last issued by the planner, or by BDUTY. -/
def holds (z : MC) (t r b : Nat) : Bool :=
  !z.2.flag t RING_BLK_QUAR r b
    && ((tableDuty z.1 t r b).1 != 0 || (match tabFind (z.2.rng t r).duty b with | some d => d.map != 0 | none => false)
      || (match tabFind (z.2.rng t r).slots b with | some d => d.map != 0 | none => false))

/-- The enumerated blocks of a tile. -/
def Ctl.allBlocks (c : Ctl) (t : Nat) : List (Nat × Nat) :=
  ((List.range 32).map (fun r => ((List.range 512).filter (fun b => c.present? t r b)).map (fun b => (r, b)))).flatten

/-- A zero map to a block that holds a non-zero command; in mode OFF it is the one owed to a withheld block (R235, R245). -/
def zeroBlock (t : Nat) (z : MC) (e : Nat × Nat) : MC :=
  if !holds z t e.1 e.2 then z
  else
    let z := issue z t e.1 e.2 0 0
    if z.2.get t BAL_CTRL_MODE = 0 then (tableFlag z.1 t e.1 e.2 0 true, z.2) else z

/-- A zero map to every block with a non-zero command (R240). -/
def zeroAll (t : Nat) (z : MC) : MC := (z.2.allBlocks t).foldl (zeroBlock t) z

/-! ## When balancing is withheld (R235) -/

/-- Whether a string's summary shows REST_ACTIVE or SESSION. -/
def stringQuiet (m : Mem) (t n r s : Nat) : Bool :=
  let f := memNat m (summaryBase t (n % 2) + (r * 32 + s) * 64 + 0x24) 2
  bit f 3 || bit f 4

/-- Withheld at ring, container or block scope. -/
def blockWithheld (m : Mem) (c : Ctl) (t r b : Nat) : Bool :=
  let k := blkKey t r b
  let x := tabGet {} c.bursts t
  !c.ringUp t r || c.get t BAL_RING_CFG_R_BLEED r == 0 || bit (c.get t LIMIT_RING_TRIP_RING) r || c.budgetOf t r == 0
    || (c.stringOf t r b).isNone || c.flag t RING_BLK_QUAR r b || c.flag t RING_BLK_STALE r b
    || burstMask (x.next.getD x.list) k != 0 || recMissing m (c.latest t r b) || (tabGet {} c.learns (t * 32 + r)).block == some b

/-- Withheld at string scope. -/
def stringWithheld (m : Mem) (c : Ctl) (t n r b : Nat) : Bool :=
  match c.stringOf t r b with | some s => stringQuiet m t n r s | none => true

/-- Withheld at cell scope. -/
def cellWithheld (m : Mem) (c : Ctl) (t r b n : Nat) : Bool :=
  let a := cellAddr t t (r * 8192 + b * 16 + n)
  let w := memNat m a 4
  let pr : Prof := { m := m, a := profAddr t (c.profOf t r b) }
  !c.liveCell m (c.execOf t) t (r * 8192 + b * 16 + n) || decide (memNat m (a + 8) 2 < c.get t BAL_TARGET_SOC_MIN * 10)
    || decide (c.get t BAL_TARGET_SIGMA_MAX < memNat m (a + 0xA) 2) || bit w cfExcluded || bit w cfUntrusted || bit w cfStale
    || bit w cfNoString || bit (memNat m (a + 0x3E) 2) 0 || decide (memNat m (a + 4) 2 < pr.u16 0x7E2)

/-! ## The plan of mode AUTO (R227, R230, R234) -/

/-- A block planned: its map, the largest excess in it, ΣV² of its cells in (100 µV)². -/
structure Planned where
  r : Nat
  b : Nat
  map : Nat
  excess : Int
  sumV2 : Nat
deriving DecidableEq

/-- The state of charge of a cell as published. -/
def socOf (m : Mem) (t r b n : Nat) : Nat := memNat m (cellAddr t t (r * 8192 + b * 16 + n) + 8) 2
/-- V_LAST of a cell. -/
def vLastOf (m : Mem) (t r b n : Nat) : Nat := memNat m (cellAddr t t (r * 8192 + b * 16 + n) + 4) 2

/-- ΣV² over the cells of a map. -/
def sumV2 (m : Mem) (t r b map : Nat) : Nat :=
  (List.range 16).foldl (fun s n => if bit map n then s + vLastOf m t r b n * vLastOf m t r b n else s) 0

/-- The map of a block in cycle `cyc` with the reference of its string. -/
def planBlock (m : Mem) (c : Ctl) (t cyc r b zref : Nat) (free : Nat → Bool) : Planned :=
  let e : Nat → Int := fun n => (socOf m t r b n : Int) - zref - (c.get t BAL_TARGET_BAND : Nat)
  let phase : Nat → Bool := fun n => c.flag t BAL_RING_CFG_ADJACENT_PERMIT r || n % 2 == cyc % 2
  let l := (List.range 16).filter (fun n => free n && decide (0 < e n) && phase n)
  let map := maskN 16 (fun n => l.contains n)
  { r := r, b := b, map := map, excess := l.foldl (fun x n => if x < e n then e n else x) 0, sumV2 := sumV2 m t r b map }

/-- The blocks a string bleeds in cycle `cyc`: the reference is the lowest state of charge of its eligible cells; with
fewer than two it is not balanced. -/
def planString (m : Mem) (c : Ctl) (t n cyc r s : Nat) : List Planned :=
  let a := c.get t RING_SMAP_ACT_FIRST r s
  let bs := ((List.range (c.get t RING_SMAP_ACT_LAST r s + 1 - a)).map (fun i => a + i)).filter (fun b =>
    c.present? t r b && !blockWithheld m c t r b && !stringQuiet m t n r s)
  let free : Nat → Nat → Bool := fun b i => !cellWithheld m c t r b i
  let socs := (bs.map (fun b => ((List.range 16).filter (free b)).map (fun i => socOf m t r b i))).flatten
  if socs.length < 2 then []
  else
    let zref := socs.foldl (fun x y => if y < x then y else x) (socs.headD 0)
    (bs.map (fun b => planBlock m c t cyc r b zref (free b))).filter (fun p => p.map != 0)

/-- The order of R234: largest excess first, then lower ring, then lower block. -/
def Planned.before (p q : Planned) : Bool :=
  decide (q.excess < p.excess) || (p.excess == q.excess && decide (p.r * 512 + p.b < q.r * 512 + q.b))

/-- Insertion in that order. -/
def insertPlan (p : Planned) : List Planned → List Planned
  | [] => [p]
  | q :: l => if p.before q then p :: q :: l else q :: insertPlan p l

/-- The dissipation of a planned block at a duty, in W (R234). -/
def Planned.watts (c : Ctl) (t : Nat) (p : Planned) (d : Nat) : Rat :=
  rdiv ((d * p.sumV2 : Nat) : Rat) ((c.get t BAL_RING_CFG_R_BLEED p.r * 1000000000 : Nat) : Rat)

/-- Duties in order while the budget lasts: the first block that does not fit gets the largest whole percentage that does,
those after it none. -/
def allot (m : Mem) (c : Ctl) (t : Nat) : List Planned → (left : Rat) → (open_ : Bool) → List (Planned × Nat) × Rat
  | [], left, _ => ([], left)
  | p :: l, left, open_ =>
    let d := capped m c t p.r p.b 100
    let fits := (List.range (d + 1)).filter (fun k => decide (p.watts c t k ≤ left))
    let d' := if open_ then fits.getLastD 0 else 0
    let y := allot m c t l (left - p.watts c t d') (open_ && d' == d)
    ((p, d') :: y.1, y.2)

/-! ## Wire learning (R238) -/

/-- The learning state of a ring. -/
def Ctl.wires (c : Ctl) (t r : Nat) : Learn := tabGet {} c.learns (t * 32 + r)
/-- That of a ring changed. -/
def Ctl.setLearn (c : Ctl) (t r : Nat) (x : Learn) : Ctl :=
  { c with learns := tabSet c.learns (t * 32 + r) x }.put t BAL_RING_CFG_WIRE_BUSY (b2n (x.block.isSome || x.queue != [])) r

/-- Learning queued for blocks of a ring. -/
def Ctl.queueLearn (c : Ctl) (t r : Nat) (l : List Nat) : Ctl :=
  let x := c.wires t r
  c.setLearn t r { x with queue := x.queue ++ l }

/-- Whether a pair of records may be used: both FRESH, neither OW_SUSPECT nor OW_CONFIRMED, and the string's current within
0.01 × C_NOM. -/
def pairOk (m : Mem) (c : Ctl) (t r b f0 f1 : Nat) : Bool :=
  let q : Nat → Nat := fun f => memNat m (c.recordAddr t f (r * 512 + b) + 3) 1
  let good : Nat → Bool := fun f => bit (q f) 0 && !bit (q f) 4 && !bit (q f) 7
  let pr : Prof := { m := m, a := profAddr t (c.profOf t r b) }
  let head := match c.stringOf t r b with | some s => c.get t RING_SMAP_ACT_FIRST r s | none => b
  let i : Nat → Int := fun f => toSigned 16 (memNat m (c.recordAddr t f (r * 512 + head) + 0x32) 2)
  good f0 && good f1 && decide ((i f1 - i f0).natAbs * 2000 ≤ pr.cNom)

/-- The estimates of a test cycle of cell `k`: wires and their (Δ − m) × R_BLEED over V; wires 0 and 16 under 17 and 18,
before the share of their neighbour. -/
def wireEstimates (m : Mem) (c : Ctl) (t r b k f0 f1 : Nat) : List (Nat × Int × Nat) :=
  let v : Nat → Nat → Nat := fun f n => memNat m (c.recordAddr t f (r * 512 + b) + 4 + 2 * n) 2
  let d : Nat → Int := fun n => (v f1 n : Int) - (v f0 n : Int)
  let mid := median (((List.range 16).filter (fun n => !(n == k || n + 1 == k || n == k + 1))).map d)
  let rb : Int := (c.get t BAL_RING_CFG_R_BLEED r : Nat)
  let one : Nat → Nat → List (Nat × Int × Nat) := fun w n => [(w, ((d n - mid) * rb, v f1 k))]
  (if 1 ≤ k then one k (k - 1) else []) ++ (if k ≤ 14 then one (k + 1) (k + 1) else [])
    ++ (if k = 0 then one 17 0 else []) ++ (if k = 15 then one 18 15 else [])

/-- The mean of estimates in 0.01 mΩ; none with fewer than two. -/
def wireMean (l : List (Int × Nat)) : Option Rat :=
  if l.length < 2 then none
  else some ((l.foldl (fun s e => s + rdiv ((e.1 : Rat) * 10000) (e.2 : Rat)) 0) / ((l.length : Nat) : Rat))

/-- The learned value of each wire; none where it fails. -/
def wireValue (est : Tab (List (Int × Nat))) (w : Nat) : Option Nat :=
  let mean : Option Rat :=
    if w = 0 ∨ w = 16 then
      match wireMean (tabGet [] est (if w = 0 then 17 else 18)), wireMean (tabGet [] est (if w = 0 then 1 else 15)) with
      | some e, some n => some (-e - n)
      | _, _ => none
    else wireMean (tabGet [] est w)
  match mean with
  | some v => if v < -100 ∨ 65534 < v then none else some (toField 16 v)
  | none => none

/-- A block's sequence is done: values stored, failures reported, the next block begins. -/
def learnDone (t r b : Nat) (z : MC) : MC :=
  let x := z.2.wires t r
  let a := blockState t (r * 512 + b)
  let m := (List.range 17).foldl (fun m w =>
    match wireValue x.est w with | some v => memPut m (a + 2 * w) 2 v | none => m) z.1
  let bad := (List.range 17).filter (fun w => (wireValue x.est w).isNone)
  let c := bad.foldl (fun (c : Ctl) _ =>
    (c.inc t BAL_COUNT_WIRE_FAIL).event t 0x07 0x3007 (cellId t r b)) z.2
  (memPut m (a + 0x23) 1 0xFF,
    (c.setLearn t r { queue := x.queue }).event t 0x07 0x3006 (cellId t r b))

/-- The record of a frame brings the result of cycle `j`; the sequence ends with that of cycle 127. A frame that has left the
history brings no estimate (R25, R238). -/
def learnResult (t r b : Nat) (z : MC) (e : Nat × Nat) : MC :=
  let n := e.1
  let j := e.2
  let x := z.2.wires t r
  let seen : Nat → Bool := fun f => decide (frameDiff (z.2.get t SMP_LAST_COMPLETE_FRAME) f ≤ 1198)
  let x := match x.refFrame with
    | some f0 =>
      if j % 2 = 1 ∧ seen f0 ∧ seen n ∧ pairOk z.1 z.2 t r b f0 n then
        { x with est := (wireEstimates z.1 z.2 t r b (j % 32 / 2) f0 n).foldl (fun l e =>
          tabSet l e.1 (tabGet [] l e.1 ++ [e.2])) x.est }
      else x
    | none => x
  let z := z.on (fun c => c.setLearn t r (if j % 2 = 0 then { x with refFrame := some n } else x))
  if j = 127 then learnDone t r b z else z

/-- The cycles logged for frames up to `n`, those a skipped pass left behind among them, bring their results in order. -/
def learnRecord (t r n : Nat) (z : MC) : MC :=
  let x := z.2.wires t r
  match x.block with
  | none => z
  | some b =>
    let due : Nat × Nat → Bool := fun e => decide (0 ≤ frameDiff n e.1)
    let z := z.on (fun c => c.setLearn t r { x with log := x.log.filter (fun e => !due e) })
    (x.log.filter due).foldl (learnResult t r b) z

/-- Whether a block is the one under learning, whose duties `learnPlan` issues; without a container it has none. -/
def Ctl.learning (c : Ctl) (t r b : Nat) : Bool := (c.wires t r).block == some b && (c.contOf t r).isSome

/-- The next cycle of a ring's learning is planned for cycle `cyc`: what it takes of the budget. It waits while the die cap
or the budget refuses duty 100 %, or the block is quarantined; after cycle 127 the block conducts no more. -/
def learnPlan (t r cyc : Nat) (left : Rat) (z : MC) : MC × Rat :=
  let x := z.2.wires t r
  let x := match x.block, x.queue with
    | none, b :: l => { x with block := some b, queue := l, cycle := 0, log := [], refFrame := none, est := [] }
    | _, _ => x
  let z := z.on (fun c => c.setLearn t r x)
  match x.block with
  | none => (z, left)
  | some b =>
    if ¬ z.2.ringUp t r ∨ z.2.get t BAL_CTRL_MODE = 0 then (z, left)
    else if 128 ≤ x.cycle ∨ z.2.flag t RING_BLK_QUAR r b then (if holds z t r b then issue z t r b 0 0 else z, left)
    else
      let k := x.cycle % 32 / 2
      let map := if x.cycle % 2 = 1 then 2 ^ k else 0
      let p : Planned := { r := r, b := b, map := map, excess := 0, sumV2 := sumV2 z.1 t r b map }
      let w := p.watts z.2 t 100
      let go := map == 0 || (capped z.1 z.2 t r b 100 == 100 && decide (w ≤ left))
      if ¬ go then (if holds z t r b then issue z t r b 0 0 else z, left)
      else
        let z := issue z t r b map (if map = 0 then 0 else 100)
        let z : MC := (memPut z.1 (blockState t (r * 512 + b) + 0x23) 1 x.cycle, z.2)
        (z.on (fun c => c.setLearn t r { x with cycle := x.cycle + 1, log := x.log ++ [((cyc + 1) % 2 ^ 32, x.cycle)] }),
          left - (if map = 0 then 0 else w))

/-! ## Bleed charge (R239) -/

/-- On-time of a block in a cycle in 0.01 ms: the duty it applied, with the limits of R239; the last refresh before a
watchdog stop is that of the last SET_DUTY that arrived. -/
def onTime (m : Mem) (c : Ctl) (t r b n : Nat) (d : Duty) : Nat :=
  let prev := (n + 2 ^ 32 - 1) % 2 ^ 32
  let ms := c.periodOf prev
  let on := ms * d.duty
  let q := ms * 100 - c.get t BAL_CFG_QUIET * 10 - 45
  let on := if !c.flag t RING_BLK_MWB r b && q < on then q else on
  let a := c.recordAddr t n (r * 512 + b)
  if bit (memNat m a 2) 2 then
    let last := tabGet (memNat m (blockState t (r * 512 + b) + 0x38) 4) (c.rng t r).stopFrom b
    let since : Int := frameDiff prev last * (ms : Int)
    let lim := (200000 - since * 100).toNat
    if lim < on then lim else on
  else on

/-- The charge of a cell in a cycle in 1/256 mC. -/
def bleedCharge (on v rb : Nat) : Nat := if rb = 0 then 0 else 256 * on * v / (100000 * rb)

/-- The charge the cells of a block bled in cycle n − 1 is posted. -/
def postBleed (p t r b n : Nat) (z : MC) : MC :=
  let prev := (n + 2 ^ 32 - 1) % 2 ^ 32
  match (tabGet [] z.2.cycles (t * 32 + r)).find? (fun e => e.1 == prev) with
  | none => z
  | some (_, l) =>
    match tabFind l b with
    | none => z
    | some d =>
      let c := z.2
      let on := onTime z.1 c t r b n d
      let a := c.recordAddr t n (r * 512 + b)
      (forN 16 (fun k m =>
        if bit (d.cells prev) k then
          let cell := cellAddr p t (r * 8192 + b * 16 + k)
          let v := if recMissing m a then memNat m (cell + 4) 2 else memNat m (a + 4 + 2 * k) 2
          let rest := blockState t (r * 512 + b) + 0x28 + k
          let q := memNat m rest 1 + bleedCharge on v (c.get t BAL_RING_CFG_R_BLEED r)
          memPut (memPut m rest 1 (q % 256)) (cell + 0xE0) 4 (memNat m (cell + 0xE0) 4 + q / 256)
        else m) z.1, c)

/-- WDOG_STOP reports of the records of a frame are counted (R229, R242). -/
def Ctl.wdogReports (m : Mem) (t n : Nat) (c : Ctl) : Ctl :=
  (c.allBlocks t).foldl (fun (c : Ctl) e =>
    let a := c.recordAddr t n (e.1 * 512 + e.2)
    if c.ringUp t e.1 && !recMissing m a && bit (memNat m a 2) 2 then
      (c.inc t BAL_COUNT_WDOG).event t 0x07 0x3005 (cellId t e.1 e.2)
    else c) c

/-! ## A run of the planner (R226) -/

/-- WITHHELD and MANUAL, the cycle number of a block not under learning, and the one zero map owed to a block that held a
non-zero command when it became withheld. -/
def markWithheld (t n : Nat) (manual : Bool) (z : MC) (e : Nat × Nat) : MC :=
  let r := e.1
  let b := e.2
  let off := decide (z.2.get t BAL_CTRL_MODE = 0)
  let hard := off || blockWithheld z.1 z.2 t r b
  let any := hard || stringWithheld z.1 z.2 t n r b
  let act := hard || (any && !manual)
  let a := blockState t (r * 512 + b) + 0x23
  let m := if (z.2.wires t r).block = some b ∨ memNat z.1 a 1 = 0xFF then z.1 else memPut z.1 a 1 0xFF
  let z := (tableFlag (tableFlag m t r b 1 any) t r b 2 (manual && (tabFind z.2.manual (blkKey t r b)).isSome), z.2)
  if act && holds z t r b && !z.2.learning t r b then
    let z := issue z t r b 0 0
    (tableFlag z.1 t r b 0 true, z.2)
  else z

/-- The duties of a container's blocks, issued; blocks with a command and none planned get a zero map. -/
def issueAll (t : Nat) (l : List (Planned × Nat)) (z : MC) : MC :=
  l.foldl (fun z e =>
    if e.2 ≠ 0 then issue z t e.1.r e.1.b e.1.map e.2
    else if holds z t e.1.r e.1.b then issue z t e.1.r e.1.b 0 0 else z) z

/-- The manual duties of a container, with the caps, scaled where they exceed its budget (R240). -/
def planManual (m : Mem) (c : Ctl) (t : Nat) (rings : List Nat) (budget : Rat) : List (Planned × Nat) × Bool :=
  let l := (c.manual.filter (fun e => e.1 / 16384 == t && rings.contains (e.1 / 512 % 32)
      && !blockWithheld m c t (e.1 / 512 % 32) (e.1 % 512))).map (fun e =>
    let r := e.1 / 512 % 32
    let b := e.1 % 512
    (({ r := r, b := b, map := e.2.map, excess := 0, sumV2 := sumV2 m t r b e.2.map } : Planned),
      capped m c t r b e.2.duty))
  let plan := l.foldl (fun s e => s + e.1.watts c t e.2) 0
  if plan ≤ budget then (l, false)
  else (l.map (fun e => (e.1, ((e.2 : Rat) * budget / plan).floor.toNat)), true)

/-- An episode of manual reduction of a container begins or ends (R240). -/
def Ctl.reduceEpisode (c : Ctl) (t k : Nat) (reduced : Bool) : Ctl :=
  let n := t * 32 + k
  if reduced && !c.balReduced.contains n then
    Ctl.event (Ctl.inc { c with balReduced := n :: c.balReduced } t BAL_COUNT_REDUCED) t 0x07 0x3004
      (cellId t (c.get t BAL_CONT_RING_A k) 0)
  else if !reduced then { c with balReduced := c.balReduced.filter (fun e => e != n) }
  else c

/-- One container: learning cycles first, then the plan of the mode, PLAN, and what was issued. -/
def planContainer (t n k : Nat) (z : MC) : MC × List (Planned × Nat) :=
  let c := z.2
  let cyc := (n + 1) % 2 ^ 32
  let a := c.get t BAL_CONT_RING_A k
  let rings := if c.flag t BAL_CONT_TWO k then [a, c.get t BAL_CONT_RING_B k] else [a]
  let budget : Rat := ((c.budgetOf t a : Nat) : Rat)
  let y := rings.foldl (fun (y : MC × Rat) r => learnPlan t r cyc y.2 y.1) (z, budget)
  let z := y.1
  let c := z.2
  let mode := c.get t BAL_CTRL_MODE
  let l : List (Planned × Nat) × Bool :=
    if mode = 1 then
      let ps := (rings.map (fun r => ((List.range 32).filter (fun s => c.flag t RING_SMAP_ACT_VALID r s)).map (fun s =>
        planString z.1 c t n cyc r s))).flatten.flatten
      ((allot z.1 c t (ps.foldr insertPlan []) y.2 true).1, false)
    else if mode = 2 then planManual z.1 c t rings y.2
    else ([], false)
  let z := issueAll t l.1 z
  let c := if mode = 2 then z.2.reduceEpisode t k l.2 else z.2
  let sum := l.1.foldl (fun s e => s + e.1.watts c t e.2) (budget - y.2)
  ((z.1, c.put t BAL_HEAT_PLAN (sum.ceil.toNat) k), l.1.filter (fun e => e.2 != 0))

/-- Blocks that hold a command and have no place in the plan get a zero map. -/
def stopUnplanned (t : Nat) (l : List (Planned × Nat)) (z : MC) : MC :=
  (z.2.allBlocks t).foldl (fun z e =>
    if l.any (fun p => p.1.r == e.1 && p.1.b == e.2) || z.2.learning t e.1 e.2
        || (z.2.get t BAL_CTRL_MODE == 2) then z
    else if (tableDuty z.1 t e.1 e.2).1 != 0 then issue z t e.1 e.2 0 0 else z) z

/-- The run after the pass of frame `n`. -/
def plannerRun (t n : Nat) (z : MC) : MC :=
  let z := z.on (fun c => Ctl.wdogReports z.1 t n c)
  let z := (z.2.allBlocks t).foldl (fun z e => postBleed t t e.1 e.2 n z) z
  let z := z.on (fun c => { c with cycles := c.cycles.map (fun e =>
    if e.1 / 32 = t then (e.1, e.2.filter (fun k => decide (0 ≤ frameDiff k.1 n))) else e) })
  let z := (List.range 32).foldl (fun z r => learnRecord t r n z) z
  let manual := decide (z.2.get t BAL_CTRL_MODE = 2)
  let z := (z.2.allBlocks t).foldl (markWithheld t n manual) z
  let y := ((List.range 32).filter (fun k => z.2.flag t BAL_CONT_VALID k)).foldl (fun (y : MC × List (Planned × Nat)) k =>
    let o := planContainer t n k y.1
    (o.1, y.2 ++ o.2)) (z, [])
  let z := stopUnplanned t y.2 y.1
  let sat : Nat → Nat := fun v => if v < 65536 then v else 65535
  let cells := y.2.foldl (fun s e => s + countN 16 (bit e.1.map)) 0
  z.on (fun c => c.put t BAL_STATUS_BLOCKS (sat y.2.length) |>.put t BAL_STATUS_CELLS (sat cells) |>.put t BAL_PASS_FRAME n)

/-- After the first pass of a carried section the serving tile posts the bleed charge of its last cycle (R453). -/
def carriedBleed (p n : Nat) (z : MC) : MC :=
  let q := partner p
  if z.2.serves p && z.2.get q CARRY_HANDOVER_FRAME == n then
    (z.2.allBlocks q).foldl (fun z e => postBleed p q e.1 e.2 n z) z
  else z

/-- BALANCING_PLANNER_RUN: after each pass of the tile's estimator, once a core of the tile runs (R25, R226). -/
def execBalancingPlannerRun (t : TileId) (s : State) : Host.Outcome State Fault Refusal :=
  s.onTileM t (fun m c =>
    if !c.running t || c.systemHeld t || !c.planDue.contains t.val then (m, c)
    else carriedBleed t (c.get t EST_PASS_FRAME)
      (plannerRun t (c.get t EST_PASS_FRAME) (m, { c with planDue := c.planDue.filter (fun k => k != t.val) })))

/-! ## Modes and commands (R240, R243) -/

/-- A change of mode, with its event; leaving or entering MANUAL discards manual duties. -/
def balMode (t mode : Nat) (z : MC) : MC :=
  let old := z.2.get t BAL_CTRL_MODE
  if old = mode then z
  else
    let c := { z.2 with balBefore := if mode = 2 then tabSet z.2.balBefore t old else z.2.balBefore
                        manual := z.2.manual.filter (fun e => e.1 / 16384 != t) }
    let c := (c.put t BAL_CTRL_MODE mode).event t 0x07 0x3001 0 (leBytes 1 old ++ leBytes 1 mode)
    let m := if old = 2 ∨ mode = 2 then forN 16384 (fun k m =>
        if bit (memNat m (blockState t k + 0x26) 2) 2 then tableFlag m t (k / 512) (k % 512) 2 false else m) z.1 else z.1
    let z : MC := if mode = 0 then forN 32 (dropLearn t) (m, c) else (m, c)
    if mode = 1 then z else zeroAll t z

/-- BAL_MODE: `bal.mode`. -/
def execBalMode (d : Datagram) (s : State) : Host.Outcome State Fault Refusal :=
  s.cmd 0x3001 d (fun q m c => guarded q engRoles 3 m c (
    let l := c.named (q.arg 0 1)
    let mode := q.arg 1 1
    let min := q.arg 2 1
    let e := firstErr [(c.namedAbsent (q.arg 0 1), eAbsent), (decide (2 < mode) || min == 0 || decide (60 < min), eRange),
      (mode != 0 && l.any (fun t => c.get t BAL_CTRL_MODE != mode && !(c.estOf t).passed), eState)]
    if e ≠ eOk then .err m c e
    else
      let z := l.foldl (fun (z : MC) t =>
        if z.2.get t BAL_CTRL_MODE = mode then z else balMode t mode (z.on (fun c => c.put t BAL_CTRL_MAN_TIMEOUT min))) (m, c)
      { mem := z.1, ctl := z.2 }))

/-- MANUAL_TIMEOUT: MAN_TIMEOUT since entry; the mode held before MANUAL comes back. -/
def execManualTimeout (t : TileId) (s : State) : Host.Outcome State Fault Refusal :=
  s.onTileM t (fun m c =>
    if !c.running t || c.get t BAL_CTRL_MODE != 2 then (m, c)
    else
      let z := zeroAll t (balMode t (tabGet 0 c.balBefore t) (m, c))
      z.on (fun c => c.event t 0x07 0x3008))

/-- BAL_MANUAL: `bal.manual`. -/
def execBalManual (d : Datagram) (s : State) : Host.Outcome State Fault Refusal :=
  s.cmd 0x3002 d (fun q m c => guarded q engRoles 7 m c (
    let t := q.arg 0 1
    let r := q.arg 1 1
    let b := q.arg 2 2
    let map := q.arg 4 2
    let duty := q.arg 6 1
    let e := firstErr [(c.ringAbsent t r || decide (512 ≤ b) || !c.present? t r b, eAbsent), (decide (100 < duty), eRange),
      (c.get t BAL_CTRL_MODE != 2, eState), (c.flag t RING_BLK_QUAR r b, eLocked),
      (adjacent map && !c.flag t BAL_RING_CFG_ADJACENT_PERMIT r, eConflict)]
    if e ≠ eOk then .err m c e
    else
      let k := blkKey t r b
      let z : MC := (tableFlag m t r b 2 (map != 0), { c with
        manual := if map = 0 then tabErase c.manual k else tabSet c.manual k { map := map, duty := duty } })
      let z := if map = 0 ∧ holds z t r b then issue z t r b 0 0 else z
      { mem := z.1, ctl := z.2 }))

/-- BAL_WIRE_TEST: `bal.wire_test`. -/
def execBalWireTest (d : Datagram) (s : State) : Host.Outcome State Fault Refusal :=
  s.cmd 0x3003 d (fun q m c => guarded q engRoles 4 m c (
    let t := q.arg 0 1
    let r := q.arg 1 1
    let b := q.arg 2 2
    let e := firstErr [(c.ringAbsent t r || decide (512 ≤ b) || !c.present? t r b, eAbsent),
      (!c.flag t BAL_RING_CFG_MWB r, eState), (c.flag t BAL_RING_CFG_WIRE_BUSY r, eBusy)]
    if e ≠ eOk then .err m c e else { mem := m, ctl := c.queueLearn t r [b] }))

/-! ## Register writes of the BAL block (R236, R244) -/

/-- A write of BAL_RING_CFG: range of R_BLEED; a change of MWB queues SET_ROLE to the blocks of the ring. -/
def balRingCfgWrite (m : Mem) (c : Ctl) (t r w : Nat) : MC × Nat :=
  let rb := w / 65536
  let bad := rb != 0 && anyN 32 (fun s => c.flag t RING_SMAP_ACT_VALID r s
    && decide (250 * rb < ({ m := m, a := profAddr t (c.get t RING_SMAP_ACT_PROFILE r s) } : Prof).u16 0x7E0))
  if bad then ((m, c), eRange)
  else
    let old := c.get t BAL_RING_CFG_MWB r
    let c := c.put t BAL_RING_CFG_R_BLEED rb r |>.put t BAL_RING_CFG_ADJACENT_PERMIT (w / 2 % 2) r
      |>.put t BAL_RING_CFG_MWB (w % 2) r
    let z := if w % 2 = 0 then dropLearn t r (m, c) else (m, c)
    let m := z.1
    let c := z.2
    let c := if old ≠ w % 2 ∧ (c.ringUp t r ∨ (c.rstate t r = rgEnum ∧ 6 ≤ (c.rng t r).step)) then
        c.queue t r (((List.range 512).filter (fun b => c.present? t r b)).map (fun b =>
          { addr := b, cmd := 0x07, req := c.roleReq t r b }))
      else c
    ((m, c), eOk)

/-- Whether a container entry names a ring that another valid entry of the table names already: a ring belongs to one container,
whose plan, budget and frames its tile keeps (R16, R244). -/
def contConflict (valid : Nat → Bool) (rings : Nat → List Nat) (k : Nat) (mine : List Nat) : Bool :=
  anyN 32 (fun j => j != k && valid j && (rings j).any (fun r => mine.contains r))

/-- A write of BAL_CONT word 0 or 1 of a container. RING_A and RING_B are rings of the register's own tile, so that no entry can
name a ring of another, and two equal rings are E_RANGE (R16, R233, R244). -/
def Ctl.balContWrite (c : Ctl) (t k : Nat) (hi : Bool) (w : Nat) : Ctl × Nat :=
  let rings : Nat → List Nat := fun j =>
    if c.flag t BAL_CONT_TWO j then [c.get t BAL_CONT_RING_A j, c.get t BAL_CONT_RING_B j] else [c.get t BAL_CONT_RING_A j]
  if hi then
    if !c.flag t BAL_CONT_EXT k && bitsOf w 11 18 != 0 then (c, eRange) else (c.put t BAL_CONT_CAN_ID w k, eOk)
  else
    let two := bit w 29
    let a := bitsOf w 24 5
    let b := bitsOf w 19 5
    let e := firstErr [((two && a == b) || (!bit w 30 && bitsOf (c.get t BAL_CONT_CAN_ID k) 11 18 != 0), eRange),
      (contConflict (fun j => c.flag t BAL_CONT_VALID j) rings k (if two then [a, b] else [a]), eConflict)]
    if e ≠ eOk then (c, e)
    else
      let fresh := bit w 31 && !c.flag t BAL_CONT_VALID k
      let c := c.put t BAL_CONT_VALID (bitsOf w 31 1) k |>.put t BAL_CONT_EXT (bitsOf w 30 1) k
        |>.put t BAL_CONT_TWO (bitsOf w 29 1) k |>.put t BAL_CONT_RING_A a k |>.put t BAL_CONT_RING_B b k
        |>.put t BAL_CONT_PORT (bitsOf w 16 3) k
      let c := if fresh then c.put t BAL_HEAT_STALE 1 k |>.put t BAL_HEAT_BUDGET 0 k |>.put t BAL_HEAT_AGE 0xFFFF k else c
      let off : Ctl := { c with heatEp := c.heatEp.filter (fun n => n != t * 32 + k) }
      (if bit w 31 then c else off.put t BAL_HEAT_STALE BAL_HEAT_STALE.reset k |>.put t BAL_HEAT_BUDGET 0 k
        |>.put t BAL_HEAT_AGE BAL_HEAT_AGE.reset k |>.put t BAL_HEAT_PLAN 0 k, eOk)

end Sys2Proof.Machine
end

