-- ==== Sys2Proof/Machine/CanCore.lean ====
section
/-! DEFINITION. Machine/CanCore.lean: a CAN FD controller: port states, transmit buffers and their arbitration, error
counters, filters and receive FIFOs (R378 to R390, R531). -/
namespace Sys2Proof.Machine

/-- Port states (CAN_STATUS.STATE, R394). -/
abbrev cnInit : Nat := 0
/-- DETECT. -/
abbrev cnDetect : Nat := 1
/-- ERROR_ACTIVE. -/
abbrev cnActive : Nat := 2
/-- ERROR_PASSIVE. -/
abbrev cnPassive : Nat := 3
/-- BUS_OFF. -/
abbrev cnOff : Nat := 4
/-- RECOVERING. -/
abbrev cnRecovering : Nat := 5

/-- The number of a port. -/
def canKey (t p : Nat) : Nat := t * 8 + p

/-- The state of a port. -/
def Ctl.canState (c : Ctl) (t p : Nat) : Nat := c.get t CAN_STATUS_STATE p

/-- Whether a port takes part in the bus. -/
def Ctl.canOnBus (c : Ctl) (t p : Nat) : Bool := c.canState t p == cnActive || c.canState t p == cnPassive

/-- A flag of CAN_IRQ becomes set, with interrupt source 0x18 + p where it is enabled (R394). -/
def Ctl.canFlag (c : Ctl) (t p : Nat) (F E : Field) : Ctl :=
  if c.flag t F p then c
  else if c.flag t E p then (c.put t F 1 p).irq t (0x18 + p)
  else c.put t F 1 p

/-- A change of state of a port, with STATE_CHG and event 0x8001 (R380). -/
def Ctl.canTo (c : Ctl) (t p st : Nat) : Ctl :=
  let old := c.canState t p
  if old = st then c
  else ((c.put t CAN_STATUS_STATE st p).canFlag t p CAN_IRQ_STATE_CHG CAN_IRQ_EN_STATE_CHG).event t 0x0C 0x8001 0
    (leBytes 1 p ++ leBytes 1 old ++ leBytes 1 st)

/-! ## Frames and buffers (R381 to R384, R394) -/

/-- The data length of a DLC. -/
def dlcLength (fdf : Bool) (dlc : Nat) : Nat := if fdf then canLengths.getD dlc 64 else if dlc < 8 then dlc else 8

/-- The DLC of the shortest length that holds `n` bytes. -/
def canDlc (n : Nat) : Nat := ((List.range 16).find? (fun k => decide (n ≤ canLengths.getD k 64))).getD 15

/-- A frame that a hardware owner forms: an FD frame carries BRS, and its data is padded with zeros (R531). -/
def hwFrame (ext fd : Bool) (id : Nat) (data : List Byte) : CanFrame :=
  let k := canDlc data.length
  { ext := ext, fdf := fd, brs := fd, esi := false, rtr := false, id := BitVec.ofNat 29 id, dlc := Fin.ofNat 16 k
    data := (data ++ List.replicate 64 0).take (dlcLength true k) }

/-- The frame a transmit buffer holds. -/
def Ctl.txFrame (c : Ctl) (t p b : Nat) : CanFrame :=
  let fd := c.flag t CAN_TXB_FDF p b
  let dlc := c.get t CAN_TXB_DLC p b
  let rtr := c.flag t CAN_TXB_RTR p b
  { ext := c.flag t CAN_TXB_EXT p b, fdf := fd, brs := c.flag t CAN_TXB_BRS p b, esi := c.canState t p == cnPassive, rtr := rtr
    id := BitVec.ofNat 29 (c.get t CAN_TXB_ID p b), dlc := Fin.ofNat 16 dlc
    data := (((List.range 16).map (fun k => leBytes 4 (c.get t (CAN_TXB_DATA k) p b))).flatten).take
      (if rtr then 0 else dlcLength fd dlc) }

/-- A frame put into a transmit buffer. -/
def Ctl.putTx (c : Ctl) (t p b : Nat) (f : CanFrame) : Ctl :=
  let c := c.put t CAN_TXB_EXT (b2n f.ext) p b |>.put t CAN_TXB_FDF (b2n f.fdf) p b |>.put t CAN_TXB_BRS (b2n f.brs) p b
    |>.put t CAN_TXB_ID f.id.toNat p b |>.put t CAN_TXB_ONESHOT 0 p b |>.put t CAN_TXB_RTR (b2n f.rtr) p b
    |>.put t CAN_TXB_DLC f.dlc.val p b
  forN 16 (fun k (c : Ctl) => c.put t (CAN_TXB_DATA k) (leNat ((f.data.drop (4 * k)).take 4)) p b) c

/-- Whether software owns a transmit buffer (R381). -/
def Ctl.canSoft (c : Ctl) (t p b : Nat) : Bool :=
  decide (b < 10) || ((b == 14 || b == 15) && !c.flag t TIME_CAN_CFG_EN p)

/-- Whether a buffer is pending. -/
def Ctl.canPending (c : Ctl) (t p b : Nat) : Bool := bit (c.get t CAN_TXREQ p) b

/-- A bit of a transmit-control register. -/
def Ctl.putTxBit (c : Ctl) (t p b : Nat) (F : Field) (v : Bool) : Ctl := c.put t F (setBit (c.get t F p) b v) p

/-- A buffer completes in TXDONE, TXFAIL or TXCAN, with source 0x20 + port where CAN_TXIE has its bit; the bit of buffer
15 is forced while the time unit owns it (R386). -/
def Ctl.canEnd (c : Ctl) (t p b : Nat) (F : Field) : Ctl :=
  let c := ((c.putTxBit t p b CAN_TXREQ false).putTxBit t p b CAN_TXCANCEL false).putTxBit t p b F true
  let forced := b == 15 && c.flag t TIME_CAN_CFG_EN p
  if (decide (b < 10) || b == 14 || b == 15) && (bit (c.get t CAN_TXIE p) b || forced) then c.irq t (0x20 + p) else c

/-- A buffer becomes pending: its four completion bits are clear (R382). -/
def Ctl.canRequest (c : Ctl) (t p b : Nat) : Ctl :=
  ((((c.putTxBit t p b CAN_TXDONE false).putTxBit t p b CAN_TXFAIL false).putTxBit t p b CAN_TXCAN false).putTxBit t p b
    CAN_TXCSENT false).putTxBit t p b CAN_TXREQ true

/-- Whether a hardware owner may request a frame on a port now (R380, R531). -/
def Ctl.canTakes (c : Ctl) (t p : Nat) (fd : Bool) : Bool :=
  c.canOnBus t p && !c.flag t CAN_CTRL_LISTEN p && (!fd || c.flag t CAN_CTRL_FD_EN p)

/-- A hardware owner's frame: requested, or replacing the content of its pending buffer in place (R384, R531). -/
def Ctl.canOffer (c : Ctl) (t p b : Nat) (f : CanFrame) : Ctl :=
  if !c.canTakes t p f.fdf then c
  else
    let c := (c.putTx t p b f).canRequest t p b
    match tabFind c.canTry (canKey t p) with
    | some a => if a.buf = b then { c with canTry := tabSet c.canTry (canKey t p) { a with again := true } } else c
    | none => c

/-- The arbitration field of a frame in bus bit order (R383). -/
def frameOrder (f : CanFrame) : Nat :=
  let id := f.id.toNat
  if f.ext then (id / 2 ^ 18 * 2 + 1) * 2 ^ 20 + 2 ^ 19 + id % 2 ^ 18 * 2 + b2n f.rtr
  else (id % 2 ^ 11 * 2 + b2n f.rtr) * 2 ^ 20

/-- The pending buffer that wins arbitration: lowest field, then lowest number (R383). -/
def Ctl.canWinner (c : Ctl) (t p : Nat) : Option Nat :=
  (List.range 32).foldl (fun w b =>
    if !c.canPending t p b then w
    else
      match w with
      | none => some b
      | some v => if frameOrder (c.txFrame t p b) < frameOrder (c.txFrame t p v) then some b else w) none

/-- The start of frame of the next attempt, where none is under way and a buffer is pending. -/
def Ctl.canStart (c : Ctl) (t p : Nat) : Ctl :=
  if (tabFind c.canTry (canKey t p)).isSome || !c.canOnBus t p || c.flag t CAN_CTRL_LISTEN p then c
  else
    match c.canWinner t p with
    | some b => { c with canTry := tabSet c.canTry (canKey t p) { buf := b, frame := c.txFrame t p b } }
    | none => c

/-- Pending buffers that have a property complete in TXFAIL. -/
def Ctl.canFailAll (c : Ctl) (t p : Nat) (which : Nat → Bool) : Ctl :=
  forN 32 (fun b (c : Ctl) => if c.canPending t p b && which b then c.canEnd t p b CAN_TXFAIL else c) c

/-! ## Error counters (R389, R390) -/

/-- TEC_WARN and REC_WARN as the counters stand against their thresholds; a crossing sets WARN_CHG and raises 0x8002 with
the counter (0 TEC, 1 REC) and its direction (1 up). -/
def Ctl.canWarn (c : Ctl) (t p : Nat) : Ctl :=
  let one : Field → Field → Field → Nat → Ctl → Ctl := fun F W V k c =>
    let now := b2n (decide (c.get t W p ≤ c.get t F p))
    if c.get t V p = now then c
    else ((c.put t V now p).canFlag t p CAN_IRQ_WARN_CHG CAN_IRQ_EN_WARN_CHG).event t 0x0C 0x8002 0
      (leBytes 1 p ++ leBytes 1 k ++ leBytes 1 now)
  one CAN_ERRCNT_REC CAN_WARN_REC_WARN CAN_STATUS_REC_WARN 1 (one CAN_ERRCNT_TEC CAN_WARN_TEC_WARN CAN_STATUS_TEC_WARN 0 c)

/-- BUS_OFF: every pending buffer fails; recovery starts at once with AUTO_RECOVER (R380). -/
def Ctl.canBusOff (c : Ctl) (t p : Nat) : Ctl :=
  let c := (c.canTo t p cnOff).canFailAll t p (fun _ => true)
  let c := { c with canTry := tabErase c.canTry (canKey t p) }
  if c.flag t CAN_CTRL_AUTO_RECOVER p then c.canTo t p cnRecovering else c

/-- The error counters set: warnings, then the error state (R380, R389). -/
def Ctl.canCounters (c : Ctl) (t p tec rx : Nat) : Ctl :=
  let c := (c.put t CAN_ERRCNT_TEC (if tec < 256 then tec else 255) p).put t CAN_ERRCNT_REC (if rx < 256 then rx else 255) p
  let c := c.canWarn t p
  if !c.canOnBus t p then c
  else if 255 < tec then c.canBusOff t p
  else c.canTo t p (if tec < 128 ∧ rx < 128 then cnActive else cnPassive)

/-- The counts as they stand. -/
def Ctl.tec (c : Ctl) (t p : Nat) : Nat := c.get t CAN_ERRCNT_TEC p
/-- The receive error count. -/
def Ctl.rcv (c : Ctl) (t p : Nat) : Nat := c.get t CAN_ERRCNT_REC p

/-- INIT entered: pending software buffers fail; the counters are zero where INIT has been cleared meanwhile (R380). -/
def Ctl.canEnterInit (c : Ctl) (t p : Nat) : Ctl :=
  let c := c.canFailAll t p (fun b => c.canSoft t p b)
  let c := (c.put t CAN_TXREQ 0 p).put t CAN_TXCANCEL 0 p
  let c := if c.flag t CAN_CTRL_INIT p then c else c.canCounters t p 0 0
  let k := canKey t p
  Ctl.canTo { c with canTry := tabErase c.canTry k, canStop := c.canStop.filter (fun n => n != k), canDet := tabErase c.canDet k }
    t p cnInit

/-- What follows the end of an attempt: INIT where it was set meanwhile. -/
def Ctl.canAfter (c : Ctl) (t p : Nat) : Ctl :=
  let c := { c with canTry := tabErase c.canTry (canKey t p) }
  if c.canStop.contains (canKey t p) then c.canEnterInit t p else c

/-- A transmission of this port is acknowledged: ACK_RUN and NO_ACK end, TEC falls (R389, R390). -/
def Ctl.canAcked (c : Ctl) (t p : Nat) : Ctl :=
  let c := c.put t CAN_STATUS_ACK_RUN 0 p
  let c := if c.flag t CAN_STATUS_NO_ACK p then
      ((c.put t CAN_STATUS_NO_ACK 0 p).canFlag t p CAN_IRQ_NO_ACK_CHG CAN_IRQ_EN_NO_ACK_CHG).event t 0x0C 0x8004 0 (leBytes 1 p)
    else c
  c.canCounters t p (c.tec t p - 1) (c.rcv t p)

/-- One more ACK error: NO_ACK at 16 in a row (R390). -/
def Ctl.canAckError (c : Ctl) (t p : Nat) : Ctl :=
  let c := c.inc t CAN_STATUS_ACK_RUN p
  if 16 ≤ c.get t CAN_STATUS_ACK_RUN p ∧ ¬ c.flag t CAN_STATUS_NO_ACK p then
    ((c.put t CAN_STATUS_NO_ACK 1 p).canFlag t p CAN_IRQ_NO_ACK_CHG CAN_IRQ_EN_NO_ACK_CHG).event t 0x0C 0x8003 0 (leBytes 1 p)
  else c

/-- LEC of a fault. -/
def lecOf : CanFault → Nat
  | .arbitration => 0
  | .stuff => 1
  | .form => 2
  | .ack => 3
  | .bit1 => 4
  | .bit0 => 5
  | .crc => 6

/-- The counters after a failed transmission: 8 more, but none for an error-passive transmitter that misses its acknowledge and
for a stuff error in arbitration, and 8 for each further cause; lost arbitration is no error (R389, R390). -/
def Ctl.canTxFault (c : Ctl) (t p : Nat) (x : CanTxFault) : Ctl :=
  if x.kind = .arbitration then c
  else
    let c := c.put t CAN_STATUS_LEC (lecOf x.kind) p
    let c := if x.kind = .ack then c.canAckError t p else c
    let none? := (x.kind == .ack && c.canState t p == cnPassive) || (x.kind == .stuff && x.inArbitration)
    c.canCounters t p (c.tec t p + (if none? then 0 else 8) + 8 * x.more) (c.rcv t p)

/-- REC after a frame received without error: above 127 it takes a value from 119 to 127, which ISO 11898-1 leaves open
(R389). -/
def Ctl.canRxGood (c : Ctl) (t p : Nat) : Ctl :=
  let c := c.put t CAN_STATUS_ACK_RUN 0 p
  let n := c.rcv t p
  if n ≤ 127 then c.canCounters t p (c.tec t p) (n - 1)
  else
    let v := c.free
    v.2.canCounters t p (v.2.tec t p) (119 + v.1 % 9)

/-! ## Receive FIFOs (R387, R388) -/

/-- The entries of a FIFO. -/
def Ctl.fifo (c : Ctl) (t p f : Nat) : List CanEntry := tabGet [] c.canFifo (canKey t p * 2 + f)

/-- The entries of a FIFO changed, with its count. -/
def Ctl.setFifo (c : Ctl) (t p f : Nat) (l : List CanEntry) : Ctl :=
  Ctl.put { c with canFifo := tabSet c.canFifo (canKey t p * 2 + f) l } t (if f = 0 then CAN_RXF_COUNT0 else CAN_RXF_COUNT1)
    l.length p

/-- A frame arrives at a FIFO. -/
def Ctl.fifoPush (c : Ctl) (t p f : Nat) (e : CanEntry) : Ctl :=
  let l := c.fifo t p f
  let k := canKey t p * 2 + f
  if 64 ≤ l.length then
    let c := (c.inc t (if f = 0 then CAN_COUNT_OVF0 else CAN_COUNT_OVF1) p).canFlag t p CAN_IRQ_OVF CAN_IRQ_EN_OVF
    if c.canOvf.contains k then c
    else Ctl.event { c with canOvf := k :: c.canOvf } t 0x0C 0x8005 0 (leBytes 1 p)
  else
    let c := c.setFifo t p f (l ++ [e])
    if l = [] then
      (if f = 0 then c.canFlag t p CAN_IRQ_RX0 CAN_IRQ_EN_RX0 else c.canFlag t p CAN_IRQ_RX1 CAN_IRQ_EN_RX1)
    else c

/-- The head of a FIFO removed. -/
def Ctl.fifoPop (c : Ctl) (t p f : Nat) : Ctl :=
  match c.fifo t p f with
  | [] => c
  | _ :: l =>
    let c := { c with canOvf := c.canOvf.filter (fun n => n != canKey t p * 2 + f) }
    c.setFifo t p f l

/-- The first enabled filter a frame passes. -/
def Ctl.canFilter (c : Ctl) (t p : Nat) (f : CanFrame) : Option Nat :=
  (List.range 56).find? (fun n => c.flag t CAN_FILT_EN p n && c.flag t CAN_FILT_EXT p n == f.ext
    && ((f.id.toNat ^^^ c.get t CAN_FILT_ID p n) &&& c.get t CAN_FILT_MASK p n) == 0)

/-- Step 3 of R387. -/
def Ctl.canFile (c : Ctl) (t p : Nat) (f : CanFrame) : Ctl :=
  match c.canFilter t p f with
  | none => c.inc t CAN_COUNT_NOMATCH p
  | some n =>
    let a := c.get t CAN_FILT_ACTION p n
    if a < 2 then c.fifoPush t p a { frame := f, filter := n, time := c.get t TIME_NS32_VALUE } else c

end Sys2Proof.Machine
end

