-- ==== Sys2Proof/Machine/Loop.lean ====
section
/-! DEFINITION. Machine/Loop.lean: the loop engine: inputs, parameters, commits, samples, output frames and trace units
(R107, R266 to R285). -/
namespace Sys2Proof.Machine

/-! ## Fixed-point arithmetic (R266) -/

/-- Saturation to the Q16.16 range. -/
def sat32 (x : Int) : Int := clampInt (-(2 ^ 31 : Int)) (2 ^ 31 - 1 : Int) x

/-- A Q16.16 product. -/
def qMul (a b : Int) : Int := sat32 (roundAway (a * b) 65536)

/-- A Q16.16 sum and difference. -/
def qAdd (a b : Int) : Int := sat32 (a + b)
/-- A Q16.16 difference. -/
def qSub (a b : Int) : Int := sat32 (a - b)

/-- A Q16.16 value times a fraction: one product, rounded and saturated once (R266; DEDUCED, assumption 80). -/
def qFrac (a : Int) (n : Int) (d : Nat) : Int := sat32 (roundAway (a * n) d)

/-- A value per second times PERIOD in ms. -/
def perPeriod (a : Int) (ms : Nat) : Int := sat32 (roundAway (a * (ms : Int)) 1000)

/-- Channel modes (R270). -/
abbrev lmAuto : Nat := 0
abbrev lmManual : Nat := 1
abbrev lmTrack : Nat := 2
abbrev lmCascade : Nat := 3
abbrev lmHold : Nat := 4
abbrev lmFallback : Nat := 5
abbrev lmOff : Nat := 6

/-- The closed modes (R273). -/
def closedMode (m : Nat) : Bool := m == lmAuto || m == lmTrack || m == lmCascade

/-- A channel. -/
def Ctl.chan (c : Ctl) (t ch : Nat) : Chan := tabGet {} c.chans (t * 64 + ch)
/-- A channel changed. -/
def Ctl.setChan (c : Ctl) (t ch : Nat) (x : Chan) : Ctl := { c with chans := tabSet c.chans (t * 64 + ch) x }
/-- An active parameter. -/
def Ctl.par (c : Ctl) (t ch p : Nat) : Nat := c.get t (LOOP_ACTIVE p) ch
/-- An active parameter read as signed. -/
def Ctl.parI (c : Ctl) (t ch p : Nat) : Int := c.getInt t (LOOP_ACTIVE p) ch
/-- A parameter of the shadow bank. -/
def Ctl.shadow (c : Ctl) (t ch p : Nat) : Nat := c.get t (LOOP_SHADOW p) ch
/-- The mode of a channel. -/
def Ctl.loopMode (c : Ctl) (t ch : Nat) : Nat := c.get t LOOP_CH_MODE ch
/-- The value of an input. -/
def Ctl.input (c : Ctl) (t i : Nat) : Int := c.getInt t LOOP_IN_VALUE i

/-! ## Inputs (R268) -/

/-- An accepted write of an input. -/
def Ctl.putInput (c : Ctl) (t i : Nat) (v : Int) : Ctl := (c.putInt t LOOP_IN_VALUE v i).incMod t LOOP_IN_UPDATES i

/-- A received frame against the map of one input. -/
def Ctl.inputFrame (c : Ctl) (t p i : Nat) (f : CanFrame) : Ctl :=
  if c.get t LOOP_IN_MAP_SRC i ≠ 1 ∨ c.get t LOOP_IN_MAP_PORT i ≠ p ∨ c.flag t LOOP_IN_MAP_EXT i ≠ f.ext
      ∨ c.get t LOOP_IN_MAP_CAN_ID i ≠ f.id.toNat then c
  else
    let w := 2 ^ c.get t LOOP_IN_MAP_WIDTH i
    let at_ := c.get t LOOP_IN_MAP_BYTE i
    if f.data.length < at_ + w then c.inc t LOOP_IN_SHORT i
    else
      let n := beNat ((f.data.drop at_).take w)
      let raw : Int := if c.flag t LOOP_IN_MAP_SIGNED i then toSigned (8 * w) n else (n : Int)
      c.putInput t i (sat32 (sat32 (raw * c.getInt t LOOP_IN_MAP_SCALE i) + c.getInt t LOOP_IN_MAP_OFFSET i))

/-- A received frame against every input map. -/
def Ctl.loopFrame (c : Ctl) (t p : Nat) (f : CanFrame) : Ctl := forN 256 (fun i (c : Ctl) => c.inputFrame t p i f) c

/-- The address of a register of the LOOP block. -/
def loopAddr (t off : Nat) : Nat := modAddr t (0x200090000 + off)

/-- Who may write the shadow banks, LOOP_COMMIT and SOFT input values (R285). -/
def Ctl.mayLoop (c : Ctl) (o : Origin) : Bool := c.mayConfig o || c.isApp o

/-- A store to an input value (R268, R285). -/
def Ctl.softWrite (c : Ctl) (o : Origin) (t i w : Nat) : Ctl × Nat :=
  if !c.mayLoop o then (c.violate o (loopAddr t (0xE000 + 8 * i)) true, eOk)
  else if c.get t LOOP_IN_MAP_SRC i ≠ 0 then (c, eState)
  else (c.putInput t i (toSigned 32 w), eOk)

/-- LOOP_INPUT_SOFT_WRITE. -/
def execLoopInputSoftWrite (t : TileId) (o : Origin) (i : Fin 256) (w : Word) (s : State) :
    Host.Outcome State Fault Refusal :=
  s.onAccess o (fun c => c.access o t 0x09 (fun c => c.softWrite o t i w.toNat))

/-! ## Parameters and gain tables (R270, R271) -/

/-- Why a value is refused for a parameter: bits it does not use, then its range; a reserved number is out of range. -/
def paramCode (p w : Nat) : Nat :=
  let field : Nat → Nat → Nat → Nat := fun bits lo hi =>
    if w / 2 ^ bits ≠ 0 then eFormat else if w < lo ∨ hi < w then eRange else eOk
  match p with
  | 0x00 => field 3 0 6
  | 0x01 => field 16 1 60000
  | 0x02 | 0x06 => field 8 0 255
  | 0x03 => field 9 0 511
  | 0x05 => field 6 0 63
  | 0x07 | 0x08 => field 5 0 31
  | 0x09 => field 1 0 1
  | 0x04 | 0x0A | 0x0B | 0x0C | 0x0F | 0x10 | 0x16 => eOk
  | 0x0D | 0x0E | 0x11 => if w < 2 ^ 31 then eOk else eRange
  | 0x12 => field 20 0 600000
  | 0x13 => field 22 0 3600000
  | 0x14 => if w / 2 ^ 16 ≠ 0 then eFormat else if w = 1 then eRange else eOk
  | 0x15 => if bitsOf w 16 16 ≠ 0 ∨ bitsOf w 12 3 ≠ 0 ∨ bitsOf w 6 2 ≠ 0 then eFormat else eOk
  | _ => eRange

/-- A write of a shadow parameter. One that meets the transfer lands after it, and COMMIT_PENDING stays set; whether a write
that follows a transfer within the tick meets its two cycles is a free value (R107, R278; assumption 81). -/
def Ctl.shadowPut (c : Ctl) (t ch p w : Nat) : Ctl × Nat :=
  let e := paramCode p w
  if e ≠ eOk then (c, e)
  else
    let c := c.put t (LOOP_SHADOW p) w ch
    if (c.chan t ch).moving then
      let (v, c) := c.free
      (if v % 2 = 1 then c.put t LOOP_CH_COMMIT_PENDING 1 ch else c, eOk)
    else (c, eOk)

/-- A register store to a shadow parameter word. -/
def Ctl.shadowWrite (c : Ctl) (o : Origin) (t ch p w : Nat) : Ctl × Nat :=
  if !c.mayLoop o then (c.violate o (loopAddr t (0x1000 + ch * 0x100 + p * 4)) true, eOk) else c.shadowPut t ch p w

/-- LOOP_SHADOW_STORE. -/
def execLoopShadowStore (t : TileId) (o : Origin) (ch : ChanId) (p : Fin 64) (w : Word) (s : State) :
    Host.Outcome State Fault Refusal :=
  s.onAccess o (fun c => c.access o t 0x09 (fun c => c.shadowWrite o t ch p w.toNat))

/-- LSHW (R107). -/
def execLshw (t : TileId) (k : CoreId) (d a : Fin 32) (s : State) : Host.Outcome State Fault Refusal :=
  s.onTile t (fun c => c.instr t k (wordD d a 0x05 0x00) (decide (a.val % 2 = 1)) (fun i c =>
    let w := ((c.task t i).reg a).toNat
    if bitsOf w 14 18 ≠ 0 ∨ bitsOf w 6 2 ≠ 0 then c.retireCode t i d eFormat
    else
      let x := c.shadowPut t (w % 64) (bitsOf w 8 6) ((c.task t i).reg (a.val + 1)).toNat
      x.1.retireCode t i d x.2))

/-- COMMIT_PENDING of a channel. -/
def Ctl.loopCommit (c : Ctl) (t ch : Nat) : Ctl := c.put t LOOP_CH_COMMIT_PENDING 1 ch

/-- LCOMMIT (R107). -/
def execLcommit (t : TileId) (k : CoreId) (d a : Fin 32) (s : State) : Host.Outcome State Fault Refusal :=
  s.onTile t (fun c => c.instr t k (wordD d a 0x05 0x01) false (fun i c =>
    let ch := ((c.task t i).reg a).toNat % 64
    (c.loopCommit t ch).retireCode t i d eOk))

/-- A write of LOOP_COMMIT. -/
def Ctl.loopCommitWrite (c : Ctl) (o : Origin) (t w : Nat) : Ctl × Nat :=
  if !c.mayLoop o then (c.violate o (loopAddr t 0) true, eOk) else (c.loopCommit t (w % 64), eOk)

/-- LOOP_COMMIT_WRITE. -/
def execLoopCommitWrite (t : TileId) (o : Origin) (w : Word) (s : State) : Host.Outcome State Fault Refusal :=
  s.onAccess o (fun c => c.access o t 0x09 (fun c => c.loopCommitWrite o t w.toNat))

/-- Whether a channel that is not OFF names a gain table in its active or shadow bank. -/
def Ctl.tableUsed (c : Ctl) (t tab : Nat) : Bool :=
  anyN 64 (fun ch => c.loopMode t ch != lmOff && (c.par t ch 7 == tab || c.par t ch 8 == tab || c.shadow t ch 7 == tab
    || c.shadow t ch 8 == tab))

/-- A write of a gain table: breakpoint or gain `j`. -/
def Ctl.gainWrite (c : Ctl) (o : Origin) (t tab j : Nat) (gain : Bool) (w : Nat) : Ctl × Nat :=
  if !c.mayConfig o then (c.violate o (loopAddr t (0x9000 + tab * 0x200 + b2n gain * 0x100 + 4 * j)) true, eOk)
  else if c.tableUsed t tab then (c, eLocked)
  else (c.put t (if gain then LOOP_GAIN_G else LOOP_GAIN_E) w tab j, eOk)

/-- GAIN_TABLE_WRITE. -/
def execGainTableWrite (t : TileId) (o : Origin) (tab : Fin 32) (j : Fin 33) (gain : Bool) (w : Word) (s : State) :
    Host.Outcome State Fault Refusal :=
  s.onAccess o (fun c => c.access o t 0x09 (fun c => c.gainWrite o t tab j gain w.toNat))

/-- The gain of a table at `e`. -/
def Ctl.gain (c : Ctl) (t tab : Nat) (e : Int) : Int :=
  let x : Nat → Int := fun j => c.getInt t LOOP_GAIN_E tab j
  let g : Nat → Int := fun j => c.getInt t LOOP_GAIN_G tab j
  if e ≤ x 0 then g 0
  else if x 32 ≤ e then g 32
  else
    let j := ((List.range 32).find? (fun j => decide (x j ≤ e) && decide (e ≤ x (j + 1)))).getD 0
    qAdd (g j) (qFrac (qSub (g (j + 1)) (g j)) (qSub e (x j)) (qSub (x (j + 1)) (x j)).toNat)

/-! ## Events of the engine (R276, R283) -/

/-- An event 0x5001 to 0x5007 with its channel, old and new mode and COMMIT_WHY, and interrupt source 0x28 (R276, R283). -/
def Ctl.loopEvent (c : Ctl) (t code ch old new why : Nat) : Ctl :=
  (c.event t 0x09 code 0 (leBytes 1 ch ++ leBytes 1 old ++ leBytes 1 new ++ leBytes 1 why)).irq t 0x28

/-! ## Step 1: the shadow transfer (R278, R279) -/

/-- COMMIT_WHY of a shadow bank; 0 where every check passes. -/
def Ctl.commitWhy (c : Ctl) (t ch : Nat) : Nat :=
  let sh := c.shadow t ch
  let lo := toSigned 32 (sh 0x0B)
  let hi := toSigned 32 (sh 0x0C)
  let unsorted : Nat → Bool := fun tab =>
    anyN 32 (fun j => decide (c.getInt t LOOP_GAIN_E tab (j + 1) ≤ c.getInt t LOOP_GAIN_E tab j))
  let om := sh 0x15
  let f := bitsOf om 8 4
  let at_ := om % 64
  let overlap := anyN 64 (fun k =>
    let ok := c.par t k 0x15
    k != ch && c.loopMode t k != lmOff && bit ok 15 && bitsOf ok 8 4 == f && decide (ok % 64 < at_ + 2)
      && decide (at_ < ok % 64 + 2))
  if hi ≤ lo then 1
  else if unsorted (sh 7) || unsorted (sh 8) then 2
  else if sh 0 = lmCascade ∧ ch ≤ sh 5 then 3
  else if bit om 15 ∧ (c.get t LOOP_OFRAME_LEN f < at_ + 2 ∨ at_ % 2 = 1) then 4
  else if bit om 15 && overlap then 5
  else 0

/-- The refusal of a commit. -/
def Ctl.commitRefused (c : Ctl) (t ch why : Nat) : Ctl :=
  let e := if why = 5 then eConflict else eRange
  ((((c.put t LOOP_CH_COMMIT_PENDING 0 ch).put t LOOP_CH_COMMIT_WHY why ch).put t LOOP_CH_COMMIT_ERR e ch).inc t
    LOOP_COUNT_REFUSED).loopEvent t 0x5006 ch (c.loopMode t ch) (c.loopMode t ch) why

/-- The transfer: the counts restart where the channel leaves OFF or PERIOD, FB_SEL or TRK_SEL changes; an output field that
moves starts at zero (R275, R277). -/
def Ctl.transfer (c : Ctl) (t ch : Nat) : Ctl :=
  let x := c.chan t ch
  let restart := (c.loopMode t ch == lmOff && c.shadow t ch 0 != lmOff)
    || [1, 2, 6].any (fun p => c.par t ch p != c.shadow t ch p)
  let x := if restart then { x with fb := none, trk := none } else x
  let x := if c.par t ch 0x15 = c.shadow t ch 0x15 then x else { x with field := 0 }
  let x := { x with moving := true }
  let c := forN 23 (fun p (c : Ctl) => c.put t (LOOP_ACTIVE p) (c.shadow t ch p) ch) c
  let c := if restart then (c.put t LOOP_CH_MISSES 0 ch).put t LOOP_CH_REPEATS 0 ch else c
  (((c.setChan t ch x).put t LOOP_CH_COMMIT_PENDING 0 ch).put t LOOP_CH_REQ (c.shadow t ch 0) ch).configCopied t

/-! ## Step 2: health (R275) -/

/-- A count at one more sample of its input. -/
def Health.next (h : Option Health) (updates value : Nat) : Health :=
  match h with
  | none => { updates := updates, value := value }
  | some h =>
    if h.updates = updates then { h with misses := if h.misses < 255 then h.misses + 1 else 255 }
    else { updates := updates, value := value, misses := 0
           repeats := if h.value = value then (if h.repeats < 65535 then h.repeats + 1 else 65535) else 1 }

/-- The counts of FB_SEL and TRK_SEL, and the status words. -/
def Ctl.countHealth (c : Ctl) (t ch : Nat) : Ctl :=
  let x := c.chan t ch
  let one : Option Health → Nat → Health := fun h i => Health.next h (c.get t LOOP_IN_UPDATES i) (c.get t LOOP_IN_VALUE i)
  let f := one x.fb (c.par t ch 2)
  let g := one x.trk (c.par t ch 6)
  let shown := if c.get t LOOP_CH_REQ ch = lmTrack then g else f
  ((c.setChan t ch { x with fb := some f, trk := some g }).put t LOOP_CH_MISSES shown.misses ch).put t LOOP_CH_REPEATS
    shown.repeats ch

/-- The health of the input of a mode: 0 healthy, 1 stale, 2 frozen; a mode that is not closed has no input. -/
def Ctl.healthOf (c : Ctl) (t ch mode : Nat) : Nat :=
  let n := c.par t ch 0x14
  if !closedMode mode then 0
  else
    match if mode = lmTrack then (c.chan t ch).trk else (c.chan t ch).fb with
    | none => 0
    | some h => if 3 ≤ h.misses then 1 else if n ≠ 0 ∧ n ≤ h.repeats then 2 else 0

/-! ## Steps 3 and 4: mode changes (R274, R276) -/

/-- A mode entered: FB_FAIL and CAUSE as given, and a blend that its first sample may still drop. -/
def Ctl.enterMode (c : Ctl) (t ch mode cause : Nat) : Ctl :=
  let u := c.getInt t LOOP_CH_OUT ch
  let period := c.par t ch 1
  let m := (c.par t ch 0x12 + period - 1) / period
  let x := c.chan t ch
  ((c.setChan t ch { x with
      blend := if mode = lmOff ∨ mode = lmHold then none else some (u, 0, if m = 0 then 1 else m) }).put t LOOP_CH_MODE mode
    ch).put t LOOP_CH_FB_FAIL (b2n (cause != 0)) ch |>.put t LOOP_CH_CAUSE cause ch |>.put t LOOP_CH_RAMP 0 ch

/-- What a transfer asks for, with the requested mode before it: the commit rows of R276. -/
def Ctl.modeChange (c : Ctl) (t ch was : Nat) : Ctl :=
  let req := c.par t ch 0
  let now := c.loopMode t ch
  let fell := now == lmFallback && c.flag t LOOP_CH_FB_FAIL ch
  let ok := c.healthOf t ch req == 0
  if now = lmOff ∨ req = lmOff then (if now = req then c else c.enterMode t ch req 0)
  else if fell ∨ req ≠ was then
    if ok then
      (c.enterMode t ch req 0).loopEvent t (if fell && closedMode req then 0x5004 else 0x5007) ch now req 0
    else c.loopEvent t 0x5005 ch now now 0
  else c

/-- FALLBACK after HOLD_TIME. -/
def Ctl.fallBack (c : Ctl) (t ch : Nat) : Ctl :=
  (c.enterMode t ch lmFallback (c.get t LOOP_CH_CAUSE ch)).loopEvent t 0x5003 ch lmHold lmFallback 0

/-- Failure, recovery and hold time, the other rows of R276; `exceeded` says that HOLD_TIME has elapsed. -/
def Ctl.modeStep (c : Ctl) (t ch : Nat) (exceeded : Bool) : Ctl :=
  let now := c.loopMode t ch
  let h := c.healthOf t ch now
  if closedMode now && h != 0 then
    let c := (c.enterMode t ch lmHold h).inc t LOOP_COUNT_FAIL
    let c := (c.setChan t ch { c.chan t ch with holdMs := 0 }).loopEvent t (if h = 1 then 0x5001 else 0x5002) ch now lmHold 0
    if c.par t ch 0x13 = 0 then c.fallBack t ch else c
  else if now == lmHold && c.flag t LOOP_CH_FB_FAIL ch then
    let req := c.par t ch 0
    if exceeded then c.fallBack t ch
    else if c.healthOf t ch req = 0 then (c.enterMode t ch req 0).loopEvent t 0x5004 ch lmHold req 0
    else c
  else c

/-! ## Step 5: the output (R272 to R274, R277) -/

/-- The blended target of the next sample in a mode, and the blend after it. -/
def blendStep (b : Option (Int × Nat × Nat)) (target tol : Int) : Int × Option (Int × Nat × Nat) :=
  match b with
  | none => (target, none)
  | some (u, j, m) =>
    let j := j + 1
    if j = 1 ∧ sat32 ((qSub target u).natAbs : Int) ≤ tol then (target, none)
    else if m ≤ j then (target, none)
    else (qAdd u (qFrac (qSub target u) j m), some (u, j, m))

/-- Clamp and rate limit (R272 step 6). -/
def Ctl.limitOut (c : Ctl) (t ch : Nat) (v : Int) : Int :=
  let u := c.getInt t LOOP_CH_OUT ch
  let v := clampInt (c.parI t ch 0x0B) (c.parI t ch 0x0C) v
  let rate := c.parI t ch 0x0D
  if rate = 0 then v
  else
    let d := perPeriod rate (c.par t ch 1)
    clampInt (qSub u d) (qAdd u d) v

/-- The set-point of a closed loop (R272 step 1). -/
def Ctl.setPoint (c : Ctl) (t ch mode : Nat) : Int :=
  if mode = lmCascade then c.getInt t LOOP_CH_OUT (c.par t ch 5)
  else if bit (c.par t ch 3) 8 then c.input t (c.par t ch 3 % 256)
  else c.parI t ch 4

/-- r_eff of a sample: y at the first one in the mode, else one ramp step toward r (R272 step 2). -/
def Ctl.reffOf (c : Ctl) (t ch mode : Nat) (entered : Bool) : Int :=
  let y := c.input t (c.par t ch 2)
  let r := c.setPoint t ch mode
  let old := (c.chan t ch).reff
  let ss := c.parI t ch 0x0E
  if entered then y
  else if ss = 0 then r
  else clampInt (qSub old (perPeriod ss (c.par t ch 1))) (qAdd old (perPeriod ss (c.par t ch 1))) r

/-- The PI part of a sample in AUTO or CASCADE, steps 1 to 5 of R272: the channel's values, the integral, its candidate and
ki × e. -/
def Ctl.piTarget (c : Ctl) (t ch mode : Nat) (entered : Bool) : Chan × Int × Int × Int :=
  let x := c.chan t ch
  let y := c.input t (c.par t ch 2)
  let reff := c.reffOf t ch mode entered
  let e := sat32 (if c.par t ch 9 = 1 then y - reff else reff - y)
  let kp := c.gain t (c.par t ch 7) e
  let ki := c.gain t (c.par t ch 8) e
  let bias := c.parI t ch 0x0A
  let i0 := if entered then sat32 (c.getInt t LOOP_CH_OUT ch - bias) else c.getInt t LOOP_CH_INTEG ch
  let i1 := sat32 (i0 + perPeriod (qMul ki e) (c.par t ch 1))
  ({ x with reff := reff, e := e, kp := kp, ki := ki, target := sat32 (sat32 (bias + qMul kp e) + i1) }, i0, i1, qMul ki e)

/-- The output field of a channel with OUT_MAP.EN (R277). -/
def Ctl.fieldOf (c : Ctl) (t ch : Nat) (u : Int) : Nat :=
  if bit (c.par t ch 0x15) 15 then
    ofSigned 16 (clampInt (-32768) 32767 (roundAway (qMul u (c.parI t ch 0x16)) 65536))
  else (c.chan t ch).field

/-- The output of a sample, with steps 6 and 7 of R272; `entered` says that the mode was entered at this boundary. -/
def Ctl.output (c : Ctl) (t ch : Nat) (entered : Bool) : Ctl :=
  let mode := c.loopMode t ch
  let u0 := c.getInt t LOOP_CH_OUT ch
  let loopMode := mode == lmAuto || mode == lmCascade
  let pi := c.piTarget t ch mode entered
  let x := if loopMode then pi.1 else c.chan t ch
  let target :=
    if loopMode then pi.1.target
    else if mode = lmManual then c.parI t ch 0x0F
    else if mode = lmTrack then c.input t (c.par t ch 6)
    else if mode = lmHold then u0
    else c.parI t ch 0x10
  let b := blendStep x.blend target (c.parI t ch 0x11)
  let u := if mode = lmHold then u0 else c.limitOut t ch b.1
  let keep := u == b.1 || (decide (0 < pi.2.2.2) && decide (b.1 < u)) || (decide (pi.2.2.2 < 0) && decide (u < b.1))
  let integ := if !loopMode then c.getInt t LOOP_CH_INTEG ch else if keep then pi.2.2.1 else pi.2.1
  let c := (c.putInt t LOOP_CH_OUT u ch).putInt t LOOP_CH_INTEG integ ch
    |>.put t LOOP_CH_RAMP (b2n b.2.isSome) ch
  c.setChan t ch { x with blend := b.2, target := b.1, field := c.fieldOf t ch u }

/-! ## Step 6: traces (R280, R281) -/

/-- A trace unit. -/
def Ctl.trace (c : Ctl) (t u : Nat) : Trace := tabGet {} c.traces (t * 8 + u)
/-- A trace unit changed. -/
def Ctl.setTrace (c : Ctl) (t u : Nat) (x : Trace) : Ctl := { c with traces := tabSet c.traces (t * 8 + u) x }

/-- The value of a node: index and kind. A channel number above 63 names none, and its value is free. -/
def Ctl.node (c : Ctl) (t sel : Nat) : Nat :=
  let i := bitsOf sel 8 8
  let x := c.chan t i
  let k := sel % 16
  if k = 8 then c.get t LOOP_IN_VALUE i
  else if 64 ≤ i then Config.freeValue c.fresh % 2 ^ 32
  else
    match k with
    | 0 => c.get t LOOP_IN_VALUE (c.par t i 2)
    | 1 => ofSigned 32 x.reff
    | 2 => ofSigned 32 x.e
    | 3 => ofSigned 32 x.kp
    | 4 => ofSigned 32 x.ki
    | 5 => c.get t LOOP_CH_INTEG i
    | 6 => c.get t LOOP_CH_OUT i
    | 7 => ofSigned 32 x.target
    | _ => c.rawWord 9 t (0x100 + i * 0x10)

/-- Selector `n` of a unit. -/
def Ctl.nodeSel (c : Ctl) (t u n : Nat) : Nat :=
  let w := if n < 2 then c.get t LOOP_TRACE_SEL_A u else c.get t LOOP_TRACE_SEL_B u
  if n % 2 = 0 then w % 65536 else w / 65536

/-- Whether the condition of an armed unit holds at a sample. -/
def Ctl.traceHit (c : Ctl) (t u : Nat) (changed failed : Bool) (v : Int) : Bool :=
  let level := c.getInt t LOOP_TRACE_LEVEL u
  let before := (c.trace t u).prev
  match c.get t LOOP_TRACE_COND u with
  | 0 => true
  | 1 => decide (level ≤ v) && before.any (fun p => decide (p < level))
  | 2 => decide (v ≤ level) && before.any (fun p => decide (level < p))
  | 3 => changed
  | _ => failed

/-- The unit becomes TRIGGERED with the next sample as its trigger sample. -/
def Ctl.traceTrigger (c : Ctl) (t u : Nat) : Ctl :=
  let x := c.trace t u
  ((c.setTrace t u { x with trig := some x.n }).put t LOOP_TRACE_STATE 2 u).put t LOOP_TRACE_TRIG_INDEX (x.n % 4096) u

/-- Whether a triggered unit still captures. -/
def Ctl.traceOpen (c : Ctl) (t u : Nat) : Bool :=
  let x := c.trace t u
  match x.trig with
  | some g => decide (x.n < g + 4096 - c.get t LOOP_TRACE_PRE u)
  | none => true

/-- One sample of one unit. -/
def traceSample (z : MC) (t u ch : Nat) (changed failed : Bool) : MC :=
  let c := z.2
  let st := c.get t LOOP_TRACE_STATE u
  if (st ≠ 1 ∧ st ≠ 2) ∨ c.get t LOOP_TRACE_TIMEBASE u ≠ ch ∨ ¬ c.traceOpen t u then z
  else
    let vals := (List.range 4).map (fun n => c.node t (c.nodeSel t u n))
    let v := toSigned 32 (vals.getD (c.get t LOOP_TRACE_TRIG_NODE u) 0)
    let c := if st = 1 ∧ c.traceHit t u changed failed v then c.traceTrigger t u else c
    let x := c.trace t u
    let a := modAddr t (0x64000000 + u * 0x20000 + x.n % 4096 * 32)
    let m := memStore z.1 a (leBytes 4 (c.get t TIME_NS32_VALUE)
      ++ leBytes 4 (c.loopMode t ch + 16 * c.get t LOOP_CH_FB_FAIL ch) ++ (vals.map (fun v => leBytes 4 v)).flatten
      ++ leBytes 8 0)
    let n := x.n + 1
    (m, (({ c.setTrace t u { x with n := n, prev := some v } with fresh := c.fresh + 1 } : Ctl).put t LOOP_TRACE_COUNT
      (if n < 4096 then n else 4096) u).put t LOOP_TRACE_FIRST (if n ≤ 4096 then 0 else n % 4096) u)

/-! ## A boundary (R267) -/

/-- The requests of `loop.mode` that wait for a channel's commit are answered (R284). -/
def Ctl.loopAnswer (c : Ctl) (t ch status : Nat) (result : List Byte) : Ctl :=
  let l := tabGet [] c.loopWait (t * 64 + ch)
  Ctl.completeEach { c with loopWait := tabErase c.loopWait (t * 64 + ch) } l status result

/-- The steps of a boundary; `exceeded` says that HOLD_TIME has elapsed. -/
def boundary (z : MC) (t ch : Nat) (exceeded : Bool) : MC :=
  let c := z.2
  let was := c.par t ch 0
  let old := c.loopMode t ch
  let failed := c.flag t LOOP_CH_FB_FAIL ch
  let x := c.chan t ch
  let c := c.setChan t ch { x with holdMs := x.holdMs + c.par t ch 1 }
  let pend := c.flag t LOOP_CH_COMMIT_PENDING ch
  let why := if pend then c.commitWhy t ch else 0
  let c := if why ≠ 0 then c.commitRefused t ch why else if pend then c.transfer t ch else c
  let leaves := old == lmOff && c.par t ch 0 != lmOff
  if old = lmOff ∧ ¬ leaves then
    (z.1, if pend then c.loopAnswer t ch (if why = 0 then eOk else c.get t LOOP_CH_COMMIT_ERR ch)
      (if why = 0 then leBytes 1 lmOff else []) else c)
  else
    let c := c.countHealth t ch
    let c := if pend && why == 0 then c.modeChange t ch was else c
    let c := c.modeStep t ch (exceeded || decide (c.par t ch 0x13 ≤ (c.chan t ch).holdMs))
    let now := c.loopMode t ch
    let c := if now = lmOff then c else c.output t ch (match (c.chan t ch).blend with | some (_, 0, _) => true | _ => false)
    let z : MC := if now = lmOff then (z.1, c) else
      forN 8 (fun u z => traceSample z t u ch (now != old) (!failed && c.flag t LOOP_CH_FB_FAIL ch)) (z.1, c)
    z.on (fun c => if pend then c.loopAnswer t ch (if why = 0 then eOk else c.get t LOOP_CH_COMMIT_ERR ch)
      (if why = 0 then leBytes 1 now else []) else c)

/-- LOOP_SAMPLE_BOUNDARY: a boundary of a channel that is not OFF. -/
def execLoopSampleBoundary (t : TileId) (ch : ChanId) (s : State) : Host.Outcome State Fault Refusal :=
  s.onTileM t (fun m c => if c.loopMode t ch = lmOff then (m, c) else boundary (m, c) t ch false)

/-- LOOP_HOLD_TIME_EXPIRY: the first boundary at or after HOLD_TIME of a channel in HOLD with FB_FAIL. -/
def execLoopHoldTimeExpiry (t : TileId) (ch : ChanId) (s : State) : Host.Outcome State Fault Refusal :=
  s.onTileM t (fun m c =>
    if c.loopMode t ch = lmHold ∧ c.flag t LOOP_CH_FB_FAIL ch then boundary (m, c) t ch true else (m, c))

/-- LOOP_OFF_CHANNEL_TRANSFER: a pending commit of a channel in OFF. -/
def execLoopOffChannelTransfer (t : TileId) (ch : ChanId) (s : State) : Host.Outcome State Fault Refusal :=
  s.onTileM t (fun m c =>
    if c.loopMode t ch = lmOff ∧ c.flag t LOOP_CH_COMMIT_PENDING ch then boundary (m, c) t ch false else (m, c))

/-- LOOP_MODE: `loop.mode` (R284). -/
def execLoopMode (d : Datagram) (s : State) : Host.Outcome State Fault Refusal :=
  s.cmd 0x5001 d (fun q m c => guarded q engRoles 3 m c (
    let t := q.arg 0 1
    let ch := q.arg 1 1
    let e := firstErr [(!c.running t, eAbsent), (decide (63 < ch) || decide (6 < q.arg 2 1), eRange)]
    if e ≠ eOk then .err m c e
    else
      let c := (c.put t (LOOP_SHADOW 0) (q.arg 2 1) ch).loopCommit t ch
      { mem := m, later := true
        ctl := { c with loopWait := tabSet c.loopWait (t * 64 + ch) (tabGet [] c.loopWait (t * 64 + ch) ++ [(q.id, q.seq)]) } }))

/-! ## Output frames (R277, R531) -/

/-- The buffer of a frame: 16 and onward over the enabled frames of its port. -/
def Ctl.frameBuffer (c : Ctl) (t f : Nat) : Nat :=
  16 + countN f (fun k => c.flag t LOOP_OFRAME_EN k && c.get t LOOP_OFRAME_PORT k == c.get t LOOP_OFRAME_PORT f)

/-- The bytes of a frame: the fields mapped to it, zero elsewhere; a channel that is not OFF writes over one that is. -/
def Ctl.frameBytes (c : Ctl) (t f : Nat) : List Byte :=
  let maps : Nat → Bool := fun k => bit (c.par t k 0x15) 15 && bitsOf (c.par t k 0x15) 8 4 == f
  let l := (List.range 64).filter (fun k => maps k && c.loopMode t k == lmOff)
    ++ (List.range 64).filter (fun k => maps k && c.loopMode t k != lmOff)
  let data := l.foldl (fun (b : Tab Byte) k =>
    let v := (c.chan t k).field
    let at_ := c.par t k 0x15 % 64
    tabSet (tabSet b at_ (BitVec.ofNat 8 (v / 256))) (at_ + 1) (BitVec.ofNat 8 v)) []
  (List.range (c.get t LOOP_OFRAME_LEN f)).map (fun i => tabGet 0 data i)

/-- LOOP_OUTPUT_FRAME_SEND: the release of an enabled frame with a mapped channel that is not OFF. -/
def execLoopOutputFrameSend (t : TileId) (f : Fin 16) (s : State) : Host.Outcome State Fault Refusal :=
  s.onTile t (fun c =>
    let on := anyN 64 (fun k => c.loopMode t k != lmOff && bit (c.par t k 0x15) 15 && bitsOf (c.par t k 0x15) 8 4 == f.val)
    if !c.flag t LOOP_OFRAME_EN f || !on then c
    else c.canOffer t (c.get t LOOP_OFRAME_PORT f) (c.frameBuffer t f)
      (hwFrame (c.flag t LOOP_OFRAME_EXT f) (c.flag t LOOP_OFRAME_FD f) (c.get t LOOP_OFRAME_CAN_ID f) (c.frameBytes t f)))

/-! ## Trace control (R280) -/

/-- Whether a selector word names an unknown kind of node. -/
def badNodes (w : Nat) : Bool := decide (9 < w % 16) || decide (9 < bitsOf w 16 4)

/-- Whether a control word leaves COND, TRIG_NODE, TIMEBASE and PRE as they stand. -/
def Ctl.traceSame (c : Ctl) (t u w : Nat) : Bool :=
  bitsOf w 24 3 == c.get t LOOP_TRACE_COND u && bitsOf w 22 2 == c.get t LOOP_TRACE_TRIG_NODE u
    && bitsOf w 16 6 == c.get t LOOP_TRACE_TIMEBASE u && w % 4096 == c.get t LOOP_TRACE_PRE u

/-- The capture cleared and the unit ARMED. -/
def Ctl.traceArm (c : Ctl) (t u : Nat) : Ctl :=
  (c.setTrace t u {}).put t LOOP_TRACE_STATE 1 u |>.put t LOOP_TRACE_COUNT 0 u |>.put t LOOP_TRACE_FIRST 0 u
    |>.put t LOOP_TRACE_TRIG_INDEX 0 u

/-- A write of a word of a trace unit: 0 the control word, 1 and 2 the selectors, 3 the level. While the unit is ARMED or
TRIGGERED it takes STOP, and FORCE while it is ARMED, in a word that leaves every other field as it stands; STOP comes
before ARM and FORCE of its word (DESIGN CHOICE, assumption 82). -/
def Ctl.traceWrite (c : Ctl) (o : Origin) (t u k w : Nat) : Ctl × Nat :=
  let st := c.get t LOOP_TRACE_STATE u
  let busy := st == 1 || st == 2
  if !c.mayConfig o then (c.violate o (loopAddr t (0xF000 + u * 0x20 + 4 * k)) true, eOk)
  else if k = 0 then
    let takes := c.traceSame t u w && !bit w 31 && (if bit w 30 then !bit w 29 else bit w 29 && st == 1)
    let e := firstErr [(decide (4 < bitsOf w 24 3), eRange), (busy && !takes, eBusy)]
    if e ≠ eOk then (c, e)
    else
      let c := c.put t LOOP_TRACE_COND (bitsOf w 24 3) u |>.put t LOOP_TRACE_TRIG_NODE (bitsOf w 22 2) u
        |>.put t LOOP_TRACE_TIMEBASE (bitsOf w 16 6) u |>.put t LOOP_TRACE_PRE (w % 4096) u
      if bit w 30 then (c.put t LOOP_TRACE_STATE 0 u, eOk)
      else
        let c := if bit w 31 then c.traceArm t u else c
        (if bit w 29 && (bit w 31 || st == 1) then c.traceTrigger t u else c, eOk)
  else
    let e := firstErr [(k != 3 && badNodes w, eRange), (busy, eBusy)]
    if e ≠ eOk then (c, e)
    else (c.put t (if k = 1 then LOOP_TRACE_SEL_A else if k = 2 then LOOP_TRACE_SEL_B else LOOP_TRACE_LEVEL) w u, eOk)

/-- The control word of a unit as it stands. -/
def Ctl.traceWord (c : Ctl) (t u : Nat) : Nat := c.rawWord 9 t (0xF000 + u * 0x20)

/-- TRACE_ARM: a write of the control word with ARM set and the rest as it stands. -/
def execTraceArm (t : TileId) (o : Origin) (u : Fin 8) (s : State) : Host.Outcome State Fault Refusal :=
  s.onAccess o (fun c => c.access o t 0x09 (fun c => c.traceWrite o t u 0 (c.traceWord t u + 2 ^ 31)))
/-- TRACE_STOP. -/
def execTraceStop (t : TileId) (o : Origin) (u : Fin 8) (s : State) : Host.Outcome State Fault Refusal :=
  s.onAccess o (fun c => c.access o t 0x09 (fun c => c.traceWrite o t u 0 (c.traceWord t u + 2 ^ 30)))
/-- TRACE_FORCE. -/
def execTraceForce (t : TileId) (o : Origin) (u : Fin 8) (s : State) : Host.Outcome State Fault Refusal :=
  s.onAccess o (fun c => c.access o t 0x09 (fun c => c.traceWrite o t u 0 (c.traceWord t u + 2 ^ 29)))

/-- TRACE_DONE: the unit has captured 4,096 − PRE samples from its trigger sample on. -/
def execTraceDone (t : TileId) (u : Fin 8) (s : State) : Host.Outcome State Fault Refusal :=
  s.onTile t (fun c =>
    if c.get t LOOP_TRACE_STATE u = 2 ∧ ¬ c.traceOpen t u then (c.put t LOOP_TRACE_STATE 3 u).irq t 0x29 else c)

/-! ## Other registers (R268, R277, R285) -/

/-- A write of a word of an input map. -/
def Ctl.inMapWrite (c : Ctl) (t i k w : Nat) : Ctl × Nat :=
  match k with
  | 0 =>
    if 2 ≤ bitsOf w 30 2 ∨ bitsOf w 23 2 = 3 ∨ (¬ bit w 29 ∧ bitsOf (c.get t LOOP_IN_MAP_CAN_ID i) 11 18 ≠ 0) then (c, eRange)
    else
      (c.put t LOOP_IN_MAP_SRC (bitsOf w 30 2) i |>.put t LOOP_IN_MAP_EXT (bitsOf w 29 1) i
        |>.put t LOOP_IN_MAP_PORT (bitsOf w 26 3) i |>.put t LOOP_IN_MAP_SIGNED (bitsOf w 25 1) i
        |>.put t LOOP_IN_MAP_WIDTH (bitsOf w 23 2) i |>.put t LOOP_IN_MAP_BYTE (bitsOf w 17 6) i, eOk)
  | 1 => if ¬ c.flag t LOOP_IN_MAP_EXT i ∧ bitsOf w 11 18 ≠ 0 then (c, eRange) else (c.put t LOOP_IN_MAP_CAN_ID w i, eOk)
  | 2 => (c.put t LOOP_IN_MAP_SCALE w i, eOk)
  | _ => (c.put t LOOP_IN_MAP_OFFSET w i, eOk)

/-- A write of a word of an output frame. -/
def Ctl.oframeWrite (c : Ctl) (t f k w : Nat) : Ctl × Nat :=
  if k = 1 then
    if ¬ c.flag t LOOP_OFRAME_EXT f ∧ bitsOf w 11 18 ≠ 0 then (c, eRange) else (c.put t LOOP_OFRAME_CAN_ID w f, eOk)
  else
    let len := bitsOf w 14 7
    let ok := decide (1 ≤ len) && (decide (len ≤ 8) || (bit w 29 && canLengths.contains len))
    let full := bit w 31 && decide (8 ≤ countN 16 (fun j => j != f && c.flag t LOOP_OFRAME_EN j
      && c.get t LOOP_OFRAME_PORT j == bitsOf w 26 3))
    if !ok || decide (w % 2 ^ 14 < 10) || decide (10000 < w % 2 ^ 14) || full
        || (!bit w 30 && bitsOf (c.get t LOOP_OFRAME_CAN_ID f) 11 18 != 0) then (c, eRange)
    else
      (c.put t LOOP_OFRAME_EN (bitsOf w 31 1) f |>.put t LOOP_OFRAME_EXT (bitsOf w 30 1) f
        |>.put t LOOP_OFRAME_FD (bitsOf w 29 1) f |>.put t LOOP_OFRAME_PORT (bitsOf w 26 3) f
        |>.put t LOOP_OFRAME_LEN len f |>.put t LOOP_OFRAME_PERIOD w f, eOk)

end Sys2Proof.Machine
end

