-- ==== Sys2Proof/Machine/BankDispatch.lean ====
section
/-! DEFINITION. Machine/BankDispatch.lean: bank dispatch: the set-point and its modes, allocation, rests, perturbation
sessions, container frames and the cyclic-transmit engine, and string-map commits (R147, R246 to R265). -/
namespace Sys2Proof.Machine

/-- Dispatch modes (R250). -/
abbrev dmFollow : Nat := 0
/-- HOLD. -/
abbrev dmHold : Nat := 1
/-- RAMPDOWN. -/
abbrev dmRampdown : Nat := 2
/-- LOCAL. -/
abbrev dmLocal : Nat := 3

/-- The mode in force. -/
def Ctl.dispModeNow (c : Ctl) : Nat := c.get 0 DISP_CTRL_MODE
/-- P_f in kW. -/
def Ctl.force (c : Ctl) : Int := c.getInt 0 DISP_SP_FORCE_KW
/-- P_f discharges (σ = −1, R254). -/
def Ctl.discharging (c : Ctl) : Bool := decide (c.force < 0)

/-- The tile that coordinates allocation (R256, R454). -/
def Ctl.coordinator (c : Ctl) : Option Nat :=
  if c.running 0 then some 0
  else if c.hasCarry && c.tileState 0 == tsCarried && c.running 1 && c.serves 1 then some 1
  else none

/-- The number of a string of a section. -/
def strKey (h r s : Nat) : Nat := (h * 32 + r) * 32 + s

/-- Cell 0 of a string's head block. -/
def Ctl.headCell (c : Ctl) (h r s : Nat) : Nat := cellId h r (c.get h RING_SMAP_ACT_FIRST r s)

/-! ## Modes and the in-force set-point (R249 to R253) -/

/-- The entry of a schedule in force at a second of the day (R252). -/
def schedAt (l : List (Nat × Int)) (sec : Nat) : Int :=
  match (l.filter (fun e => decide (e.1 ≤ sec))).getLast? with
  | some e => e.2
  | none => (l.getLastD (0, 0)).2

/-- The target of LOCAL: the entry in force at the last cycle with lock; zero without lock since the module reset. -/
def Ctl.localTarget (c : Ctl) : Int :=
  match c.bank.sec with
  | some s => schedAt c.schedule s
  | none => 0

/-- The mode changes at a cycle instant: a handover ramp starts (R251, R253). -/
def Ctl.dispChange (c : Ctl) (mode cause : Nat) : Ctl :=
  let old := c.dispModeNow
  if old = mode then c
  else
    let c := { c with bank := { c.bank with hold := c.force, aged := decide (cause = 1), localAt := c.localTarget } }
    let c := c.put 0 DISP_CTRL_MODE mode |>.put 0 DISP_CTRL_CAUSE cause |>.put 0 DISP_CTRL_HANDOVER 1
    c.event (c.coordinator.getD 0) 0x08 0x4001 0 (leBytes 1 old ++ leBytes 1 mode ++ leBytes 1 cause)

/-- Age expiry: FOLLOW changes as ON_AGE selects (R249). -/
def Ctl.ageExpire (c : Ctl) : Ctl :=
  if c.dispModeNow ≠ dmFollow ∨ c.get 0 DISP_SP_AGE_MS ≤ c.get 0 DISP_CFG_AGE_LIMIT * 100 then c
  else
    let mode := match c.get 0 DISP_CFG_ON_AGE with
      | 0 => if c.schedule = [] then dmRampdown else dmLocal
      | 1 => dmHold
      | _ => dmRampdown
    (c.event (c.coordinator.getD 0) 0x08 0x4002).dispChange mode 1

/-- SETPOINT_AGE_EXPIRY: at a cycle instant; a mode change accepted before it comes first. -/
def execSetpointAgeExpiry (s : State) : Host.Outcome State Fault Refusal :=
  s.onModule (fun c => if c.coordinator.isNone || c.bank.mode.isSome then c else c.ageExpire)

/-- What was accepted before a cycle instant takes effect: the mode, the host set-point, the age, the LOCAL entry. -/
def Ctl.bankAccept (c : Ctl) : Ctl :=
  let sec := if c.timeLocked 0 then some (tabGet 0 c.stnSec 0 % 86400) else c.bank.sec
  let c := { c with bank := { c.bank with sec := sec } }
  let c := match c.bank.host with
    | some v => Ctl.putInt { c with bank := { c.bank with host := none } } 0 DISP_SP_HOST_KW v
    | none => c
  let c := match c.bank.mode with
    | some (m, k) => Ctl.dispChange { c with bank := { c.bank with mode := none } } m k
    | none => c
  let c := c.ageExpire
  if c.dispModeNow = dmLocal ∧ c.bank.localAt ≠ c.localTarget then
    Ctl.put { c with bank := { c.bank with localAt := c.localTarget } } 0 DISP_CTRL_HANDOVER 1
  else c

/-- The target of the mode in force (R250). -/
def Ctl.bankTarget (c : Ctl) : Int :=
  match c.dispModeNow with
  | 0 => c.getInt 0 DISP_SP_HOST_KW
  | 1 => c.bank.hold
  | 3 => c.bank.localAt
  | _ => 0

/-- P_f moves toward its target; the rates are in kW per cycle (R253). -/
def Ctl.bankStep (c : Ctl) : Ctl :=
  let target := c.bankTarget
  let p := c.force
  let ramp := c.flag 0 DISP_CTRL_HANDOVER
  let lim : Nat := if ramp || c.dispModeNow == dmRampdown then c.get 0 DISP_RATE_HANDOVER else c.get 0 DISP_RATE_FOLLOW
  let free := !ramp && c.dispModeNow != dmRampdown && lim == 0
  let p := if free then target else p + clampInt (-(lim : Int)) (lim : Int) (target - p)
  let c := c.putInt 0 DISP_SP_FORCE_KW p
  if ramp && p == target then
    (c.put 0 DISP_CTRL_HANDOVER 0).event (c.coordinator.getD 0) 0x08 0x400A
  else c

/-! ## String inputs (R247, R254) -/

/-- A summary entry latched, unless its GEN words differ. -/
def Ctl.latchOne (m : Mem) (h r s : Nat) (c : Ctl) : Ctl :=
  let b := memBytes m (summaryBase h (c.get (c.execOf h) EST_PASS_FRAME % 2) + (r * 32 + s) * 64) 64
  if b.take 4 = b.drop 0x3C then { c with latch := tabSet c.latch (strKey h r s) b } else c

/-- The valid strings of a section, ring by ring. -/
def Ctl.stringsOf (c : Ctl) (h : Nat) : List (Nat × Nat) :=
  ((List.range 1024).filter (fun k => c.flag h RING_SMAP_ACT_VALID (k / 32) (k % 32))).map (fun k => (k / 32, k % 32))

/-- The sections dispatched: those of running tiles and those served. -/
def Ctl.dispatched (c : Ctl) : List Nat := (List.range c.tiles).filter (fun h => c.running (c.execOf h))

/-- A number of the latched summary. -/
def Ctl.lat (c : Ctl) (h r s o n : Nat) : Nat := leNat (((tabGet [] c.latch (strKey h r s)).drop o).take n)

/-- The container entry of a ring. -/
def Ctl.dispCont (c : Ctl) (h r : Nat) : Option Nat :=
  (List.range 32).find? (fun k => c.flag h DISP_CONT_VALID k
    && (c.get h DISP_CONT_RING_A k == r || (c.flag h DISP_CONT_TWO k && c.get h DISP_CONT_RING_B k == r)))

/-- Whether a string takes part in allocation (R254). -/
def Ctl.takesPart (c : Ctl) (h r s : Nat) : Bool :=
  c.flag h RING_SMAP_ACT_VALID r s && !bit (c.lat h r s 0x24 2) 5 && bit (c.get h DISP_STR_EN_STRING r) s
  && c.ringUp h r && !bit (c.get h LIMIT_RING_TRIP_RING) r
  && (match c.dispCont h r with
      | some k => c.canOnBus h (c.get h DISP_CONT_PORT k) && c.flag h CAN_CTRL_FD_EN (c.get h DISP_CONT_PORT k)
      | none => false)
  && decide (frameDiff (c.get h SMP_FRAME_NUM_FRAME) (c.lat h r s 0 4) ≤ (c.get 0 DISP_ALLOC_SOP_AGE : Int))
  && !bit (c.get h DISP_REST_GNT_STRING r) s

/-- A session of a tile that runs on a string, with true where the string is its A. -/
def Ctl.pertOn (c : Ctl) (h r s : Nat) : Option (Nat × Bool) :=
  ((List.range 4).find? (fun i => c.flag h DISP_PERT_ACTIVE i && c.get h DISP_PERT_RING i == r
    && (c.get h DISP_PERT_STR_A i == s || c.get h DISP_PERT_STR_B i == s))).map (fun i =>
      (i, c.get h DISP_PERT_STR_A i == s))

/-- What a session has latched. -/
def Ctl.pert (c : Ctl) (h i : Nat) : Pert := tabGet {} c.perts (h * 4 + i)
/-- That of a session changed. -/
def Ctl.setPert (c : Ctl) (h i : Nat) (x : Pert) : Ctl := { c with perts := tabSet c.perts (h * 4 + i) x }

/-- The cycles of 10 ms from t0 of a session on. -/
def Ctl.pertCycles (c : Ctl) (x : Pert) : Nat := (c.bank.tick + 2 ^ 32 - x.start) % 2 ^ 32

/-- AMPL of a session in A. -/
def Ctl.ampl (c : Ctl) (h i : Nat) : Rat := (c.get h DISP_PERT_AMPL i : Rat) / 10

/-- A string's power in W and current in A from its latched summary, in the direction of P_f at the horizon (R254). -/
def Ctl.powerOf (c : Ctl) (h r s : Nat) : Rat × Rat :=
  let i := (if c.discharging then 0 else 2) + c.get 0 DISP_CFG_HOR
  ((c.lat h r s (4 + 4 * i) 4 : Rat), (c.lat h r s (0x14 + 2 * i) 2 : Rat) / 10)

/-- A string in an allocation: L and J less what its session takes, z, its weight and its share in W. -/
structure Share where
  h : Nat
  r : Nat
  s : Nat
  l : Rat
  j : Rat
  z : Rat
  w : Rat := 0
  a : Rat := 0

/-- A string as it enters allocation. -/
def Ctl.shareOf (c : Ctl) (h r s : Nat) : Share :=
  let p := c.powerOf h r s
  let less : Rat × Rat := match c.pertOn h r s with
    | some (i, isA) =>
      let x := c.pert h i
      if x.begun then (c.ampl h i * x.ua, if isA then c.ampl h i else c.ampl h i * rdiv x.ua x.ub) else (0, 0)
    | none => (0, 0)
  { h := h, r := r, s := s, l := rmax 0 (p.1 - less.1), j := rmax 0 (p.2 - less.2), z := (c.lat h r s 0x1C 2 : Rat) / 10000 }

/-! ## Allocation (R255, R257) -/

/-- The passes of R255 from multiplier `lam` on, with `other` W of tiles counted with their previous allocation: the rest
and the shares. -/
def allocate (p other : Rat) : (fuel : Nat) → (lam : Rat) → List Share → Rat × List Share
  | fuel, lam, l =>
    let l := l.map (fun x => { x with a := rmin x.l (lam * x.w) })
    let rest := p - other - (l.map (fun x => x.a)).sum
    let free := ((l.filter (fun x => decide (x.a < x.l))).map (fun x => x.w)).sum
    match fuel with
    | 0 => (rest, l)
    | fuel + 1 => if rest < 1000 ∨ free = 0 then (rest, l) else allocate p other fuel (lam + rest / free) l

/-- A real truncated toward zero. -/
def truncZ (x : Rat) : Int := if x < 0 then -((-x).floor) else x.floor

/-- The perturbation term of a string in A, at the cycle under way (R259). -/
def Ctl.pertTerm (c : Ctl) (h r s : Nat) : Rat :=
  match c.pertOn h r s with
  | some (i, isA) =>
    let x := c.pert h i
    let w := c.ampl h i * Config.sin (((c.get h DISP_PERT_FREQ i * c.pertCycles x : Nat) : Rat) / 100000)
    if !x.begun then 0 else if isA then w else -(w * rdiv x.ua x.ub)
  | none => 0

/-- A string's set-point in 0.1 A; one outside the signed 16-bit field is a free value. -/
def Ctl.putSetPt (c : Ctl) (h r s : Nat) (amps : Rat) : Ctl :=
  let v := truncZ (amps * 10)
  let y : Int × Ctl := if v < -32768 ∨ 32767 < v then (toSigned 16 (c.free.1 % 65536), c.free.2) else (v, c)
  { y.2 with setPts := tabSet y.2.setPts (strKey h r s) y.1 }

/-- The allocation of a cycle: tiles that have not answered are counted with their figures of the previous cycle and keep
their set-points (R255). Answers Σ L of the bank. -/
def Ctl.allocateBank (c : Ctl) : Ctl × Rat :=
  let late := fun h => c.bank.late.contains (c.execOf h)
  let hs := c.dispatched.filter (fun h => !late h)
  let lates := (c.bank.late.filter (fun p => c.running p)).map (fun p => tabGet [] c.bank.sums p)
  let old : Nat → Rat := fun k => (lates.map (fun l => l.getD k 0)).sum
  let l := (hs.map (fun h => ((c.stringsOf h).filter (fun e => c.takesPart h e.1 e.2)).map (fun e =>
    c.shareOf h e.1 e.2))).flatten
  let sumL := (l.map (fun x => x.l)).sum + old 0
  let zBank := if sumL = 0 then 0 else ((l.map (fun x => x.l * x.z)).sum + old 1) / sumL
  let g : Rat := (c.get 0 DISP_ALLOC_GAIN : Rat) / 16
  let sg : Rat := if c.discharging then -1 else 1
  let l := l.map (fun x => { x with w := x.l * rmax 0 (1 - sg * g * (x.z - zBank)) })
  let sumW := (l.map (fun x => x.w)).sum + old 2
  let p : Rat := ((c.force.natAbs * 1000 : Nat) : Rat)
  let y := allocate p (old 3) 4 (if sumW = 0 then 0 else p / sumW) l
  let c := hs.foldl (fun (c : Ctl) h => (c.stringsOf h).foldl (fun (c : Ctl) e =>
    let base : Rat := match y.2.find? (fun x => x.h == h && x.r == e.1 && x.s == e.2) with
      | some x => if x.l = 0 then 0 else sg * x.a * x.j / x.l + c.pertTerm h e.1 e.2
      | none => 0
    c.putSetPt h e.1 e.2 base) c) c
  let mine : Nat → List Share := fun q => y.2.filter (fun x => c.execOf x.h == q)
  let sums := (List.range c.tiles).foldl (fun (t : Tab (List Rat)) q =>
    if !c.running q || c.bank.late.contains q then t
    else tabSet t q [((mine q).map (fun x => x.l)).sum, ((mine q).map (fun x => x.l * x.z)).sum,
      ((mine q).map (fun x => x.w)).sum, ((mine q).map (fun x => x.a)).sum]) c.bank.sums
  let k := c.coordinator.getD 0
  let c := if c.bank.late.any (fun q => c.running q) then c.inc k DISP_STAT_LATE else c
  let c := { c with bank := { c.bank with sums := sums, late := [] } }
  let kw := (y.1 / 1000).floor
  let was := c.flag 0 DISP_CTRL_SHORT
  let c := if 1000 ≤ y.1 then
      let c := (c.putInt 0 DISP_SHORT_KW kw).put 0 DISP_CTRL_SHORT 1
      if was then c else c.event k 0x08 0x4003 0 (leBytes 4 (ofSigned 32 kw))
    else
      let c := (c.put 0 DISP_SHORT_KW 0).put 0 DISP_CTRL_SHORT 0
      if was then c.event k 0x08 0x4004 else c
  (c, sumL)

/-- ALLOCATION_EXCHANGE_TIMEOUT: a tile has not answered an exchange of the next cycle within 300 µs. -/
def execAllocationExchangeTimeout (t : TileId) (s : State) : Host.Outcome State Fault Refusal :=
  s.onTile t (fun c =>
    if c.bank.late.contains t.val then c else { c with bank := { c.bank with late := t.val :: c.bank.late } })

/-! ## Perturbation sessions (R259, R260) -/

/-- A session ends, early or complete; the estimator abandons the strings of one that ends early (R206). -/
def Ctl.endPert (c : Ctl) (h i : Nat) (early : Bool) : Ctl :=
  if !c.flag h DISP_PERT_ACTIVE i then c
  else
    let r := c.get h DISP_PERT_RING i
    let a := c.get h DISP_PERT_STR_A i
    let bad : Nat → Ctl → Ctl := fun s c =>
      match (c.sx h r s).sess with
      | some y => c.setSx h r s { c.sx h r s with sess := some { y with bad := true } }
      | none => c
    let c := if early then bad (c.get h DISP_PERT_STR_B i) (bad a c) else c
    (Ctl.put { c with perts := tabErase c.perts (h * 4 + i) } h DISP_PERT_ACTIVE 0 i).event (c.execOf h) 0x08 0x4008
      (c.headCell h r a) (leBytes 1 (b2n early))

/-- A session at a cycle instant: it ends early, starts, or goes on. -/
def Ctl.pertCycle (h i : Nat) (c : Ctl) : Ctl :=
  if !c.flag h DISP_PERT_ACTIVE i then c
  else
    let r := c.get h DISP_PERT_RING i
    let a := c.get h DISP_PERT_STR_A i
    let b := c.get h DISP_PERT_STR_B i
    let x := c.pert h i
    if c.dispModeNow == dmRampdown || !c.takesPart h r a || !c.takesPart h r b || (x.begun && x.discharge != c.discharging) then
      c.endPert h i true
    else if x.begun then c
    else
      let pa := c.powerOf h r a
      let pb := c.powerOf h r b
      let f0 := c.get h SMP_FRAME_NUM_FRAME
      let ms := c.bank.cyc * 10
      let c := c.setPert h i { begun := true, start := c.bank.tick, ua := rdiv pa.1 pa.2, ub := rdiv pb.1 pb.2, discharge := c.discharging }
      let c := (c.put h DISP_PERT_T0_FRAME f0 i).put h DISP_PERT_T0_MS ms i
      let give : Nat → Ctl → Ctl := fun s c => c.setSx h r s { c.sx h r s with
        sess := some { num := i, freq := c.get h DISP_PERT_FREQ i, frame0 := f0, ms0 := ms } }
      (give b (give a c)).event (c.execOf h) 0x08 0x4007 (c.headCell h r a)

/-- SESSION_END: 20 / f s have passed. -/
def execSessionEnd (t : TileId) (i : Fin 4) (s : State) : Host.Outcome State Fault Refusal :=
  s.onTile t (fun c =>
    if (c.pert t i).begun && decide (2000000 ≤ c.pertCycles (c.pert t i) * c.get t DISP_PERT_FREQ i) then c.endPert t i false else c)

/-! ## Rolling rests (R258) -/

/-- Rests of a section, oldest first. -/
def Ctl.restsOf (c : Ctl) (h : Nat) : List (Nat × Nat) := tabGet [] c.rests h

/-- A rest ends. -/
def Ctl.endRest (c : Ctl) (h r s : Nat) : Ctl :=
  Ctl.put { c with rests := tabSet c.rests h ((c.restsOf h).filter (fun e => e.1 != r * 32 + s)) } h DISP_REST_GNT_STRING
    (setBit (c.get h DISP_REST_GNT_STRING r) s false) r

/-- Whether a Σ L in W leaves the headroom that rests need. -/
def Ctl.headroom (c : Ctl) (sumL : Rat) : Bool :=
  decide (((c.force.natAbs * 10 * (100 + c.get 0 DISP_ALLOC_REST_MARGIN) : Nat) : Rat) ≤ sumL)

/-- The rests of the sections a tile dispatches, with the section of each. -/
def Ctl.tileRests (c : Ctl) (p : Nat) : List (Nat × Nat × Nat) :=
  ((c.sections p).map (fun h => (c.restsOf h).map (fun e => (h, e)))).flatten

/-- The next string of a tile in round-robin order that may rest, as section × 1,024 + ring × 32 + string. -/
def Ctl.restCandidate (c : Ctl) (p : Nat) : Option Nat :=
  let ok : Nat → Bool := fun n =>
    let h := n / 1024
    let r := n / 32 % 32
    let s := n % 32
    bit (c.get h EST_REST_REQ_STRING r) s && c.takesPart h r s && (c.pertOn h r s).isNone
  let all := ((c.sections p).map (fun h => (List.range 1024).map (fun k => h * 1024 + k))).flatten
  let after := match tabFind c.restLast p with | some n => (all.dropWhile (fun k => k != n)).drop 1 | none => []
  (after ++ all).find? ok

/-- The rests of a tile at a cycle: those of disabled strings end (R489), the latest one ends for headroom, else one may be
granted. -/
def Ctl.restCycle (sumL : Rat) (c : Ctl) (p : Nat) : Ctl :=
  let c := (c.tileRests p).foldl (fun (c : Ctl) e =>
    let r := e.2.1 / 32
    let s := e.2.1 % 32
    if bit (c.get e.1 DISP_STR_EN_STRING r) s then c else c.endRest e.1 r s) c
  let l := c.tileRests p
  if !c.headroom sumL then
    match l with
    | [] => c
    | e :: l =>
      let e := l.foldl (fun b x => if b.2.2 ≤ x.2.2 then x else b) e
      (c.endRest e.1 (e.2.1 / 32) (e.2.1 % 32)).event p 0x08 0x4006 (c.headCell e.1 (e.2.1 / 32) (e.2.1 % 32))
  else
    match c.restCandidate p with
    | none => c
    | some n =>
      let h := n / 1024
      let r := n / 32 % 32
      let s := n % 32
      if c.dispModeNow != dmRampdown && decide (l.length < c.get p DISP_REST_MAX) && c.headroom (sumL - (c.shareOf h r s).l) then
        let c := { c with rests := tabSet c.rests h (c.restsOf h ++ [(r * 32 + s, c.optime)]), restLast := tabSet c.restLast p n }
        (c.put h DISP_REST_GNT_STRING (setBit (c.get h DISP_REST_GNT_STRING r) s true) r).event p 0x08 0x4005 (c.headCell h r s)
      else c

/-- REST_END: DURATION after the string came to rest, 30 s without rest, or its request bit cleared. -/
def execRestEnd (t : TileId) (r : RingId) (str : StringId) (s : State) : Host.Outcome State Fault Refusal :=
  s.onTile t (fun c =>
    match (c.restsOf t).find? (fun e => e.1 == r.val * 32 + str.val) with
    | none => c
    | some (_, at_) =>
      let exceeded := match (c.sx t r str).rest with
        | some ms => decide (c.get t DISP_REST_DURATION * 1000 ≤ ms)
        | none => decide (at_ + 30000 ≤ c.optime)
      if exceeded || !bit (c.get t EST_REST_REQ_STRING r) str then c.endRest t r str else c)

/-! ## Container frames (R261, R262) -/

/-- The rings of a container entry. -/
def Ctl.contRings (c : Ctl) (h k : Nat) : List Nat :=
  if c.flag h DISP_CONT_TWO k then [c.get h DISP_CONT_RING_A k, c.get h DISP_CONT_RING_B k] else [c.get h DISP_CONT_RING_A k]

/-- Whether a string numbered 24 or above is valid in a ring's active map. -/
def Ctl.has24 (c : Ctl) (h r : Nat) : Bool := anyN 8 (fun i => c.flag h RING_SMAP_ACT_VALID r (24 + i))

/-- The frames of a container that are sent, by their number j. -/
def Ctl.framesOf (c : Ctl) (h k : Nat) : List Nat :=
  ((List.range 2).zip (c.contRings h k)).flatMap (fun e => if c.has24 h e.2 then [2 * e.1, 2 * e.1 + 1] else [2 * e.1])

/-- The bytes of frame j of a container; `low` is byte 2, `sp` the set-points of its ring. -/
def Ctl.contFrame (c : Ctl) (h k j seq low : Nat) (sp : Nat → Int) : List Byte :=
  let r := (c.contRings h k).getD (j / 2) 0
  let first := j % 2 * 24
  let valid : Nat → Bool := fun s => c.flag h RING_SMAP_ACT_VALID r s
  let n := if j % 2 = 0 then 24 else 8
  let hi := ((List.range n).filter (fun i => valid (first + i))).getLastD 0
  leBytes 1 2 ++ leBytes 1 seq ++ leBytes 1 low ++ leBytes 1 (hi + 1) ++ leBytes 1 first ++ leBytes 1 (h * 32 + r)
  ++ beBytes 2 (c.get (c.execOf h) DISP_CFG_VALID * 10) ++ beBytes 4 c.bank.tick ++ leBytes 4 0
  ++ ((List.range 24).map (fun i => beBytes 2 (if i < n ∧ valid (first + i) then ofSigned 16 (sp (first + i)) else 0))).flatten

/-- TX_STOPPED shows whether a slot of the tile is stopped. -/
def Ctl.putStopped (c : Ctl) (h : Nat) : Ctl :=
  c.put h DISP_CTRL_TX_STOPPED (b2n (anyN 32 (fun k => (tabGet ({} : Slot) c.slots (h * 32 + k)).stopped)))

/-- The slots of a section refreshed with a mode and a factor on its set-points. -/
def Ctl.refresh (c : Ctl) (h mode : Nat) (factor : Rat) : Ctl :=
  let p := c.execOf h
  let low := c.get p DISP_CTRL_SHORT * 8 + c.get p DISP_CTRL_HANDOVER * 4 + mode
  Ctl.putStopped (forN 32 (fun k (c : Ctl) =>
    if !c.flag h DISP_CONT_VALID k then c
    else
      let x := tabGet ({} : Slot) c.slots (h * 32 + k)
      let seq := (x.seq + 1) % 256
      let frames := (c.framesOf h k).map (fun j =>
        let r := (c.contRings h k).getD (j / 2) 0
        (j, c.contFrame h k j seq low (fun s => truncZ (factor * ((tabGet 0 c.setPts (strKey h r s) : Int) : Rat)))))
      { c with slots := tabSet c.slots (h * 32 + k) { seq := seq, frames := frames, fresh := true } }) c) h

/-- The set-points a frame carries become those last sent. -/
def Ctl.putSent (c : Ctl) (h : Nat) (b : List Byte) : Ctl :=
  let r := (b.getD 5 0).toNat % 32
  let first := (b.getD 4 0).toNat
  forN (b.getD 3 0).toNat (fun i (c : Ctl) => c.put h DISP_STR_SP_SETPOINT (beNat ((b.drop (16 + 2 * i)).take 2)) r (first + i)) c

/-- The assignment of buffers on a tile: the valid containers in order, each with its first buffer and its frames (R262). -/
def Ctl.txPlan (c : Ctl) (h : Nat) : List (Nat × Nat × List Nat) :=
  ((List.range 32).foldl (fun (y : List (Nat × Nat × List Nat) × Tab Nat) k =>
    if !c.flag h DISP_CONT_VALID k then y
    else
      let p := c.get h DISP_CONT_PORT k
      let b := tabGet 24 y.2 p
      let js := c.framesOf h k
      (y.1 ++ [(k, b, js)], tabSet y.2 p (b + js.length))) ([], [])).1

/-- Unsent frames that the assignment no longer gives their buffers leave them, so that none is queued twice (R262; DESIGN
CHOICE, assumption 99: the frame of an entry that is no longer valid goes too). -/
def Ctl.withdraw (c : Ctl) (h : Nat) (plan : List (Nat × Nat × List Nat)) : Ctl :=
  forN 64 (fun n (c : Ctl) =>
    let p := n / 8
    let b := 24 + n % 8
    let mine := plan.any (fun e => c.get h DISP_CONT_PORT e.1 == p && decide (e.2.1 ≤ b) && decide (b - e.2.1 < e.2.2.length)
      && c.get h DISP_CONT_EXT e.1 == c.get h CAN_TXB_EXT p b
      && c.get h DISP_CONT_CAN_ID e.1 + e.2.2.getD (b - e.2.1) 0 == c.get h CAN_TXB_ID p b)
    if !c.canPending h p b || mine then c
    else (c.putTxBit h p b CAN_TXREQ false).putTxBit h p b CAN_TXCANCEL false) c

/-- One release of the cyclic-transmit engine: buffers 24 and onward of each port in order of container and frame. -/
def Ctl.release (c : Ctl) (h : Nat) : Ctl :=
  let plan := c.txPlan h
  plan.foldl (fun (c : Ctl) e =>
    let k := e.1
    let x := tabGet ({} : Slot) c.slots (h * 32 + k)
    if x.stopped || x.frames.isEmpty then c
    else
      let c := ((List.range e.2.2.length).zip e.2.2).foldl (fun (c : Ctl) f =>
        match tabFind x.frames f.2 with
        | some d =>
          if 32 ≤ e.2.1 + f.1 then c
          else (c.canOffer h (c.get h DISP_CONT_PORT k) (e.2.1 + f.1)
            (hwFrame (c.flag h DISP_CONT_EXT k) true (c.get h DISP_CONT_CAN_ID k + f.2) d)).putSent h d
        | none => c) c
      let c := if x.fresh then c else c.inc h DISP_STAT_REPEAT
      { c with slots := tabSet c.slots (h * 32 + k) { x with fresh := false, missed := if x.fresh then 0 else x.missed + 1 } })
    (c.withdraw h plan)

/-- CYCLIC_TX_RELEASE: 1 ms after a cycle instant; nothing is sent until STARTED is set (R250, R262). -/
def execCyclicTxRelease (t : TileId) (s : State) : Host.Outcome State Fault Refusal :=
  s.onTile t (fun c => if c.flag t DISP_CTRL_STARTED then c.release t else c)

/-- REPEAT_LIMIT_STOP: REPEAT_LIMIT has passed without a refresh of a slot. -/
def execRepeatLimitStop (t : TileId) (k : Fin 32) (s : State) : Host.Outcome State Fault Refusal :=
  s.onTile t (fun c =>
    let n := t.val * 32 + k.val
    let x := tabGet ({} : Slot) c.slots n
    if x.stopped || decide (x.missed * 10 < c.get t DISP_CFG_REPEAT_LIMIT * 50) then c
    else (Ctl.putStopped { c with slots := tabSet c.slots n { x with stopped := true } } t).event (c.recorderOf t) 0x08 0x4009)

/-! ## The cycle (R246, R256, R257) -/

/-- The tile-0 registers of the block as tile `t` copies them. -/
def Ctl.copyDisp (t : Nat) (c : Ctl) : Ctl :=
  if t = 0 then c
  else [DISP_CTRL_STARTED, DISP_CTRL_HANDOVER, DISP_CTRL_SHORT, DISP_CTRL_CAUSE, DISP_CTRL_MODE, DISP_SP_HOST_KW, DISP_SP_FORCE_KW,
    DISP_SHORT_KW, DISP_SP_AGE_MS, DISP_CFG_AGE_LIMIT, DISP_CFG_ON_AGE, DISP_CFG_AUTO_RESUME, DISP_CFG_HOR, DISP_CFG_VALID,
    DISP_CFG_REPEAT_LIMIT, DISP_RATE_HANDOVER, DISP_RATE_FOLLOW, DISP_ALLOC_GAIN, DISP_ALLOC_REST_MARGIN,
    DISP_ALLOC_SOP_AGE].foldl (fun (c : Ctl) F => c.put t F (c.get 0 F)) c

/-- A coordinated cycle. -/
def Ctl.coordinated (m : Mem) (c : Ctl) : Ctl :=
  let c := (c.bankAccept).bankStep
  let c := { c with lone := [] }
  let late : Nat → Bool := fun h => c.bank.late.contains (c.execOf h)
  let hs := c.dispatched.filter (fun h => !late h)
  let c := hs.foldl (fun (c : Ctl) h => (c.stringsOf h).foldl (fun (c : Ctl) e => c.latchOne m h e.1 e.2) c) c
  let c := hs.foldl (fun (c : Ctl) h => forN 4 (fun i c => Ctl.pertCycle h i c) c) c
  let y := c.allocateBank
  let c := ((List.range c.tiles).filter (fun p => y.1.running p && hs.contains p)).foldl (Ctl.restCycle y.2) y.1
  let c := forN c.tiles Ctl.copyDisp c
  hs.foldl (fun (c : Ctl) h => c.refresh h c.dispModeNow 1) c

/-- A cycle of a tile without coordination: HOLD, or once ramping its set-points scaled toward zero (R256). -/
def Ctl.loneCycle (t : Nat) (c : Ctl) : Ctl :=
  if !c.running t || c.systemHeld t then c
  else
    let x := tabGet ({} : Lone) c.lone t
    let c := c.inc t DISP_STAT_LATE
    let c := if x.cycles = 0 then c.event t 0x08 0x400B else c
    let share := (tabGet [] c.bank.sums t).getD 3 0 / 1000
    let f := if !x.ramping then x.factor
      else if share = 0 then 0 else rmax 0 (x.factor - (c.get t DISP_RATE_HANDOVER : Rat) / share)
    let c := { c with lone := tabSet c.lone t { x with cycles := x.cycles + 1, factor := f } }
    (c.sections t).foldl (fun (c : Ctl) h => c.refresh h (if x.ramping then dmRampdown else dmHold) f) c

/-- DISPATCH_CYCLE: a cycle instant. A tile whose System tasks do not run answers no exchange (R216, R247, R255). -/
def execDispatchCycle (s : State) : Host.Outcome State Fault Refusal :=
  s.onModuleM (fun m c =>
    let c := { c with bank := { c.bank with tick := (c.bank.tick + 1) % 2 ^ 32 } }
    let held := (List.range c.tiles).filter (fun t => c.systemHeld t && !c.bank.late.contains t)
    let led := match c.coordinator with | some k => !c.systemHeld k | none => false
    let c := if led then Ctl.coordinated m { c with bank := { c.bank with late := held ++ c.bank.late } }
      else forN c.tiles Ctl.loneCycle c
    let c := forN c.tiles (fun t (c : Ctl) => if c.live t then c.telemTrigger t 2 else c) c
    (m, { c with bank := { c.bank with cyc := c.bank.cyc + 1, late := [] } }))

/-- COORDINATION_RAMP: cycles without coordination have lasted AGE_LIMIT; rests and sessions of the tile end. -/
def execCoordinationRamp (t : TileId) (s : State) : Host.Outcome State Fault Refusal :=
  s.onTile t (fun c =>
    let x := tabGet ({} : Lone) c.lone t
    if c.coordinator.isSome || x.ramping || x.cycles = 0 || decide (x.cycles * 10 < c.get t DISP_CFG_AGE_LIMIT * 100) then c
    else
      let c := { c with lone := tabSet c.lone t { x with ramping := true } }
      (c.sections t).foldl (fun (c : Ctl) h =>
        forN 4 (fun i c => Ctl.endPert c h i true) ((c.restsOf h).foldl (fun (c : Ctl) e =>
          c.endRest h (e.1 / 32) (e.1 % 32)) c)) c)

/-! ## Commands (R248, R251, R252, R264) -/

/-- Whether an SPSEQ is newer than the last accepted. -/
def Ctl.spNewer (c : Ctl) (q : Nat) : Bool :=
  match c.bank.seq with
  | some k => decide (0 < frameDiff q k)
  | none => true

/-- Whether a bank power is in range. -/
def powerOk (v : Int) : Bool := decide (-8000000 ≤ v) && decide (v ≤ 8000000)

/-- A host set-point accepted. -/
def Ctl.acceptPower (c : Ctl) (q : Nat) (v : Int) : Ctl :=
  Ctl.put { c with bank := { c.bank with host := some v, seq := some q } } 0 DISP_SP_AGE_MS 0

/-- The effect of `bank.setpoint`. -/
def bankSetpoint (q : Req) (m : Mem) (c : Ctl) : Eff :=
  guarded q opRoles 8 m c (
    let seq := q.arg 0 4
    let v := q.argInt 4 4
    let resume := c.dispModeNow == dmLocal && c.bank.aged && c.flag 0 DISP_CFG_AUTO_RESUME
    let e := firstErr [(!powerOk v, eRange), (c.dispModeNow != dmFollow && !resume, eState), (!c.spNewer seq, eConflict)]
    if e ≠ eOk then .err m c e
    else
      let c := c.acceptPower seq v
      { mem := m, ctl := if resume then { c with bank := { c.bank with mode := some (dmFollow, 3) } } else c })

/-- BANK_SETPOINT: `bank.setpoint`. -/
def execBankSetpoint (d : Datagram) (s : State) : Host.Outcome State Fault Refusal := s.cmd 0x4001 d bankSetpoint

/-- The effect of `disp.mode`. -/
def dispModeCmd (q : Req) (m : Mem) (c : Ctl) : Eff :=
  guarded q opRoles (if q.arg 0 1 = 0 then 9 else 1) m c (
    let mode := q.arg 0 1
    let follow := decide (mode = dmFollow)
    let e := firstErr [(decide (3 < mode) || (follow && !powerOk (q.argInt 5 4)), eRange),
      (decide (mode = dmLocal) && c.schedule.isEmpty, eState), (follow && !c.spNewer (q.arg 1 4), eConflict)]
    if e ≠ eOk then .err m c e
    else
      let c := if follow then c.acceptPower (q.arg 1 4) (q.argInt 5 4) else c
      { mem := m, ctl := Ctl.put { c with bank := { c.bank with mode := some (mode, 0) } } 0 DISP_CTRL_STARTED 1 })

/-- DISP_MODE: `disp.mode`. -/
def execDispMode (d : Datagram) (s : State) : Host.Outcome State Fault Refusal := s.cmd 0x4002 d dispModeCmd

/-- The entries a schedule's bytes hold. -/
def schedEntries (b : List Byte) : List (Nat × Int) :=
  (List.range (beNat (b.take 2))).map (fun i =>
    (beNat ((b.drop (4 + 8 * i)).take 4), toSigned 32 (beNat ((b.drop (8 + 8 * i)).take 4))))

/-- The checks of a schedule (R264). -/
def schedCode (b : List Byte) : Nat :=
  let n := beNat (b.take 2)
  let l := schedEntries b
  firstErr [(b.length != 8 + 8 * n, eFormat), (crc32c 0xFFFFFFFF (b.take (4 + 8 * n)) != beNat (b.drop (4 + 8 * n)), eIntegrity),
    (n == 0 || decide (288 < n) || l.any (fun e => decide (86400 ≤ e.1) || !powerOk e.2)
      || (l.zip (l.drop 1)).any (fun e => decide (e.2.1 ≤ e.1.1)), eRange)]

/-- DISP_SCHEDULE: `disp.schedule`. -/
def execDispSchedule (d : Datagram) (s : State) : Host.Outcome State Fault Refusal :=
  s.cmd 0x4003 d (fun q m c => Eff.names (q := q) (pos := 0) (guarded q engRoles 1 m c (
    let x := c.takeBulk q (q.arg 0 1)
    let e := if x.1 ≠ eOk then x.1 else schedCode x.2.1
    if e ≠ eOk then .err m x.2.2 e else { mem := m, ctl := { x.2.2 with schedule := schedEntries x.2.1 } })))

/-- The start of a session, or with two argument bytes its stop. -/
def dispPerturb (q : Req) (m : Mem) (c : Ctl) : Eff :=
  let t := q.arg 0 1
  if q.args.length = 2 then guarded q engRoles 2 m c (
    let i := q.arg 1 1
    let e := firstErr [(!c.running t, eAbsent), (decide (3 < i), eRange), (!c.flag t DISP_PERT_ACTIVE i, eState)]
    if e ≠ eOk then .err m c e else { mem := m, ctl := c.endPert t i true })
  else guarded q engRoles 8 m c (
    let r := q.arg 1 1
    let a := q.arg 2 1
    let b := q.arg 3 1
    let f := q.arg 4 2
    let n := q.arg 6 2
    let valid : Nat → Bool := fun s => decide (s < 32) && c.flag t RING_SMAP_ACT_VALID r s
    let ia := c.get t DISP_STR_RATED_I_RATED r a
    let ib := c.get t DISP_STR_RATED_I_RATED r b
    let pa := c.powerOf t r a
    let pb := c.powerOf t r b
    let nb := (n : Rat) * rdiv (rdiv pa.1 pa.2) (rdiv pb.1 pb.2)
    let slot := (List.range 4).find? (fun i => !c.flag t DISP_PERT_ACTIVE i)
    let used : Nat → Bool := fun s => bit (c.get t DISP_REST_GNT_STRING r) s || (c.pertOn t r s).isSome
    let part : Nat → Bool := fun s => c.takesPart t r s || bit (c.get t DISP_REST_GNT_STRING r) s
    let e := firstErr [(c.ringAbsent t r || !valid a || !valid b, eAbsent),
      (decide (f < 50) || decide (1000 < f) || decide (1000000 < 4 * f * c.periodMs) || decide (ia < 50 * n)
        || decide ((ib : Rat) < 50 * nb) || ia == 0 || ib == 0, eRange),
      (c.dispModeNow == dmRampdown || !part a || !part b, eState), (a == b || used a || used b, eConflict), (slot.isNone, eBusy)]
    if e ≠ eOk then .err m c e
    else
      let i := slot.getD 0
      let c := { c with perts := tabErase c.perts (t * 4 + i) }
      let c := c.put t DISP_PERT_ACTIVE 1 i |>.put t DISP_PERT_RING r i |>.put t DISP_PERT_STR_A a i |>.put t DISP_PERT_STR_B b i
        |>.put t DISP_PERT_FREQ f i |>.put t DISP_PERT_AMPL n i
      { mem := m, ctl := c, result := leBytes 1 i })

/-- DISP_PERTURB: `disp.perturb`. -/
def execDispPerturb (d : Datagram) (s : State) : Host.Outcome State Fault Refusal := s.cmd 0x4004 d dispPerturb
/-- DISP_PERTURB_STOP: `disp.perturb` with STOP. -/
def execDispPerturbStop (d : Datagram) (s : State) : Host.Outcome State Fault Refusal := s.cmd 0x4004 d dispPerturb

/-! ## Container entries and string maps (R15, R147, R262, R265) -/

/-- Frames that a port would carry with a table of containers (port and rings of the valid ones) and rings with frames 1. -/
def portFrames (cont : Nat → Option (Nat × List Nat)) (has : Nat → Bool) (p : Nat) : Nat :=
  (List.range 32).foldl (fun n k =>
    match cont k with
    | some (q, rs) => if q = p then n + (rs.map (fun r => 1 + b2n (has r))).sum else n
    | none => n) 0

/-- The port and rings of a valid container entry. -/
def Ctl.contEntry (c : Ctl) (h k : Nat) : Option (Nat × List Nat) :=
  if c.flag h DISP_CONT_VALID k then some (c.get h DISP_CONT_PORT k, c.contRings h k) else none

/-- A write of DISP_CONT word 0 or 1. -/
def Ctl.dispContWrite (c : Ctl) (t k : Nat) (hi : Bool) (w : Nat) : Ctl × Nat :=
  let idOk : Bool → Nat → Bool := fun ext id => decide (id + 3 < if ext then 2 ^ 29 else 2 ^ 11)
  if hi then
    if !idOk (c.flag t DISP_CONT_EXT k) (w % 2 ^ 29) then (c, eRange) else (c.put t DISP_CONT_CAN_ID w k, eOk)
  else
    let rs := if bit w 29 then [bitsOf w 24 5, bitsOf w 19 5] else [bitsOf w 24 5]
    let mine := if bit w 31 then some (bitsOf w 16 3, rs) else none
    let n := portFrames (fun j => if j = k then mine else c.contEntry t j) (fun r => c.has24 t r) (bitsOf w 16 3)
    let e := firstErr [((bit w 29 && bitsOf w 24 5 == bitsOf w 19 5) || !idOk (bit w 30) (c.get t DISP_CONT_CAN_ID k)
        || (bit w 31 && decide (8 < n)), eRange),
      (contConflict (fun j => c.flag t DISP_CONT_VALID j) (fun j => c.contRings t j) k rs, eConflict)]
    if e ≠ eOk then (c, e)
    else
      (c.put t DISP_CONT_VALID (bitsOf w 31 1) k |>.put t DISP_CONT_EXT (bitsOf w 30 1) k
        |>.put t DISP_CONT_TWO (bitsOf w 29 1) k |>.put t DISP_CONT_RING_A (bitsOf w 24 5) k
        |>.put t DISP_CONT_RING_B (bitsOf w 19 5) k |>.put t DISP_CONT_PORT (bitsOf w 16 3) k, eOk)

/-- Whether the pending map of a ring breaks R15, or names a profile slot never written (R213). -/
def Ctl.mapBad (m : Mem) (c : Ctl) (t r : Nat) : Bool :=
  let l := (List.range 32).filter (fun s => c.flag t RING_SMAP_PEND_VALID r s)
  let first : Nat → Nat := fun s => c.get t RING_SMAP_PEND_FIRST r s
  let last : Nat → Nat := fun s => c.get t RING_SMAP_PEND_LAST r s
  l.any (fun s =>
    let pr : Prof := { m := m, a := profAddr t (c.get t RING_SMAP_PEND_PROFILE r s) }
    decide (last s < first s) || pr.cNom == 0 || over1500 ((last s + 1 - first s) * 16) (pr.u16 0x7E0)
      || l.any (fun u => u != s && decide (first u ≤ last s) && decide (first s ≤ last u)))

/-- A write of RING_SMAP_COMMIT. -/
def smapCommit (m : Mem) (c : Ctl) (o : Origin) (t r : Nat) : MC × Nat :=
  if !c.mayConfig o then ((m, c.violate o (modAddr t 0x20003000C) true), eOk)
  else
    let new := anyN 8 (fun i => c.flag t RING_SMAP_PEND_VALID r (24 + i))
    let has : Nat → Bool := fun q => if q = r then new else c.has24 t q
    let exceeded := anyN 8 (fun p =>
      decide (8 < portFrames (c.contEntry t) has p)
      && decide (portFrames (c.contEntry t) (fun q => c.has24 t q) p < portFrames (c.contEntry t) has p))
    let e := firstErr [(c.mapBad m t r, eRange), (exceeded, eConflict), (c.rstate t r == rgEnum, eBusy)]
    if e ≠ eOk then ((m, c), e)
    else
      let words := (List.range 32).map (fun s => c.rawWord 3 t (0x2000 + r * 0x80 + s * 4))
      ((m, c.setRng t r { c.rng t r with mapCommit := some words }), eOk)

/-- RING_SMAP_COMMIT. -/
def execRingSmapCommit (t : TileId) (o : Origin) (r : RingId) (s : State) : Host.Outcome State Fault Refusal :=
  s.onAccessM o (fun m c => accessM m c o t 0x03 (fun m c => smapCommit m c o t r))

end Sys2Proof.Machine
end

