-- ==== Sys2Proof/Machine/Can.lean ====
section
/-! DEFINITION. Machine/Can.lean: what moves a CAN FD port: its registers, transmissions and receptions, rate detection, the
sync and follow-up frames of the time unit and Beryl's produce PDUs (R311, R352, R353, R379 to R394). -/
namespace Sys2Proof.Machine

/-! ## Port control (R379, R380, R394) -/

/-- Address of a register of a port. -/
def canAddr (t p off : Nat) : Nat := modAddr t (0x2000C0000 + p * 0x2000 + off)

/-- Whether the timing of a port breaks the check of R379. -/
def Ctl.timingBad (c : Ctl) (t p : Nat) : Bool :=
  let g : Field → Nat := fun F => c.get t F p
  let n := g CAN_NBT_NBRP * (1 + g CAN_NBT_NTSEG1 + g CAN_NBT_NTSEG2)
  let d := g CAN_DBT_DBRP * (1 + g CAN_DBT_DTSEG1 + g CAN_DBT_DTSEG2)
  decide (n < 40) || decide (320 < n)
  || (c.flag t CAN_CTRL_FD_EN p && (decide (d < 8) || decide (80 < d) || decide (n < d)))
  || decide (g CAN_NBT_NTSEG2 < g CAN_NBT_NSJW) || decide (g CAN_DBT_DTSEG2 < g CAN_DBT_DSJW)
  || (!c.flag t CAN_DBT_TDC_EN p && decide (d < 40))
  || g CAN_NBT_NSJW == 0 || decide (g CAN_NBT_NTSEG1 < 2) || decide (256 < g CAN_NBT_NTSEG1) || g CAN_NBT_NTSEG2 == 0
  || g CAN_NBT_NBRP == 0 || decide (32 < g CAN_NBT_NBRP) || g CAN_DBT_DSJW == 0 || g CAN_DBT_DTSEG1 == 0
  || g CAN_DBT_DTSEG2 == 0 || g CAN_DBT_DBRP == 0 || decide (8 < g CAN_DBT_DBRP)

/-- INIT becomes set: at once, or at the end of this port's frame under way (R380). -/
def Ctl.canInitSet (c : Ctl) (t p : Nat) : Ctl :=
  if (tabFind c.canTry (canKey t p)).isSome then
    { c with canStop := canKey t p :: c.canStop.filter (fun n => n != canKey t p) }
  else c.canEnterInit t p

/-- A write of CAN_CTRL. -/
def Ctl.canCtrlWrite (c : Ctl) (o : Origin) (t p w : Nat) : Ctl × Nat :=
  let st := c.canState t p
  let was := c.flag t CAN_CTRL_INIT p
  let clear := was && !bit w 31
  let c' := c.put t CAN_CTRL_INIT (bitsOf w 31 1) p |>.put t CAN_CTRL_LISTEN (bitsOf w 30 1) p
    |>.put t CAN_CTRL_FD_EN (bitsOf w 29 1) p |>.put t CAN_CTRL_AUTO_RECOVER (bitsOf w 28 1) p
    |>.put t CAN_CTRL_TERM (bitsOf w 27 1) p |>.put t CAN_CTRL_APP (if c.isSystem o then bitsOf w 26 1 else c.get t CAN_CTRL_APP p) p
  let e := firstErr [(clear && c'.timingBad t p, eRange),
    ((!was && (c.get t CAN_CTRL_LISTEN p != bitsOf w 30 1 || c.get t CAN_CTRL_FD_EN p != bitsOf w 29 1))
      || (bit w 25 && (st != cnInit || clear)) || (bit w 24 && st != cnOff), eState)]
  if !c.mayConfig o then (c.violate o (canAddr t p 0) true, eOk)
  else if e ≠ eOk then (c, e)
  else
    let c := c'
    let c := if bit w 31 ∧ ¬ was then c.canInitSet t p else c
    let c := if clear then c.canCounters t p 0 0 else c
    let c := if bit w 25 then
        Ctl.canTo { c with canDet := tabSet c.canDet (canKey t p) {} } t p cnDetect
      else c
    let c := if c.canState t p = cnOff ∧ (bit w 24 ∨ bit w 28) then c.canTo t p cnRecovering else c
    (c, eOk)

/-- CAN_CTRL as it stands. -/
def Ctl.canCtrl (c : Ctl) (t p : Nat) : Nat := c.rawWord 0x0C t (p * 0x2000)

/-- CAN_INIT_SET: a write of CAN_CTRL with INIT set and the rest as it stands. -/
def execCanInitSet (t : TileId) (o : Origin) (p : PortId) (s : State) : Host.Outcome State Fault Refusal :=
  s.onAccess o (fun c => c.access o t 0x0C (fun c => c.canCtrlWrite o t p (setBit (c.canCtrl t p) 31 true)))
/-- CAN_INIT_CLEAR: likewise with INIT clear. -/
def execCanInitClear (t : TileId) (o : Origin) (p : PortId) (s : State) : Host.Outcome State Fault Refusal :=
  s.onAccess o (fun c => c.access o t 0x0C (fun c => c.canCtrlWrite o t p (setBit (c.canCtrl t p) 31 false)))
/-- CAN_RECOVER_WRITE: likewise with RECOVER. -/
def execCanRecoverWrite (t : TileId) (o : Origin) (p : PortId) (s : State) : Host.Outcome State Fault Refusal :=
  s.onAccess o (fun c => c.access o t 0x0C (fun c => c.canCtrlWrite o t p (setBit (c.canCtrl t p) 24 true)))
/-- CAN_DETECT_START: likewise with DETECT. -/
def execCanDetectStart (t : TileId) (o : Origin) (p : PortId) (s : State) : Host.Outcome State Fault Refusal :=
  s.onAccess o (fun c => c.access o t 0x0C (fun c => c.canCtrlWrite o t p (setBit (c.canCtrl t p) 25 true)))

/-- CAN_BUS_JOIN: 11 recessive bits after INIT was cleared. -/
def execCanBusJoin (t : TileId) (p : PortId) (s : State) : Host.Outcome State Fault Refusal :=
  s.onTile t (fun c => if c.canState t p = cnInit ∧ ¬ c.flag t CAN_CTRL_INIT p then c.canTo t p cnActive else c)

/-- CAN_RECOVERY_COMPLETE: 128 occurrences of 11 recessive bits. -/
def execCanRecoveryComplete (t : TileId) (p : PortId) (s : State) : Host.Outcome State Fault Refusal :=
  s.onTile t (fun c =>
    if c.canState t p ≠ cnRecovering then c
    else
      let c := ((c.put t CAN_ERRCNT_TEC 0 p).put t CAN_ERRCNT_REC 0 p).canWarn t p
      (c.canTo t p cnActive).event t 0x0C 0x8007 0 (leBytes 1 p.val))

/-- A write of CAN_NBT or CAN_DBT. -/
def Ctl.canTimingWrite (c : Ctl) (t p : Nat) (data : Bool) (w : Nat) : Ctl × Nat :=
  if !c.flag t CAN_CTRL_INIT p then (c, eState)
  else if data then
    (c.put t CAN_DBT_TDC_EN (bitsOf w 31 1) p |>.put t CAN_DBT_TDCO (bitsOf w 24 7) p |>.put t CAN_DBT_DSJW (bitsOf w 20 4) p
      |>.put t CAN_DBT_DTSEG1 (bitsOf w 15 5) p |>.put t CAN_DBT_DTSEG2 (bitsOf w 11 4) p |>.put t CAN_DBT_DBRP (w % 16) p, eOk)
  else
    (c.put t CAN_NBT_NSJW (bitsOf w 25 7) p |>.put t CAN_NBT_NTSEG1 (bitsOf w 16 9) p
      |>.put t CAN_NBT_NTSEG2 (bitsOf w 9 7) p |>.put t CAN_NBT_NBRP (w % 64) p, eOk)

/-- A write of CAN_WARN: the counters are compared at once (R389). -/
def Ctl.canWarnWrite (c : Ctl) (t p w : Nat) : Ctl × Nat :=
  if bitsOf w 8 8 = 0 ∨ w % 256 = 0 then (c, eRange)
  else (((c.put t CAN_WARN_TEC_WARN (bitsOf w 8 8) p).put t CAN_WARN_REC_WARN (w % 256) p).canWarn t p, eOk)

/-! ## Transmit buffers (R382, R385, R386) -/

/-- Whether an accessor may write the software buffers and their control (R394). -/
def Ctl.canMay (c : Ctl) (o : Origin) (t p : Nat) : Bool := c.mayConfig o || (c.isApp o && c.flag t CAN_CTRL_APP p)

/-- Whether the window of a buffer breaks R382. -/
def Ctl.windowBad (c : Ctl) (t p b : Nat) : Bool :=
  let fd := c.flag t CAN_TXB_FDF p b
  (!c.flag t CAN_TXB_EXT p b && c.get t CAN_TXB_ID p b / 2 ^ 11 != 0) || (c.flag t CAN_TXB_BRS p b && !fd)
  || (c.flag t CAN_TXB_RTR p b && fd) || (!fd && decide (8 < c.get t CAN_TXB_DLC p b))

/-- A write of CAN_TXREQ. -/
def Ctl.txreqWrite (c : Ctl) (o : Origin) (t p w : Nat) : Ctl × Nat :=
  let l := (List.range 32).filter (fun b => bit w b)
  let mine := l.filter (fun b => c.canSoft t p b)
  if !c.canMay o t p then (c.violate o (canAddr t p 0x020) true, eOk)
  else
    let e := firstErr [(mine.any (fun b => c.windowBad t p b), eRange),
      (mine != [] && (c.canState t p == cnInit || c.canState t p == cnDetect || c.canState t p == cnOff
        || c.flag t CAN_CTRL_LISTEN p || (!c.flag t CAN_CTRL_FD_EN p && mine.any (fun b => c.flag t CAN_TXB_FDF p b))), eState),
      (decide (mine.length < l.length), eLocked)]
    if e ≠ eOk then (c, e) else (l.foldl (fun (c : Ctl) b => c.canRequest t p b) c, eOk)

/-- CAN_TXREQ. -/
def execCanTxreq (t : TileId) (o : Origin) (p : PortId) (w : Word) (s : State) : Host.Outcome State Fault Refusal :=
  s.onAccess o (fun c => c.access o t 0x0C (fun c => c.txreqWrite o t p w.toNat))

/-- A write of CAN_TXCANCEL. -/
def Ctl.txcancelWrite (c : Ctl) (o : Origin) (t p w : Nat) : Ctl × Nat :=
  let l := (List.range 32).filter (fun b => bit w b)
  if !c.canMay o t p then (c.violate o (canAddr t p 0x024) true, eOk)
  else if l.any (fun b => !c.canSoft t p b) then (c, eLocked)
  else
    (l.foldl (fun (c : Ctl) b =>
      if !c.canPending t p b then c
      else if (tabFind c.canTry (canKey t p)).any (fun a => a.buf == b) then c.putTxBit t p b CAN_TXCANCEL true
      else c.canEnd t p b CAN_TXCAN) c, eOk)

/-- CAN_TXCANCEL. -/
def execCanTxcancel (t : TileId) (o : Origin) (p : PortId) (w : Word) (s : State) : Host.Outcome State Fault Refusal :=
  s.onAccess o (fun c => c.access o t 0x0C (fun c => c.txcancelWrite o t p w.toNat))

/-- A write of word `k` of the window of a transmit buffer. -/
def Ctl.windowWrite (c : Ctl) (o : Origin) (t p b k w : Nat) : Ctl × Nat :=
  if !c.canMay o t p then (c.violate o (canAddr t p (0x400 + b * 0x50 + 4 * k)) true, eOk)
  else if !c.canSoft t p b then (c, eLocked)
  else if c.canPending t p b then (c, eBusy)
  else if k = 0 then
    (c.put t CAN_TXB_EXT (bitsOf w 31 1) p b |>.put t CAN_TXB_FDF (bitsOf w 30 1) p b |>.put t CAN_TXB_BRS (bitsOf w 29 1) p b
      |>.put t CAN_TXB_ID w p b, eOk)
  else if k = 1 then
    (c.put t CAN_TXB_ONESHOT (bitsOf w 31 1) p b |>.put t CAN_TXB_RTR (bitsOf w 30 1) p b |>.put t CAN_TXB_DLC w p b, eOk)
  else (c.put t (CAN_TXB_DATA (k - 2)) w p b, eOk)

/-- CAN_TX_COMPLETE: the attempt under way, or one that starts now, succeeds. A buffer whose owner has replaced its content
meanwhile stays pending with the new frame (R384). -/
def execCanTxComplete (t : TileId) (p : PortId) (s : State) : Host.Outcome State Fault Refusal :=
  s.onTile t (fun c =>
    let c := c.canStart t p
    match tabFind c.canTry (canKey t p) with
    | none => c
    | some a =>
      let b := a.buf
      let c :=
        if a.again then c
        else
          let sent := bit (c.get t CAN_TXCANCEL p) b
          let c := c.canEnd t p b CAN_TXDONE
          if sent then c.putTxBit t p b CAN_TXCSENT true else c
      let c :=
        if b = 15 ∧ c.flag t TIME_CAN_CFG_EN p then
          Ctl.put { c with syncRef := tabSet c.syncRef (canKey t p) (c.stn t)
                           followed := c.followed.filter (fun n => n != canKey t p) } t TIME_CAN_CFG_SYNC_DONE 1 p
        else c
      (c.canAcked t p).canAfter t p)

/-- CAN_TX_ERROR: the attempt under way, or one that starts now, fails. -/
def execCanTxError (t : TileId) (p : PortId) (x : CanTxFault) (s : State) : Host.Outcome State Fault Refusal :=
  s.onTile t (fun c =>
    let c := c.canStart t p
    match tabFind c.canTry (canKey t p) with
    | none => c
    | some a =>
      let b := a.buf
      let last := bit (c.get t CAN_TXCANCEL p) b || c.flag t CAN_TXB_ONESHOT p b
      let c := c.canTxFault t p x
      let c := if last && c.canPending t p b then c.canEnd t p b CAN_TXFAIL else c
      c.canAfter t p)

/-! ## Rate detection (R391) -/

/-- The detection of a port. -/
def Ctl.detect (c : Ctl) (t p : Nat) : CanDetect := tabGet {} c.canDet (canKey t p)
/-- That of a port changed. -/
def Ctl.setDetect (c : Ctl) (t p : Nat) (x : CanDetect) : Ctl := { c with canDet := tabSet c.canDet (canKey t p) x }

/-- A frame received without error in DETECT. -/
def detectGood (x : CanDetect) (brs : Bool) : CanDetect :=
  if !x.found then { x with good := x.good + 1, found := decide (2 ≤ x.good + 1) }
  else if !brs then x
  else if x.dataFound then { x with brs := true }
  else { x with brs := true, dataGood := x.dataGood + 1, dataFound := decide (2 ≤ x.dataGood + 1) }

/-- A frame with an error in DETECT, in its data phase or before it. -/
def detectBad (x : CanDetect) (inData : Bool) : CanDetect :=
  if !x.found then { x with good := 0 }
  else if !inData || x.dataFound then x
  else { x with brs := true, dataGood := 0, data := x.data % 4 + 1 }

/-- CAN_DETECT_DWELL: DWELL ms have passed. -/
def execCanDetectDwell (t : TileId) (p : PortId) (s : State) : Host.Outcome State Fault Refusal :=
  s.onTile t (fun c =>
    if c.canState t p ≠ cnDetect then c
    else
      let x := c.detect t p
      if x.found then c.setDetect t p { x with quiet := x.quiet || !x.brs, brs := false }
      else c.setDetect t p { nominal := x.nominal % 5 + 1 })

/-- CAN_DETECT_END: the nominal rate is found and a data rate is, or a dwell without a BRS frame has passed; or TIMEOUT. -/
def execCanDetectEnd (t : TileId) (p : PortId) (timeout : Bool) (s : State) : Host.Outcome State Fault Refusal :=
  s.onTile t (fun c =>
    let x := c.detect t p
    if c.canState t p ≠ cnDetect ∨ ¬ (timeout ∨ (x.found ∧ (x.dataFound ∨ x.quiet))) then c
    else
      let c := c.put t CAN_RATE_VALID (b2n x.found) p |>.put t CAN_RATE_FAIL (b2n timeout) p
        |>.put t CAN_RATE_NOMINAL (if x.found then x.nominal else 0) p |>.put t CAN_RATE_DATA (if x.dataFound then x.data else 0) p
      let c := c.canFlag t p CAN_IRQ_RATE_DONE CAN_IRQ_EN_RATE_DONE
      let c := c.event t 0x0C 0x8006 0 (leBytes 1 p.val ++ leBytes 4 (c.rawWord 0x0C t (p.val * 0x2000 + 0x048)))
      Ctl.canTo { c with canDet := tabErase c.canDet (canKey t p) } t p cnInit)

/-- The timing of a nominal code: BRP, TSEG1, TSEG2. -/
def nominalTiming : Nat → Nat × Nat × Nat
  | 1 => (4, 63, 16)
  | 2 => (2, 63, 16)
  | 3 => (1, 63, 16)
  | 4 => (1, 39, 10)
  | _ => (1, 31, 8)

/-- The timing of a data code. -/
def dataTiming : Nat → Nat × Nat × Nat
  | 1 => (1, 29, 10)
  | 2 => (1, 14, 5)
  | 3 => (1, 7, 2)
  | _ => (1, 5, 2)

/-- A write of CAN_RATE. -/
def Ctl.canRateWrite (c : Ctl) (o : Origin) (t p w : Nat) : Ctl × Nat :=
  if !c.mayConfig o then (c.violate o (canAddr t p 0x048) true, eOk)
  else if !bit w 31 then (c, eOk)
  else if !c.flag t CAN_RATE_VALID p || !c.flag t CAN_CTRL_INIT p then (c, eState)
  else
    let n := nominalTiming (c.get t CAN_RATE_NOMINAL p)
    let k := c.get t CAN_RATE_DATA p
    let d := dataTiming k
    let c := c.put t CAN_NBT_NBRP n.1 p |>.put t CAN_NBT_NTSEG1 n.2.1 p |>.put t CAN_NBT_NTSEG2 n.2.2 p
      |>.put t CAN_NBT_NSJW n.2.2 p
    if k = 0 then (c, eOk)
    else
      (c.put t CAN_DBT_DBRP d.1 p |>.put t CAN_DBT_DTSEG1 d.2.1 p |>.put t CAN_DBT_DTSEG2 d.2.2 p |>.put t CAN_DBT_DSJW d.2.2 p
        |>.put t CAN_DBT_TDCO (d.1 * (1 + d.2.1)) p |>.put t CAN_DBT_TDC_EN (b2n (decide (1 < k))) p, eOk)

/-- CAN_ADOPT. -/
def execCanAdopt (t : TileId) (o : Origin) (p : PortId) (s : State) : Host.Outcome State Fault Refusal :=
  s.onAccess o (fun c => c.access o t 0x0C (fun c => c.canRateWrite o t p (2 ^ 31)))

/-! ## Receiving (R387 to R389, R488) -/

/-- The consume connection of a port that a frame matches, in connection order. -/
def Ctl.consumer (c : Ctl) (t p : Nat) (f : CanFrame) : Option Nat :=
  (List.range 16).find? (fun n => c.flag t BERYL_PA_CONN_EN n && c.get t BERYL_PA_CONN_KIND n == 0
    && c.get t BERYL_PA_CONN_MEDIUM n == 0 && c.get t BERYL_PA_CONN_PORT n == p && c.flag t BERYL_PA_CONN_EXT n == f.ext
    && c.get t BERYL_PA_CONN_CAN_ID n == f.id.toNat)

/-- Whether a port handles a frame by protocol-exception handling: it stores nothing, signals no error and waits for bus idle
(R378). -/
def Ctl.canExcepts (c : Ctl) (t p : Nat) (f : CanFrame) : Bool := f.fdf && (f.res || !c.flag t CAN_CTRL_FD_EN p)

/-- CAN_FRAME_RECEIVE: a frame of another node received without error. -/
def execCanFrameReceive (t : TileId) (p : PortId) (frame : CanFrame) (s : State) : Host.Outcome State Fault Refusal :=
  s.onTile t (fun c =>
    if c.canExcepts t p frame then c
    else if c.canState t p = cnDetect then c.setDetect t p (detectGood (c.detect t p) frame.brs)
    else if !c.canOnBus t p then c
    else
      let c := c.canRxGood t p
      match c.consumer t p frame with
      | some n =>
        if c.flag t CAN_CTRL_LISTEN p then c else c.setConn t n { c.conn t n with slot := some frame.data }
      | none =>
        let c := c.loopFrame t p frame
        let c := forN 32 (fun k (c : Ctl) =>
          if c.flag t BAL_CONT_VALID k && c.get t BAL_CONT_PORT k == p.val && c.flag t BAL_CONT_EXT k == frame.ext
              && c.get t BAL_CONT_CAN_ID k == frame.id.toNat then c.heatFrame t k frame.data
          else c) c
        c.canFile t p frame)

/-- CAN_RX_ERROR: an error found while receiving; `eight` where ISO 11898-1 adds 8 to REC, `inData` in the data phase. -/
def execCanRxError (t : TileId) (p : PortId) (kind : CanFault) (eight inData : Bool) (s : State) :
    Host.Outcome State Fault Refusal :=
  s.onTile t (fun c =>
    if c.canState t p = cnDetect then c.setDetect t p (detectBad (c.detect t p) inData)
    else if !c.canOnBus t p || kind = .arbitration then c
    else (c.put t CAN_STATUS_LEC (lecOf kind) p).canCounters t p (c.tec t p) (c.rcv t p + (if eight then 8 else 1)))

/-- A write of CAN_RXF_POP. -/
def Ctl.rxPopWrite (c : Ctl) (o : Origin) (t p w : Nat) : Ctl × Nat :=
  if !c.canMay o t p then (c.violate o (canAddr t p 0x040) true, eOk)
  else
    let c := if bit w 0 then c.fifoPop t p 0 else c
    (if bit w 1 then c.fifoPop t p 1 else c, eOk)

/-- CAN_RX_POP. -/
def execCanRxPop (t : TileId) (o : Origin) (p : PortId) (w : BitVec 2) (s : State) : Host.Outcome State Fault Refusal :=
  s.onAccess o (fun c => c.access o t 0x0C (fun c => c.rxPopWrite o t p w.toNat))

/-- Word `k` of the window of a FIFO (R394). -/
def Ctl.fifoWord (c : Ctl) (t p f k : Nat) : Nat :=
  match c.fifo t p f with
  | [] => 0
  | e :: _ =>
    match k with
    | 0 => b2n e.frame.ext * 2 ^ 31 + b2n e.frame.fdf * 2 ^ 30 + b2n e.frame.brs * 2 ^ 29 + e.frame.id.toNat
    | 1 => b2n e.frame.esi * 2 ^ 31 + b2n e.frame.rtr * 2 ^ 30 + e.filter * 2 ^ 24 + 2 ^ 23 + e.frame.dlc.val
    | 2 => e.time
    | k => leNat ((e.frame.data.drop (4 * (k - 3))).take 4)

/-- A write of word 0 or 1 of a filter; 56 to 63 belong to Beryl (R387). -/
def Ctl.filterWrite (c : Ctl) (t p n : Nat) (hi : Bool) (w : Nat) : Ctl × Nat :=
  if 56 ≤ n then (c, eLocked)
  else if hi then
    if bitsOf w 30 2 = 3 then (c, eRange) else ((c.put t CAN_FILT_ACTION (bitsOf w 30 2) p n).put t CAN_FILT_MASK w p n, eOk)
  else
    (c.put t CAN_FILT_EN (bitsOf w 31 1) p n |>.put t CAN_FILT_EXT (bitsOf w 30 1) p n |>.put t CAN_FILT_ID w p n, eOk)

/-! ## Time distribution (R352, R353, R381) -/

/-- Whether an identifier and the one after it fit their form. -/
def syncIdOk (ext : Bool) (id : Nat) : Bool := decide (id + 1 < if ext then 2 ^ 29 else 2 ^ 11)

/-- A write of word 0 or 1 of TIME_CAN_CFG_p. -/
def Ctl.timeCanWrite (c : Ctl) (t p : Nat) (hi : Bool) (w : Nat) : Ctl × Nat :=
  if hi then
    if !syncIdOk (c.flag t TIME_CAN_CFG_EXT p) (w % 2 ^ 29) then (c, eRange) else (c.put t TIME_CAN_CFG_SYNC_ID w p, eOk)
  else
    let n := bitsOf w 16 13
    let busy := bit w 31 && [14, 15].any (fun b => c.canSoft t p b && c.canPending t p b)
    let e := firstErr [(decide (n < 100) || decide (5000 < n) || !syncIdOk (bit w 30) (c.get t TIME_CAN_CFG_SYNC_ID p), eRange),
      (busy, eBusy)]
    if e ≠ eOk then (c, e)
    else
      let under : Nat → Bool := fun b => (tabFind c.canTry (canKey t p)).any (fun x => x.buf == b)
      let drop : Nat → Ctl → Ctl := fun b c =>
        if under b then c else (c.putTxBit t p b CAN_TXREQ false).putTxBit t p b CAN_TXCANCEL false
      let c := if c.flag t TIME_CAN_CFG_EN p && !bit w 31 then drop 14 (drop 15 c) else c
      (c.put t TIME_CAN_CFG_EN (bitsOf w 31 1) p |>.put t TIME_CAN_CFG_EXT (bitsOf w 30 1) p
        |>.put t TIME_CAN_CFG_PERIOD n p, eOk)

/-- CAN_SYNC_LAUNCH: station time has reached k × PERIOD + 5 ms. -/
def execCanSyncLaunch (t : TileId) (p : PortId) (s : State) : Host.Outcome State Fault Refusal :=
  s.onTile t (fun c =>
    if !c.flag t TIME_CAN_CFG_EN p || !c.timeLocked t || !c.canTakes t p false then c
    else
      let seq := (c.get t TIME_CAN_CFG_SEQ p + 1) % 256
      let f : CanFrame := { ext := c.flag t TIME_CAN_CFG_EXT p, fdf := false, brs := false, esi := false, rtr := false
                            id := BitVec.ofNat 29 (c.get t TIME_CAN_CFG_SYNC_ID p), dlc := 2, data := [BitVec.ofNat 8 seq, 0] }
      let c := { c with syncRef := tabErase c.syncRef (canKey t p), followed := c.followed.filter (fun n => n != canKey t p) }
      (c.put t TIME_CAN_CFG_SEQ seq p).canOffer t p 15 f)

/-- A write of the third word of TIME_CAN_FU_p; on the ports of a carried tile none is sent (R353, R454; DESIGN CHOICE, assumption
100: E_STATE). -/
def Ctl.followWrite (c : Ctl) (o : Origin) (t p w : Nat) : Ctl × Nat :=
  if !c.isSystem o then (c.violate o (modAddr t (0x200020208 + p * 16)) true, eOk)
  else if !bit w 31 then (c.put t TIME_CAN_FU_SEQ w p, eOk)
  else
    let k := canKey t p
    let done : Ctl → Ctl := fun c => { c with followed := k :: c.followed.filter (fun n => n != k) }
    match tabFind c.syncRef k with
    | none => (c, eState)
    | some ref =>
      if c.tileState t == tsCarried || !c.flag t TIME_CAN_CFG_EN p || w % 256 != c.get t TIME_CAN_CFG_SEQ p || c.followed.contains k then (c, eState)
      else if ref + 8000000 < c.stn t then (done c, eTimeout)
      else
        let hold := b2n (decide (c.get 0 TIME_STATE_STATE = tmHoldover))
        let data := leBytes 1 w ++ leBytes 1 hold ++ beBytes 2 (ref / 1000000000 / 2 ^ 32) ++ beBytes 4 (c.get t TIME_CAN_FU_SEC p)
          ++ beBytes 4 (c.get t TIME_CAN_FU_NS p)
        let f := hwFrame (c.flag t TIME_CAN_CFG_EXT p) true (c.get t TIME_CAN_CFG_SYNC_ID p + 1) data
        (((done c).put t TIME_CAN_FU_SEQ w p).canOffer t p 14 f, eOk)

/-- FOLLOWUP_SEND. -/
def execFollowupSend (t : TileId) (o : Origin) (p : PortId) (seq : Byte) (s : State) : Host.Outcome State Fault Refusal :=
  s.onAccess o (fun c => c.access o t 0x02 (fun c => c.followWrite o t p (2 ^ 31 + seq.toNat)))

/-! ## Produce PDUs (R311, R369, R373, R381) -/

/-- The transmit buffer of a produce connection: 10 and onward in connection order on its port. -/
def Ctl.produceBuffer (c : Ctl) (t n : Nat) : Nat :=
  10 + countN n (fun k => c.flag t BERYL_PA_CONN_EN k && c.get t BERYL_PA_CONN_KIND k == 1
    && c.get t BERYL_PA_CONN_MEDIUM k == 0 && c.get t BERYL_PA_CONN_PORT k == c.get t BERYL_PA_CONN_PORT n)

/-- A SAFETY message of a connection to every session subscribed to it; while no path has link it waits, in place of an unsent
one of the same connection (R369, R373). -/
def Ctl.sendSafety (c : Ctl) (t n : Nat) (pdu : List Byte) : Ctl :=
  let paths := if c.activePath = 3 then c.linked else c.activePaths
  let c := { c with net := { c.net with sent := [] } }
  (c.net.subs.filter (fun e => match e.2.kind with | .safety tile conn => tile == t && conn == n | _ => false)).foldl
    (fun (c : Ctl) e =>
      let data := leBytes 1 n ++ [0] ++ pdu
      if paths = [] then c.enqueue e.2.slot { type := 0x08, seq := 0, tile := t, payload := data, sub := some e.1 }
      else
        let x := c.nextMsg e.2.slot 0x08 t 0 data
        x.2.sendMore (x.2.session e.2.slot).peers paths x.1) c

/-- Whether a produce connection sends: it is enabled, Beryl is past its self-test and has not stopped it, and a CAN port
takes its frames (R311, R318, R381). -/
def Ctl.producing (c : Ctl) (t n : Nat) : Bool :=
  c.flag t BERYL_PA_CONN_EN n && c.get t BERYL_PA_CONN_KIND n == 1 && !(c.bry t).stopped
    && c.get t BERYL_STATUS_STATE != bySelftest
    && (c.get t BERYL_PA_CONN_MEDIUM n != 0 || c.canTakes t (c.get t BERYL_PA_CONN_PORT n) true)

/-- PRODUCE_PDU_SEND: Beryl forms the next status PDU of a produce connection. -/
def execProducePduSend (t : TileId) (n : Fin 16) (s : State) : Host.Outcome State Fault Refusal :=
  s.onTile t (fun c =>
    let p := c.get t BERYL_PA_CONN_PORT n
    let can := c.get t BERYL_PA_CONN_MEDIUM n == 0
    if !c.producing t n then c
    else
      let x := c.producePdu t n
      if can then
        x.2.canOffer t p (c.produceBuffer t n) (hwFrame (c.flag t BERYL_PA_CONN_EXT n) true (c.get t BERYL_PA_CONN_CAN_ID n) x.1)
      else x.2.sendSafety t n x.1)

end Sys2Proof.Machine
end

