-- ==== Sys2Proof/Machine/Dma.lean ====
section
/-! DEFINITION. Machine/Dma.lean: the regions of a tile's address space with their rights (R32, R38, R39, R41), and the DMA
engine (R109, R414 to R428). -/
namespace Sys2Proof.Machine

/-! ## Regions (R32, R38, R39, R41) -/

/-- The regions whose rights differ; `loc k` is the local memory of core `k`. -/
inductive Region where
  | dram | owner | nvm | tail | nvOwner | blocks | loc (k : Nat) | unused
deriving DecidableEq, Repr

/-- The region of an offset. -/
def regionOf (off : Nat) : Region :=
  if off < 0x80000000 then .dram
  else if off < 0x100000000 then .owner
  else if off < 0x10E000000 then .nvm
  else if off < 0x10E400000 then .tail
  else if off < 0x110000000 then .nvm
  else if off < 0x120000000 then .nvOwner
  else if off < 0x200000000 then .unused
  else if off < 0x200140000 then .blocks
  else if off < 0x300000000 then .unused
  else if off < 0x300100000 then .loc ((off - 0x300000000) / 0x40000)
  else .unused

/-- Where the rights can change inside an extent. -/
def regionEdges : List Nat := [0x80000000, 0x10E000000, 0x10E400000, 0x110000000, 0x300040000, 0x300080000, 0x3000C0000]

/-- Whether a Casda access of a level to memory is granted; `own` is the accessing core where the access stays on its tile
(R41). -/
def memGrant (system : Bool) (own : Option Nat) (write : Bool) : Region → Bool
  | .dram => system || !write
  | .owner => true
  | .nvm => system
  | .tail => system || !write
  | .nvOwner => true
  | .loc k => system || own == some k
  | .blocks => true
  | .unused => true

/-- Whether a region holds memory. -/
def Region.isMem : Region → Bool
  | .blocks => false
  | .unused => false
  | _ => true

/-! ## Bytes of a tile -/

/-- The state of a bank as IMG_BANK shows it (R465). -/
def BankState.code : BankState → Nat
  | .empty => 0
  | .verified => 1
  | .trial => 2
  | .confirmed => 3

/-- The bytes of a copy of the boot record (R446). -/
def BootRecord.bytes (b : BootRecord) : List Byte :=
  let flags := b2n b.pending + 2 * b2n b.rolling + 4 * b2n b.legacyLv + 8 * b2n b.legacyCfg
  let dig : List Byte → List Byte := fun d => (d ++ List.replicate 48 0).take 48
  let l := leBytes 4 0xB0070C5D ++ leBytes 4 b.gen ++ leBytes 1 b.stateA.code ++ leBytes 1 b.stateB.code ++ leBytes 1 flags
    ++ leBytes 1 b.attempts ++ leBytes 2 b.epochMin ++ leBytes 2 0 ++ dig b.digestA ++ dig b.digestB ++ leBytes 12 0
  l ++ leBytes 4 (crc32c 0xFFFFFFFF l)

/-- A byte at an offset of a tile; the boot-record copies are Onyx's (R446; assumption 28). -/
def Ctl.byteAt (c : Ctl) (m : Mem) (u off : Nat) : Byte :=
  let copy : Nat → Byte := fun n =>
    ((if c.img.boot.gen % 2 = n then c.img.boot else c.img.bootPrev).bytes).getD (off % 0x1000) 0
  if 0x104000000 ≤ off ∧ off < 0x104000080 then copy 0
  else if 0x104001000 ≤ off ∧ off < 0x104001080 then copy 1
  else if (regionOf off).isMem then memRead m (modAddr u off)
  else 0

/-! ## Descriptors (R417, R418) -/

/-- Whether a job is 2D, fences, and interrupts. -/
def Job.twoD (j : Job) : Bool := bit j.flags 0
/-- FENCE of a job (R421). -/
def Job.fence (j : Job) : Bool := bit j.flags 1
/-- IRQ of a job. -/
def Job.irq (j : Job) : Bool := bit j.flags 2

/-- A module address with tile field 0xF replaced by the issuing tile. -/
def ownTile (t a : Nat) : Nat := if a / 2 ^ 36 = 15 then t * 2 ^ 36 + a % 2 ^ 36 else a

/-- The job a descriptor asks for. -/
def jobOf (t task num : Nat) (system : Bool) (b : List Byte) : Job :=
  let n : Nat → Nat → Nat := fun o k => leNat ((b.drop o).take k)
  { num := num, src := ownTile t (n 0 5), dst := ownTile t (n 8 5), len := n 0x10 4, rows := n 0x14 2, flags := n 0x16 2
    sstr := n 0x18 4, dstr := n 0x1C 4, task := task, system := system }

/-- Rows a job moves. -/
def Job.rowCount (j : Job) : Nat := if j.twoD then j.rows else 1
/-- Bytes of the source extent. -/
def Job.srcSpan (j : Job) : Nat := if j.twoD then (j.rows - 1) * j.sstr + j.len else j.len
/-- Bytes of the destination extent. -/
def Job.dstSpan (j : Job) : Nat := if j.twoD then (j.rows - 1) * j.dstr + j.len else j.len

/-- Whether an extent leaves one region of R32 on one tile, or touches the register blocks. -/
def extentBad (a n : Nat) : Bool :=
  let lo := a % 2 ^ 36
  let hi := lo + n - 1
  let whole : Nat → Nat := fun o =>
    match regionOf o with
    | .dram => 0
    | .owner => 0
    | .nvm => 1
    | .tail => 1
    | .nvOwner => 1
    | .loc _ => 2
    | .blocks => 3
    | .unused => 4
  decide (2 ^ 36 ≤ hi) || decide (3 ≤ whole lo) || whole lo != whole hi

/-- The checks of DQUEUE that rest on the descriptor and the channel (R418). -/
def Ctl.dqueueCode (c : Ctl) (t ch : Nat) (b : List Byte) (j : Job) : Nat :=
  let n : Nat → Nat → Nat := fun o k => leNat ((b.drop o).take k)
  let q := (tabGet ({} : Dma) c.dma (t * 16 + ch)).queue
  firstErr [
    (n 5 3 != 0 || n 13 3 != 0 || decide (8 ≤ j.flags) || (!j.twoD && (j.rows != 0 || j.sstr != 0 || j.dstr != 0)), eFormat),
    (j.len == 0 || (if j.twoD then decide (65536 < j.len) || j.rows == 0 || decide (j.dstr < j.len)
      else decide (67108864 < j.len)) || extentBad j.src j.srcSpan || extentBad j.dst j.dstSpan, eRange),
    (decide (ch < 2), eLocked),
    (c.get t DMA_CH_STATE ch == 0, eState),
    (j.twoD && decide (j.src < j.dst + j.dstSpan) && decide (j.dst < j.src + j.srcSpan), eConflict),
    (decide (16 ≤ q.length), eBusy)]

/-! ## Channels (R414, R421 to R426) -/

/-- A channel changed; QUEUED follows its queue. -/
def Ctl.setChn (c : Ctl) (t ch : Nat) (x : Dma) : Ctl :=
  Ctl.put { c with dma := tabSet c.dma (t * 16 + ch) x } t DMA_CH_QUEUED x.queue.length ch

/-- The state of a channel set; DMA_STATUS follows it. -/
def Ctl.dmaState (c : Ctl) (t ch st : Nat) : Ctl :=
  let c := c.put t DMA_CH_STATE st ch
  (c.put t DMA_STATUS_BUSY (setBit (c.get t DMA_STATUS_BUSY) ch (st == dmRun))).put t DMA_STATUS_HALTED
    (setBit (c.get t DMA_STATUS_HALTED) ch (st == dmHalted))

/-- A channel goes on with its queue. -/
def Ctl.dmaNext (c : Ctl) (t ch : Nat) : Ctl :=
  let x := c.chn t ch
  let go := !x.queue.isEmpty
  (c.setChn t ch { x with under := go, row := 0, pos := 0 }).dmaState t ch (if go then dmRun else dmIdle)

/-- The first job of a channel ends: LAST, DONE, its outcome kept, its waiters released, and its interrupt where `irq` (R421).
The 65,536 jobs kept count back from the latest finished one (R109; DESIGN CHOICE, assumption 79). -/
def Ctl.jobEnd (c : Ctl) (t ch code : Nat) (irq : Bool) : Ctl :=
  let x := c.chn t ch
  match x.queue with
  | [] => c
  | j :: r =>
    let keep := x.outcomes.filter (fun e => decide (-65536 < frameDiff e.1 j.num))
    let c := c.setChn t ch { x with queue := r, under := false, row := 0, pos := 0, outcomes := tabSet keep j.num code }
    let c := (c.put t DMA_CH_LAST code ch).put t DMA_CH_DONE j.num ch
    let c := forN 256 (fun i (c : Ctl) =>
      if (c.task t i).wait = .dma ch j.num then c.resume t i (BitVec.ofNat 32 code) else c) c
    if irq && j.irq then c.irq t (8 + ch) else c

/-- Whether a job of tile `t` reaches the tile an address names (R33; assumption 25). -/
def Ctl.reaches (c : Ctl) (t a : Nat) : Bool := c.running (a / 2 ^ 36) || (decide (a / 2 ^ 36 = t) && c.live t)

/-- Whether a job's access to an address is granted (R41, R420). -/
def Job.grants (j : Job) (t a : Nat) (write : Bool) : Bool :=
  memGrant j.system (if a / 2 ^ 36 = t then some (j.task / 64) else none) write (regionOf (a % 2 ^ 36))

/-- The addresses at which an extent of `n` bytes can first lose a right. -/
def corners (a n : Nat) : List Nat :=
  a :: (regionEdges.map (fun e => a / 2 ^ 36 * 2 ^ 36 + e)).filter (fun e => decide (a < e) && decide (e < a + n))

/-- Whether a job runs in descending address order: 1D, both extents on one tile and overlapping, DST above SRC (R419). -/
def Job.descends (j : Job) : Bool :=
  !j.twoD && j.src / 2 ^ 36 == j.dst / 2 ^ 36 && decide (j.src < j.dst) && decide (j.dst < j.src + j.len)

/-- What a job has accessed by `pos` bytes of row `row`: source, destination and length of each part. -/
def Job.parts (j : Job) (row pos : Nat) : List (Nat × Nat × Nat) :=
  let at_ : Nat → Nat × Nat := fun k => (j.src + k * j.sstr, j.dst + k * j.dstr)
  let full := (List.range row).map (fun k => ((at_ k).1, (at_ k).2, j.len))
  if pos = 0 ∨ j.rowCount ≤ row then full
  else
    let o := if j.descends then j.len - pos else 0
    full ++ [((at_ row).1 + o, (at_ row).2 + o, pos)]

/-- The first refused access among the parts a job has accessed, and whether it writes; a right comes before the existence of a
tile (R46, R420). -/
def Job.violation (j : Job) (t : Nat) (l : List (Nat × Nat × Nat)) : Option (Nat × Bool) :=
  let one : Nat → Nat → Bool → Option (Nat × Bool) := fun a n w =>
    ((corners a n).find? (fun e => !j.grants t e w)).map (fun e => (e, w))
  (l.findSome? (fun x => one x.1 x.2.2 false)).orElse (fun _ => l.findSome? (fun x => one x.2.1 x.2.2 true))

/-- What a job has counted when it ends, on what it has accessed: its violation, E_ABSENT where a tile cannot be reached (R33,
R420). -/
def jobEnds (t : Nat) (j : Job) (l : List (Nat × Nat × Nat)) (c : Ctl) : Ctl × Nat :=
  let c' := match j.violation t l with
    | some (a, w) => c.violate (.casda ⟨t % 8, Nat.mod_lt _ (by decide)⟩ ⟨j.task % 256, Nat.mod_lt _ (by decide)⟩) a w
    | none => c
  if l.isEmpty || (c.reaches t j.src && c.reaches t j.dst) then (c', eOk) else (c'.lastErr t 0xFF eAbsent, eAbsent)

/-- What the job under way on a channel has counted when it is cut off (R420, R424, R425). -/
def Ctl.jobCut (c : Ctl) (t ch : Nat) : Ctl :=
  let x := c.chn t ch
  match x.queue with
  | j :: _ => if x.under then (jobEnds t j (j.parts x.row x.pos) c).1 else c
  | [] => c

/-- Whether bytes lie in the configuration store of a tile, whose content the spec does not lay down (R39, R462). -/
def inConfigStore (off n : Nat) : Bool := decide (0x10F000000 < off + n) && decide (off < 0x110000000)

/-! ## Bursts (R415, R419) -/

/-- A burst: at most 256 bytes of one row, on one side of every 256-byte boundary of the destination (R415). -/
structure Burst256 where
  src : Nat
  dst : Nat
  len : Nat
deriving DecidableEq, Repr

/-- The burst after `pos` bytes of row `row`. -/
def Job.burst (j : Job) (row pos : Nat) : Burst256 :=
  let s := j.src + row * j.sstr
  let d := j.dst + row * j.dstr
  if j.descends then
    let e := d + j.len - pos
    let n := min (j.len - pos) (if e % 256 = 0 then 256 else e % 256)
    { src := s + j.len - pos - n, dst := e - n, len := n }
  else
    let n := min (j.len - pos) (256 - (d + pos) % 256)
    { src := s + pos, dst := d + pos, len := n }

/-- A burst moved: every byte is read before any is written; one that may not be read gives zero, one that may not be written
keeps what it holds. A byte of the configuration store, whose content the spec does not lay down, is a free value (R33, R39,
R420). -/
def burstMove (m : Mem) (c : Ctl) (t : Nat) (j : Job) (b : Burst256) : MC :=
  let get : Nat → Byte := fun i =>
    let a := b.src + i
    if !(c.reaches t a && j.grants t a false) then 0
    else if inConfigStore (a % 2 ^ 36) 1 then BitVec.ofNat 8 (Config.freeValue (c.fresh + i))
    else c.byteAt m (a / 2 ^ 36) (a % 2 ^ 36)
  (((List.range b.len).map (fun i => (b.dst + i, get i))).foldl (fun m e =>
    if c.reaches t e.1 && j.grants t e.1 true then memWrite m e.1 e.2 else m) m,
    if inConfigStore (b.src % 2 ^ 36) b.len then { c with fresh := c.fresh + b.len } else c)

/-- Whether a channel is ready for a burst: its job is under way, in RUN, and has rows left. -/
def Ctl.dmaReady (c : Ctl) (t ch : Nat) : Bool :=
  let x := c.chn t ch
  c.get t DMA_CH_STATE ch == dmRun && x.under && x.queue.head?.any (fun j => decide (x.row < j.rowCount))

/-- The priority level of a channel: 0 for channels 0 and 1, whose writes use the class-0 credits, else 1 to 3 (R414, R415).
-/
def Ctl.dmaLevel (c : Ctl) (t ch : Nat) : Nat := if ch < 2 then 0 else c.get t DMA_CH_PRIO ch

/-- The channel served next: of the highest level with a ready channel, the first after the one that level served last
(R415). -/
def Ctl.dmaPick (c : Ctl) (t : Nat) : Option Nat :=
  (List.range 4).findSome? (fun l =>
    let last := tabGet 15 c.dmaTurn (t * 4 + l)
    ((List.range 16).map (fun i => (last + 1 + i) % 16)).find? (fun ch => c.dmaLevel t ch == l && c.dmaReady t ch))

/-- One burst of the engine (R415). -/
def dmaBurst (t : Nat) (x : MC) : MC :=
  let c := x.2
  match c.dmaPick t with
  | none => x
  | some ch =>
    let y := c.chn t ch
    match y.queue with
    | [] => x
    | j :: _ =>
      let b := j.burst y.row y.pos
      let y := if j.len ≤ y.pos + b.len then { y with row := y.row + 1, pos := 0 } else { y with pos := y.pos + b.len }
      (burstMove x.1 c t j b).on (fun c =>
        Ctl.setChn { c with dmaTurn := tabSet c.dmaTurn (t * 4 + c.dmaLevel t ch) ch } t ch y)

/-- `n` bursts of the engine. -/
def dmaBursts (t : Nat) : Nat → MC → MC
  | 0, x => x
  | n + 1, x => dmaBursts t n (dmaBurst t x)

/-- Bursts until channel `ch` has none left, at most `n`. -/
def dmaServe (t ch : Nat) : Nat → MC → MC
  | 0, x => x
  | n + 1, x => if x.2.dmaReady t ch then dmaServe t ch n (dmaBurst t x) else x

/-- More bursts than the jobs under way have left. -/
def Ctl.dmaWork (c : Ctl) (t : Nat) : Nat :=
  ((List.range 16).map (fun ch =>
    if c.dmaReady t ch then ((c.chn t ch).queue.head?.map (fun j => j.rowCount * (j.len / 256 + 2))).getD 0 else 0)).sum

/-- The engine as it stands when something else happens: how many bursts it has served by then is a free value. -/
def dmaSome (t : Nat) (x : MC) : MC :=
  let v := x.2.free
  dmaBursts t (v.1 % (x.2.dmaWork t + 1)) (x.1, v.2)

/-- A job without FENCE completes when its last write has left the engine: an open number of the bytes of its last burst, those
that memory `m0` did not hold before, are still on their way (R415, R421). -/
def lastOnWay (t : Nat) (j : Job) (m0 : Mem) (x : MC) : MC :=
  if j.fence then x
  else
    let v := x.2.free
    let b := j.burst (j.rowCount - 1) (j.len - min j.len (1 + v.1 % 256))
    let l := ((List.range b.len).map (fun i => b.dst + i)).filter (fun a => memRead x.1 a != memRead m0 a)
    (l.foldl (fun m a => memWrite m a (memRead m0 a)) x.1,
      { v.2 with inFlight := tabSet v.2.inFlight t (l.map (fun a => (a, memRead x.1 a))) })

/-- DMA_JOB_COMPLETE: the job under way on a channel completes: the engine has served its bursts, and before each of them
every ready channel of a higher level and its turn of its own level (R415, R421). -/
def execDmaJobComplete (t : TileId) (ch : Fin 16) (s : State) : Host.Outcome State Fault Refusal :=
  s.onTileM t (fun m c =>
    match (c.chn t ch).queue with
    | [] => (m, c)
    | j :: _ =>
      if c.get t DMA_CH_STATE ch ≠ dmRun then (m, c)
      else
        let x := dmaServe t ch (c.dmaWork t) (dmaLand t (m, c))
        let y := jobEnds t j (j.parts j.rowCount 0) x.2
        lastOnWay t j (dmaLand t (m, c)).1 (x.1, (y.1.jobEnd t ch y.2 true).dmaNext t ch))

/-- DMA_BUS_ERROR: an access error a target returned, with its address: every channel stops at its next burst boundary; the
third within one frame period takes the tile into FAULT (R422, R423). -/
def execDmaBusError (t : TileId) (addr : BitVec 40) (write : Bool) (s : State) : Host.Outcome State Fault Refusal :=
  s.onTileM t (fun m c =>
    if !c.live t then (m, c)
    else
      let a := addr.toNat
      let x := dmaSome t (dmaLand t (m, c))
      let c := forN 16 (fun ch (c : Ctl) =>
        if c.get t DMA_CH_STATE ch = dmDisabled then c
        else
          let x := c.chn t ch
          let c := c.dmaState t ch dmHalted
          if x.under && (x.queue.head?).any Job.irq then c.irq t (8 + ch) else c) x.2
      let c := c.inc t DMA_COUNT_HALTS
      let c := if c.flag t DMA_ERR_INFO_VALID then c
        else c.put t DMA_ERR_INFO_VALID 1 |>.put t DMA_ERR_INFO_WRITE (b2n write) |>.put t DMA_ERR_INFO_TILE (a / 2 ^ 36)
          |>.put t DMA_ERR_INFO_OFFSET_HI (bitsOf a 32 4) |>.put t DMA_ERR_ADDR_OFFSET_LO a
      let c := c.event t 0x0B 0xA001 0 (leBytes 8 a ++ leBytes 1 (b2n write))
      let l := c.optime :: (tabGet [] c.dmaHalts t).filter (fun n => decide (c.optime < n + c.periodMs))
      let c := { c with dmaHalts := tabSet c.dmaHalts t l }
      (x.1, if 3 ≤ l.length then c.tileFault t TILE_RESET_CAUSE_FAULT .fault else c))

/-- A channel that resumes issues the record writes that its halt held, in full and in order (R423). -/
def recordsResume (t ch : Nat) (x : MC) : MC :=
  let l := (x.2.chn t ch).records
  let x := x.on (fun c => (c.setChn t ch { c.chn t ch with records := [] }).dmaNext t ch)
  l.foldl (fun (x : MC) e => (memStore x.1 e.1 e.2, x.2.recordDone t ch)) x

/-- DMA_AUTO_RESUME: 10 µs after a halt channels 0 and 1 run again (R423). -/
def execDmaAutoResume (t : TileId) (s : State) : Host.Outcome State Fault Refusal :=
  s.onTileM t (fun m c =>
    if !c.recordsHalted t then (m, c)
    else (recordsResume t 1 (recordsResume t 0 (m, c))).on (fun c => (c.inc t DMA_COUNT_AUTO).event t 0x0B 0xA002))

/-- The address of a register of the DMA block. -/
def dmaAddr (t off : Nat) : Nat := modAddr t (0x2000B0000 + off)

/-- A write of DMA_CTRL: RECOVER (R424). -/
def dmaCtrlWrite (m : Mem) (c : Ctl) (o : Origin) (t w : Nat) : MC × Nat :=
  if !c.isSystem o then ((m, c.violate o (dmaAddr t 0) true), eOk)
  else
    let halted := ((List.range 16).drop 2).filter (fun ch => c.get t DMA_CH_STATE ch == dmHalted)
    if w % 2 = 0 ∨ halted = [] then ((m, c), eOk)
    else
      let cut := halted.filter (fun ch => (c.chn t ch).under)
      let c := cut.foldl (fun (c : Ctl) ch => (c.jobCut t ch).jobEnd t ch eIntegrity true) c
      let c := halted.foldl (fun (c : Ctl) ch => c.dmaNext t ch) c
      ((m, c.event t 0x0B 0xA003 0 (leBytes 2 (maskN 16 (fun ch => cut.contains ch)))), eOk)

/-- DMA_RECOVER: a write of DMA_CTRL.RECOVER. -/
def execDmaRecover (t : TileId) (o : Origin) (s : State) : Host.Outcome State Fault Refusal :=
  s.onAccessM o (fun m c => accessM m c o t 0x0B (fun m c => dmaCtrlWrite m c o t 1))

/-- A channel is disabled: the job under way ends at its next burst boundary, the queued ones end with E_STATE (R425). -/
def dmaDisable (t ch : Nat) (x : MC) : MC :=
  let code := if x.2.get t DMA_CH_STATE ch = dmHalted then eIntegrity else eState
  let y := dmaSome t (dmaLand t x)
  let c := if (x.2.chn t ch).under then (y.2.jobCut t ch).jobEnd t ch code true else y.2
  let c := forN 16 (fun _ (c : Ctl) => c.jobEnd t ch eState true) c
  (y.1, c.dmaState t ch dmDisabled)

/-- A write of DMA_CH_CTRL of a channel; that of channels 0 and 1 is read-only, so no value of it is judged (R425, R428). -/
def dmaChWrite (m : Mem) (c : Ctl) (o : Origin) (t ch w : Nat) : MC × Nat :=
  if !c.isSystem o then ((m, c.violate o (dmaAddr t (0x100 + ch * 16)) true), eOk)
  else
    let en := bitsOf w 31 1
    let e := if ch < 2 then eLocked else if w % 4 = 0 then eRange else eOk
    if e ≠ eOk then ((m, c), e)
    else
      let was := c.get t DMA_CH_EN ch
      let c := (c.put t DMA_CH_EN en ch).put t DMA_CH_PRIO w ch
      if was = 1 ∧ en = 0 then
        (dmaDisable t ch (m, c), eOk)
      else if was = 0 ∧ en = 1 then ((m, c.dmaState t ch dmIdle), eOk)
      else ((m, c), eOk)

/-- DMA_CHANNEL_DISABLE: a write that clears EN of a channel. -/
def execDmaChannelDisable (t : TileId) (o : Origin) (ch : Fin 16) (s : State) : Host.Outcome State Fault Refusal :=
  s.onAccessM o (fun m c => accessM m c o t 0x0B (fun m c => dmaChWrite m c o t ch
    (if ch.val < 2 then 3 else c.get t DMA_CH_PRIO ch)))

/-- DMA_CHANNEL_ENABLE: a write that sets EN of a channel. -/
def execDmaChannelEnable (t : TileId) (o : Origin) (ch : Fin 16) (s : State) : Host.Outcome State Fault Refusal :=
  s.onAccessM o (fun m c => accessM m c o t 0x0B (fun m c => dmaChWrite m c o t ch
    (2 ^ 31 + if ch.val < 2 then 3 else c.get t DMA_CH_PRIO ch)))

/-! ## DQUEUE and DWAIT (R109) -/

/-- DQUEUE: the descriptor copied into the queue of a channel. -/
def execDqueue (t : TileId) (k : CoreId) (d a : Fin 32) (s : State) : Host.Outcome State Fault Refusal :=
  s.onTileR t (fun m c =>
    c.instr t k (wordD d a 0x07 0x00) (decide (a.val % 2 = 1) || decide (d.val % 2 = 1)) (fun i c =>
      let p := ((c.task t i).reg a).toNat
      let ch := ((c.task t i).reg (a.val + 1)).toNat % 16
      let b := memBytes m (localAddr t k p) 32
      let num := (c.get t DMA_CH_JOBS ch + 1) % 2 ^ 32
      let j := jobOf t i num (c.level t k == 1) b
      let e := if !localOk p 32 32 then eFormat else c.dqueueCode t ch b j
      if e ≠ eOk then c.retirePair t i d (BitVec.ofNat 32 e) 0
      else
        let x := c.chn t ch
        let c := (c.setChn t ch { x with queue := x.queue ++ [j] }).put t DMA_CH_JOBS num ch
        let c := if c.get t DMA_CH_STATE ch = dmIdle then c.dmaNext t ch else c
        c.retirePair t i d (BitVec.ofNat 32 eOk) (BitVec.ofNat 32 num)))

/-- DWAIT: the outcome of a job, at once if it has finished. -/
def execDwait (t : TileId) (k : CoreId) (d a : Fin 32) (s : State) : Host.Outcome State Fault Refusal :=
  s.onTile t (fun c => c.instr t k (wordD d a 0x07 0x01) (decide (a.val % 2 = 1)) (fun i c =>
    let ch := ((c.task t i).reg a).toNat % 16
    let num := ((c.task t i).reg (a.val + 1)).toNat
    let x := c.chn t ch
    if x.queue.any (fun j => j.num == num) then c.blockOn t i d (.dma ch num) 2
    else
      match tabFind x.outcomes num with
      | some code => c.retireCode t i d code
      | none => c.retireCode t i d eAbsent))

end Sys2Proof.Machine
end

