-- ==== Sys2Proof/Machine/Startup.lean ====
section
/-! DEFINITION. Machine/Startup.lean: image banks and their loading, the choice of the bank, the configuration a tile loads,
the resets that reach every tile, and how a tile enters RUN (R113, R115, R446, R447, R463, R467 to R473). -/
namespace Sys2Proof.Machine

/-! ## Images in memory (R113, R440, R441, R446) -/

/-- Where a bank of a tile begins: A, or B. -/
def bankAddr (t : Nat) (b : Bool) : Nat := modAddr t (0x100000000 + if b then 0x2000000 else 0)

/-- Where an image is staged (R448). -/
def stageAddr : Nat := modAddr 0 0x68000000

/-- Length of an image by its manifest. -/
def imageLen (m : Mem) (a : Nat) : Nat := if memNat m (a + 8) 4 < 33554432 then memNat m (a + 8) 4 else 33554432

/-- A section of an image: its header, and where its payload lies. -/
structure ImgSec where
  kind : Nat
  level : Nat
  tiles : Nat
  cores : Nat
  load : Nat
  size : Nat
  crc : Nat
  good : Bool
  addr : Nat
deriving DecidableEq, Repr

/-- The section whose header lies at an address. -/
def secAt (m : Mem) (a : Nat) : ImgSec :=
  { kind := memNat m (a + 4) 1, level := memNat m (a + 5) 1, tiles := memNat m (a + 6) 1, cores := memNat m (a + 7) 1
    load := memNat m (a + 8) 4, size := memNat m (a + 12) 4, crc := memNat m (a + 16) 4
    good := memNat m a 4 == 0x5EC70C5D && memNat m (a + 20) 12 == 0, addr := a + 32 }

/-- Bytes of a section's payload. -/
def ImgSec.payload (x : ImgSec) : Nat := if x.kind = 3 then 0 else x.size

/-- The sections of the area from `a` to `stop`, and whether a good END header closes it. -/
def parseSecs (m : Mem) : (fuel a stop : Nat) → List ImgSec × Bool
  | 0, _, _ => ([], false)
  | fuel + 1, a, stop =>
    let x := secAt m a
    if stop < a + 32 then ([], false)
    else if x.kind = 0 then ([], x.good)
    else
      let r := parseSecs m fuel (a + 32 + (x.payload + 15) / 16 * 16) stop
      (x :: r.1, r.2)

/-- The vendor and the owner section area of an image at `a`. -/
def imageSecs (m : Mem) (a : Nat) : (List ImgSec × Bool) × (List ImgSec × Bool) :=
  let v := memNat m (a + 12) 4
  let o := memNat m (a + 16) 4
  (parseSecs m (v / 32 + 1) (a + 0x240) (a + 0x200 + v - 96),
    if o = 0 then ([], true) else parseSecs m (o / 32 + 1) (a + 0x200 + v) (a + 0x200 + v + o))

/-- A task entry of R113. -/
structure TaskEntry where
  idx : Nat
  prio : Nat
  cost : Nat
  oneshot : Nat
  start : Bool
  entry : Nat

/-- The task entries of a section. -/
def ImgSec.tasks (x : ImgSec) (m : Mem) : List TaskEntry :=
  (List.range (x.size / 8)).map (fun i =>
    let a := x.addr + 8 * i
    let b := memNat m (a + 1) 1
    { idx := memNat m a 1, prio := b / 16, cost := b / 4 % 4, oneshot := b / 2 % 2, start := bit b 0, entry := memNat m (a + 4) 4 })

/-- A route entry of R113: kind, number, EN and FIXED, task, period. -/
structure RouteEntry where
  kind : Nat
  num : Nat
  flags : Nat
  task : Nat
  period : Nat

/-- The route entries of a section. -/
def ImgSec.routes (x : ImgSec) (m : Mem) : List RouteEntry :=
  (List.range (x.size / 8)).map (fun i =>
    let a := x.addr + 8 * i
    { kind := memNat m a 1, num := memNat m (a + 1) 1, flags := memNat m (a + 2) 1, task := memNat m (a + 3) 1
      period := memNat m (a + 4) 4 })

/-- Whether a section loads local memory. -/
def ImgSec.isLocal (x : ImgSec) : Bool := x.kind == 1 || x.kind == 2 || x.kind == 3

/-! ## Loading (R115) -/

/-- A section put into local memories or into the owner area. -/
def ImgSec.put (x : ImgSec) (t : Nat) (m : Mem) : Mem :=
  let at_ : Nat → Mem → Mem := fun dst m => if x.kind = 3 then memClear m dst x.size else memCopy m x.addr dst x.size
  if x.isLocal then (List.range 4).foldl (fun m k => if bit x.cores k then at_ (localAddr t k x.load) m else m) m
  else if x.kind = 4 then at_ (modAddr t x.load) m
  else m

/-- A route applied; one of a timer binds the timer's interrupt source and sets its period (R77, R113, R115). -/
def Ctl.applyRoute (c : Ctl) (t : Nat) (r : RouteEntry) : Ctl :=
  let bind : Nat → Ctl := fun n => c.put t CASDA_IRQ_ROUTE_EN r.flags n |>.put t CASDA_IRQ_ROUTE_FIXED (r.flags / 2) n
    |>.put t CASDA_IRQ_ROUTE_TASK r.task n
  match r.kind with
  | 0 => if 64 ≤ r.num then c else bind r.num
  | 1 => if 16 ≤ r.num then c else (c.put t CASDA_MBOX_CFG_EN r.flags r.num).put t CASDA_MBOX_CFG_TASK r.task r.num
  | 2 => if 4 ≤ r.num then c else (bind (0x30 + r.num)).put t CASDA_TIMER_PERIOD_PERIOD r.period r.num
  | _ => c

/-- A task entry written. -/
def Ctl.applyTask (c : Ctl) (t : Nat) (e : TaskEntry) : Ctl :=
  c.put t TASK_CFG_VALID 1 e.idx |>.put t TASK_CFG_COST e.cost e.idx |>.put t TASK_CFG_PRIO e.prio e.idx
    |>.put t TASK_CFG_ONESHOT e.oneshot e.idx |>.put t TASK_ENTRY_ENTRY (bitsOf e.entry 2 16) e.idx
    |>.put t TASK_STATE_STATE kStopped e.idx

/-- Insertion by task index. Of two entries for one task, which the format does not forbid, the one that comes first is applied
last and stays (R115; DESIGN CHOICE, assumption 105). -/
def insertEntry (e : TaskEntry) : List TaskEntry → List TaskEntry
  | [] => [e]
  | x :: r => if e.idx < x.idx then e :: x :: r else x :: insertEntry e r

/-- A tile applies the sections of the bank it runs; core 0 is a System core whatever they say (R55). -/
def loadImage (t : Nat) (b : Bool) (x : MC) : MC :=
  let m := x.1
  let p := imageSecs m (bankAddr t b)
  let l := (p.1.1 ++ p.2.1).filter (fun s => bit s.tiles t)
  let sys := maskN 4 (fun k => k == 0 || l.any (fun s => s.isLocal && bit s.cores k && s.level == 1))
  let c := x.2.put t CASDA_CORE_LEVEL_SYSTEM sys
  let m1 := (l.filter ImgSec.isLocal).foldl (fun acc s => s.put t acc) m
  let m1 := (l.filter (fun s => s.kind == 4)).foldl (fun acc s => s.put t acc) m1
  let c := ((l.filter (fun s => s.kind == 6)).map (fun s => s.routes m)).flatten.foldl (fun (c : Ctl) r => c.applyRoute t r) c
  let es := ((l.filter (fun s => s.kind == 5)).map (fun s => s.tasks m)).flatten.foldr insertEntry []
  let c := es.foldl (fun (c : Ctl) e => c.applyTask t e) c
  (m1, es.foldl (fun (c : Ctl) e => if e.start then c.taskStart t e.idx else c) c)

/-! ## The choice of the bank (R446, R447, R463) -/

/-- The state of a bank. -/
def BootRecord.state (b : BootRecord) (bank : Bool) : BankState := if bank then b.stateB else b.stateA

/-- The boot record with the state of a bank set. -/
def BootRecord.with (b : BootRecord) (bank : Bool) (st : BankState) : BootRecord :=
  if bank then { b with stateB := st } else { b with stateA := st }

/-- The bank that is confirmed. -/
def Ctl.confirmed (c : Ctl) : Bool := c.img.boot.stateB == .confirmed
/-- The bank that a download programs. -/
def Ctl.inactive (c : Ctl) : Bool := !c.confirmed

/-- Whether the bank of a tile matches its digest; a bank without one recorded is as delivered (assumption 24). -/
def bankOk (m : Mem) (c : Ctl) (t : Nat) (b : Bool) : Bool :=
  let d := if b then c.img.boot.digestB else c.img.boot.digestA
  d.isEmpty || Config.sha384 (memBytes m (bankAddr t b) (imageLen m (bankAddr t b))) == d

/-- Whether the bank passes on every fitted tile. -/
def banksOk (m : Mem) (c : Ctl) (b : Bool) : Bool := (List.range c.tiles).all (fun t => bankOk m c t b)

/-- The stage after a start that boots no trial (R448, R463). -/
def stageAfter : Stage → Stage
  | .verified => .verified
  | .activating => .verified
  | _ => .idle

/-- Every tile runs a bank, as a trial or not; the confirm window of a trial starts, of CONFIRM_S as the store holds it
(R460, R470). -/
def Ctl.bootBank (c : Ctl) (b trial : Bool) : Ctl :=
  let st := if trial then .trial else stageAfter c.img.stage
  let c := { c with img := { c.img with onB := if b then List.range c.tiles else [], commits := false, paused := false
                                        revert := false, rollTile := none, rollBack := false, byPause := true
                                        recovery := false, reply := none, len := 0, granules := [] } }
  let c := c.setStage st
  let c := forN c.tiles (fun t (c : Ctl) => (c.put t IMG_STATUS_SELF_OK 0).put t IMG_STATUS_SELF_FAIL 0) c
  (c.rephase 0 33).put 0 IMG_CONFIRM_REMAIN_S
    (if trial then tabGet IMG_CFG_CONFIRM_S.reset c.store (IMG_CFG_CONFIRM_S.key 0) else 0)

/-- A 16-bit or 32-bit field of the manifest of an image (R441). -/
def mfField (m : Mem) (a off n : Nat) : Nat := memNat m (a + off) n

/-- Whether the images of the two banks differ in a format field of their manifests: LV_FORMAT at 0x20, CFG_FORMAT at 0x22. -/
def formatsDiffer (m : Mem) (off : Nat) : Bool := mfField m (bankAddr 0 false) off 2 != mfField m (bankAddr 0 true) off 2

/-- Each cell's newest record of a tile copied into the legacy slot (R462). -/
def legacyCopy (t : Nat) (m : Mem) : Mem :=
  (List.range 262144).foldl (fun m i =>
    match lvNewest m t i with
    | some s => memCopy m (lvAddr t s i) (lvAddr t 2 i) 128
    | none => m) m

/-- Onyx chooses the bank at module start; a reset during VERIFY may find its last step begun. A chosen bank that fails its digest
leaves the other: VERIFIED as a trial, PENDING like every other; CONFIRMED as it is, the trial being over without a fall-back
event (R447, R463; DESIGN CHOICE, assumption 104). -/
def chooseBoot (m : Mem) (c : Ctl) : Ctl :=
  let c := if c.img.stage = .verify then
      let v := c.free
      if v.1 % 2 = 1 then v.2.writeBoot (v.2.img.boot.with v.2.inactive .empty) else v.2
    else c
  let b := c.img.boot
  let trialB := b.stateB == .trial
  let fell := b.pending && decide (3 ≤ b.attempts)
  let back := b.rolling || fell || c.img.stage == .fallback
  let c := if back then c.legacyBack else c
  let c := { c with img := { c.img with legacyRead := back && b.legacyLv } }
  let y : Bool × Bool × Ctl :=
    if b.rolling then
      let c := c.writeBoot { b.untrial with rolling := false, pending := false }
      (c.confirmed, false, c.event 0 0x0E 0xB009)
    else if b.pending && !fell then (trialB, true, c.writeBoot { b with attempts := b.attempts + 1 })
    else if fell then
      let c := (c.writeBoot { b.untrial with pending := false }).inc 0 IMG_COUNT_FALLBACK
      (c.confirmed, false, c.event 0 0x0E 0xB008 0 (leBytes 1 2))
    else (c.confirmed, false, c)
  let bank := y.1
  let c := y.2.2
  if banksOk m c bank then c.bootBank bank y.2.1
  else if c.img.boot.state (!bank) == .verified && banksOk m c (!bank) then
    ((c.writeBoot { c.img.boot.with (!bank) .trial with pending := true, attempts := 1 }).event 0 0x0E 0xB00A).bootBank
      (!bank) true
  else if y.2.1 && banksOk m c (!bank) then
    ((c.writeBoot { c.img.boot.untrial with pending := false }).event 0 0x0E 0xB00A).bootBank (!bank) false
  else
    let c := c.bootBank bank false
    { c with img := { c.img with recovery := true } }

/-! ## Configuration (R470 step 4, R475) -/

/-- The values of the configuration store that a tile loads; while its partner serves its section, not that section's. Loop
parameters go to the shadow banks and are committed (R282). -/
def Ctl.loadConfig (c : Ctl) (t : Nat) : Ctl :=
  let stay := c.get t CARRY_STATUS_STATE == 3
  let loop : Nat → Bool := fun k => keyBlk k == 0x09 && decide (0x5000 ≤ keyOff k) && decide (keyOff k < 0x9000)
  let l := c.store.filter (fun e => keyTile e.1 == t && isConfig t e.1 && !(stay && sectionBlk (keyBlk e.1)) && !loop e.1)
  let c := { c with regs := l.foldl (fun r e => tabSet r e.1 e.2) c.regs }
  let c := forN 64 (fun ch (c : Ctl) =>
    let stored : Nat → Option Nat := fun p => tabFind c.store ((LOOP_ACTIVE p).key t ch)
    if anyN 0x17 (fun p => (stored p).any (fun v => v != c.par t ch p)) then
      (forN 0x17 (fun p (c : Ctl) => match stored p with | some v => c.put t (LOOP_SHADOW p) v ch | none => c) c).loopCommit t ch
    else c) c
  let c := if t = 0 then
      { c with net := { c.net with
        ipActive := c.regs.filter (fun e => keyTile e.1 == 0 && keyBlk e.1 == 0x11 && decide (0x100 ≤ keyOff e.1)
          && decide (keyOff e.1 < 0x180)) } }
    else c
  if stay then c
  else
    let c := (c.ow.filter (fun e => e.1 / 16384 == t)).foldl (fun (c : Ctl) e =>
      c.setOw t (e.1 / 512 % 32) (e.1 % 512) { e.2 with pending := [], restored := e.2.confirmed != [] }) c
    { c with selAct := forN 32 (fun r (s : Tab Nat) =>
        if c.get t LIMIT_RING_SEL_SET r = 0 ∧ c.get t LIMIT_RING_SEL_TEMP_MASK r = LIMIT_RING_SEL_TEMP_MASK.reset then s
        else tabSet s (t * 32 + r) (c.rawWord 5 t (0x800 + 4 * r))) c.selAct }

/-- The profiles of the configuration store mirrored into DRAM (R213). -/
def mirrorProfiles (t : Nat) (m : Mem) (c : Ctl) : Mem :=
  (List.range 8).foldl (fun m p =>
    match tabFind c.profiles (t * 8 + p) with
    | some b => memStore m (profAddr t p) b
    | none => m) m

/-- Every ring whose MODE is not OFF begins enumeration (R470 step 4). -/
def startRings (t : Nat) (x : MC) : MC :=
  (List.range 32).foldl (fun (x : MC) r =>
    let mode := x.2.get t RING_CTRL_MODE r
    if mode = 0 then x else enumStart (ringMode x t r mode) t r) x

/-! ## Resets that reach every tile (R467, R468) -/

/-- The module domain of tile 0 beside its registers (R452, R467); the role keys stay in Onyx. -/
def Ctl.resetDomain (c : Ctl) : Ctl :=
  { c with
    net := { keys := c.net.keys, gone := c.net.gone }
    ptp := {}
    bank := {}
    frameNum := 0
    switches := []
    secFrom := []
    backups := []
    faultTimes := []
    stuck := []
    carryIn := []
    reserving := []
    readySet := []
    handed := [] }

/-- Every session closes (R363). -/
def Ctl.closeAll (c : Ctl) : Ctl := forN 16 (fun i (c : Ctl) => c.closeSession i 2) c

/-- A reset of every tile and of the module domain; the tiles then read `st`. -/
def resetAll (kind : ResetKind) (st : Nat) (x : MC) : MC :=
  let x := x.on Ctl.closeAll
  let x := (List.range x.2.tiles).foldl (fun (x : MC) t => settle t x) x
  x.on (fun c =>
    let c := forN c.tiles (fun t (c : Ctl) => (c.resetTile t kind).put t TILE_STATUS_STATE st) c.resetDomain
    c.judgeAll)

/-- The start-up timeline begins: every tile's event ring is restored, the bank is chosen, every tile boots. While MRST_N is low
every tile is held, and Onyx chooses at the release (R434, R447, R470, R473). -/
def startTimeline (F : List Field) (x : MC) : MC :=
  let x := (List.range x.2.tiles).foldl (fun (x : MC) t => restoreRing t (settle t x)) x
  x.on (fun c =>
    let c := if c.pw.mrstLow then c else chooseBoot x.1 c
    let st := if c.pw.mrstLow then tsHeld else tsBoot
    let c := forN c.tiles (fun t (c : Ctl) =>
      F.foldl (fun (c : Ctl) f => c.put t f 1) (c.put t TILE_STATUS_STATE st)) c
    { c with pw := { c.pw with mode := .run, leaving := .none, held := false, wakeAt := none, warned := false, warnDue := false
                               wakeDue := true, readyDue := true } })

/-- A module reset: MRST_N asserted and released, `sb.module_reset`, or the restart after an eject (R467, R477). -/
def moduleReset (x : MC) : MC := startTimeline [TILE_RESET_CAUSE_MRST] (resetAll .module tsBoot x)

/-- The way out of Standby, with its wake cause; MRST_N leaves its reset cause as well (R321, R323, R467). -/
def standbyExit (cause : Nat) (x : MC) : MC :=
  if x.2.pw.mode ≠ .standby ∨ x.2.pw.ejectLow then x
  else
    let x := resetAll .standby tsBoot (x.on (fun c => c.put 0 PWR_WAKE_CAUSE cause))
    startTimeline (TILE_RESET_CAUSE_POWER :: if cause = 3 then [TILE_RESET_CAUSE_MRST] else []) x

/-- What outlives a loss of power: the unit, the non-volatile and stored data, the blocks with their own supply, the lines
outside the module (R351, R446, R462). -/
def Ctl.unpowered (c : Ctl) : Ctl :=
  { unit := c.unit
    fresh := c.fresh
    store := c.store
    berylStore := c.berylStore
    berylStore2 := c.berylStore2
    berylCrc := c.berylCrc
    img := { stage := c.img.stage, boot := c.img.boot, bootPrev := c.img.bootPrev, cfgTrial := c.img.cfgTrial }
    net := { keys := c.net.keys, gone := c.net.gone + countN 16 (fun i => (c.session i).open_) }
    blks := c.blks
    inventory := c.inventory
    ow := (c.ow.map (fun e => (e.1, ({ confirmed := e.2.confirmed } : Ow)))).filter (fun e => e.2.confirmed != [])
    profiles := c.profiles
    lvGen := c.lvGen
    schedule := c.schedule
    pw := { mode := .off, mrstLow := c.pw.mrstLow, mrstMs := c.pw.mrstMs, ejectLow := c.pw.ejectLow, vin := c.pw.vin
            charged := c.pw.charged, flag := c.pw.flag } }

/-- Power goes: every setting is in the store, a record on its way to the tail may be torn, and every tile reads OFF (R433,
R475). -/
def powerLost (x : MC) : MC :=
  let x := (List.range x.2.tiles).foldl (fun (x : MC) t => tailTorn x.1 x.2 t) x
  x.on (fun c =>
    let c := (forN c.tiles (fun t (c : Ctl) => c.saveConfig t) c).unpowered
    forN c.tiles (fun t (c : Ctl) => c.put t TILE_STATUS_STATE tsOff) c)

/-- Operating time as the store holds it (R351). -/
def Ctl.storedOptime (c : Ctl) : Nat :=
  tabGet 0 c.store (TIME_OPTIME_LO_MS.key 0 0 0) + tabGet 0 c.store (TIME_OPTIME_HI_MS.key 0 0 0) * 2 ^ 32

/-- A module power-up: operating time and power-cycle count restored, the count one higher, the strap of the two-wire block
sampled, PWR_WAKE.CAUSE 4 where the Chrysalis flag is found, then the timeline (R325, R351, R396, R467, R470). -/
def powerUp (x : MC) : MC :=
  let x := powerLost x
  let x := x.on (fun c =>
    let c := { c with regs := [], optime := c.storedOptime, twb := { c.twb with taddr := 0x58 + c.unit.strap % 8 }
                      pw := { c.pw with flag := false, vin := true, charged := true } }
    let c := forN c.tiles (fun t (c : Ctl) => c.put t TIME_OPTIME_HI_MS (c.optime / 2 ^ 32 % 65536)) c
    let c := c.put 0 TIME_PCYCLE_COUNT (satAdd 24 (tabGet 0 c.store (TIME_PCYCLE_COUNT.key 0 0 0)) 1)
    let c := { c with store := tabSet c.store (TIME_PCYCLE_COUNT.key 0 0 0) (c.get 0 TIME_PCYCLE_COUNT) }
    c.put 0 PWR_WAKE_CAUSE (if x.2.pw.flag then 4 else 0))
  startTimeline [TILE_RESET_CAUSE_POWER] x

/-! ## Entering RUN (R470, R472, R486) -/

/-- An event of the two-wire block: recorded by tile 0 in RUN, else held in its queue of 8 (R412). -/
def Ctl.twbEvent (c : Ctl) (code : Nat) (payload : List Byte) : Ctl :=
  if c.running 0 then c.event 0 0x12 code 0 payload
  else
    let q := c.twb.events ++ [(code, payload)]
    { c with twb := { c.twb with events := if 8 < q.length then q.drop 1 else q } }

/-- What waited in the two-wire block is recorded, and the events of this start raised, as tile 0 enters RUN: its wake cause,
and the sessions that the loss of power before it closed (R338, R363, R412). -/
def Ctl.tileZeroRuns (c : Ctl) : Ctl :=
  let c := forN c.net.gone (fun _ (c : Ctl) => c.event 0 0x11 0x7206 0 (leBytes 1 2)) c
  let c := { c with net := { c.net with gone := 0 } }
  let c := c.twb.events.foldl (fun (c : Ctl) e => c.event 0 0x12 e.1 0 e.2) c
  let c := { c with twb := { c.twb with events := [] } }
  if c.pw.wakeDue then
    Ctl.event { c with pw := { c.pw with wakeDue := false } } 0 0x01 0x0112 0 (leBytes 1 (c.get 0 PWR_WAKE_CAUSE))
  else c

/-- Whether a tile that is not running may boot: not held, not off, not left in FAULT. -/
def Ctl.boots (c : Ctl) (t : Nat) : Bool :=
  let st := c.tileState t
  c.pw.mode == .run && !c.pw.mrstLow && !c.pw.held && !c.stuck.contains t
    && !(t != 0 && bit (c.get 0 MOD_TILE_CTRL_HOLD) (t - 1)) && (st == tsBoot || st == tsFault || st == tsCarried)

/-- A tile completes its boot: its event ring written anew from the tail, the image and the configuration loaded; it enters RUN
unless its section is carried or about to be, and its rings enumerate (R434, R470). -/
def enterRun (t : Nat) (x : MC) : MC :=
  let x := settle t x
  let c := x.2
  let st := c.get t CARRY_STATUS_STATE
  let x : MC := (restoreDram t x.1, c)
  let x := if c.img.recovery then x else loadImage t (c.img.onB.contains t) x
  let x : MC := (mirrorProfiles t x.1 x.2, x.2.loadConfig t)
  if st = csCarried ∨ st = csHandover ∨ st = csHandback ∨ (st = csUnserved ∧ c.tileState t = tsCarried) then x
  else
    let x := x.on (fun c =>
      let c := c.put t TILE_STATUS_STATE tsRun
      let c := if st = csUnserved then c.setCarry t csNone 0 else c
      let c := { c with bursts := tabSet c.bursts t { tabGet ({} : Burst) c.bursts t with zero := true } }
      let c := c.setEst t { c.estOf t with startup := some (if c.img.legacyRead then 1 else 0), loaded := [] }
      (if t = 0 then c.tileZeroRuns else c).judgeAll)
    startRings t x

/-- TILE_ENTER_RUN. -/
def execTileEnterRun (t : TileId) (s : State) : Host.Outcome State Fault Refusal :=
  s.onTileM t (fun m c => if c.boots t then enterRun t (m, c) else (m, c))

/-- TILE_RUN_TIMEOUT: a tile still in BOOT 2 s after the reference enters FAULT (R472). -/
def execTileRunTimeout (t : TileId) (s : State) : Host.Outcome State Fault Refusal :=
  s.onTile t (fun c =>
    if c.tileState t ≠ tsBoot then c
    else
      let x := c.tileFault t TILE_RESET_CAUSE_FAULT .fault
      Ctl.sameCycle c (x.event (x.recorderOf t) 0x01 0x0134))

/-- ESTIMATION_READY: every enumerated cell is restored and updated; the reference image requests balancing AUTO, and event
0x0130 gives the times of the start-up steps as measured (R470, R479). -/
def execEstimationReady (s : State) : Host.Outcome State Fault Refusal :=
  s.onModuleM (fun m c =>
    let up := (List.range c.tiles).filter (fun t => c.running t)
    if !c.pw.readyDue || up.isEmpty || up.any (fun t => !(c.estOf t).passed || (c.estOf t).reload.isSome) then (m, c)
    else
      let z := up.foldl (fun (z : MC) t => balMode t 1 z) (m, { c with pw := { c.pw with readyDue := false } })
      let a := z.2.measure
      let b := a.2.measure
      let d := b.2.measure
      let e := d.2.measure
      (z.1, e.2.event 0 0x01 0x0130 0 (leBytes 4 a.1 ++ leBytes 4 b.1 ++ leBytes 4 d.1 ++ leBytes 4 e.1)))

end Sys2Proof.Machine
end

