-- ==== Sys2Proof/Machine/PowerModes.lean ====
section
/-! DEFINITION. Machine/PowerModes.lean: MOD_TILE_CTRL (R50), the power modes and their commands (R319 to R326), orderly
shutdown, eject and power failure (R473 to R479), input power (R496, R497), and the end of a commit of learned values (R217). -/
namespace Sys2Proof.Machine

/-! ## MOD_TILE_CTRL (R50) -/

/-- A tile is reset or held through MOD_TILE_CTRL; one without power stays off, and while MRST_N is low or after a shutdown it
stays held (R50, R404, R458, R473, R476). -/
def tileCtrlDown (t : Nat) (hold : Bool) (x : MC) : MC :=
  if x.2.tileState t = tsOff then x
  else
    (settle t x).on (fun c => c.tileDown t TILE_RESET_CAUSE_TILE_CTRL .tileCtrl
      (if c.stuck.contains t then tsFault else if hold ∨ c.pw.mrstLow ∨ c.pw.held then tsHeld else tsBoot) 3)

/-- The code of a write of MOD_TILE_CTRL that resets the tiles of `rs` and changes HOLD of those of `hs`, newly holding those
of `new` (R50). -/
def Ctl.tileCtrlCode (c : Ctl) (w : Nat) (rs hs new : List Nat) : Nat :=
  let named := rs ++ hs
  let down := rs ++ new
  firstErr [(bit w 0 || bit w 8, eRange),
    (anyN 8 (fun t => decide (c.tiles ≤ t) && (bit w t || bit w (8 + t))), eAbsent),
    ((c.img.stage == .activating || c.img.stage == .fallback) && !named.isEmpty
      || named.any (fun t => c.hasCarry && (c.carry t == csHandback || c.carry (partner t) == csHandback)), eBusy),
    (c.hasCarry && down.any (fun t => !c.running (partner t)), eState)]

/-- A write of MOD_TILE_CTRL. A HOLD bit written as it stands neither names nor holds its tile again (DESIGN CHOICE,
assumption 73). -/
def tileCtrlWrite (m : Mem) (c : Ctl) (o : Origin) (w : Nat) : MC × Nat :=
  if !(c.isSystem o || isRole o .engineer || isRole o .management) then ((m, c.violate o (modAddr 0 0x200130018) true), eOk)
  else
    let old := c.get 0 MOD_TILE_CTRL_HOLD * 512
    let tiles := (List.range 8).drop 1
    let rs := tiles.filter (fun t => bit w t)
    let hs := tiles.filter (fun t => bit w (8 + t) != bit old (8 + t))
    let new := hs.filter (fun t => bit w (8 + t))
    let e := c.tileCtrlCode w rs hs new
    if e ≠ eOk then ((m, c), e)
    else
      let x : MC := (m, c.put 0 MOD_TILE_CTRL_HOLD (bitsOf w 9 7))
      let x := tiles.foldl (fun (x : MC) t =>
        if rs.contains t || new.contains t then tileCtrlDown t (bit w (8 + t)) x
        else if hs.contains t && x.2.tileState t == tsHeld && !x.2.pw.mrstLow && !x.2.pw.held then x.on (fun c => c.put t TILE_STATUS_STATE tsBoot)
        else x) x
      (x, eOk)

/-- HOLD as it stands, in its place. -/
def Ctl.holdBits (c : Ctl) : Nat := c.get 0 MOD_TILE_CTRL_HOLD * 512

/-- TILE_RESET: a write that sets the RESET bit of a tile and leaves HOLD. -/
def execTileReset (o : Origin) (t : TileId) (s : State) : Host.Outcome State Fault Refusal :=
  s.onAccessM o (fun m c => accessM m c o 0 0x13 (fun m c => tileCtrlWrite m c o (setBit c.holdBits t true)))
/-- TILE_HOLD: a write that sets the HOLD bit of a tile. -/
def execTileHold (o : Origin) (t : TileId) (s : State) : Host.Outcome State Fault Refusal :=
  s.onAccessM o (fun m c => accessM m c o 0 0x13 (fun m c => tileCtrlWrite m c o (setBit c.holdBits (8 + t) true)))
/-- TILE_HOLD_RELEASE: a write that clears the HOLD bit of a tile. -/
def execTileHoldRelease (o : Origin) (t : TileId) (s : State) : Host.Outcome State Fault Refusal :=
  s.onAccessM o (fun m c => accessM m c o 0 0x13 (fun m c => tileCtrlWrite m c o (setBit c.holdBits (8 + t) false)))

/-! ## Orderly shutdown (R476) -/

/-- Whether a commit of learned values runs on any tile. -/
def Ctl.anyCommit (c : Ctl) : Bool := anyN c.tiles (fun t => (c.estOf t).commit.isSome)

/-- Every running tile starts a commit. -/
def Ctl.commitAll (c : Ctl) (cause : Nat) : Ctl :=
  forN c.tiles (fun t (c : Ctl) => if c.running t then c.startCommit t cause none else c) c

/-- The frames of a section's slots sent once with MODE RAMPDOWN and zero set-points, and stopped (R476 step 1). -/
def Ctl.lastFrames (c : Ctl) (h : Nat) : Ctl :=
  let c := (c.refresh h dmRampdown 0).release h
  Ctl.putStopped { c with slots := c.slots.map (fun e => if e.1 / 32 = h then (e.1, { e.2 with stopped := true }) else e) } h

/-- Step 1 of an orderly shutdown; the tail queue of every tile is written out as it begins (R435). -/
def shutdownStart (cause : Nat) (why : Leaving) (x : MC) : MC :=
  let x := (List.range x.2.tiles).foldl (fun (x : MC) t => settle t x) x
  let x := x.on (fun c => { c with pw := { c.pw with leaving := why } })
  let x := (x.2.dispatched).foldl (fun (x : MC) h => zeroAll h (x.on (fun c => c.lastFrames h))) x
  x.on (fun c => c.commitAll cause)

/-- One EVENT message of at most 20 records of a tile beside those sent already. -/
def eventOut (slot sub t : Nat) (y : Ctl × List Sent) (l : List (List Byte)) : Ctl × List Sent :=
  if l.isEmpty then y
  else
    let c := { y.1 with net := { y.1.net with sent := [] } }
    let c := c.unsolicited slot sub 0x05 t (leBytes 1 l.length ++ leBytes 3 0 ++ l.flatten)
    (c, y.2 ++ c.net.sent)

/-- Everything that waits for EVENT subscriptions is sent at once, 20 records to a message (R368, R476 step 4). -/
def Ctl.sendEvents (c : Ctl) : Ctl :=
  let y := c.net.subs.foldl (fun (y : Ctl × List Sent) e =>
    (List.range 8).foldl (fun (y : Ctl × List Sent) t =>
      let l := (e.2.records.filter (fun r => r.1 == t)).map (fun r => r.2)
      forN ((l.length + 19) / 20) (fun i y => eventOut e.2.slot e.1 t y ((l.drop (20 * i)).take 20)) y) y) (c, [])
  { y.1 with net := { y.1.net with sent := y.2, subs := y.1.net.subs.map (fun e => (e.1, { e.2 with records := [] })) } }

/-- SHUTDOWN_COMMIT_DONE: the commits of an orderly shutdown are complete: tails written, operating time stored, event 0x0131
sent, 0x0110 written on the way to Standby, and every tile held (R322 step 2, R476 steps 3 to 5). -/
def execShutdownCommitDone (s : State) : Host.Outcome State Fault Refusal :=
  s.onModuleM (fun m c =>
    let cause := match c.pw.leaving with
      | .standby => 6
      | .eject => 7
      | _ => 0
    if cause = 0 ∨ c.pw.held ∨ c.anyCommit then (m, c)
    else
      let x : MC := (m, c.storeOptime.event 0 0x01 0x0131 0 (leBytes 1 cause))
      let x := (settle 0 x).on Ctl.sendEvents
      let x := if cause = 6 then settle 0 (x.on (fun c => c.event 0 0x01 0x0110)) else x
      let sent := x.2.net.sent
      let x := resetAll .module tsHeld x
      x.on (fun c => { c with pw := { c.pw with held := true }, net := { c.net with sent := sent } }))

/-- STANDBY_POWER_OFF: power is removed from all but the always-on domain, the two-wire block and Beryl; the wake time counts
on the always-on seconds (R322 step 3, R323). -/
def execStandbyPowerOff (s : State) : Host.Outcome State Fault Refusal :=
  s.onModuleM (fun m c =>
    if c.pw.leaving ≠ .standby ∨ ¬ c.pw.held then (m, c)
    else
      let wake := c.pw.wake
      let x := resetAll .standby tsOff (m, c)
      x.on (fun c => { c with pw := { c.pw with
        mode := .standby, leaving := .none, held := false, wake := 0, warned := false, warnDue := false
        wakeAt := if wake = 0 then none else some (c.get 0 TIME_AON_SEC + wake) } }))

/-! ## Mode commands (R326) -/

/-- Why neither Standby nor Chrysalis may be entered. -/
def Ctl.leaveCode (c : Ctl) : Nat :=
  let busy := c.img.stage == .activating || anyN c.tiles (fun t =>
    (c.hasCarry && c.carry t != csNone && c.carry t != csUnserved) || c.flag t BERYL_SESSION_OPEN || c.committing t [4, 7])
  firstErr [(c.dispModeNow != dmRampdown || c.force != 0, eState), (busy, eBusy)]

/-- The effect of `mode.standby`. -/
def modeStandby (q : Req) (m : Mem) (c : Ctl) : Eff :=
  guarded q modeRoles 4 m c (
    let wake := q.arg 0 4
    let e := firstErr [(wake != 0 && (decide (wake < 60) || decide (604800 < wake)), eRange), (c.leaveCode != eOk, c.leaveCode)]
    if e ≠ eOk then .err m c e
    else
      let x := shutdownStart 6 .standby (m, { c with pw := { c.pw with wake := wake } })
      { mem := x.1, ctl := x.2 })

/-- MODE_STANDBY: `mode.standby`. -/
def execModeStandby (d : Datagram) (s : State) : Host.Outcome State Fault Refusal := s.cmd 0x0001 d modeStandby

/-- MODE_CHRYSALIS: `mode.chrysalis`; every tile in RUN starts a commit with cause 3 (R324 steps 1 and 2). -/
def execModeChrysalis (d : Datagram) (s : State) : Host.Outcome State Fault Refusal :=
  s.cmd 0x0002 d (fun q m c => guarded q engRoles 0 m c (
    if c.leaveCode ≠ eOk then .err m c c.leaveCode
    else { mem := m, ctl := Ctl.commitAll { c with pw := { c.pw with leaving := .chrysalis } } 3 }))

/-- The effect of `mode.run`: in Run nothing changes; it ends Standby on the side-band port only (R321, R326). -/
def modeRun (q : Req) (m : Mem) (c : Ctl) : Eff :=
  guarded q modeRoles 0 m c (
    let x := standbyExit 1 (m, c)
    { mem := x.1, ctl := x.2 })

/-- MODE_RUN: `mode.run`. -/
def execModeRun (d : Datagram) (s : State) : Host.Outcome State Fault Refusal := s.cmd 0x0003 d modeRun

/-- STANDBY_WAKE_TIME: the wake time has passed on the always-on counter (R323). -/
def execStandbyWakeTime (s : State) : Host.Outcome State Fault Refusal :=
  s.onModuleM (fun m c =>
    match c.pw.wakeAt with
    | some a => standbyExit 2 (m, c.put 0 TIME_AON_SEC (if c.get 0 TIME_AON_SEC < a then a else c.get 0 TIME_AON_SEC))
    | none => (m, c))

/-! ## Chrysalis (R324, R325) -/

/-- The commits with cause 3 have ended: event 0x0111 and the flag written, SHIP launched on every ring in RUN or SPLIT,
every output opened for good (R324 steps 2 to 4). -/
def chrysalisStep (x : MC) : MC :=
  let c := x.2
  if c.pw.leaving ≠ .chrysalis ∨ c.pw.held ∨ c.anyCommit then x
  else
    let x := settle 0 (x.1, c.event 0 0x01 0x0111)
    x.on (fun c =>
      let c := { c with pw := { c.pw with held := true, flag := true } }
      let c := (c.dispatched).foldl (fun (c : Ctl) h => forN 32 (fun r (c : Ctl) =>
        if c.ringUp h r then c.launch h r { addr := 0x3FF, cmd := 0x12, post := true } else c) c) c
      forN c.tiles (fun t (c : Ctl) =>
        let c := forN 8 (fun o (c : Ctl) => c.openOut t o) c
        c.setBry t { c.bry t with stopped := true }) c)

/-- CHRYSALIS_INPUT_SWITCH_OPEN: every interface is dead from here on (R324 step 5). -/
def execChrysalisInputSwitchOpen (s : State) : Host.Outcome State Fault Refusal :=
  s.onModuleM (fun m c =>
    if c.pw.leaving ≠ .chrysalis then (m, c)
    else
      let x := chrysalisStep (m, c)
      if ¬ x.2.pw.held then x
      else (powerLost x).on (fun c => { c with pw := { c.pw with mode := .chrysalis, charged := false } }))

/-- WAKE_COMPARATOR_ARM: CHG_DET at or below 16 V for 100 ms (R325). -/
def execWakeComparatorArm (s : State) : Host.Outcome State Fault Refusal :=
  s.onModule (fun c => if c.pw.mode = .chrysalis then { c with pw := { c.pw with armed := true } } else c)

/-- CHRYSALIS_WAKE: CHG_DET held at or above 20 V once armed; the input switch closes through the precharge path, and the
power-up follows at input power good (R325, R497). -/
def execChrysalisWake (s : State) : Host.Outcome State Fault Refusal :=
  s.onModule (fun c =>
    if c.pw.mode = .chrysalis ∧ c.pw.armed then { c with pw := { c.pw with mode := .off, armed := false, charged := false } } else c)

/-! ## Input power (R496, R497) -/

/-- VIN_48_APPLIED: VIN_48 appears on its contacts, and precharge begins. -/
def execVin48Applied (s : State) : Host.Outcome State Fault Refusal :=
  s.onModule (fun c => if c.pw.vin then c else { c with pw := { c.pw with vin := true, charged := false } })

/-- PRECHARGE_COMPLETE: the capacitance is charged, and the input switch closes. -/
def execPrechargeComplete (s : State) : Host.Outcome State Fault Refusal :=
  s.onModule (fun c => if c.pw.mode = .off ∧ c.pw.vin then { c with pw := { c.pw with charged := true } } else c)

/-- INPUT_POWER_GOOD: VIN_48 has been at or above 36 V for 20 ms and EJECT_N high for 100 ms, with the precharge complete. -/
def execInputPowerGood (s : State) : Host.Outcome State Fault Refusal :=
  s.onModuleM (fun m c =>
    if c.pw.mode = .off ∧ c.pw.vin ∧ c.pw.charged ∧ ¬ c.pw.ejectLow then powerUp (m, c) else (m, c))

/-- MODULE_POWER_UP: VIN_48 power good after its absence, whatever came before (R467). -/
def execModulePowerUp (s : State) : Host.Outcome State Fault Refusal := s.onModuleM (fun m c => powerUp (m, c))

/-- VIN_48_DIP: before input power good, below 30 V the precharge starts again; once it holds, a dip acts through the
power-fail warning; VIN_48 off its contacts leaves the module unpowered in every mode (R321, R496, R497). -/
def execVin48Dip (d : VinDip) (s : State) : Host.Outcome State Fault Refusal :=
  s.onModuleM (fun m c =>
    match d with
    | .below34 => (m, c)
    | .below30 => if c.pw.mode = .off then (m, { c with pw := { c.pw with charged := false } }) else (m, c)
    | .removed => (powerLost (m, c)).on (fun c => { c with pw := { c.pw with vin := false, charged := false } }))

/-! ## MRST_N and EJECT_N (R473, R474, R477) -/

/-- MRST_ASSERT: MRST_N low for 1 ms. In Run every tile is held in reset once its tail queue is written out, during the shutdown
of an eject too, which keeps them held; an entry into Standby or Chrysalis runs to its end; in Chrysalis it has no effect. -/
def execMrstAssert (s : State) : Host.Outcome State Fault Refusal :=
  s.onModuleM (fun m c =>
    if c.pw.mrstLow then (m, c)
    else
      let x : MC := (m, { c with pw := { c.pw with mrstLow := true, mrstMs := 0 } })
      if c.pw.mode = .run ∧ c.pw.leaving = .none then resetAll .module tsHeld x
      else if c.pw.mode = .run ∧ c.pw.leaving = .eject ∧ ¬ c.pw.held then
        (resetAll .module tsHeld x).on (fun c => { c with pw := { c.pw with held := true } })
      else x)

/-- MRST_RELEASE: the start-up timeline as a module reset; in Standby the way out with wake cause 3 (R321, R473). -/
def execMrstRelease (s : State) : Host.Outcome State Fault Refusal :=
  s.onModuleM (fun m c =>
    if !c.pw.mrstLow then (m, c)
    else
      let x : MC := (m, { c with pw := { c.pw with mrstLow := false } })
      if c.pw.mode = .run ∧ c.pw.leaving = .none then moduleReset x
      else if c.pw.mode = .standby then standbyExit 3 x
      else x)

/-- EJECT_ASSERT: EJECT_N low for 1 ms; in Run orderly shutdown with cause 7 begins. -/
def execEjectAssert (s : State) : Host.Outcome State Fault Refusal :=
  s.onModuleM (fun m c =>
    if c.pw.ejectLow then (m, c)
    else
      let x : MC := (m, { c with pw := { c.pw with ejectLow := true } })
      if c.pw.mode = .run ∧ c.pw.leaving = .none then shutdownStart 7 .eject x else x)

/-- EJECT_RELEASE_RESTART: EJECT_N high for 100 ms; after step 5 of a shutdown the module starts as after a module reset. -/
def execEjectReleaseRestart (s : State) : Host.Outcome State Fault Refusal :=
  s.onModuleM (fun m c =>
    let x : MC := (m, { c with pw := { c.pw with ejectLow := false } })
    if c.pw.mode = .run ∧ c.pw.leaving = .eject ∧ c.pw.held then moduleReset x else x)

/-! ## Power failure (R478) and the end of a commit (R216, R217, R351) -/

/-- POWER_FAIL_WARNING: every tile starts a commit with cause 4. -/
def execPowerFailWarning (s : State) : Host.Outcome State Fault Refusal :=
  s.onModuleM (fun m c =>
    if c.pw.mode ≠ .run ∨ c.pw.warned then (m, c)
    else
      let c := Ctl.commitAll { c with pw := { c.pw with warned := true, warnDue := true } } 4
      (List.range c.tiles).foldl (fun (x : MC) t => settle t x) (m, c))

/-- The commits of a power-fail warning have ended: operating time stored, event 0x0132 recorded by every tile, tails
written (R478). -/
def warnStep (x : MC) : MC :=
  let c := x.2
  if !c.pw.warnDue || anyN c.tiles (fun t => c.committing t [4, 7]) then x
  else
    let c := { c with pw := { c.pw with warnDue := false } }
    let c := forN c.tiles (fun t (c : Ctl) => if c.running t then c.event t 0x01 0x0132 else c) c.storeOptime
    (List.range c.tiles).foldl (fun (x : MC) t => settle t x) (x.1, c)

/-- POWER_FAIL_WITHDRAWN: PFAIL_N high and VIN_48 at or above 36 V for 100 ms; event 0x0133. -/
def execPowerFailWithdrawn (s : State) : Host.Outcome State Fault Refusal :=
  s.onModule (fun c =>
    if !c.pw.warned then c else Ctl.event { c with pw := { c.pw with warned := false } } 0 0x01 0x0133)

/-- The `lv.backup` requests a tile's commit completes. -/
def Ctl.backupDone (c : Ctl) (t : Nat) : Ctl :=
  let l := c.backups.map (fun b => (b.1, b.2.1, b.2.2.filter (fun h => h != t)))
  let c := { c with backups := l.filter (fun b => !b.2.2.isEmpty) }
  c.completeEach ((l.filter (fun b => b.2.2.isEmpty)).map (fun b => (b.1, b.2.1))) eOk []

/-- LV_COMMIT_COMPLETE: the records of a tile's commit are written, up to a first failing offset; `reach` says whether the
slots of a carried section can be reached (R217, R454). -/
def execLvCommitComplete (t : TileId) (failAt : Option (BitVec 32)) (reach : Bool) (s : State) :
    Host.Outcome State Fault Refusal :=
  s.onTileM t (fun m c =>
    match (c.estOf t).commit with
    | none => (m, c)
    | some (cause, _) =>
      let x := lvCommit m c t (failAt.map (fun a => a.toNat)) reach
      let x : MC := if c.img.stage = .activating && formatsDiffer m 0x20 then (legacyCopy t x.1, x.2) else x
      let x := x.on (fun c =>
        let c := c.backupDone t
        let c := if cause = 4 ∨ cause = 7 then forN 4 (fun k (c : Ctl) => c.sched t k) c else c
        if cause = 3 ∨ cause = 4 ∨ cause = 6 ∨ cause = 7 then c.storeOptime else c)
      warnStep (chrysalisStep x))

end Sys2Proof.Machine
end

