-- ==== Sys2Proof/Machine/Image.lean ====
section
/-! DEFINITION. Machine/Image.lean: the image commands, verify, activation with a pause and rolling, trial, confirmation and
fall-back, and CARRY_CTRL.READY (R440 to R462, R114). -/
namespace Sys2Proof.Machine

/-! ## The staged image (R440 to R443) -/

/-- Whether `n` bytes from `a` are zero. -/
def memZero (m : Mem) (a n : Nat) : Bool := m.all (fun e => !(decide (a ≤ e.1) && decide (e.1 < a + n)))

/-- Step 1 of R444 holds for the image staged at `a`, downloaded with a length of `len` bytes. -/
def imageForm (m : Mem) (a len : Nat) : Bool :=
  let v := mfField m a 12 4
  let o := mfField m a 16 4
  let l := mfField m a 8 4
  let h := a + 0x200
  let vendor := memZero m (a + 0x100) 256
  mfField m a 0 4 == 0x1A6E0C5D && mfField m a 4 2 == 1 && decide (mfField m a 6 1 < 8) && memZero m (a + 7) 1
    && memZero m (a + 0x24) 220 && l == len && l % 16 == 0 && v % 16 == 0 && o % 16 == 0 && l == 0x200 + v + o + 96
    && decide (160 ≤ v) && memNat m h 4 == 0x5A5E7DA1 && memZero m (h + 5) 1 && memZero m (h + 0x12) 2
    && memZero m (h + 0x18) 40
    && (if vendor then o == 0
        else !memZero m (a + 0x100) 8 && memRead m (a + 0x108) == 4 && memZero m (a + 0x169) 7 && memZero m (a + 0x1D0) 48)

/-- Step 2 of R444: the signatures of R443. -/
def imageSigned (m : Mem) (a : Nat) : Bool :=
  let v := mfField m a 12 4
  let l := mfField m a 8 4
  let vendor := memZero m (a + 0x100) 256
  let key := if vendor then Config.vendorKey else memBytes m (a + 0x108) 97
  (vendor || Config.ecdsaP384 Config.vendorKey (memBytes m (a + 0x100) 0x70) (memBytes m (a + 0x170) 96))
    && Config.ecdsaP384 key (memBytes m a (l - 96)) (memBytes m (a + l - 96) 96)
    && Config.ecdsaP384 Config.vendorKey (memBytes m (a + 0x200) (v - 96)) (memBytes m (a + 0x200 + v - 96) 96)

/-- Step 3 of R444 holds: manifest and vendor header agree, and the epoch is not below the lowest allowed. -/
def imageAgrees (m : Mem) (a epochMin : Nat) : Bool :=
  let h := a + 0x200
  let mv := mfField m a 6 1
  let hv := memNat m (h + 4) 1
  memBytes m (a + 0x18) 12 == memBytes m (h + 6) 12 && mv &&& hv == mv && decide (epochMin ≤ mfField m a 0x18 2)

/-- The bit of VARIANTS that names a variant. -/
def Variant.bit : Variant → Nat
  | .skv7282 => 0
  | .skv7284 => 1
  | .skv7288 => 2

/-! ## The checks of R114 -/

/-- Whether a section applies to a tile. -/
def ImgSec.on (x : ImgSec) (t : Nat) : Bool := bit x.tiles t

/-- Whether two extents overlap. -/
def extentsMeet (a n b k : Nat) : Bool := decide (a < b + k) && decide (b < a + n) && decide (0 < n) && decide (0 < k)

/-- Whether two sections load overlapping bytes on some fitted tile. -/
def ImgSec.clashes (x y : ImgSec) (tiles : Nat) : Bool :=
  anyN tiles (fun t => x.on t && y.on t)
    && ((x.isLocal && y.isLocal && anyN 4 (fun k => bit x.cores k && bit y.cores k)) || (x.kind == 4 && y.kind == 4))
    && extentsMeet x.load x.size y.load y.size

/-- Whether some pair of a list has a relation. -/
def anyPair {α : Type} (f : α → α → Bool) : List α → Bool
  | [] => false
  | x :: r => r.any (f x) || anyPair f r

/-- Whether the local sections of a level load a core of a tile. -/
def coreHas (l : List ImgSec) (t k level : Nat) : Bool :=
  l.any (fun s => s.isLocal && s.on t && bit s.cores k && (s.level == 1) == (level == 1))

/-- Whether an entry of a section names a task on a core whose level differs from the section's. -/
def levelDiffers (l : List ImgSec) (tiles : Nat) (s : ImgSec) (task : Nat) : Bool :=
  anyN tiles (fun t => s.on t && coreHas l t (task / 64) 1 != (s.level == 1))

/-- Whether the levels of cores and sections disagree. -/
def levelsBad (m : Mem) (l : List ImgSec) (tiles : Nat) : Bool :=
  anyN tiles (fun t => !coreHas l t 0 1 || anyN 4 (fun k => coreHas l t k 0 && coreHas l t k 1))
    || l.any (fun s => (s.kind == 5 && (s.tasks m).any (fun e => levelDiffers l tiles s e.idx))
      || (s.kind == 6 && (s.routes m).any (fun e => levelDiffers l tiles s e.task)))

/-- Whether some tile has no System task entry for slot 0 of core 0. -/
def noTrapTask (m : Mem) (l : List ImgSec) (tiles : Nat) : Bool :=
  anyN tiles (fun t => !l.any (fun s => s.kind == 5 && s.on t && s.level == 1 && (s.tasks m).any (fun e => e.idx == 0)))

/-- Whether an entry or a route would be rejected if written to the CASDA block (R78, R81, R84). A KIND above 2 and a number
its bank does not hold are refused with the same code, E_RANGE (DESIGN CHOICE, assumption 83). -/
def entriesBad (m : Mem) (l : List ImgSec) (tiles : Nat) : Bool :=
  let tasks := l.filter (fun s => s.kind == 5)
  tasks.any (fun s => (s.tasks m).any (fun e => e.prio == 0 && e.cost != 0))
    || (l.filter (fun s => s.kind == 6)).any (fun s => (s.routes m).any (fun r =>
      (r.kind == 2 && ((decide (1 ≤ r.period) && decide (r.period < 10)) || decide (60000000 < r.period)))
        || ((r.kind == 0 || r.kind == 2) && bit r.flags 1 && anyN tiles (fun t => s.on t
          && !tasks.any (fun x => x.on t && (x.tasks m).any (fun e => e.idx == r.task && e.prio == 0 && e.cost == 0))))
        || decide (2 < r.kind) || (r.kind == 0 && decide (63 < r.num)) || (r.kind == 1 && decide (15 < r.num))
        || (r.kind == 2 && decide (3 < r.num))))

/-- The code of R114 for the section areas of the image at `a`. -/
def sectionsCode (m : Mem) (a tiles : Nat) : Nat :=
  let p := imageSecs m a
  let l := p.1.1 ++ p.2.1
  firstErr [
    (!p.1.2 || !p.2.2 || l.any (fun s => !s.good || (decide (6 < s.kind) && s.kind != 15)), eFormat),
    (l.any (fun s => s.load % 16 != 0 || s.size % 16 != 0 || (s.isLocal && decide (0x40000 < s.load + s.size))), eFormat),
    (l.any (fun s => s.kind == 4 && (decide (s.load < 0x80000000) || decide (0x100000000 < s.load + s.size))), eFormat),
    (anyPair (fun x y => x.clashes y tiles) l, eFormat),
    (levelsBad m l tiles, eFormat),
    (noTrapTask m l tiles, eFormat),
    (entriesBad m l tiles, eRange),
    (l.any (fun s => s.crc != crc32c 0xFFFFFFFF (memBytes m s.addr s.payload)), eIntegrity),
    (p.2.1.any (fun s => s.level == 1), eAuth)]

/-- Steps 1 to 5 of R444: the code and the step of the first failure. -/
def verifyCode (m : Mem) (c : Ctl) : Nat × Nat :=
  let a := stageAddr
  if !imageForm m a c.img.len then (eFormat, 1)
  else if !imageSigned m a then (eAuth, 2)
  else if !imageAgrees m a c.img.boot.epochMin then (eAuth, 3)
  else if !bit (mfField m a 6 1) c.unit.variant.bit || decide (c.unit.bootVer < mfField m a 0x1A 2) then (eNotsup, 4)
  else (sectionsCode m a c.tiles, 5)

/-! ## Download and verify (R448, R449) -/

/-- The code of a failed image command or check stays in LAST_CODE (R465). -/
def Eff.imaged (e : Eff) : Eff :=
  if e.status = eOk then e else { e with ctl := e.ctl.put 0 IMG_STATUS_LAST_CODE e.status }

/-- The code of a failed image check. -/
def Ctl.imgCode (c : Ctl) (code : Nat) : Ctl := c.put 0 IMG_STATUS_LAST_CODE code

/-- IMG_BEGIN: `img.begin`. -/
def execImgBegin (d : Datagram) (s : State) : Host.Outcome State Fault Refusal :=
  s.cmd 0xB001 d (fun q m c => (guarded q engRoles 4 m c (
    let len := q.arg 0 4
    let st := c.img.stage
    let e := firstErr [(decide (len < 1024) || decide (33554432 < len) || len % 16 != 0, eRange),
      (st == .activating || st == .trial || st == .fallback, eState), (st == .verify, eBusy)]
    if e ≠ eOk then .err m c e
    else
      let c := { c with img := { c.img with len := len, granules := [] } }
      { mem := memClear m stageAddr 33554432, ctl := (c.setStage .download).event 0 0x0E 0xB001 0 (leBytes 4 len) })).imaged)

/-- IMG_CHUNK: `img.chunk`; the handle is consumed whatever the outcome (R370). -/
def execImgChunk (d : Datagram) (s : State) : Host.Outcome State Fault Refusal :=
  s.cmd 0xB002 d (fun q m c => Eff.names (q := q) (pos := 4) (guarded q engRoles 5 m c (
    let x := c.takeBulk q (q.arg 4 1)
    let b := x.2.1
    let c := x.2.2
    if x.1 ≠ eOk then .err m c x.1
    else
      let off := q.arg 0 4
      let stop := off + b.length
      let now := c.img.stage == .download
      let e := firstErr [
        (off % 1024 != 0 || (now && (decide (c.img.len < stop) || (b.length % 1024 != 0 && stop != c.img.len))), eRange),
        (!now, eState)]
      if e ≠ eOk then .err m c e
      else
        let g := (List.range ((b.length + 1023) / 1024)).map (fun i => off / 1024 + i)
        { mem := memStore m (stageAddr + off) b
          ctl := { c with img := { c.img with granules := c.img.granules ++ g.filter (fun i => !c.img.granules.contains i) } } })).imaged)

/-- IMG_VERIFY: `img.verify`; the response follows completion. -/
def execImgVerify (d : Datagram) (s : State) : Host.Outcome State Fault Refusal :=
  s.cmd 0xB003 d (fun q m c => (guarded q engRoles 0 m c (
    if c.img.stage ≠ .download ∨ c.img.granules.length < (c.img.len + 1023) / 1024 then .err m c eState
    else
      { mem := m, later := true
        ctl := Ctl.setStage { c with img := { c.img with reply := some (q.id, q.seq) } } .verify })).imaged)

/-- The response of the `img.verify` that waits. -/
def Ctl.verifyReply (c : Ctl) (code : Nat) : Ctl :=
  match c.img.reply with
  | none => c
  | some (id, seq) => Ctl.complete { c with img := { c.img with reply := none } } id seq code []

/-- Verify ends with a code at a step. -/
def Ctl.verifyFails (c : Ctl) (code step : Nat) : Ctl :=
  (((c.imgCode code).setStage .idle).event 0 0x0E 0xB003 0 (leBytes 1 code ++ leBytes 1 step)).verifyReply code

/-- IMG_VERIFY_DONE: the checks of R444 in their order, then the programming of the inactive bank of every fitted tile, whose
read-back matches if `programOk`; a bank not programmed to its end holds an open part of the image. -/
def execImgVerifyDone (programOk : Bool) (s : State) : Host.Outcome State Fault Refusal :=
  s.onModuleM (fun m c =>
    if c.img.stage ≠ .verify then (m, c)
    else
      let v := verifyCode m c
      if v.1 ≠ eOk then (m, c.verifyFails v.1 v.2)
      else
        let b := c.inactive
        let c := c.writeBoot (c.img.boot.with b .empty)
        let w := c.free
        let n := if programOk then c.img.len else w.1 % (c.img.len + 1)
        let c := if programOk then c else w.2
        let m' := (List.range c.tiles).foldl (fun m' t => memCopy m' stageAddr (bankAddr t b) n) m
        if !programOk then (m', c.verifyFails eIntegrity 6)
        else
          let d := Config.sha384 (memBytes m stageAddr c.img.len)
          let r := c.img.boot.with b .verified
          let c := c.writeBoot (if b then { r with digestB := d } else { r with digestA := d })
          (m', ((c.setStage .verified).event 0 0x0E 0xB002 0 (leBytes 4 (mfField m stageAddr 0x14 4))).verifyReply eOk))

/-! ## Activation (R450, R451, R456) -/

/-- Whether a carry is under way anywhere. -/
def Ctl.carrying (c : Ctl) : Bool := c.hasCarry && anyN c.tiles (fun t => c.carry t != csNone && c.carry t != csUnserved)

/-- The checks of `img.activate` on state and images (R449). -/
def activateCode (m : Mem) (c : Ctl) (mode : Nat) : Nat :=
  let native := mode == 0 && c.hasCarry
  let f : Nat → Bool → Nat := fun off b => mfField m (bankAddr 0 b) off 2
  let least := if f 0x1C false < f 0x1C true then f 0x1C false else f 0x1C true
  let most := if f 0x1E false < f 0x1E true then f 0x1E true else f 0x1E false
  firstErr [(decide (1 < mode), eRange),
    (c.img.stage != .verified || anyN c.tiles (fun t => c.tileState t == tsFault || c.tileState t == tsHeld), eState),
    (native && anyN c.tiles (fun t => !c.running (partner t)), eState),
    (native && decide (least < most), eConflict),
    (!banksOk m c c.inactive, eIntegrity),
    (c.carrying || c.get 0 SMP_FRAME_CFG_NEXT != 0
      || anyN c.tiles (fun t => anyN 32 (fun r => c.get t RING_STATUS_STATE r == rgEnum) || c.committing t [4, 7]), eBusy)]

/-- The boot record as a trial of bank `b` begins, with the format flags (R450, R456, R462). -/
def trialRecord (m : Mem) (c : Ctl) (b rolling : Bool) : BootRecord :=
  { c.img.boot.with b .trial with
    pending := !rolling, rolling := rolling, attempts := if rolling then c.img.boot.attempts else 1
    legacyLv := formatsDiffer m 0x20, legacyCfg := formatsDiffer m 0x22 }

/-- The boot record written as a trial begins; the settings as they stand are remembered where the configuration formats
differ. -/
def Ctl.beginTrialRecord (c : Ctl) (m : Mem) (rolling : Bool) : Ctl :=
  let c := c.writeBoot (trialRecord m c c.inactive rolling)
  if c.img.boot.legacyCfg then
    let c := forN c.tiles (fun t (c : Ctl) => c.saveConfig t) c
    { c with img := { c.img with cfgTrial := c.store } }
  else c

/-- IMG_ACTIVATE: `img.activate`, with its pre-check; then a commit of every tile, or the rolling steps. -/
def execImgActivate (d : Datagram) (s : State) : Host.Outcome State Fault Refusal :=
  s.cmd 0xB004 d (fun q m c => (guarded q engRoles 1 m c (
    let mode := q.arg 0 1
    let e := activateCode m c mode
    if e ≠ eOk then .err m c e
    else
      let pause := mode == 1 || !c.hasCarry
      let c := { c with img := { c.img with byPause := pause, commits := pause, revert := false, rollTile := none
                                            rollBack := false, legacyRead := false } }
      let c := ((c.inc 0 IMG_COUNT_ACTIVATE).setStage .activating).event 0 0x0E 0xB004 0 (leBytes 1 mode)
      { mem := m, ctl := if pause then c.commitAll 5 else c.beginTrialRecord m true })).imaged)

/-- ACTIVATION_COMMITS_DONE: the commits of step 2 of R450 are complete, and the boot record is written. -/
def execActivationCommitsDone (s : State) : Host.Outcome State Fault Refusal :=
  s.onModuleM (fun m c =>
    if c.img.stage ≠ .activating ∨ ¬ c.img.commits ∨ c.anyCommit then (m, c)
    else (m, Ctl.beginTrialRecord { c with img := { c.img with commits := false } } m false))

/-- The bank that the restarts under way lead to: the confirmed one on the way back. -/
def Ctl.targetBank (c : Ctl) : Bool := if c.img.revert || c.img.rollBack then c.confirmed else c.inactive

/-- Bank B run by a tile, or bank A. -/
def Ctl.setBank (c : Ctl) (t : Nat) (b : Bool) : Ctl :=
  let l := c.img.onB.filter (fun x => x != t)
  { c with img := { c.img with onB := if b then t :: l else l } }

/-- A tile restarts on a bank with TILE_RESET_CAUSE.IMAGE; learned values of another format are restored (R451, R462). A
tile that is not up takes the bank at its next boot. -/
def imageRestart (t : Nat) (b : Bool) (x : MC) : MC :=
  let c := x.2.setBank t b
  if !c.live t then (x.1, c)
  else
    let c := (c.resetTile t .image).put t TILE_RESET_CAUSE_IMAGE 1
    let y := loadImage t b (x.1, c)
    y.on (fun c =>
      let e := c.estOf t
      let back := b == c.confirmed
      if back && c.img.legacyRead then c.setEst t { e with reload := some 1 }
      else if !back && c.img.boot.legacyLv then c.setEst t { e with reload := some 0 }
      else c)

/-- The confirm window starts, and each tile's self-check is open (R459, R460). -/
def Ctl.startTrial (c : Ctl) : Ctl :=
  let c := forN c.tiles (fun t (c : Ctl) => (c.put t IMG_STATUS_SELF_OK 0).put t IMG_STATUS_SELF_FAIL 0) c
  ((c.rephase 0 33).put 0 IMG_CONFIRM_REMAIN_S (c.get 0 IMG_CFG_CONFIRM_S)).setStage .trial

/-- Whether a section is carried for an image, so that its tile is handed back before a pause (R457). -/
def Ctl.imageCarry (c : Ctl) : Bool :=
  c.hasCarry && anyN c.tiles (fun t => (c.carry t == csHandover || c.carry t == csCarried || c.carry t == csHandback)
    && c.get t CARRY_STATUS_CAUSE == 1)

/-- Whether the pause of an activation, a fall-back or an abandonment begins at the next frame instant; a tile carried for an
image is handed back first, one that has faulted is not waited for (R450, R457, R461). -/
def Ctl.pauseDue (c : Ctl) : Bool :=
  !c.img.paused && !c.imageCarry
    && (c.img.revert || (c.img.stage == .activating && !c.img.commits && c.img.boot.pending && !c.img.boot.rolling))

/-- The pause ends: every tile restarts on the target bank where it does not run it, and the stage follows (R450, R457,
R461). -/
def pauseEnd (x : MC) : MC :=
  let b := x.2.targetBank
  let back := x.2.img.revert
  let x := x.on (fun c => { c with img := { c.img with paused := false } })
  let x := (List.range x.2.tiles).foldl (fun (x : MC) t =>
    if back && x.2.img.onB.contains t == b then x.on (fun c => c.runOn t) else imageRestart t b x) x
  x.on (fun c =>
    let c := { c with img := { c.img with revert := false } }
    if back then (if c.img.stage = .fallback then c.setStage .idle else c)
    else forN c.tiles (fun t (c : Ctl) => c.event t 0x0E 0xB005 0 (leBytes 1 t)) c.startTrial)

/-- The tile of a rolling step that is carried has restarted on the bank (R456). -/
def stepRestarted (x : MC) : MC :=
  match x.2.img.rollTile with
  | none => x
  | some t =>
    let b := x.2.targetBank
    if x.2.carry t ≠ csCarried ∨ x.2.img.onB.contains t = b then x
    else
      (imageRestart t b x).on (fun c =>
        if c.img.rollBack then c else c.event (c.recorderOf t) 0x0E 0xB005 0 (leBytes 1 t))

/-! ## Rolling steps (R456, R457) -/

/-- Whether rolling restarts are under way, forward or back. -/
def Ctl.rolling (c : Ctl) : Bool :=
  (c.img.stage == .activating && c.img.boot.rolling) || (c.img.stage == .fallback && c.img.rollBack)

/-- The next tile of the order 7 to 0 that does not run the target bank. -/
def Ctl.nextRoll (c : Ctl) : Option Nat :=
  (List.range c.tiles).reverse.find? (fun t => c.img.onB.contains t != c.targetBank)

/-- ROLLING_STEP_START: the next tile starts its commit. -/
def execRollingStepStart (s : State) : Host.Outcome State Fault Refusal :=
  s.onModule (fun c =>
    if !c.rolling || c.img.rollTile.isSome then c
    else
      match c.nextRoll with
      | none => c
      | some t => Ctl.startCommit { c with img := { c.img with rollTile := some t } } t 5 none)

/-- The tile of a rolling step has its section back: the next step may start, or the trial, or the fall-back's end (R456). -/
def Ctl.rollTaken (c : Ctl) (m : Mem) (t : Nat) : Ctl :=
  if c.img.rollTile ≠ some t then c
  else
    let c := { c with img := { c.img with rollTile := none } }
    if c.nextRoll.isSome || !c.rolling then c
    else if c.img.rollBack then Ctl.setStage { c with img := { c.img with rollBack := false } } .idle
    else
      Ctl.startTrial (c.writeBoot { trialRecord m c c.inactive false with
        legacyLv := c.img.boot.legacyLv, legacyCfg := c.img.boot.legacyCfg })

/-- ROLLING_STEP_TIMEOUT: a step exceeds its bound, and the activation is abandoned; on the way back the tiles left restart
with a pause. -/
def execRollingStepTimeout (s : State) : Host.Outcome State Fault Refusal :=
  s.onModule (fun c =>
    if c.img.rollTile.isNone then c
    else if c.img.rollBack then { c with img := { c.img with rollTile := none, rollBack := false, revert := true } }
    else c.abandonRolling)

/-! ## Confirmation and fall-back (R445, R459 to R461) -/

/-- Whether every fitted tile has SELF_OK. -/
def Ctl.allOk (c : Ctl) : Bool := (List.range c.tiles).all (fun t => c.flag t IMG_STATUS_SELF_OK)

/-- Why a trial cannot be confirmed. -/
def Ctl.confirmCode (c : Ctl) : Nat := if c.img.stage ≠ .trial ∨ ¬ c.allOk then eState else eOk

/-- The trial is confirmed. -/
def Ctl.confirm (c : Ctl) (m : Mem) : Ctl :=
  let b := c.inactive
  let a := bankAddr 0 b
  let epoch := mfField m a 0x18 2
  let low := if c.img.boot.epochMin < epoch then epoch else c.img.boot.epochMin
  let old : BankState := if mfField m (bankAddr 0 (!b)) 0x18 2 < low then .empty else .verified
  let r := { ((c.img.boot.with b .confirmed).with (!b) old) with
    pending := false, legacyLv := false, legacyCfg := false, attempts := 0, epochMin := low }
  let c := { c.writeBoot r with img := { (c.writeBoot r).img with cfgTrial := [] } }
  ((c.setStage .idle).put 0 IMG_CONFIRM_REMAIN_S 0).event 0 0x0E 0xB007 0 (leBytes 4 (mfField m a 0x14 4) ++ leBytes 2 low)

/-- IMG_CONFIRM: `img.confirm`. -/
def execImgConfirm (d : Datagram) (s : State) : Host.Outcome State Fault Refusal :=
  s.cmd 0xB005 d (fun q m c => (guarded q engRoles 0 m c (
    if c.confirmCode ≠ eOk then .err m c c.confirmCode else { mem := m, ctl := c.confirm m })).imaged)

/-- A write of IMG_CTRL: CONFIRM acts as `img.confirm` (R465). -/
def imgCtrlWrite (m : Mem) (c : Ctl) (o : Origin) (w : Nat) : MC × Nat :=
  if !c.isSystem o then ((m, c.violate o (modAddr 0 0x2000E0028) true), eOk)
  else if w % 2 = 0 then ((m, c), eOk)
  else if c.confirmCode ≠ eOk then ((m, c.imgCode c.confirmCode), c.confirmCode)
  else ((m, c.confirm m), eOk)

/-- IMG_CTRL_CONFIRM: a write of IMG_CTRL.CONFIRM. -/
def execImgCtrlConfirm (o : Origin) (s : State) : Host.Outcome State Fault Refusal :=
  s.onAccessM o (fun m c => accessM m c o 0 0x0E (fun m c => imgCtrlWrite m c o 1))

/-- With AUTO_CONFIRM set the System layer confirms once every fitted tile has SELF_OK. -/
def Ctl.autoConfirm (c : Ctl) (m : Mem) : Ctl :=
  if c.flag 0 IMG_CFG_AUTO_CONFIRM && c.confirmCode == eOk then c.confirm m else c

/-- A fall-back with cause 0 or 1: the boot record first, then back by the method of the activation. -/
def Ctl.imgFallBack (c : Ctl) (cause : Nat) : Ctl :=
  let c := c.writeBoot { c.img.boot.untrial with pending := false }
  let c := (c.inc 0 IMG_COUNT_FALLBACK).event 0 0x0E 0xB008 0 (leBytes 1 cause)
  let c := c.legacyBack
  let pause := c.img.byPause || anyN c.tiles (fun t => !c.running (partner t))
  let c := { c with img := { c.img with
    revert := pause, rollBack := !pause, rollTile := none, legacyRead := c.img.boot.legacyLv } }
  (c.setStage .fallback).put 0 IMG_CONFIRM_REMAIN_S 0

/-- A write of IMG_SELFCHECK of a tile (R459, R465). -/
def selfcheckWrite (m : Mem) (c : Ctl) (o : Origin) (t w : Nat) : MC × Nat :=
  if !c.isSystem o then ((m, c.violate o (modAddr t 0x2000E0024) true), eOk)
  else if c.img.stage ≠ .trial ∨ c.flag t IMG_STATUS_SELF_OK ∨ c.flag t IMG_STATUS_SELF_FAIL then ((m, c), eState)
  else
    let c := if bit w 0 then c.put t IMG_STATUS_SELF_OK 1 else c
    if bit w 1 then ((m, ((c.put t IMG_STATUS_SELF_FAIL 1).event t 0x0E 0xB006 0 (leBytes 1 t)).imgFallBack 1), eOk)
    else ((m, c.autoConfirm m), eOk)

/-- SELFCHECK_PASS: a write of PASS. -/
def execSelfcheckPass (t : TileId) (o : Origin) (s : State) : Host.Outcome State Fault Refusal :=
  s.onAccessM o (fun m c => accessM m c o t 0x0E (fun m c => selfcheckWrite m c o t 1))

/-- SELFCHECK_FAIL: a write of FAIL. -/
def execSelfcheckFail (t : TileId) (o : Origin) (s : State) : Host.Outcome State Fault Refusal :=
  s.onAccessM o (fun m c => accessM m c o t 0x0E (fun m c => selfcheckWrite m c o t 2))

/-- CONFIRM_WINDOW_EXPIRY: the confirm window has passed. -/
def execConfirmWindowExpiry (s : State) : Host.Outcome State Fault Refusal :=
  s.onModule (fun c => if c.img.stage = .trial then c.imgFallBack 0 else c)

/-! ## READY (R455, R466, R486) -/

/-- A write of CARRY_CTRL of a tile: AUTO, and READY from System of a tile that is CARRIED. -/
def carryCtrlWrite (c : Ctl) (o : Origin) (t w : Nat) : Ctl × Nat :=
  if !c.hasCarry then (c, eOk)
  else if !c.mayConfig o then (c.violate o (modAddr t 0x2000F0004) true, eOk)
  else if bit w 0 && !c.isSystem o then (c.violate o (modAddr t 0x2000F0004) true, eOk)
  else if bit w 0 && c.tileState t != tsCarried then (c, eState)
  else
    let c := c.put t CARRY_CTRL_AUTO (bitsOf w 31 1)
    (if bit w 0 && !c.readySet.contains t then { c with readySet := t :: c.readySet } else c, eOk)

/-- CARRY_READY_WRITE: a write that sets READY and leaves AUTO. -/
def execCarryReadyWrite (t : TileId) (o : Origin) (s : State) : Host.Outcome State Fault Refusal :=
  s.onAccess o (fun c => c.access o t 0x0F (fun c => carryCtrlWrite c o t (c.get t CARRY_CTRL_AUTO * 2 ^ 31 + 1)))

end Sys2Proof.Machine
end

