-- ==== Sys2Proof/Machine/TwoWire.lean ====
section
/-! DEFINITION. Machine/TwoWire.lean: the two-wire block of tile 0: target transfers over the side-band space, its commands, the
first role keys, the event window, and the controller role (R395 to R413, R438). -/
namespace Sys2Proof.Machine

/-- Whether the block is powered (R319, R324). -/
def Ctl.twbOn (c : Ctl) : Bool := c.pw.mode == .run || c.pw.mode == .standby

/-- Main side down: in Run while tile 0 is not in RUN (R403). -/
def Ctl.mainDown (c : Ctl) : Bool := c.pw.mode == .run && !c.running 0

/-- The origin of a side-band access: Management, with SESSION 0 (R402). -/
abbrev sideOrigin : Origin := .host .management 0

/-- A flag of TWB_IRQ set; it raises source 0x35 when it becomes set (R413). -/
def Ctl.twbIrq (c : Ctl) (F : Field) : Ctl := if c.flag 0 F then c else (c.put 0 F 1).irq 0 0x35

/-! ## Areas of the side-band space (R403) -/

/-- An area of the side-band space. -/
inductive SideArea where
  | status | request | result | key | event | none
deriving DecidableEq, Repr

/-- The area of a pointer. -/
def sideArea (p : Nat) : SideArea :=
  if p < 0x40 then .status
  else if p < 0x100 then .none
  else if p < 0x200 then .request
  else if p < 0x300 then .result
  else if p < 0x340 then .key
  else if p < 0x400 then .none
  else if p < 0x500 then .event
  else .none

/-- Whether an area is available. -/
def Ctl.sideOpen (c : Ctl) : SideArea → Bool
  | .key => c.pw.mode == .run && !c.mainDown
  | .event => c.pw.mode == .run
  | _ => true

/-! ## Reads (R399, R401, R404, R438) -/

/-- The status page as its sources stand. -/
def Ctl.statusPage (c : Ctl) : List Byte :=
  let st := if c.pw.mode = .standby then 0 else (List.range c.tiles).foldl (fun n t => n + c.tileState t * 16 ^ t) 0
  leBytes 2 (match c.unit.variant with | .skv7282 => 0x7282 | .skv7284 => 0x7284 | .skv7288 => 0x7288) ++ leBytes 2 0x5C0A
    ++ leBytes 1 c.unit.die ++ leBytes 3 c.unit.package ++ leBytes 8 c.unit.uid
    ++ leBytes 1 (b2n (c.pw.mode == .standby)) ++ leBytes 1 (c.get 0 PWR_WAKE_CAUSE)
    ++ leBytes 2 (2 * b2n c.mainDown + b2n c.pw.mrstLow) ++ leBytes 4 c.pw.mrstMs ++ leBytes 4 st
    ++ leBytes 1 (maskN 8 (fun t => decide (t < c.tiles))) ++ leBytes 3 (maskN 8 (fun t => c.running t))
    ++ leBytes 4 c.holdBits ++ leBytes 4 (c.get 0 TIME_AON_SEC) ++ leBytes 4 (c.get 0 TIME_PCYCLE_COUNT)
    ++ leBytes 2 c.twb.lastWr ++ leBytes 2 c.twb.wrCount
    ++ ((List.range 8).map (fun t => leBytes 1 (c.get t BERYL_STATUS_ON) ++ leBytes 1 (c.get t BERYL_STATUS_LOCKOUT))).flatten

/-- The record of a tile with a sequence number as the event window reads it: from the tail while the main side is down. -/
def Ctl.sideRecord (c : Ctl) (m : Mem) (q : Nat) : Option (List Byte) :=
  let t := c.twb.evTile
  let a := if c.mainDown then tailAddr t q else ringAddr t q
  if intact m a && memNat m a 4 == q then some (memBytes m a 64) else none

/-- The first sequence number the window shows: FIRST, or the oldest present of the newest three. -/
def Ctl.sideFirst (c : Ctl) (m : Mem) : Nat :=
  if c.twb.evFirst ≠ 0xFFFFFFFF then c.twb.evFirst
  else
    let top := if c.mainDown then (newestSeq m c.twb.evTile).getD 0xFFFFFFFF else (c.get c.twb.evTile EVT_SEQ_SEQ + 0xFFFFFFFF) % 2 ^ 32
    let l := [2, 1, 0].map (fun d => (top + 2 ^ 32 - d) % 2 ^ 32)
    (l.find? (fun q => (c.sideRecord m q).isSome)).getD ((top + 0xFFFFFFFE) % 2 ^ 32)

/-- The event window. -/
def Ctl.eventWindow (c : Ctl) (m : Mem) : List Byte :=
  let first := c.sideFirst m
  let l := [0, 1, 2].map (fun d => c.sideRecord m ((first + d) % 2 ^ 32))
  let n := (l.takeWhile (fun r => r.isSome)).length
  leBytes 1 c.twb.evTile ++ leBytes 1 n ++ leBytes 2 0 ++ leBytes 4 c.twb.evFirst ++ List.replicate 56 0
    ++ (l.map (fun r => r.getD (List.replicate 64 0))).flatten

/-- The bytes of an area from its first pointer on. -/
def Ctl.sideBytes (c : Ctl) (m : Mem) : SideArea → List Byte
  | .status => c.twb.page
  | .request => leBytes 1 0 ++ leBytes 1 c.twb.state ++ leBytes 2 c.twb.code ++ (List.range 252).map (fun i => tabGet 0 c.twb.req (4 + i))
  | .result => beBytes 2 c.twb.res.length ++ c.twb.res
  | .key => List.replicate 40 0 ++ leBytes 1 (maskN 4 (fun r => (tabFind c.net.keys r).isSome)) ++ leBytes 1 c.twb.keyRes
  | .event => c.eventWindow m
  | .none => []

/-- The pointer at which an area begins. -/
def SideArea.base : SideArea → Nat
  | .status => 0
  | .request => 0x100
  | .result => 0x200
  | .key => 0x300
  | .event => 0x400
  | .none => 0

/-- One byte of the side-band space; every byte of one read comes from one instant. -/
def Ctl.sideByte (c : Ctl) (m : Mem) (p : Nat) : Byte :=
  let a := sideArea p
  if c.sideOpen a then (c.sideBytes m a).getD (p - a.base) 0 else 0

/-- The end of a transfer on the bus: a STOP frees it and clears STUCK; after a repeated START it stays busy (R398, R409). -/
def Ctl.busAfter (c : Ctl) (stop : Bool) : Ctl :=
  if stop then (c.put 0 TWB_STATUS_BUS_BUSY 0).put 0 TWB_STATUS_STUCK 0 else c.put 0 TWB_STATUS_BUS_BUSY 1

/-- TWB_TARGET_READ: `n` bytes from the pointer, across pages. -/
def execTwbTargetRead (x : TargetRead) (s : State) : Host.Outcome State Fault Refusal :=
  s.onModuleM (fun m c =>
    if !c.twbOn then (m, c)
    else
      let out := (List.range x.n.toNat).map (fun i => c.sideByte m ((c.twb.ptr + i) % 65536))
      let c := c.busAfter x.stop
      (m, { c with twb := { c.twb with out := out, ptr := (c.twb.ptr + x.n.toNat) % 65536 } }))

/-- TWB_STATUS_REFRESH: every 1 ms the status page is copied from its sources. The length of an assertion of MRST_N and, while
tile 0 is down, the always-on seconds and operating time are counted here (R404; assumption 27). -/
def execTwbStatusRefresh (s : State) : Host.Outcome State Fault Refusal :=
  s.onModule (fun c =>
    if !c.twbOn then c
    else
      let p := c.pw
      let ms := if p.mrstLow then satAdd 32 p.mrstMs 1 else p.mrstMs
      let aon := if c.live 0 then p.aonMs else p.aonMs + 1
      let c := if 1000 ≤ aon then c.incMod 0 TIME_AON_SEC else c
      let c := { c with pw := { c.pw with mrstMs := ms, aonMs := aon % 1000 }
                        optime := if c.live 0 then c.optime else satAdd 48 c.optime 1 }
      { c with twb := { c.twb with page := c.statusPage } })

/-! ## Side-band commands (R405, R406) -/

/-- The effect of `sb.ip4`; it takes effect 100 ms later (R377). -/
def sbIp4 (q : Req) (m : Mem) (c : Ctl) : Eff :=
  let p := q.arg 0 1
  let e := firstErr [(q.args.length != 10, eFormat), (decide (1 < p) || decide (q.arg 5 1 < 8) || decide (30 < q.arg 5 1), eRange)]
  if e ≠ eOk then .err m c e
  else
    let l := [(NET_P_IP4_ADDR, q.arg 1 4), (NET_P_IP4_PREFIX, q.arg 5 1), (NET_P_IP4_GW, q.arg 6 4), (NET_P_IP4_EN, 1)]
    let c := l.foldl (fun (c : Ctl) (e : Field × Nat) => c.put 0 e.1 e.2 p) c
    { mem := m, ctl := { c with net := { c.net with
        ipPending := l.foldl (fun (a : Tab Nat) (e : Field × Nat) => tabSet a (e.1.key 0 p 0) e.2) c.net.ipPending } } }

/-- The effect of `sb.module_reset`: an assertion and release of MRST_N. -/
def sbModuleReset (q : Req) (m : Mem) (c : Ctl) : Eff :=
  let e := firstErr [(!q.args.isEmpty, eFormat), (c.pw.mrstLow, eState)]
  if e ≠ eOk then .err m c e
  else
    let x : MC := if c.pw.mode = .standby then standbyExit 3 (m, c)
      else if c.pw.mode = .run ∧ c.pw.leaving = .none then moduleReset (m, c) else (m, c)
    { mem := x.1, ctl := x.2 }

/-- Codes of R366 that the Management role may not issue. -/
def chpCodes : List Nat :=
  [0x0002, 0x1001, 0x1002, 0x1003, 0x1004, 0x1010, 0x2001, 0x2003, 0x2011, 0x3001, 0x3002, 0x3003, 0x4004, 0x5001, 0x6001,
   0x6002, 0x7001, 0x7002, 0x7003, 0x7004, 0x7005, 0x7006, 0x7007, 0xB001, 0xB003, 0xB004, 0xB005]

/-- Codes of commands that take a bulk handle, with the length of their arguments. -/
def bulkCodes : List (Nat × Nat) := [(0x2002, 3), (0x4003, 1), (0xB002, 5)]

/-- The effect of a side-band command of a code that the Management role may issue; none for every other code. -/
def sideOwn (code : Nat) (q : Req) (m : Mem) (c : Ctl) : Option Eff :=
  if code = 0x9002 then some (sbModuleReset q m c)
  else if code = 0x0003 then some (modeRun q m c)
  else if code = 0x0001 then some (modeStandby q m c)
  else if code = 0x2010 then some (lvBackup q m c)
  else if code = 0x4001 then some (bankSetpoint q m c)
  else if code = 0x4002 then some (dispModeCmd q m c)
  else if code = 0x9001 then some (sbIp4 q m c)
  else none

/-- Whether a code is refused with E_STATE: every one once Chrysalis is being entered, all but the recovery commands in
Standby and while the main side is down (R324, R406). -/
def Ctl.sideShut (c : Ctl) (code : Nat) : Bool :=
  c.pw.leaving == .chrysalis || ((c.pw.mode == .standby || c.mainDown) && code != 0x9002 && code != 0x0003)

/-- Codes of the checks that come before those of the state (R46). -/
def earlyCodes : List Nat := [eFormat, eAbsent, eNotsup, eRange]

/-- The effect of the side-band command of a code: privilege, format, existence, support and range come before the state
(R46, R402, R405, R406). -/
def sideEffect (code : Nat) (q : Req) (m : Mem) (c : Ctl) : Eff :=
  match sideOwn code q m c with
  | some e => if !e.denied && c.sideShut code && !earlyCodes.contains e.status then .err m c eState else e
  | none =>
    if bulkCodes.any (fun b => b.1 == code) then
      .err m c (if bulkCodes.contains (code, q.args.length) then eNotsup else eFormat)
    else if chpCodes.contains code then { mem := m, ctl := c.violate sideOrigin 0 true }
    else .err m c eFormat

/-- A big-endian number of the request area. -/
def Ctl.reqNum (c : Ctl) (o n : Nat) : Nat := beNat ((List.range n).map (fun i => tabGet 0 c.twb.req (o + i)))

/-- GO accepted: the command in the request area runs. -/
def sideGo (m : Mem) (c : Ctl) : MC :=
  let c := Ctl.twbIrq { c with twb := { c.twb with state := 1 } } TWB_IRQ_CMD
  let n := c.reqNum 6 2
  let args := (List.range n).map (fun i => tabGet 0 c.twb.req (8 + i))
  let q : Req := { role := .management, id := sideId, slot := 16, seq := 0, v1 := false, args := args }
  let e := sideEffect (c.reqNum 4 2) q m c
  if e.later then (e.mem, e.ctl) else (e.mem, e.ctl.sideDone e.status e.result)

/-! ## Writes (R399, R400) -/

/-- The bytes of a request area written while no command runs. -/
def Ctl.putReq (c : Ctl) (base : Nat) (l : Tab Byte) : Ctl :=
  { c with twb := { c.twb with
    req := l.foldl (fun (r : Tab Byte) e => if base + e.1 < 4 then r else tabSet r (base + e.1) e.2) c.twb.req } }

/-- A write to the request area, staged by offset in the page at `base`. -/
def sideRequest (m : Mem) (c : Ctl) (base : Nat) (l : Tab Byte) : MC × Nat :=
  let go := base == 0 && tabFind l 0 == some 1
  let any := l.any (fun e => decide (4 ≤ base + e.1))
  if c.twb.state = 1 ∧ (go ∨ any) then ((m, c), eBusy)
  else
    let c := c.putReq base l
    (if go then sideGo m c else (m, c), eOk)

/-- A write to TILE_CTRL of the status page, under R50 in every mode; bytes not written keep their value (R404). -/
def sideTileCtrl (m : Mem) (c : Ctl) (l : Tab Byte) : MC × Nat :=
  if l.all (fun e => decide (e.1 < 0x20) || decide (0x23 < e.1)) then ((m, c), eOk)
  else
    let w := leNat ((List.range 4).map (fun i => (tabFind l (0x20 + i)).getD ((leBytes 4 c.holdBits).getD i 0)))
    tileCtrlWrite m c sideOrigin w

/-- A write to the key page (R407). -/
def sideKey (c : Ctl) (l : Tab Byte) : Ctl × Nat :=
  let b : Nat → Nat → List Byte := fun o n => (List.range n).map (fun i => (tabFind l (o + i)).getD 0)
  let role := leNat (b 0 1)
  let key := b 4 32
  if l.all (fun e => decide (40 ≤ e.1)) then (c, eOk)
  else
    let e := firstErr [(anyN 40 (fun i => (tabFind l i).isNone), eFormat), (decide (3 < role), eRange),
      ((tabFind c.net.keys role).isSome, eLocked),
      ((Config.hmacSha256 key [0x53, 0x4B, 0x56, 0x43]).take 4 != b 0x24 4, eIntegrity)]
    let c := { c with twb := { c.twb with keyRes := e } }
    let c := if e = eFormat then c else c.twbIrq TWB_IRQ_KEY
    if e ≠ eOk then (c, e)
    else (Ctl.twbEvent { c with net := { c.net with keys := tabSet c.net.keys role key } } 0x9004 (leBytes 1 role), eOk)

/-- A write to the event window (R438). -/
def sideEvent (c : Ctl) (l : Tab Byte) : Ctl × Nat :=
  let tile := (tabFind l 0).map (fun b => b.toNat)
  if tile.any (fun t => decide (c.tiles ≤ t)) then (c, eAbsent)
  else
    let old := leBytes 4 c.twb.evFirst
    let first := leNat ((List.range 4).map (fun i => (tabFind l (4 + i)).getD (old.getD i 0)))
    ({ c with twb := { c.twb with evTile := tile.getD c.twb.evTile, evFirst := first } }, eOk)

/-- The bytes of a transfer staged by their offset in the page; of two writes to one byte the later stays. -/
def stageBytes (off : Nat) : List Byte → Tab Byte → Tab Byte
  | [], l => l
  | b :: r, l => stageBytes ((off + 1) % 64) r (tabSet l (off % 64) b)

/-- The effect of the staged bytes of the page at `page`, with the code for LAST_WR. -/
def sideApply (m : Mem) (c : Ctl) (page : Nat) (l : Tab Byte) : MC × Nat :=
  let a := sideArea page
  if !c.sideOpen a then ((m, c), eState)
  else
    match a with
    | .status => sideTileCtrl m c l
    | .request => sideRequest m c (page - 0x100) l
    | .key => let y := sideKey c l; ((m, y.1), y.2)
    | .event => if page = 0x400 then (let y := sideEvent c l; ((m, y.1), y.2)) else ((m, c), eOk)
    | .result => ((m, c), eOk)
    | .none => ((m, c), eOk)

/-- A target write transfer that has ended: pointer high, pointer low, data. One of fewer than two bytes changes nothing but the
bus (R399, R400). -/
def targetWrite (bytes : List Byte) (stop : Bool) (m : Mem) (c : Ctl) : MC :=
  if !c.twbOn then (m, c)
  else
    let c := c.busAfter stop
    match bytes with
    | hi :: lo :: data =>
      let p := hi.toNat * 256 + lo.toNat
      let page := p / 64 * 64
      let c := { c with twb := { c.twb with ptr := page + (p + data.length) % 64 } }
      if data.isEmpty then (m, c)
      else
        let x := sideApply m c page (stageBytes p data [])
        x.1.on (fun c => { c with twb := { c.twb with lastWr := x.2, wrCount := (c.twb.wrCount + 1) % 65536 } })
    | _ => (m, c)

/-- TWB_TARGET_WRITE: the staged bytes of a target write applied. -/
def execTwbTargetWrite (x : TargetWrite) (s : State) : Host.Outcome State Fault Refusal :=
  s.onModuleM (fun m c => targetWrite x.bytes x.stop m c)

/-- SIDEBAND_GO: 1 written to GO. -/
def execSidebandGo (s : State) : Host.Outcome State Fault Refusal :=
  s.onModuleM (fun m c => targetWrite [1, 0, 1] true m c)

/-- A command with its arguments in the first page of the request area, then GO. -/
def sideCommand (code : Nat) (args : List Byte) (m : Mem) (c : Ctl) : MC :=
  let x := targetWrite ([1, 4] ++ beBytes 2 code ++ beBytes 2 args.length ++ args) true m c
  targetWrite [1, 0, 1] true x.1 x.2

/-- SB_IP4: `sb.ip4`. -/
def execSbIp4 (path : Byte) (addr : Word) (pfx : Byte) (gw : Word) (s : State) : Host.Outcome State Fault Refusal :=
  s.onModuleM (fun m c => sideCommand 0x9001 ([path] ++ beBytes 4 addr.toNat ++ [pfx] ++ beBytes 4 gw.toNat) m c)

/-- SB_MODULE_RESET: `sb.module_reset`. -/
def execSbModuleReset (s : State) : Host.Outcome State Fault Refusal :=
  s.onModuleM (fun m c => sideCommand 0x9002 [] m c)

/-- TWB_TARGET_TIMEOUT: a target transfer abandoned; nothing is applied. -/
def execTwbTargetTimeout (s : State) : Host.Outcome State Fault Refusal :=
  s.onModule (fun c => if c.twbOn then (c.inc 0 TWB_COUNT_TIMEOUTS).twbEvent 0x9003 [] else c)

/-- TWB_BUS_FREE. -/
def execTwbBusFree (s : State) : Host.Outcome State Fault Refusal :=
  s.onModule (fun c =>
    if c.twbOn then c.put 0 TWB_STATUS_BUS_BUSY 0 |>.put 0 TWB_STATUS_SCL 1 |>.put 0 TWB_STATUS_SDA 1 else c)

/-! ## Controller role (R408 to R410, R413) -/

/-- The address of a register of the TWB block. -/
def twbAddr (off : Nat) : Nat := modAddr 0 (0x200120000 + off)

/-- A write of TWB_CFG: RATE and FILTER within the limits of R397. -/
def twbCfgWrite (c : Ctl) (o : Origin) (w : Nat) : Ctl × Nat :=
  let rate := bitsOf w 16 2
  let most := match rate with
    | 0 => 31
    | 1 => 9
    | _ => 4
  if !c.mayConfig o then (c.violate o (twbAddr 0) true, eOk)
  else if rate = 3 ∨ most < w % 32 then (c, eRange)
  else ((c.put 0 TWB_CFG_RATE rate).put 0 TWB_CFG_FILTER w, eOk)

/-- ADDR, WLEN and RLEN of a job word. -/
def jobAddr (w : Nat) : Nat := bitsOf w 22 7
def jobWlen (w : Nat) : Nat := bitsOf w 15 7
def jobRlen (w : Nat) : Nat := bitsOf w 8 7

/-- A write of TWB_JOB. -/
def twbJobWrite (c : Ctl) (o : Origin) (w : Nat) : Ctl × Nat :=
  let a := jobAddr w
  if !c.isSystem o then (c.violate o (twbAddr 8) true, eOk)
  else
    let e := if !bit w 31 then eOk
      else firstErr [(a == c.twb.taddr || decide (a < 8) || decide (0x78 ≤ a) || decide (64 < jobWlen w) || decide (64 < jobRlen w),
        eRange), (c.flag 0 TWB_RESULT_BUSY, eBusy)]
    if e ≠ eOk then (c, e)
    else
      let c := c.put 0 TWB_JOB_RETRIES (bitsOf w 29 2) |>.put 0 TWB_JOB_ADDR a |>.put 0 TWB_JOB_WLEN (jobWlen w)
        |>.put 0 TWB_JOB_RLEN (jobRlen w)
      if bit w 31 then
        (Ctl.put { c with twb := { c.twb with job := w, tries := bitsOf w 29 2, sending := false } } 0 TWB_RESULT_BUSY 1, eOk)
      else (c, eOk)

/-- TWB_JOB_GO: a write of TWB_JOB. -/
def execTwbJobGo (o : Origin) (w : Word) (s : State) : Host.Outcome State Fault Refusal :=
  s.onAccess o (fun c => c.access o 0 0x12 (fun c => twbJobWrite c o w.toNat))

/-- A job ends with a code and the bytes written and acknowledged. -/
def Ctl.twbEnd (c : Ctl) (code wdone : Nat) : Ctl :=
  let c := { c with twb := { c.twb with sending := false } }
  ((c.put 0 TWB_RESULT_BUSY 0 |>.put 0 TWB_RESULT_CODE code |>.put 0 TWB_RESULT_WDONE wdone)).twbIrq TWB_IRQ_JOB

/-- The bytes a job has had acknowledged as it loses arbitration, which the command does not tell (assumption 63). -/
def Ctl.openDone (c : Ctl) : Nat × Ctl :=
  let v := c.free
  (v.1 % (jobWlen c.twb.job + 1), v.2)

/-- What a job sends: the address with write and bytes 0 to WLEN − 1 of TWB_BUF, then the address with read; at once to read where
WLEN is zero and RLEN is not (R408, R413). -/
def Ctl.jobBytes (c : Ctl) : List Byte :=
  let w := c.twb.job
  let buf := ((List.range 16).map (fun i => leBytes 4 (c.get 0 TWB_BUF_DATA i))).flatten
  (if jobWlen w = 0 ∧ jobRlen w ≠ 0 then [] else leBytes 1 (jobAddr w * 2) ++ buf.take (jobWlen w))
    ++ (if jobRlen w = 0 then [] else leBytes 1 (jobAddr w * 2 + 1))

/-- TWB_JOB_START: the job's START, once the bus is free, after the check of SDA and the clear it needs. -/
def execTwbJobStart (b : BusCheck) (s : State) : Host.Outcome State Fault Refusal :=
  s.onModule (fun c =>
    if !c.flag 0 TWB_RESULT_BUSY || c.twb.sending || !c.twbOn then c
    else
      let start : Ctl → Ctl := fun c =>
        Ctl.put { c with twb := { c.twb with sending := true, jobOut := c.jobBytes } } 0 TWB_STATUS_BUS_BUSY 1
      match b with
      | .high => if c.flag 0 TWB_STATUS_BUS_BUSY then c else start c
      | .freed => start ((((c.inc 0 TWB_COUNT_CLEARS).put 0 TWB_STATUS_STUCK 0).put 0 TWB_STATUS_SDA 1).twbEvent 0x9001 [])
      | .stuck =>
        (((c.inc 0 TWB_COUNT_CLEARS).put 0 TWB_STATUS_STUCK 1).put 0 TWB_STATUS_SDA 0).twbEnd eTimeout 0 |>.twbEvent 0x9002 [])

/-- TWB_ARBITRATION_LOSS: the block stops driving; the whole job is tried again, or ends with its last try. -/
def execTwbArbitrationLoss (s : State) : Host.Outcome State Fault Refusal :=
  s.onModule (fun c =>
    if !c.twb.sending then c
    else
      let c := c.inc 0 TWB_COUNT_ARB_LOST
      if c.twb.tries = 0 then
        let v := c.openDone
        v.2.twbEnd eConflict v.1
      else { c with twb := { c.twb with sending := false, tries := c.twb.tries - 1 } })

/-- Bytes read replace bytes 0 on of TWB_BUF. -/
def Ctl.bufStore (c : Ctl) : Nat → List Byte → Ctl
  | _, [] => c
  | i, b :: r =>
    let w := c.get 0 TWB_BUF_DATA (i / 4)
    Ctl.bufStore (c.put 0 TWB_BUF_DATA (leNat ((leBytes 4 w).set (i % 4) b)) (i / 4)) (i + 1) r

/-- TWB_JOB_END. -/
def execTwbJobEnd (e : JobEnd) (s : State) : Host.Outcome State Fault Refusal :=
  s.onModule (fun c =>
    if !c.twb.sending then c
    else
      let w := c.twb.job
      let stop : Ctl → Ctl := fun c => (c.put 0 TWB_STATUS_BUS_BUSY 0).put 0 TWB_STATUS_STUCK 0
      match e with
      | .ok read => ((stop c).bufStore 0 (read.take (jobRlen w))).twbEnd eOk (jobWlen w)
      | .noAddress again => (stop c).twbEnd eAbsent (if again && jobRlen w != 0 then jobWlen w else 0)
      | .noData n => (stop c).twbEnd eBusy (n.toNat % (jobWlen w + 1))
      | .sclLow n => (c.put 0 TWB_STATUS_SCL 0).twbEnd eTimeout (n.toNat % (jobWlen w + 1)))

end Sys2Proof.Machine
end

