-- ==== Sys2Proof/Machine/Frames.lean ====
section
/-! DEFINITION. Machine/Frames.lean: the frame instant and what takes effect there, hand-over and hand-back of a section, and
frame-complete with its population statistics (R147 to R151, R156 to R163, R176 to R179, R348 to R350, R453 to R458, R486). -/
namespace Sys2Proof.Machine

/-! ## String maps (R147) -/

/-- The blocks of a ring to which SET_ROLE goes: those whose head role two states of the map give differently. -/
def roleChanges (old new : Ctl) (t r : Nat) : List Nat :=
  (List.range 512).filter (fun b => new.present? t r b && old.isHead t r b != new.isHead t r b)

/-- What a string keeps of a change of its head: the charge is lost until a new head block reports in full (R189). -/
def Ctl.moveHead (old : Ctl) (t r n i : Nat) (c : Ctl) : Ctl :=
  let first := c.get t RING_SMAP_ACT_FIRST r i
  let was := old.get t RING_SMAP_ACT_FIRST r i
  if !c.flag t RING_SMAP_ACT_VALID r i || (old.flag t RING_SMAP_ACT_VALID r i && was == first) then c
  else if old.isHead t r first then
    let late := (old.mapNow t r).any (fun e => e.first == first && e.moved)
    c.setSx t r i { c.sx t r i with moved := if late then some n else none }
  else Ctl.setSx { c with headFrom := tabErase c.headFrom (blkKey t r first) } t r i { c.sx t r i with moved := some n }

/-- A committed string map becomes active; SET_ROLE is queued to every block whose head role changes. -/
def Ctl.activateMap (t r n : Nat) (c : Ctl) : Ctl :=
  match (c.rng t r).mapCommit with
  | none => c
  | some l =>
    let old := c
    let c := forN 32 (fun i (c : Ctl) =>
      (fieldsAt 3 t (0x3000 + r * 0x80 + 4 * i)).foldl (fun (c : Ctl) f => c.put t f.field (f.of (l.getD i 0)) f.i f.j) c) c
    let c := Ctl.configCopied (c.setRng t r { c.rng t r with mapCommit := none }) t
    let k := t * 32 + r
    let c := { c with oldMaps := tabSet c.oldMaps k ((n, old.mapNow t r) ::
      (tabGet [] c.oldMaps k).filter (fun e => decide (frameDiff n e.1 < 1200))) }
    let c := forN 32 (fun i (c : Ctl) => Ctl.moveHead old t r n i c) c
    if c.ringUp t r || (c.rstate t r == rgEnum && decide (6 ≤ (c.rng t r).step)) then
      c.queue t r ((roleChanges old c t r).map (fun b => { addr := b, cmd := 0x07, req := c.roleReq t r b }))
    else c

/-! ## Rings at a frame instant (R149 to R151) -/

/-- Whether the enumeration found another block at a position: its identity changed, or a quarantined block's differs from the
inventory's (R141, R143). -/
def Ctl.otherBlock (c : Ctl) (t r b : Nat) : Bool :=
  match tabFind c.identity (blkKey t r b) with
  | none => false
  | some 4 => tabGet 0 c.found (blkKey t r b) != tabGet 0 c.inventory (blkKey t r b)
  | some _ => true

/-- A ring that has just been enumerated: the wire values of a block whose identity changed are unlearned (R245), open wires
the store held are tested (R475), and wire learning, a sequence under way being abandoned, begins on its blocks where the ring
measures while balancing (R238). -/
def afterEnum (t r : Nat) (x : MC) : MC :=
  let x := dropLearn t r x
  let c := x.2
  let l := (List.range 512).filter (fun b => c.present? t r b)
  let m := (l.filter (fun b => c.otherBlock t r b)).foldl (fun m b =>
    memPut (memStore m (blockState t (r * 512 + b)) (List.replicate 34 0xFF)) (blockState t (r * 512 + b) + 0x23) 1 0xFF) x.1
  let c := c.setRng t r { c.rng t r with step := 0 }
  let c := (l.filter (fun b => (c.owOf t r b).restored)).foldl (fun (c : Ctl) b =>
    let x := c.owOf t r b
    (c.setOw t r b { x with restored := false }).owTest t r b x.confirmed) c
  (m, if c.flag t BAL_RING_CFG_MWB r then c.queueLearn t r (l.filter (fun b => !c.flag t RING_BLK_QUAR r b)) else c)

/-- A ring enters RUN or SPLIT where enumeration, a break located or a rejoin has prepared it. -/
def ringEnters (t r : Nat) (x : MC) : MC :=
  let g := x.2.rng t r
  let st := x.2.rstate t r
  let ready := (st == rgEnum && g.step == 8) || st == rgRun || st == rgSplit
  let target := if g.toRun then rgRun else rgSplit
  if !ready || (!g.toRun && g.splitAt.isNone) then x
  else
    let x := ringState x t r target
    let x := x.on (fun c => c.setRng t r { c.rng t r with toRun := false, splitAt := none })
    if st = rgEnum then afterEnum t r x else x

/-- A frame begins on a ring: its sweep is open, the quiet window has ended, the tests that waited for the frame are queued,
and the duties in force are those of the cycle (R133, R134, R181, R239). -/
def Ctl.ringFrame (t r n : Nat) (c : Ctl) : Ctl :=
  let g := c.rng t r
  let c := c.setRng t r { g with collecting := false, got := [], passes := 0, listed := [], swept := false, quiet := false, held := []
                                 ctl := g.ctl ++ g.later, later := [] }
  if !c.ringUp t r || g.duty = [] then c
  else
    let l := (tabGet [] c.cycles (t * 32 + r)).filter (fun k => decide (frameDiff n k.1 < 1200))
    { c with cycles := tabSet c.cycles (t * 32 + r) (l ++ [(n, g.duty)]) }

/-- Stale marks cleared since the last instant end (R220). -/
def Ctl.staleEnds (t : Nat) (c : Ctl) : Ctl :=
  let l := c.staleDue.filter (fun k => k / 16384 == t)
  let c := { c with staleDue := c.staleDue.filter (fun k => k / 16384 != t) }
  l.foldl (fun (c : Ctl) k =>
    let r := k / 512 % 32
    let b := k % 512
    if c.flag t RING_BLK_STALE r b then
      (c.put t RING_BLK_STALE 0 r b).event (c.recorderOf t) 0x06 0x2031 (cellId t r b)
    else c) c

/-! ## A tile at a frame instant (R156, R166, R175, R213, R350) -/

/-- Whether a tile's section is sampled: the tile runs, or its partner serves the section. -/
def Ctl.framed (c : Ctl) (t : Nat) : Bool :=
  c.running t || (c.tileState t == tsCarried && c.running (partner t) && c.serves (partner t))

/-- The frame of a section begins. -/
def sectionFrame (t n : Nat) (x : MC) : MC :=
  let m := (x.2.profDue.filter (fun k => k / 8 == t)).foldl (fun m k =>
    match tabFind x.2.profiles k with | some b => memStore m (profAddr t (k % 8)) b | none => m) x.1
  let c := { x.2 with profDue := x.2.profDue.filter (fun k => k / 8 != t) }
  let c := forN 32 (fun r (c : Ctl) => Ctl.activateMap t r n c) c
  let x : MC := (List.range 32).foldl (fun (x : MC) r => ringEnters t r x) (m, c)
  x.on (fun c =>
    let c := forN 32 (fun r (c : Ctl) => Ctl.ringFrame t r n c) c
    let c := (Ctl.staleEnds t c).limitsActivate t
    let c := (c.burstApply t).burstOpen t 0
    { c with frameOpen := t :: c.frameOpen.filter (fun k => k != t) })

/-- The frame instant on a tile whose hardware works: the numbers, the latches of the TIME block, interrupt source 0x00. -/
def Ctl.tileFrame (t n : Nat) (c : Ctl) : Ctl :=
  let lock := c.timeLocked t
  let c := c.put t SMP_FRAME_NUM_FRAME n |>.put t TIME_FRAME_NUM_VALUE n |>.put t TIME_FRAME_NS32_VALUE (c.get t TIME_NS32_VALUE)
    |>.put t TIME_FRAME_STN_NS_VALUE (if lock then tabGet 0 c.stnNs t else 0)
    |>.put t TIME_FRAME_STN_SEC_VALUE (if lock then tabGet 0 c.stnSec t else 0)
  (c.irq t 0x00).endFrameWaits t n true

/-! ## Hand-over (R453, R458, R530) -/

/-- After a fault the section comes from what was mirrored of it, its limit checker from zero; without a snapshot it comes
from the configuration store and is enumerated. The tone receivers, which lie in Beryl's domain, have gone on (R453). -/
def Ctl.restoreSection (t n : Nat) (c : Ctl) : Ctl :=
  match tabFind c.handed t with
  | none => c.loadConfig t
  | some s =>
    let keep := c.regs.filter (fun e => !(keyTile e.1 == t && sectionBlk (keyBlk e.1)) || framePeriodKey e.1)
    let clean : Nat × Rng → Rng := fun e => { e.2 with
      ctl := [], posted := [], flight := [], quiet := false, held := []
      toneLostHead := (tabGet {} c.rings e.1).toneLostHead, toneLostTail := (tabGet {} c.rings e.1).toneLostTail }
    let regs : Tab Nat := s.regs.foldl (fun (r : Tab Nat) (e : Nat × Nat) => tabSet r e.1 e.2) keep
    let rings : Tab Rng := s.rings.foldl (fun (l : Tab Rng) (e : Nat × Rng) => tabSet l e.1 (clean e)) c.rings
    let last : Tab (List (Nat × Tab Duty)) := s.rings.foldl
      (fun (l : Tab (List (Nat × Tab Duty))) (e : Nat × Rng) => tabSet l e.1 [((n + 2 ^ 32 - 1) % 2 ^ 32, e.2.duty)]) c.cycles
    let c := forN 32 (fun r (c : Ctl) => c.owRingDrop t r)
      { c with
        regs := regs, rings := rings, cycles := last, handed := tabErase c.handed t
        perts := s.perts.foldl (fun (l : Tab Pert) (e : Nat × Pert) => tabSet l e.1 e.2) c.perts
        rests := if s.rests = [] then c.rests else tabSet c.rests t s.rests }
    let c := { c with selAct := forN 32 (fun r (s : Tab Nat) =>
        if c.get t LIMIT_RING_SEL_SET r = 0 ∧ c.get t LIMIT_RING_SEL_TEMP_MASK r = LIMIT_RING_SEL_TEMP_MASK.reset then s
        else tabSet s (t * 32 + r) (c.rawWord 5 t (0x800 + 4 * r))) c.selAct }
    forN 32 (fun r (c : Ctl) => if tabFind s.rings (t * 32 + r) = none then c else c.toneBit t r) (c.limLines t)

/-- A SET_DUTY with a zero map to every block of a ring (R453 step 3). -/
def Ctl.zeroRing (t r : Nat) (c : Ctl) : Ctl :=
  let g := c.rng t r
  let l := (List.range 512).filter (fun b => c.present? t r b)
  (c.setRng t r (Rng.dutySent { g with slots := [], held := [] } (c.get t SMP_FRAME_NUM_FRAME) l {})).launch t r
    { addr := 0x3FF, cmd := 0x10, post := true, req := [0, 0, 0, 0] }

/-- SET_POS with the direction bit, broadcast, to the blocks of a ring that runs (R453 step 1). -/
def Ctl.turnRing (t r : Nat) (c : Ctl) : Ctl :=
  if c.rstate t r = rgRun then c.launch t r { addr := 0x3FF, cmd := 0x08, req := [0x00, 0x01, 0, 0] } else c

/-- The ring controller runs ASSIGN with MEASURE_ONLY from the end that drives a ring in RUN, and the block table shows from
where each block is reached (R453, R455). -/
def Ctl.measureRing (t r : Nat) (c : Ctl) : Ctl :=
  let c := if c.rstate t r = rgRun then c.setRng t r { c.rng t r with measuring := true } else c
  if c.ringUp t r then c.tailSegs t r else c

/-- A ring is driven from its tail; one without a finished enumeration is enumerated from there. -/
def reverseRing (t : Nat) (x : MC) (r : Nat) : MC :=
  if x.2.get t RING_CTRL_MODE r = 0 then x
  else
    let st := x.2.rstate t r
    let x := x.on (fun c => c.put t RING_CTRL_MODE 2 r)
    if st = rgOff then enumStart (ringMode x t r 2) t r
    else if st = rgEnum then enumStart x t r
    else if x.2.ringUp t r then x.on (fun c => Ctl.zeroRing t r (Ctl.measureRing t r (Ctl.turnRing t r c)))
    else x

/-- The partner takes a section at frame instant `n`: cause 1 with its whole state, 2 or 3 from what was mirrored. -/
def handOver (t n cause : Nat) (x : MC) : MC :=
  let p := partner t
  let c := if cause = 1 then x.2 else Ctl.restoreSection t n x.2
  let c := (c.setCarry t csHandover cause).setCarry p csHandover cause
  let c := (c.setCarry t csCarried cause).setCarry p csServing cause
  let c := c.put t TILE_STATUS_STATE tsCarried |>.put t CARRY_HANDOVER_FRAME n |>.put p CARRY_HANDOVER_FRAME n
  let c := c.inc t (if cause = 1 then CARRY_COUNT_IMAGE else CARRY_COUNT_FAULT)
  let c := { c with secFrom := tabSet c.secFrom t n, carryIn := t :: c.carryIn.filter (fun k => k != t) }
  let c := (c.event p 0x0F 0xB010 0 (leBytes 1 t ++ leBytes 1 cause)).judgeAll
  (List.range 32).foldl (reverseRing t) (x.1, c)

/-- Whether the hand-over of a tile that went down starts at this instant. -/
def Ctl.handOverDue (c : Ctl) (t : Nat) : Bool :=
  c.carry t == csHandover && !c.running t && c.running (partner t) && c.carry (partner t) == csHandover

/-- Whether the tile of a rolling step is carried from this instant: its commit has ended and its partner can take it
(R456). -/
def Ctl.rollDue (c : Ctl) (t : Nat) : Bool :=
  c.img.rollTile == some t && c.rolling && c.carry t == csNone && c.running t && c.running (partner t)
    && c.carry (partner t) == csNone && (c.estOf t).commit.isNone && c.img.onB.contains t != c.targetBank

/-! ## Hand-back (R455, R486) -/

/-- Whether a section goes back at frame instant `n`: READY, and the partner's pass of frame n − 1 complete. -/
def Ctl.handBackDue (c : Ctl) (t n : Nat) : Bool :=
  c.carry t == csCarried && c.readySet.contains t && (c.estOf (partner t)).next == some n

/-- A ring goes back to its head; one in enumeration starts it again from there. In SPLIT its last block of the head
segment, as ASSIGN with MEASURE_ONLY counts it, takes the segment-end role, and both ends drive (R455, R529). -/
def normalRing (t : Nat) (x : MC) (r : Nat) : MC :=
  if x.2.get t RING_CTRL_MODE r ≠ 2 then x
  else
    let x := x.on (fun c => c.put t RING_CTRL_MODE 1 r)
    let k := x.2.get t RING_STATUS_SPLIT_AT r
    if x.2.rstate t r = rgEnum then enumStart x t r
    else if x.2.rstate t r = rgSplit ∧ 1 ≤ k then
      x.on (fun c => c.queue t r [{ addr := k - 1, cmd := 0x08, req := [0x00, 0x02, 0, 0] }])
    else x.on (Ctl.measureRing t r)

/-- A section returns to its own tile with its records. -/
def handBack (t n : Nat) (x : MC) : MC :=
  let p := partner t
  let m := memCopy x.1 (cellAddr p t 0) (cellAddr t t 0) 67108864
  let c := (x.2.setCarry t csHandback (x.2.get t CARRY_STATUS_CAUSE)).setCarry p csHandback (x.2.get p CARRY_STATUS_CAUSE)
  let c := (c.setCarry t csNone 0).setCarry p csNone 0
  let c := c.put t TILE_STATUS_STATE tsRun |>.put t CARRY_HANDBACK_FRAME n |>.put p CARRY_HANDBACK_FRAME n
  let c := { c with secFrom := tabSet c.secFrom t n, carryIn := c.carryIn.filter (fun k => k != t)
                    readySet := c.readySet.filter (fun k => k != t) }
  let c := c.setEst t { c.estOf t with next := none, backlogged := false }
  let c := (c.event p 0x0F 0xB011).judgeAll
  let x := (List.range 32).foldl (normalRing t) (m, c)
  x.on (fun c => if t = 0 then (c.rollTaken m t).tileZeroRuns else c.rollTaken m t)

/-- An unserved tile that has set READY enumerates its own rings. -/
def reserveStart (t : Nat) (x : MC) : MC :=
  startRings t (x.on (fun c =>
    let c := c.loadConfig t
    { c with reserving := t :: c.reserving.filter (fun k => k != t), readySet := c.readySet.filter (fun k => k != t) }))

/-- Whether no ring of a tile is still in enumeration. -/
def Ctl.enumerated (c : Ctl) (t : Nat) : Bool := !anyN 32 (fun r => c.rstate t r == rgEnum && (c.rng t r).step != 8)

/-- A tile that has enumerated serves its own section from this instant; its estimator starts as after a start-up where the
reset cleared it. -/
def Ctl.reserveEnd (t n : Nat) (c : Ctl) : Ctl :=
  let c := (c.put t TILE_STATUS_STATE tsRun).setCarry t csNone 0
  let c := { c with secFrom := tabSet c.secFrom t n, reserving := c.reserving.filter (fun k => k != t) }
  let e := c.estOf t
  let c := c.setEst t { e with
    next := none, backlogged := false
    startup := if e.passed then e.startup else some (if c.img.legacyRead then 1 else 0)
    loaded := if e.passed then e.loaded else [] }
  (if t = 0 then c.tileZeroRuns else c).judgeAll

/-- What carry does of one tile at a frame instant. -/
def carryInstant (t n : Nat) (x : MC) : MC :=
  let c := x.2
  if !c.hasCarry then x
  else if c.handBackDue t n then handBack t n x
  else if c.handOverDue t then handOver t n (c.get t CARRY_STATUS_CAUSE) x
  else if c.rollDue t then handOver t n 1 x
  else if c.carry t != csUnserved || c.tileState t != tsCarried then x
  else if c.reserving.contains t then (if c.enumerated t then x.on (fun c => Ctl.reserveEnd t n c) else x)
  else if c.readySet.contains t && !c.img.revert && !c.img.paused then reserveStart t x
  else x

/-! ## FRAME_INSTANT -/

/-- Whether the present cycle holds a station time that is a multiple of the frame period (R349). -/
def Ctl.onInstant (c : Ctl) : Bool := decide ((c.stn 0 : Int) % ((c.periodMs * 1000000 : Nat) : Int) < 4 + c.ptp.slew)

/-- The new frame period from its target frame on; ALIGNED goes where the instants do not fit it, and a session whose frequency
no longer fits ends early (R157, R260, R349). -/
def Ctl.periodSwitch (n : Nat) (c : Ctl) : Ctl :=
  let next := c.get 0 SMP_FRAME_CFG_NEXT
  if next = 0 ∨ n ≠ c.get 0 SMP_FRAME_SWITCH_AT then c
  else
    let c := { c with switches := (n, c.periodMs) :: c.switches.filter (fun e => decide (frameDiff n e.1 < 2 ^ 24)) }
    let c := forN c.tiles (fun t (c : Ctl) => (c.put t SMP_FRAME_CFG_PERIOD next).configCopied t) c
    let c := (c.put 0 SMP_FRAME_CFG_NEXT 0).event 0 0x04 0x1026
    let c := if c.onInstant then c else c.put 0 TIME_STATE_ALIGNED 0
    forN c.tiles (fun h (c : Ctl) => forN 4 (fun i (c : Ctl) =>
      if 1000000 < 4 * c.get h DISP_PERT_FREQ i * c.periodMs then c.endPert h i true else c) c) c

/-- ALIGNED and the rate of the frame time base at an instant: while station time is not locked the base keeps its rate; an
instant that alignment has reached sets ALIGNED, which lock, a step or a period it does not fit clears; else the base slews the
shorter way, at 500 ppm (R349; DESIGN CHOICE, assumption 100: the full rate). -/
def Ctl.frameAligned (c : Ctl) : Ctl :=
  let past := c.stn 0 % (c.periodMs * 1000000)
  let rate : Int → Ctl → Ctl := fun r c => { c with ptp := { c.ptp with base := r } }
  if !c.timeLocked 0 then c.put 0 TIME_STATE_ALIGNED 0
  else if c.flag 0 TIME_STATE_ALIGNED then c
  else if c.onInstant then rate 0 ((c.put 0 TIME_STATE_ALIGNED 1).event 0 0x02 0x7106)
  else rate (if 2 * past ≤ c.periodMs * 1000000 then 500 else -500) c

/-- A frame instant of number `n` on the module: carry moves, the activation pauses, every live tile begins its frame, the
sections are framed, and what the limit checker knows is judged. -/
def frameBegin (n : Nat) (x : MC) : MC :=
  let x : MC := (List.range x.2.tiles).foldl (fun (x : MC) t => carryInstant t n x) x
  let x := x.on (fun c =>
    let c := if c.pauseDue then
        let c := { c with img := { c.img with paused := true } }
        forN c.tiles (fun t (c : Ctl) => forN 4 (fun k (c : Ctl) => c.suspend t k) c) c
      else c
    forN c.tiles (fun t (c : Ctl) => if c.live t then Ctl.tileFrame t n c else c) { c with bank := { c.bank with cyc := 0 } })
  let x := (List.range x.2.tiles).foldl (fun (x : MC) t => if x.2.framed t then sectionFrame t n x else x) x
  x.on Ctl.judgeAll

/-- FRAME_INSTANT: the number advances, what waits for an instant takes effect, and the frame begins on every tile. -/
def execFrameInstant (s : State) : Host.Outcome State Fault Refusal :=
  s.onModuleM (fun m c =>
    if c.tileState 0 = tsOff ∨ c.pw.mode ≠ .run then (m, c)
    else
      let n := (c.frameNum + 1) % 2 ^ 32
      (frameBegin n (m, (Ctl.periodSwitch n { c with frameNum := n }).frameAligned)).on (Ctl.sameCycle c))

/-! ## Population statistics (R176 to R178) -/

/-- Where the statistics of a frame lie. -/
def statBase (h n : Nat) : Nat := modAddr h (0x0C000000 + n % 2 * 0x80000)

/-- Whether a block record is FRESH, and neither OW_CONFIRMED nor UNTRUSTED. -/
def statFresh (m : Mem) (a : Nat) : Bool := bit (memNat m (a + 3) 1) 0 && !bit (memNat m a 2) 15

/-- The cell voltages of a block that count. -/
def Ctl.statVolts (c : Ctl) (m : Mem) (h n r b : Nat) : List Int :=
  let a := c.recordAddr h n (r * 512 + b)
  let q := memNat m (a + 3) 1
  if statFresh m a && !bit q 7 && !bit q 5 then (List.range 16).map (fun k => ((memNat m (a + 4 + 2 * k) 2 : Nat) : Int)) else []

/-- The temperatures of a block that count, by channel. -/
def Ctl.statTemps (c : Ctl) (m : Mem) (h n r b : Nat) : Tab Int :=
  let a := c.recordAddr h n (r * 512 + b)
  if statFresh m a then
    ((List.range 6).filter (fun j => c.tempOn h r j)).map (fun j => (j, toSigned 16 (memNat m (a + 0x24 + 2 * j) 2)))
  else []

/-- The self-discharges of a block as the cell records hold them, by cell. -/
def Ctl.statSd (c : Ctl) (m : Mem) (h r b : Nat) : Tab Int :=
  let a : Nat → Nat := fun k => cellAddr (c.execOf h) h (r * 8192 + b * 16 + k)
  ((List.range 16).filter (fun k => c.liveCell m (c.execOf h) h (r * 8192 + b * 16 + k))).map
    (fun k => (k, toSigned 32 (memNat m (a k + 0x28) 4)))

/-- An entry of 16 bytes. -/
def statEntry (v tl sd : List Int) : List Byte :=
  let sat : Nat → Nat → Nat := fun w n => if n < 2 ^ w then n else 2 ^ w - 1
  leBytes 2 (median v).toNat ++ leBytes 2 (sat 16 (mad v)) ++ leBytes 2 (ofSigned 16 (median tl)) ++ leBytes 2 (sat 16 (mad tl))
  ++ leBytes 4 (ofSigned 32 (median sd)) ++ leBytes 2 (sat 16 (mad sd)) ++ leBytes 1 (sat 8 v.length)
  ++ leBytes 1 (b2n (decide (3 ≤ v.length)) + 2 * b2n (decide (3 ≤ tl.length)) + 4 * b2n (decide (3 ≤ sd.length)))

/-- The entry of a group of blocks of a ring. -/
def Ctl.statGroup (c : Ctl) (m : Mem) (h n r : Nat) (l : List Nat) : List Byte :=
  statEntry (l.map (fun b => c.statVolts m h n r b)).flatten
    ((l.map (fun b => c.statTemps m h n r b)).flatten.map (fun e => e.2)) ((l.map (fun b => c.statSd m h r b)).flatten.map (fun e => e.2))

/-- The enumerated blocks of a string. -/
def Ctl.stringBlocks (c : Ctl) (h r s : Nat) : List Nat :=
  (List.range 512).filter (fun b => c.present? h r b && decide (c.get h RING_SMAP_ACT_FIRST r s ≤ b)
    && decide (b ≤ c.get h RING_SMAP_ACT_LAST r s))

/-- The statistics of a frame of a section. -/
def statsWrite (m : Mem) (c : Ctl) (h n : Nat) : Mem :=
  let base := statBase h n
  let m1 := (c.allBlocks h).foldl (fun acc e =>
    memStore acc (base + (e.1 * 512 + e.2) * 16) (c.statGroup m h n e.1 [e.2])) m
  let m2 := (c.stringsOf h).foldl (fun acc e =>
    memStore acc (base + 0x40000 + (e.1 * 32 + e.2) * 16) (c.statGroup m h n e.1 (c.stringBlocks h e.1 e.2))) m1
  ((List.range 32).filter (fun r => c.ringUp h r)).foldl (fun acc r =>
    memStore acc (base + 0x44000 + r * 16) (c.statGroup m h n r ((List.range 512).filter (fun b => c.present? h r b)))) m2

/-! ## Adaptive warnings (R179) -/

/-- Whether a value lies more than K × max(MAD, floor) from the median; K in 1/16. -/
def outlies (k floor : Nat) (v med : Int) (mad : Nat) : Bool :=
  decide (k * (if mad < floor then floor else mad) < 16 * (v - med).natAbs)

/-- One more frame of an endpoint: its count, or the event of its episode. A count of 1,000 marks an episode already
reported. -/
def Ctl.adapt (h kind idx code cell : Nat) (out : Bool) (c : Ctl) : Ctl :=
  let key := (h * 3 + kind) * 2 ^ 18 + idx
  let old := tabGet 0 c.outliers key
  if !out then (if old = 0 then c else { c with outliers := tabErase c.outliers key })
  else if old = 1000 then c
  else if old + 1 < c.get h LIMIT_ADAPT_COUNT then { c with outliers := tabSet c.outliers key (old + 1) }
  else
    (Ctl.event { c with outliers := tabSet c.outliers key 1000 } (c.recorderOf h) 0x05 code cell).inc h LIMIT_WARN_COUNT_COUNT

/-- The counts of a section's blocks that are not enumerated end (R179). -/
def Ctl.adaptAbsent (c : Ctl) (h : Nat) : Ctl :=
  { c with outliers := c.outliers.filter (fun e => e.1 / 2 ^ 18 / 3 != h
      || c.present? h (e.1 % 2 ^ 18 / 8192) (e.1 / 16 % 512)) }

/-- The cells of a string and the temperature channels of a ring compared with their entries. -/
def Ctl.adaptBlock (m : Mem) (h n r b : Nat) (c : Ctl) : Ctl :=
  let base := statBase h n
  let k := c.get h LIMIT_ADAPT_K
  let en := c.get h LIMIT_ADAPT_EN
  let ra := base + 0x44000 + r * 16
  let temps := c.statTemps m h n r b
  let c := forN 6 (fun j (c : Ctl) =>
    let out := match tabFind temps j with
      | some v => bit en 1 && c.ringUp h r && bit (memNat m (ra + 15) 1) 1
          && outlies k (c.get h LIMIT_ADAPT_FLOOR_T) v (toSigned 16 (memNat m (ra + 4) 2)) (memNat m (ra + 6) 2)
      | none => false
    Ctl.adapt h 1 ((r * 512 + b) * 16 + j) 0x1041 (cellId h r b) out c) c
  let volts := c.statVolts m h n r b
  let sds := c.statSd m h r b
  let str := c.stringOf h r b
  forN 16 (fun i (c : Ctl) =>
    let idx := r * 8192 + b * 16 + i
    let sa := base + 0x40000 + (r * 32 + str.getD 0) * 16
    let f := memNat m (sa + 15) 1
    let vOut := bit en 0 && str.isSome && bit f 0 && decide (i < volts.length)
      && outlies k (c.get h LIMIT_ADAPT_FLOOR_V) (volts.getD i 0) ((memNat m sa 2 : Nat) : Int) (memNat m (sa + 2) 2)
    let sOut := match tabFind sds i with
      | some v => bit en 2 && str.isSome && bit f 2
          && outlies k (c.get h LIMIT_ADAPT_SD_FLOOR) v (toSigned 32 (memNat m (sa + 8) 4)) (memNat m (sa + 12) 2)
      | none => false
    Ctl.adapt h 2 idx 0x1042 (cellId h r b) sOut (Ctl.adapt h 0 idx 0x1040 (cellId h r b) vOut c)) c

/-! ## FRAME_COMPLETE (R163, R185, R336) -/

/-- Whether every ring of a section that takes part has ended its sweep. -/
def Ctl.sweepsDone (c : Ctl) (h : Nat) : Bool := !anyN 32 (fun r => c.ringUp h r && !(c.rng h r).swept)

/-- The frame of a section ends: positions of rings not in RUN or SPLIT are filled, the number and the count of late frames
follow, then statistics and outliers. -/
def sectionComplete (p h n : Nat) (x : MC) : MC :=
  let x := (List.range 32).foldl (fun (x : MC) r => if (x.2.rng h r).swept then x else fillRing x h r) x
  let late := ((List.range 32).map (fun r => if x.2.ringUp h r then (x.2.missingBlocks h r).length else 0)).sum
  let x := x.on (fun c =>
    let c := (c.put h SMP_LAST_COMPLETE_FRAME n)
    let c := { c with frameOpen := c.frameOpen.filter (fun k => k != h) }
    if late = 0 then c else (c.inc h SMP_LATE_COUNT).event p 0x04 0x1024 0 (leBytes 4 late))
  let m := statsWrite x.1 x.2 h n
  (m, (x.2.allBlocks h).foldl (fun (c : Ctl) e => Ctl.adaptBlock m h n e.1 e.2 c) (x.2.adaptAbsent h))

/-- The estimator's backlog at a frame-complete. -/
def Ctl.estBacklog (t n : Nat) (c : Ctl) : Ctl :=
  let e := c.estOf t
  match e.next with
  | none => (c.setEst t { e with next := some n }).put t EST_STATUS_BACKLOG 1
  | some g =>
    let left := (frameDiff n g + 1).toNat
    let c := c.put t EST_STATUS_BACKLOG (if left < 65536 then left else 65535)
    if 3 ≤ left ∧ ¬ e.backlogged then (c.setEst t { e with backlogged := true }).event t 0x06 0x2001 else c

/-- After start-up, once no ring of the tile enumerates any more, BURST falls due to every enumerated block: with a zero mask,
since no list outlives a reset (R470 step 6, R475). -/
def Ctl.burstStart (t : Nat) (c : Ctl) : Ctl :=
  let x := tabGet {} c.bursts t
  if !x.zero || anyN 32 (fun r => c.rstate t r == rgEnum) then c
  else
    let keys := ((List.range 32).map (fun r => ((List.range 512).filter (c.present? t r)).map (blkKey t r))).flatten
    { c with bursts := tabSet c.bursts t { x with zero := false, due := (x.due ++ keys).eraseDups } }

/-- Frame `n` of a tile completes, for its own section and the one it serves (R163, R176, R185). -/
def frameEnd (t n : Nat) (x : MC) : MC :=
  let x := (x.2.sections t).foldl (fun (x : MC) h => if x.2.frameOpen.contains h then sectionComplete t h n x else x) x
  x.on (fun c =>
    let c := (c.irq t 0x01).endFrameWaits t n false
    (((Ctl.estBacklog t n c).ladder t).telemTrigger t 0).burstStart t)

/-- FRAME_COMPLETE of a tile, for its own section and the one it serves; while channels 0 and 1 are halted, records of the slot are
not written (R163, R423). -/
def execFrameComplete (t : TileId) (s : State) : Host.Outcome State Fault Refusal :=
  s.onTileM t (fun m c =>
    if !c.running t || !c.frameOpen.contains t.val || c.recordsHalted t || (c.sections t).any (fun h => !c.sweepsDone h) then (m, c)
    else (frameEnd t (c.get t SMP_FRAME_NUM_FRAME) (m, c)).on (Ctl.sameCycle c))

end Sys2Proof.Machine
end

