-- ==== Sys2Proof/Machine/RegRead.lean ====
section
/-! DEFINITION. Machine/RegRead.lean: what a read of a register word gives: the fields as they are kept, with the words
that show state kept elsewhere, and the effects of a read (R10, R36, and the register tables of each block). -/
namespace Sys2Proof.Machine

/-- The fields a read of a tile shows: of the DISP registers marked tile 0 every other tile holds a copy of its own (R265). -/
def shownFields (k t off : Nat) : List FieldAt := fieldsAt k (if k = 0x08 ∧ off < 0x20 then 0 else t) off

/-- The word of a block as its fields are kept; WO fields read zero (R10). -/
def Ctl.fieldWord (c : Ctl) (k t off : Nat) : Nat :=
  (shownFields k t off).foldl (fun w f => if f.acc = .wo then w else w + c.get t f.field f.i f.j * 2 ^ f.bit) 0

/-- A read clears the RC fields of a word (R10). -/
def Ctl.clearRead (c : Ctl) (k t off : Nat) : Ctl :=
  (fieldsAt k t off).foldl (fun (c : Ctl) f => if f.acc = .rc then c.put t f.field 0 f.i f.j else c) c

/-- The tile whose register a read on tile `t` shows: the module's image and time registers are tile 0's (R355, R465). -/
def shownTile (k t off : Nat) : Nat :=
  if (k = 0x0E ∧ (off = 0x20 ∨ off = 0x30)) ∨ (k = 0x02 ∧ (off = 0x28 ∨ off = 0x34)) then 0 else t

/-- IMG_STATUS.STAGE (R465). -/
def Img.stageCode (x : Img) : Nat :=
  if x.recovery then 7
  else
    match x.stage with
    | .idle => 0
    | .download => 1
    | .verify => 2
    | .verified => 3
    | .activating => 4
    | .trial => 5
    | .fallback => 6

/-- MOD_ID.PART (R49). -/
def Variant.part : Variant → Nat
  | .skv7282 => 0x7282
  | .skv7284 => 0x7284
  | .skv7288 => 0x7288

/-- Whether the clock of a Casda core runs: a task READY or RUNNING, an access outstanding, or a FIXED route (R320). -/
def Ctl.coreOn (c : Ctl) (t k : Nat) : Bool :=
  (slotsOf k).any (fun i => c.tstate t i == kReady || c.tstate t i == kRunning || c.flag t TASK_STATE_ACCESS i)
  || anyN 64 (fun s => c.flag t CASDA_IRQ_ROUTE_EN s && c.flag t CASDA_IRQ_ROUTE_FIXED s
    && c.get t CASDA_IRQ_ROUTE_TASK s / 64 == k)

/-- Bits that a block shows for the fields of a table (R183, R285). -/
def Ctl.fieldBits (c : Ctl) (t : Nat) (F : Field) (first : Nat) : Nat := maskN 32 (fun i => c.flag t F (first + i))

/-- The words of the IMG block that show the image state (R465). -/
def Ctl.shownImg (c : Ctl) (m : Mem) (t off : Nat) : Option Nat :=
  let b := c.img.boot
  let mf : Bool → Nat → Nat → Nat := fun bank f n => if b.state bank = .empty then 0 else mfField m (bankAddr 0 bank) f n
  if off = 0x00 then
    some (c.img.stageCode * 2 ^ 28 + b2n (c.img.onB.contains t) * 2 ^ 27 + c.get t IMG_STATUS_SELF_OK * 2 ^ 26
      + c.get t IMG_STATUS_SELF_FAIL * 2 ^ 25 + b2n c.rolling * 2 ^ 24 + (c.img.rollTile.getD 0xF) * 2 ^ 20
      + b.attempts % 4 * 2 ^ 16 + c.get 0 IMG_STATUS_LAST_CODE)
  else if off = 0x04 then some (b.stateA.code * 2 ^ 28 + mf false 0x18 2)
  else if off = 0x08 then some (b.stateB.code * 2 ^ 28 + mf true 0x18 2)
  else if off = 0x0C then some (mf false 0x14 4)
  else if off = 0x10 then some (mf true 0x14 4)
  else if off = 0x14 then some c.img.len
  else if off = 0x18 then some (c.img.granules.length % 65536)
  else if off = 0x2C then some (c.unit.bootVer * 65536 + b.epochMin % 65536)
  else if 0x40 ≤ off ∧ off < 0x70 then
    let run := c.img.onB.contains t
    let d := if run then b.digestB else b.digestA
    let d := if d.isEmpty then Config.sha384 (memBytes m (bankAddr t run) (imageLen m (bankAddr t run))) else d
    some (beNat ((d.drop (off - 0x40)).take 4))
  else none

/-- The words of the NET block that show sessions, subscriptions and the unit (R377). -/
def Ctl.shownNet (c : Ctl) (off : Nat) : Option Nat :=
  let mac : Nat → Nat := fun p => if p = 0 then c.unit.macA else c.unit.macB
  if off = 0x08 then some (maskN 16 (fun i => (c.session i).open_))
  else if off = 0x14 then some c.net.subs.length
  else if off = 0x104 ∨ off = 0x144 then some (mac ((off - 0x104) / 0x40) / 2 ^ 32)
  else if off = 0x108 ∨ off = 0x148 then some (mac ((off - 0x108) / 0x40) % 2 ^ 32)
  else if 0x400 ≤ off ∧ off < 0x500 then
    let i := (off - 0x400) / 16
    let x := c.session i
    if !x.open_ then some 0
    else if off % 16 = 0 then
      some (2 ^ 31 + b2n (c.net.supervisor == some i) * 2 ^ 30 + b2n x.v1 * 2 ^ 29 + roleNum x.role % 4 * 2 ^ 26
        + c.subsOf i * 16)
    else if off % 16 = 4 then some x.id
    else if off % 16 = 8 then some (x.high.getD 0)
    else some x.tx
  else none

/-- The words of the MOD block. MOD_TILE_STATE shows the copy at every moment, so BOOT right after a reset, though the
table's reset column has 0x0 (R49; DEDUCED, assumption 74). -/
def Ctl.shownMod (c : Ctl) (off : Nat) : Option Nat :=
  if off = 0x00 then some (0x5C0A * 65536 + c.unit.variant.part)
  else if off = 0x04 then some (c.unit.package * 256 + c.unit.die)
  else if off = 0x08 then some (c.unit.uid % 2 ^ 32)
  else if off = 0x0C then some (c.unit.uid / 2 ^ 32)
  else if off = 0x10 then some (maskN 8 (fun t => c.running t) * 256 + (2 ^ c.tiles - 1))
  else if off = 0x14 then
    some ((List.range c.tiles).foldl (fun w t => w + c.tileState t * 2 ^ (4 * t)) 0)
  else none

/-- FAULT entries of a tile in the last 10 min, as CARRY_RESTARTS shows them (R466). -/
def Ctl.restarts (c : Ctl) (t : Nat) : Nat :=
  let n := ((tabGet [] c.faultTimes t).filter (fun x => decide (c.optime < x + 600000))).length
  if n < 3 then n else 3

/-- The words that show state kept elsewhere than in register fields; none for every other word. -/
def Ctl.shown (c : Ctl) (m : Mem) (k t off : Nat) : Option Nat :=
  match k with
  | 0x00 =>
    if off = 0 then some (partner t * 16 + b2n (decide (t = 0)) * 8 + t)
    else if off = 4 then
      some ((if c.carry t = csCarried ∨ c.carry t = csHandback then partner t else t) * 16 + c.tileState t)
    else none
  | 0x01 =>
    if off = 0x00 then
      some (c.fieldWord k t off + b2n (c.serves t) * 2 ^ 27 + maskN 4 (fun i => c.coreOn t i) * 2 ^ 9
        + b2n (c.vecOf t).holder.isSome * 2 ^ 8)
    else if off = 0x24 then some (if c.live t then 0x7F else 0)
    else none
  | 0x03 =>
    if off = 0 then some (maskN 32 (fun r => c.ringUp t r))
    else if 0x100 ≤ off ∧ off < 0x900 ∧ off % 0x40 = 0x24 then
      let r := (off - 0x100) / 0x40
      some (countN 512 (fun b => c.flag t RING_BLK_QUAR r b) * 65536 + c.get t RING_QSTAT_STALE r)
    else none
  | 0x04 =>
    if off = 0 then some (c.get 0 SMP_FRAME_CFG_NEXT * 4 + c.get 0 SMP_FRAME_CFG_PERIOD)
    else if off = 0x24 then
      let l := (c.ow.filter (fun e => e.1 / 16384 == t)).map (fun e => e.1 % 16384)
      some ((l.filter (fun i => c.get t SMP_OW_CONF_WIRE i != 0)).length * 65536
        + (l.filter (fun i => c.get t SMP_OW_SUSP_WIRE i != 0)).length)
    else none
  | 0x08 => if off = 0x24 then some (c.bank.tick % 2 ^ 32) else none
  | 0x09 =>
    if off = 0x04 then some (c.fieldBits t LOOP_CH_COMMIT_PENDING 0)
    else if off = 0x08 then some (c.fieldBits t LOOP_CH_COMMIT_PENDING 32)
    else if off = 0x0C then some (c.fieldBits t LOOP_CH_FB_FAIL 0)
    else if off = 0x10 then some (c.fieldBits t LOOP_CH_FB_FAIL 32)
    else none
  | 0x0A =>
    if off = 0 then some (c.fieldWord k t off + b2n (c.carryIn.contains t) * 2 ^ 26)
    else if off = 0x14 then some (c.activeCrc t)
    else if 0x80 ≤ off ∧ off < 0xC0 ∧ c.get t BERYL_PA_CONN_KIND ((off - 0x80) / 4) = 1 then
      let w := c.fieldWord k t off
      some (if c.producing t ((off - 0x80) / 4) then w else w % 2 ^ 31)
    else none
  | 0x0B => if off = 0x100 ∨ off = 0x110 then some (2 ^ 31) else none
  | 0x0C =>
    let o := off % 0x2000
    if 0x1000 ≤ o ∧ o < 0x1100 then
      some (if o % 0x80 < 76 then c.fifoWord t (off / 0x2000) ((o - 0x1000) / 0x80) (o % 0x80 / 4) else 0)
    else none
  | 0x0E => c.shownImg m t off
  | 0x0F => if !c.hasCarry then some 0 else if off = 0x1C then some (c.restarts t) else none
  | 0x10 =>
    if 0x1000 ≤ off ∧ off < 0x2000 ∧ off % 16 = 0 then
      some (c.fieldWord k t off + c.level t ((off - 0x1000) / 16 / 64) * 2 ^ 30)
    else none
  | 0x11 => c.shownNet off
  | 0x12 => if off = 4 then some (c.fieldWord k t off + c.twb.taddr) else none
  | 0x13 => c.shownMod off
  | _ => none

/-- TIME_STATE of a tile: tile 0's, but not locked and not aligned while its own strobe is lost; which of the states that are
not locked it then shows is open (R344, R347, R349). -/
def Ctl.timeState (c : Ctl) (t : Nat) : Nat × Ctl :=
  let st := c.get 0 TIME_STATE_STATE
  let path := c.get 0 TIME_STATE_PATH * 32
  if c.flag t TIME_STATE_STROBE_LOST then
    if 2 ≤ st then
      let v := c.free
      (128 + path + v.1 % 2, v.2)
    else (128 + path + st, c)
  else (c.get 0 TIME_STATE_ALIGNED * 64 + path + st, c)

/-- A task whose entry for the end of a transmission on a port was LATE reads SYNC_DONE: the follow-up is withheld, event 0x7108
(R353, R354; DESIGN CHOICE, assumption 100: the read is where the time unit learns of it). -/
def Ctl.followLate (c : Ctl) (o : Origin) (t p : Nat) : Ctl :=
  match o with
  | .casda u i =>
    let k := c.task u i
    if u.val = t ∧ k.late ∧ k.entrySrc = 0x20 + p ∧ c.flag t TIME_CAN_CFG_SYNC_DONE p then c.event t 0x02 0x7108 else c
  | .host _ _ => c

/-- Registers of tile 0 that only System reads (R413). -/
def systemRead (t k off : Nat) : Bool :=
  t == 0 && k == 0x12 && (off == 0x08 || off == 0x10 || (decide (0x100 ≤ off) && decide (off < 0x140)))

/-- A read of the word at `off` of block `k` of a tile, with the effects of the read: RC fields, the latches of TIME, which
show no station time while it is not locked (R346), a word popped from a mailbox. EPOCH of a bank that holds no image is
open. Blocks 0x11 to 0x13 are tile 0's alone (R10, R34, R465). -/
def Ctl.regRead (c : Ctl) (m : Mem) (o : Origin) (t k off : Nat) : Nat × Ctl :=
  if 0x11 ≤ k ∧ t ≠ 0 then (0, c)
  else if systemRead t k off ∧ ¬ c.isSystem o then (0, c.violate o (modAddr t (0x200000000 + k * 0x10000 + off)) false)
  else if k = 0x02 ∧ off = 0x08 then ((c.readStnNs t).2, (c.readStnNs t).1)
  else if k = 0x02 ∧ (off = 0x0C ∨ off = 0x10) ∧ ¬ c.timeLocked t then (0, c)
  else if k = 0x02 ∧ off = 0x14 then c.timeState t
  else if k = 0x02 ∧ 0x100 ≤ off ∧ off < 0x140 ∧ off % 8 = 0 then
    (c.fieldWord k t off, (c.followLate o t ((off - 0x100) / 8)).clearRead k t off)
  else if k = 0x02 ∧ off = 0x2C then ((c.readOptime t).2, (c.readOptime t).1)
  else if k = 0x0E ∧ ((off = 4 ∧ c.img.boot.stateA = .empty) ∨ (off = 8 ∧ c.img.boot.stateB = .empty)) then
    (c.free.1 % 65536, c.free.2)
  else if k = 0x10 ∧ 0x104 ≤ off ∧ off < 0x180 ∧ off % 8 = 4 then
    ((c.mboxPop o t ((off - 0x104) / 8)).2, (c.mboxPop o t ((off - 0x104) / 8)).1)
  else
    let u := shownTile k t off
    match c.shown m k t off with
    | some w => (w, c.clearRead k u off)
    | none => (c.fieldWord k u off, c.clearRead k u off)

end Sys2Proof.Machine
end

