-- ==== Sys2Proof/Machine/RegWrite.lean ====
section
/-! DEFINITION. Machine/RegWrite.lean: a write of a register word: rights, the checks its chapter states, its effect where it
has one, and the access codes of its fields otherwise (R10, R42, R45, R46, and the register tables of each block). -/
namespace Sys2Proof.Machine

/-- The address of a register word. -/
def regAddr (t k off : Nat) : Nat := modAddr t (0x200000000 + k * 0x10000 + off)

/-- The fields of a word written by their access codes: RW sets, W1C clears, W1S sets bits, the others ignore (R10). -/
def Ctl.applyWrite (c : Ctl) (k t off w : Nat) : Ctl :=
  (fieldsAt k t off).foldl (fun (c : Ctl) f =>
    let v := f.of w
    let old := c.get t f.field f.i f.j
    match f.acc with
    | .rw => c.put t f.field v f.i f.j
    | .w1c => c.put t f.field (old - (old &&& v)) f.i f.j
    | .w1s => c.put t f.field (old ||| v) f.i f.j
    | _ => c) c

/-- A write of a word without an effect of its own: an unused offset ignores it, an accessor without the right is counted, a
check that fails rejects it (R32, R44, R45). -/
def Ctl.plainIf (c : Ctl) (may : Bool) (o : Origin) (t k off w code : Nat) : Ctl × Nat :=
  if (fieldsAt k t off).isEmpty then (c, eOk)
  else if !may then (c.violate o (regAddr t k off) true, eOk)
  else if code ≠ eOk then (c, code)
  else (c.applyWrite k t off w, eOk)

/-- Such a write by the rights of R42. -/
def Ctl.plain (c : Ctl) (o : Origin) (t k off w : Nat) (code : Nat := eOk) : Ctl × Nat :=
  c.plainIf (c.mayConfig o) o t k off w code

/-- Such a write by System only. -/
def Ctl.plainSystem (c : Ctl) (o : Origin) (t k off w : Nat) (code : Nat := eOk) : Ctl × Nat :=
  c.plainIf (c.isSystem o) o t k off w code

/-- A write with an effect, by the rights of R42. -/
def Ctl.gated (c : Ctl) (o : Origin) (t k off : Nat) (f : Ctl → Ctl × Nat) : Ctl × Nat :=
  if !c.mayConfig o then (c.violate o (regAddr t k off) true, eOk) else f c

/-- E_RANGE unless the condition holds. -/
def rangeIf (ok : Bool) : Nat := if ok then eOk else eRange

/-- Whether `lo ≤ v ≤ hi`. -/
def within (lo v hi : Nat) : Bool := decide (lo ≤ v) && decide (v ≤ hi)

/-- A write of the PWR block; EST_TASK stays where the writer is not System (R339). -/
def Ctl.writePwr (c : Ctl) (o : Origin) (t off w : Nat) : Ctl × Nat :=
  let k := 0x01
  if off = 0x04 then
    c.plain o t k off w (rangeIf (within 85 (bitsOf w 16 8) 110 && within 40 (bitsOf w 8 8) 140 && within 40 (w % 256) 140
      && decide (w % 256 ≤ bitsOf w 8 8)))
  else if off = 0x08 then
    let depth := bitsOf w 22 10
    let res := bitsOf w 12 10
    c.plainSystem o t k off w (rangeIf (within 100 depth 1000 && decide (res ≤ 500) && decide (res + 100 ≤ depth)))
  else if off = 0x10 then
    let est := c.get t PWR_LADDER_EST_TASK
    let x := c.plain o t k off w (rangeIf (bitsOf w 16 8 != 0))
    let y := if c.isSystem o then x.1 else x.1.put t PWR_LADDER_EST_TASK est
    let now := y.get t PWR_LADDER_EST_TASK
    (if now ≠ 0xFF ∧ y.flag t TASK_STATE_GATED now ∧ ¬ y.estGated.contains t then { y with estGated := t :: y.estGated } else y, x.2)
  else if off = 0x20 then c.plainSystem o t k off w (rangeIf (decide (bitsOf w 8 6 ≤ 40)))
  else c.plain o t k off w

/-- A write of the TIME block (R355). -/
def Ctl.writeTime (c : Ctl) (o : Origin) (t off w : Nat) : Ctl × Nat :=
  let k := 0x02
  if off = 0x1C ∧ t = 0 then c.ptpCfgWrite o w
  else if 0x100 ≤ off ∧ off < 0x140 then
    c.gated o t k off (fun c => c.timeCanWrite t ((off - 0x100) / 8) (off % 8 == 4) w)
  else if 0x200 ≤ off ∧ off < 0x280 then
    let p := (off - 0x200) / 16
    if off % 16 = 0 ∧ c.isSystem o then (c.put t TIME_CAN_FU_NS w p, eOk)
    else if off % 16 = 4 ∧ c.isSystem o then (c.put t TIME_CAN_FU_SEC w p, eOk)
    else if off % 16 = 8 then c.followWrite o t p w
    else if off % 16 = 12 then (c, eOk)
    else (c.violate o (regAddr t k off) true, eOk)
  else c.plain o t k off w

/-- A write of the RING block (R155). -/
def writeRing (m : Mem) (c : Ctl) (o : Origin) (t off w : Nat) : MC × Nat :=
  let k := 0x03
  let r := (off - 0x100) / 0x40
  let per := decide (0x100 ≤ off) && decide (off < 0x900)
  let busy := c.rstate t r == rgEnum
  if off = 0x0C then smapCommit m c o t (w % 32)
  else if per ∧ off % 0x40 = 0 then ringCtrlWrite m c o t r w
  else
    let x :=
      if per ∧ off % 0x40 = 0x08 then c.plain o t k off w (rangeIf (decide (w % 1024 ≤ 512)))
      else if per ∧ off % 0x40 = 0x10 then
        c.plain o t k off w (firstErr [(decide (w % 65536 ≤ w / 65536), eRange), (busy, eBusy)])
      else if per ∧ off % 0x40 = 0x14 then c.plain o t k off w (firstErr [(busy, eBusy)])
      else c.plain o t k off w
    ((m, x.1), x.2)

/-- A write of the SMP block (R182). -/
def Ctl.writeSmp (c : Ctl) (o : Origin) (t off w : Nat) : Ctl × Nat :=
  let k := 0x04
  if off = 0x00 then
    if t = 0 then c.frameNextWrite o (bitsOf w 2 2) else c.gated o t k off (fun c => (c, eOk))
  else if off = 0x20 then
    c.plain o t k off w (rangeIf (bitsOf w 24 8 != 0 && decide (10 ≤ bitsOf w 16 8) && decide (5 ≤ bitsOf w 8 8)
      && bitsOf w 4 4 != 0))
  else if off = 0x30 then c.burstCtrlWrite o t w
  else if off = 0x34 then
    let b := bitsOf w 26 6
    c.plainSystem o t k off w (firstErr [(!(b == 0x02 || decide (0x20 ≤ b)), eRange), (c.flag t SMP_BURST_CTRL_ACTIVE, eLocked)])
  else c.plain o t k off w

/-- A write of the LIMIT block (R183). -/
def Ctl.writeLimit (c : Ctl) (o : Origin) (t off w : Nat) : Ctl × Nat :=
  if off = 0x08 then c.limitCommit o t w
  else if off = 0x0C then c.plain o t 0x05 off w (rangeIf (decide (16 ≤ bitsOf w 24 8) && bitsOf w 20 4 != 0))
  else if 0x800 ≤ off ∧ off < 0x880 then c.limitSelWrite o t ((off - 0x800) / 4) w
  else c.plain o t 0x05 off w

/-- A write of the EST block (R225). -/
def Ctl.writeEst (c : Ctl) (o : Origin) (t off w : Nat) : Ctl × Nat :=
  let ok : Bool :=
    if off = 0x08 then within 1 (bitsOf w 24 8) 240
    else if off = 0x10 then within 60 (bitsOf w 20 12) 3600 && within 1 (bitsOf w 10 10) 720 && within 1 (bitsOf w 0 10) 720
    else if off = 0x14 then within 1 (bitsOf w 24 8) 100 && within 10 (bitsOf w 16 8) 200 && within 10 (bitsOf w 0 16) 2000
    else if off = 0x18 then
      within 100 (bitsOf w 16 16) 2000 && within 1 (bitsOf w 12 4) 7 && within 1 (bitsOf w 8 4) 15 && decide (16 ≤ bitsOf w 0 8)
    else if off = 0x1C then within 1 (bitsOf w 0 16) 500
    else if off = 0x20 ∨ off = 0x24 then (List.range 8).all (fun j => decide (bitsOf w (4 * j) 4 ≤ 5) || bitsOf w (4 * j) 4 == 15)
    else true
  if off = 0x30 then c.staleClearWrite o t w else c.plain o t 0x06 off w (rangeIf ok)

/-- A write of the BAL block (R244). -/
def writeBal (m : Mem) (c : Ctl) (o : Origin) (t off w : Nat) : MC × Nat :=
  let k := 0x07
  let only : Ctl × Nat → MC × Nat := fun x => ((m, x.1), x.2)
  if off = 0x04 then only (c.plain o t k off w (rangeIf (decide (bitsOf w 24 8 ≤ 200) && within 1 (bitsOf w 16 8) 60)))
  else if off = 0x08 then
    only (c.plain o t k off w (rangeIf (within 10 (bitsOf w 21 11) 2000 && within 10 (bitsOf w 10 11) 1000
      && decide (bitsOf w 0 10 ≤ 500))))
  else if 0x100 ≤ off ∧ off < 0x180 then
    if !c.mayConfig o then ((m, c.violate o (regAddr t k off) true), eOk) else balRingCfgWrite m c t ((off - 0x100) / 4) w
  else if 0x200 ≤ off ∧ off < 0x300 then
    only (c.gated o t k off (fun c => c.balContWrite t ((off - 0x200) / 8) (off % 8 == 4) w))
  else only (c.plain o t k off w)

/-- A write of the DISP block; other tiles hold read-only copies of tile 0's registers (R265). -/
def Ctl.writeDisp (c : Ctl) (o : Origin) (t off w : Nat) : Ctl × Nat :=
  let k := 0x08
  if off < 0x20 ∧ t ≠ 0 then c.gated o t k off (fun c => (c, eOk))
  else if off = 0x14 then
    c.plain o t k off w (rangeIf (within 1 (bitsOf w 25 7) 100 && bitsOf w 23 2 != 3 && within 2 (bitsOf w 8 8) 100
      && within 4 (bitsOf w 0 8) 200))
  else if off = 0x18 then c.plain o t k off w (rangeIf (bitsOf w 16 16 != 0))
  else if off = 0x1C then c.plain o t k off w (rangeIf (decide (bitsOf w 8 8 ≤ 100) && decide (2 ≤ bitsOf w 0 8)))
  else if off = 0x20 then c.plain o t k off w (rangeIf (within 60 (bitsOf w 16 16) 1800 && decide (bitsOf w 0 6 ≤ 32)))
  else if 0x200 ≤ off ∧ off < 0x300 then
    c.gated o t k off (fun c => c.dispContWrite t ((off - 0x200) / 8) (off % 8 == 4) w)
  else c.plain o t k off w

/-- A write of the LOOP block (R285). -/
def Ctl.writeLoop (c : Ctl) (o : Origin) (t off w : Nat) : Ctl × Nat :=
  let k := 0x09
  if off = 0 then c.loopCommitWrite o t w
  else if 0x1000 ≤ off ∧ off < 0x5000 then
    let p := off % 0x100 / 4
    c.shadowWrite o t ((off - 0x1000) / 0x100) p w
  else if 0x9000 ≤ off ∧ off < 0xD000 then
    let j := off % 0x100 / 4
    if j ≤ 32 then c.gainWrite o t ((off - 0x9000) / 0x200) j (off % 0x200 ≥ 0x100) w else (c, eOk)
  else if 0xD000 ≤ off ∧ off < 0xE000 then
    c.gated o t k off (fun c => c.inMapWrite t ((off - 0xD000) / 16) (off % 16 / 4) w)
  else if 0xE000 ≤ off ∧ off < 0xE800 ∧ off % 8 = 0 then c.softWrite o t ((off - 0xE000) / 8) w
  else if 0xE800 ≤ off ∧ off < 0xE880 then
    c.gated o t k off (fun c => c.oframeWrite t ((off - 0xE800) / 8) (off % 8 / 4) w)
  else if 0xF000 ≤ off ∧ off < 0xF100 ∧ off % 0x20 < 0x10 then c.traceWrite o t ((off - 0xF000) / 0x20) (off % 0x20 / 4) w
  else c.plain o t k off w

/-- A write of the BERYL block: the pending parameter area alone, under R314 (R42, R318). -/
def Ctl.writeBeryl (c : Ctl) (o : Origin) (t off w : Nat) : Ctl × Nat :=
  if 0x400 ≤ off ∧ off < 0x580 then c.berylParamWrite o t ((off - 0x400) / 4) w
  else c.plainIf (isRole o .safety) o t 0x0A off w eOk

/-- A write of the DMA block (R428). -/
def writeDma (m : Mem) (c : Ctl) (o : Origin) (t off w : Nat) : MC × Nat :=
  if off = 0 then dmaCtrlWrite m c o t w
  else if 0x100 ≤ off ∧ off < 0x200 ∧ off % 16 = 0 then dmaChWrite m c o t ((off - 0x100) / 16) w
  else ((m, (c.plain o t 0x0B off w).1), (c.plain o t 0x0B off w).2)

/-- A write of the CAN block (R394). -/
def Ctl.writeCan (c : Ctl) (o : Origin) (t off w : Nat) : Ctl × Nat :=
  let k := 0x0C
  let p := off / 0x2000
  let f := off % 0x2000
  if f = 0x00 then c.canCtrlWrite o t p w
  else if f = 0x04 ∨ f = 0x08 then c.gated o t k off (fun c => c.canTimingWrite t p (f == 0x08) w)
  else if f = 0x14 then c.gated o t k off (fun c => c.canWarnWrite t p w)
  else if f = 0x20 then c.txreqWrite o t p w
  else if f = 0x24 then c.txcancelWrite o t p w
  else if f = 0x40 then c.rxPopWrite o t p w
  else if f = 0x48 then c.canRateWrite o t p w
  else if f = 0x4C then c.plain o t k off w (rangeIf (within 1 (bitsOf w 16 16) 60 && within 10 (bitsOf w 0 16) 1000))
  else if 0x400 ≤ f ∧ f < 0xE00 then
    if (f - 0x400) % 0x50 / 4 < 18 then c.windowWrite o t p ((f - 0x400) / 0x50) ((f - 0x400) % 0x50 / 4) w else (c, eOk)
  else if 0x1200 ≤ f ∧ f < 0x1400 then
    c.gated o t k off (fun c => c.filterWrite t p ((f - 0x1200) / 8) (f % 8 == 4) w)
  else c.plain o t k off w

/-- A write of the EVT block (R439). -/
def Ctl.writeEvt (c : Ctl) (o : Origin) (t off w : Nat) : Ctl × Nat :=
  if off = 0x08 then c.evtRptrWrite o t w
  else if off = 0x0C then c.plain o t 0x0D off w (rangeIf (within 1 (bitsOf w 0 21) 1048576))
  else if 0x100 ≤ off ∧ off < 0x140 then c.evtClassWrite o t ((off - 0x100) / 4) w
  else if 0x8000 ≤ off then c.codeTableWrite o t ((off - 0x8000) / 8) (off % 8 / 4) w
  else c.plain o t 0x0D off w

/-- A write of the IMG block (R465). -/
def writeImg (m : Mem) (c : Ctl) (o : Origin) (t off w : Nat) : MC × Nat :=
  if off = 0x24 then selfcheckWrite m c o t w
  else if off = 0x28 ∧ t = 0 then imgCtrlWrite m c o w
  else if off = 0x1C then
    let x := c.plain o t 0x0E off w (rangeIf (within 60 (bitsOf w 0 12) 3600))
    ((m, if x.2 = eOk then x.1.autoConfirm m else x.1), x.2)
  else ((m, (c.plain o t 0x0E off w).1), (c.plain o t 0x0E off w).2)

/-- A write of the CASDA block (R84, R85). -/
def Ctl.writeCasda (c : Ctl) (o : Origin) (t off w : Nat) : Ctl × Nat :=
  if off = 0x00 then c.coreCtrlWrite o t w
  else if off = 0x08 then c.wdogCfgWrite o t w
  else if off = 0x0C then c.wdogKick o t w
  else if 0x20 ≤ off ∧ off < 0x30 then c.timerWrite o t ((off - 0x20) / 4) w
  else if 0x100 ≤ off ∧ off < 0x180 ∧ off % 8 = 0 then c.mboxPost o t ((off - 0x100) / 8) w
  else if 0x200 ≤ off ∧ off < 0x240 then c.mboxCfgWrite o t ((off - 0x200) / 4) w
  else if 0x800 ≤ off ∧ off < 0x900 then c.irqRouteWrite o t ((off - 0x800) / 4) w
  else if 0x1000 ≤ off ∧ off < 0x2000 ∧ off % 16 = 0 then c.taskCfgWrite o t ((off - 0x1000) / 16) w
  else if 0x1000 ≤ off ∧ off < 0x2000 ∧ off % 16 = 4 then c.taskEntryWrite o t ((off - 0x1000) / 16) w
  else if 0x1000 ≤ off ∧ off < 0x2000 ∧ !(c.isSystem o || isRole o .engineer && c.level t ((off - 0x1000) / 1024) == 0) then
    (c.violate o (casdaAddr t off) true, eOk)
  else c.plain o t 0x10 off w

/-- A write of the NET block; the IP configuration takes effect with NET_IP_CONFIG_APPLY (R377). -/
def Ctl.writeNet (c : Ctl) (o : Origin) (off w : Nat) : Ctl × Nat :=
  let k := 0x11
  let f := (off - 0x100) % 0x40
  if off = 0 then
    c.plain o 0 k off w (rangeIf (within 10 (bitsOf w 0 12) 3600 && (!bit w 30 || within 1 (bitsOf w 12 12) 4094)))
  else if 0x100 ≤ off ∧ off < 0x180 ∧ 0x0C ≤ f ∧ f < 0x2C then
    let ok := if f = 0x14 then within 8 (w % 64) 30 else if f = 0x28 then within 16 (w % 128) 127 else true
    let x := c.plain o 0 k off w (rangeIf ok)
    if c.mayConfig o ∧ ok then
      let pend := (fieldsAt k 0 off).foldl (fun (l : Tab Nat) e => tabSet l (e.field.key 0 e.i e.j) (e.of w)) c.net.ipPending
      ({ x.1 with net := { x.1.net with ipPending := pend } }, x.2)
    else x
  else c.plain o 0 k off w

/-- A write of the TWB block (R413). -/
def Ctl.writeTwb (c : Ctl) (o : Origin) (off w : Nat) : Ctl × Nat :=
  if off = 0x00 then twbCfgWrite c o w
  else if off = 0x08 then twbJobWrite c o w
  else if off = 0x10 ∨ 0x100 ≤ off then c.plainSystem o 0 0x12 off w
  else c.plain o 0 0x12 off w

/-- A write of a register word by its block. -/
def blockWrite (m : Mem) (c : Ctl) (o : Origin) (t k off w : Nat) : MC × Nat :=
  let only : Ctl × Nat → MC × Nat := fun x => ((m, x.1), x.2)
  match k with
  | 0x00 => only (c.plain o t 0x00 off w)
  | 0x01 => only (c.writePwr o t off w)
  | 0x02 => only (c.writeTime o t off w)
  | 0x03 => writeRing m c o t off w
  | 0x04 => only (c.writeSmp o t off w)
  | 0x05 => only (c.writeLimit o t off w)
  | 0x06 => only (c.writeEst o t off w)
  | 0x07 => writeBal m c o t off w
  | 0x08 => only (c.writeDisp o t off w)
  | 0x09 => only (c.writeLoop o t off w)
  | 0x0A => only (c.writeBeryl o t off w)
  | 0x0B => writeDma m c o t off w
  | 0x0C => only (c.writeCan o t off w)
  | 0x0D => only (c.writeEvt o t off w)
  | 0x0E => writeImg m c o t off w
  | 0x0F => if !c.hasCarry then only (c, eOk)
    else if off = 4 then only (carryCtrlWrite c o t w) else only (c.plain o t 0x0F off w)
  | 0x10 => if off = 0x14 then taskCmdM m c o t (bitsOf w 24 8) (bitsOf w 0 8) else only (c.writeCasda o t off w)
  | 0x11 => only (c.writeNet o off w)
  | 0x12 => only (c.writeTwb o off w)
  | 0x13 => if off = 0x18 then tileCtrlWrite m c o w else only (c.plain o 0 0x13 off w)
  | _ => only (c, eOk)

/-- Whether a word holds a setting of the configuration store. -/
def configWord (k t off : Nat) : Bool := (fieldsAt k t off).any (fun f => isConfig t (f.field.key t f.i f.j))

/-- A write of a register word, and the copy of an accepted setting for the partner (R453, R462). Blocks 0x11 to 0x13 are
tile 0's alone (R34). -/
def regWrite (m : Mem) (c : Ctl) (o : Origin) (t k off w : Nat) : MC × Nat :=
  if 0x11 ≤ k ∧ t ≠ 0 then ((m, c), eOk)
  else
    let x := blockWrite m c o t k off w
    if x.2 = eOk && c.hasCarry && configWord k t off && !violates c o (fun c => (blockWrite m c o t k off w).1.2) then
      ((x.1.1, x.1.2.configCopied t), x.2)
    else x

/-- REGISTER_WRITE: a write of a register word by an accessor that reaches the tile. -/
def execRegisterWrite (t : TileId) (o : Origin) (k : Fin 20) (off : Fin 16384) (w : Word) (s : State) :
    Host.Outcome State Fault Refusal :=
  s.onAccessM o (fun m c => accessM m c o t k (fun m c => regWrite m c o t k (4 * off.val) w.toNat))

end Sys2Proof.Machine
end

