-- ==== Sys2Proof/Machine/Memory.lean ====
section
/-! DEFINITION. Machine/Memory.lean: accesses to the module address space: scalar loads, stores and AMOs, host READ and WRITE,
and the copy of TELEM ranges (R31 to R47, R60, R63, R65, R74, R365, R368). -/
namespace Sys2Proof.Machine

/-! ## Bytes of an address range -/

/-- `n` bytes from an offset of a tile; unused offsets read as zero (R32). -/
def Ctl.bytesAt (c : Ctl) (m : Mem) (u off n : Nat) : List Byte := (List.range n).map (fun j => c.byteAt m u (off + j))

/-- Bytes stored from an offset of a tile; unused offsets ignore them (R32). -/
def storeAt (m : Mem) (u off : Nat) : List Byte → Mem
  | [] => m
  | b :: bs => storeAt (if (regionOf off).isMem then memWrite m (modAddr u off) b else m) u (off + 1) bs

/-- The regions `n` bytes touch. -/
def regionsOf (off n : Nat) : List Region := (List.range n).map (fun j => regionOf (off + j))

/-- The block and the offset in it of an offset in the register blocks (R32). -/
def blockOf (off : Nat) : Nat := (off - 0x200000000) / 0x10000
/-- The offset in the block. -/
def blockOff (off : Nat) : Nat := off % 0x10000

/-! ## Casda accesses -/

/-- The tile core that has the local-memory rights of an access to tile `u`. -/
def ownCore (t i u : Nat) : Option Nat := if u = t then some (i / 64) else none

/-- The result of a Casda access of a task: memory, control, value. -/
abbrev Access := Mem × Ctl × Nat

/-- A load of `n` bytes at a module address: a violation, a wrong width or alignment on a register block and a tile that
cannot be reached read as zero (R33, R36, R44, R65). BLOCK of TILE_LAST_ERR is the k of the address named, on an absent tile
too, where no block rejects (R48; DESIGN CHOICE, assumption 78). -/
def casdaLoad (m : Mem) (c : Ctl) (t : TileId) (i a n : Nat) : Ctl × Nat :=
  let o := taskOrigin t i
  let u := a / 2 ^ 36
  let off := a % 2 ^ 36
  let rs := regionsOf off n
  let k := blockOf off
  let sys := c.level t (i / 64) == 1
  if rs.contains .blocks then
    let w := off / 4 * 4
    if violates c o (fun c => (c.regRead m o u (blockOf w) (blockOff w)).2) then (c.violate o a false, 0)
    else if n ≠ 4 ∨ off % 4 ≠ 0 then (c.lastErr t k eFormat, 0)
    else if !c.reaches t a then (c.lastErr t k eAbsent, 0)
    else ((c.regRead m o u k (blockOff off)).2, (c.regRead m o u k (blockOff off)).1)
  else if rs.any (fun r => !memGrant sys (ownCore t i u) false r) then (c.violate o a false, 0)
  else if !c.reaches t a then (c.lastErr t 0xFF eAbsent, 0)
  else if inConfigStore off n then (c.free.2, c.free.1)
  else (c, leNat (c.bytesAt m u off n))

/-- A store of `n` bytes (R33, R36, R44, R45). -/
def casdaStore (m : Mem) (c : Ctl) (t : TileId) (i a n v : Nat) : MC :=
  let o := taskOrigin t i
  let u := a / 2 ^ 36
  let off := a % 2 ^ 36
  let rs := regionsOf off n
  let k := blockOf off
  let sys := c.level t (i / 64) == 1
  if rs.contains .blocks then
    let w := off / 4 * 4
    if violates c o (fun c => (regWrite m c o u (blockOf w) (blockOff w) v).1.2) then (m, c.violate o a true)
    else if n ≠ 4 ∨ off % 4 ≠ 0 then (m, c.lastErr t k eFormat)
    else accessM m c o u k (fun m c => regWrite m c o u k (blockOff off) v)
  else if rs.any (fun r => !memGrant sys (ownCore t i u) true r) then (m, c.violate o a true)
  else if !c.reaches t a then (m, c.lastErr t 0xFF eAbsent)
  else (storeAt m u off (leBytes n v), c)

/-- The new value of a word under an AMO (R63); none for a func that is not assigned. -/
def amoFn (func : Nat) (old b d : Word) : Option Word :=
  match func with
  | 0x000 => some b
  | 0x001 => some (old + b)
  | 0x002 => some (old &&& b)
  | 0x003 => some (old ||| b)
  | 0x004 => some (old ^^^ b)
  | 0x005 => some (if old.toNat < b.toNat then b else old)
  | 0x006 => some (if old.toNat < b.toNat then old else b)
  | 0x007 => some (if old = d then b else old)
  | _ => none

/-- An AMO at a module address with the function on the old value (R63). -/
def casdaAmo (m : Mem) (c : Ctl) (t : TileId) (i a : Nat) (f : Word → Word) : Access :=
  let o := taskOrigin t i
  let u := a / 2 ^ 36
  let off := a % 2 ^ 36
  let sys := c.level t (i / 64) == 1
  let r := regionOf off
  let deny : Bool → Bool := fun w => (regionsOf off 4).any (fun r => !memGrant sys (ownCore t i u) w r)
  let blk := if r = .blocks then blockOf off else 0xFF
  let w := off / 4 * 4
  let x := c.regRead m o u (blockOf w) (blockOff w)
  if deny false ∨ deny true then (m, c.violate o a (!deny false), 0)
  else if r = .blocks ∧ violates c o (fun c => (c.regRead m o u (blockOf w) (blockOff w)).2) then (m, c.violate o a false, 0)
  else if r = .blocks ∧ violates c o (fun c =>
      (regWrite m c o u (blockOf w) (blockOff w) (f (BitVec.ofNat 32 x.1)).toNat).1.2) then (m, c.violate o a true, 0)
  else if off % 4 ≠ 0 ∨ r = .blocks ∨ r = .nvm ∨ r = .tail ∨ r = .nvOwner then (m, c.lastErr t blk eFormat, 0)
  else if !c.reaches t a then (m, c.lastErr t 0xFF eAbsent, 0)
  else
    let old := leNat (c.bytesAt m u off 4)
    (storeAt m u off (leBytes 4 (f (BitVec.ofNat 32 old)).toNat), c, old)

/-- Whether an access of a task ends in an uncorrectable error: the data come from memory it may read (R74, R112). -/
def Ctl.eccHits (c : Ctl) (t i a n : Nat) : Bool :=
  c.reaches t a && (regionsOf (a % 2 ^ 36) n).all (fun r =>
    r.isMem && memGrant (c.level t (i / 64) == 1) (ownCore t i (a / 2 ^ 36)) false r)

/-- The module address of a load, store or AMO of a task (R35). -/
def Ctl.dataAddr (c : Ctl) (t i : Nat) (x : Word) : Nat := ownTile t ((c.task t i).addrExt % 256 * 2 ^ 32 + x.toNat)

/-! ## Loads, stores and AMOs (R60, R63, R65) -/

/-- Opcode and width in bytes of a load. -/
def loadCode : LoadOp → Nat × Nat
  | .lb => (0x10, 1)
  | .lbu => (0x11, 1)
  | .lh => (0x12, 2)
  | .lhu => (0x13, 2)
  | .lw => (0x14, 4)
  | .ldp => (0x16, 8)

/-- The value a load leaves in s[d]. -/
def loadValue (op : LoadOp) (v : Nat) : Word :=
  match op with
  | .lb => BitVec.ofInt 32 (toSigned 8 v)
  | .lh => BitVec.ofInt 32 (toSigned 16 v)
  | _ => BitVec.ofNat 32 v

/-- Opcode and width in bytes of a store. -/
def storeCode : StoreOp → Nat × Nat
  | .sb => (0x18, 1)
  | .sh => (0x19, 2)
  | .sw => (0x1A, 4)
  | .sdp => (0x1B, 8)

/-- LOAD: a scalar load at s[a] + sext(imm16); `ecc` is an uncorrectable error on the data (R60, R65, R74). -/
def execLoad (t : TileId) (k : CoreId) (op : LoadOp) (d a : Fin 32) (imm : BitVec 16) (ecc : Bool) (s : State) :
    Host.Outcome State Fault Refusal :=
  s.onTileR t (fun m c => c.instr t k (wordI (loadCode op).1 d a imm.toNat) (decide (op = .ldp) && d.val % 2 == 1)
    (fun i c =>
      let c := c.memOrder t i
      let x := (c.task t i).reg a + imm.signExtend 32
      let p := c.dataAddr t i x
      if ecc && c.eccHits t i p (loadCode op).2 then c.takeTrap t i 0x04 x.toNat
      else
        let y := casdaLoad (c.landed m t) c t i p (loadCode op).2
        let c := y.1
        if op = .ldp then
          (c.setTask t i ((c.task t i).setReg (d.val + 1) (BitVec.ofNat 32 (y.2 / 2 ^ 32)))).retire t i d (BitVec.ofNat 32 y.2)
        else c.retire t i d (loadValue op y.2)))

/-- STORE: a scalar store at s[a] + sext(imm16). The instruction is past before its effect, which may end the task. -/
def execStore (t : TileId) (k : CoreId) (op : StoreOp) (d a : Fin 32) (imm : BitVec 16) (s : State) :
    Host.Outcome State Fault Refusal :=
  s.onTileM t (fun m c => instrM m c t k (wordI (storeCode op).1 d a imm.toNat) (decide (op = .sdp) && d.val % 2 == 1)
    (fun i c =>
      let c := c.memOrder t i
      let n := (storeCode op).2
      let kt := c.task t i
      let v := (kt.reg d).toNat + (if op = .sdp then (kt.reg (d.val + 1)).toNat * 2 ^ 32 else 0)
      let x := dmaLand t (m, c.next t i)
      casdaStore x.1 x.2 t i (c.dataAddr t i (kt.reg a + imm.signExtend 32)) n (v % 256 ^ n)))

/-- AMO: an atomic read-modify-write of the word at s[a]; the old value goes to s[d] (R63). -/
def execAmo (t : TileId) (k : CoreId) (d a b : Fin 32) (func : Fin 2048) (ecc : Bool) (s : State) :
    Host.Outcome State Fault Refusal :=
  s.onTileM t (fun m c => instrM m c t k (wordA 0x1C d a b func) (decide (8 ≤ func.val)) (fun i c =>
    let c := c.memOrder t i
    let kt := c.task t i
    let p := c.dataAddr t i (kt.reg a)
    let r := regionOf (p % 2 ^ 36)
    let x := dmaLand t (m, c)
    if ecc && c.eccHits t i p 4 && p % 4 == 0 && (r == .dram || r == .owner || (match r with | .loc _ => true | _ => false)) then
      (x.1, x.2.takeTrap t i 0x04 (kt.reg a).toNat)
    else
      let y := casdaAmo x.1 x.2 t i p (fun old => (amoFn func old (kt.reg b) (kt.reg d)).getD old)
      (y.1, y.2.1.retire t i d (BitVec.ofNat 32 y.2.2))))

/-! ## Host READ and WRITE (R365) -/

/-- Whether a host role has a right to a memory region (R41). -/
def hostGrant (r : Role) (write : Bool) : Region → Bool
  | .nvm => false
  | .owner => !write || r == .engineer
  | .nvOwner => !write || r == .engineer
  | .blocks => true
  | .unused => true
  | _ => !write

/-- The listed range of R32 an offset lies in; 4 for none. -/
def rangeOf (off : Nat) : Nat :=
  if off < 0x100000000 then 0
  else if off < 0x120000000 then 1
  else if 0x200000000 ≤ off ∧ off < 0x200140000 then 2
  else if 0x300000000 ≤ off ∧ off < 0x300100000 then 3
  else 4

/-- The words of a register range read one after another, as bytes. -/
def hostWords (m : Mem) (o : Origin) (u : Nat) (offs : List Nat) (c : Ctl) : List Byte × Ctl :=
  offs.foldl (fun x off =>
    let y := x.2.regRead m o u (blockOf off) (blockOff off)
    (x.1 ++ leBytes 4 y.1, y.2)) ([], c)

/-- The offsets of the words of a register range. -/
def wordOffs (off n : Nat) : List Nat := (List.range (n / 4)).map (fun j => off + 4 * j)

/-- Checks of format, existence and range of an access of `n` bytes, in the order of R46 (R33, R36, R47, R365). -/
def Ctl.hostCode (c : Ctl) (a n : Nat) (write : Bool) : Nat :=
  let off := a % 2 ^ 36
  let last := off + n - 1
  firstErr [
    (rangeOf off != rangeOf last
      || (rangeOf off == 2 && (off % 4 != 0 || n % 4 != 0 || (write && blockOf off != blockOf last))), eFormat),
    (!c.running (a / 2 ^ 36), eAbsent)]

/-- The effect of a READ. -/
def hostRead (q : Req) (m : Mem) (c : Ctl) : Eff :=
  let a := q.arg 0 5
  let n := q.arg 6 2
  let u := a / 2 ^ 36
  let off := a % 2 ^ 36
  if (regionsOf off n).any (fun r => !hostGrant q.role false r)
      || (rangeOf off == 2 && (wordOffs (off / 4 * 4) (off % 4 + n + 3)).any (fun w => systemRead u (blockOf w) (blockOff w))) then
    .deny m c q.origin a false (List.replicate n 0)
  else
    let e := firstErr [(c.hostCode a n false != eOk, c.hostCode a n false), (n == 0 || decide (1024 < n), eRange)]
    if e ≠ eOk then .err m c e
    else if rangeOf off = 2 then
      let x := hostWords m q.origin u (wordOffs off n) c
      { mem := m, ctl := x.2, result := x.1 }
    else { mem := m, ctl := c, result := c.bytesAt m u off n }

/-- Register words of one block written one after another; the first code that is not OK. -/
def writeWords (o : Origin) (u : Nat) : List (Nat × Nat) → MC × Nat → MC × Nat
  | [], x => x
  | (off, w) :: l, x =>
    if x.2 ≠ eOk then x else writeWords o u l (regWrite x.1.1 x.1.2 o u (blockOf off) (blockOff off) w)

/-- The effect of a WRITE: to registers of one block completely or not at all (R47). -/
def hostWrite (q : Req) (m : Mem) (c : Ctl) : Eff :=
  let a := q.arg 0 5
  let n := q.arg 6 2
  let u := a / 2 ^ 36
  let off := a % 2 ^ 36
  let data := q.bytes 8 n
  let wordsOf : Nat → List (Nat × Nat) := fun n =>
    (wordOffs (off / 4 * 4) n).map (fun w => (w, leNat ((data.drop (w - off / 4 * 4)).take 4)))
  let words := wordsOf n
  let regs := rangeOf off == 2
  let e := firstErr [(c.hostCode a n true != eOk, c.hostCode a n true), (n == 0 || decide (1024 < n), eRange)]
  let refused := (regionsOf off n).any (fun r => !hostGrant q.role true r)
    || (regs && (wordsOf (off % 4 + n + 3)).any (fun w =>
      violates c q.origin (fun c => (regWrite m c q.origin u (blockOf w.1) (blockOff w.1) w.2).1.2)))
  if refused then .deny m c q.origin a true
  else if e ≠ eOk then .err m c e
  else if regs then
    let x := writeWords q.origin u words ((m, c), eOk)
    if x.2 ≠ eOk then .err m c x.2 else { mem := x.1.1, ctl := x.1.2 }
  else { mem := storeAt m u off data, ctl := c }

/-- Whether TILE of a READ or WRITE is 0xFF or the tile field of the address (R359). -/
def tileMatches (d : Datagram) : Bool := d.tile == 0xFF || d.tile.toNat == beNat (d.payload.take 5) / 2 ^ 36

/-- HOST_READ. -/
def execHostRead (d : Datagram) (s : State) : Host.Outcome State Fault Refusal :=
  s.onModuleM (fun m c => chpRequest 0x01 0 d (tileMatches d) (d.payload.length == 8) hostRead m c)

/-- HOST_WRITE. -/
def execHostWrite (d : Datagram) (s : State) : Host.Outcome State Fault Refusal :=
  s.onModuleM (fun m c => chpRequest 0x02 0 d (tileMatches d)
    (decide (8 ≤ d.payload.length) && d.payload.length == 8 + beNat ((d.payload.drop 6).take 2)) hostWrite m c)

/-! ## TELEM (R367, R368) -/

/-- The bytes of a TELEM range; one the role may not read gives zeros (R44, R367). -/
def telemRange (m : Mem) (r : Role) (o : Origin) (x : List Byte × Ctl) (e : Nat × Nat) : List Byte × Ctl :=
  let u := e.1 / 2 ^ 36
  let off := e.1 % 2 ^ 36
  if (regionsOf off e.2).any (fun g => !hostGrant r false g) then
    (x.1 ++ List.replicate e.2 0, x.2.violate o e.1 false)
  else
    (wordOffs off e.2).foldl (fun x w =>
      if rangeOf w = 2 then
        let y := x.2.regRead m o u (blockOf w) (blockOff w)
        (x.1 ++ leBytes 4 y.1, y.2)
      else (x.1 ++ x.2.bytesAt m u w 4, x.2)) x

/-- TELEM_COPY: the ranges of a subscription whose copy is due are copied and sent. -/
def execTelemCopy (sub : Fin 32) (s : State) : Host.Outcome State Fault Refusal :=
  s.onModuleR (fun m c =>
    match tabFind c.net.subs sub with
    | none => c
    | some x =>
      match x.kind with
      | .telem tile _ _ ranges =>
        if !x.due then c
        else
          let c := { c with net := { c.net with subs := tabSet c.net.subs sub { x with due := false } } }
          let y := c.session x.slot
          let st := c.status
          let z := ranges.foldl (telemRange m y.role (.host y.role y.id)) ([], c)
          Ctl.unsolicited { z.2 with status := st } x.slot sub 0x06 tile
            (leBytes 1 sub.val ++ leBytes 3 0 ++ beBytes 4 x.frame ++ beBytes 4 c.bank.tick ++ z.1)
      | _ => c)

end Sys2Proof.Machine
end

