-- ==== Sys2Proof/Machine/Held.lean ====
section
/-! DEFINITION. Machine/Held.lean: the end of an activation pause and the host requests held through it (R450, R451). -/
namespace Sys2Proof.Machine

/-- The command that a CODE of R366 names, as a held CMD runs it; the demands that `beryl.reset` finds gone are a free
value. A CODE that is none's is rejected by the form of any command. -/
def heldCmd (code : Nat) (d : Datagram) (s : State) : Host.Outcome State Fault Refusal :=
  match code with
  | 0x0001 => execModeStandby d s
  | 0x0002 => execModeChrysalis d s
  | 0x0003 => execModeRun d s
  | 0x1001 => execRingEnumerate d s
  | 0x1002 => execRingMode d s
  | 0x1003 => execRingInventoryWrite d s
  | 0x1004 => execRingTrust d s
  | 0x1010 => execSmpOwTest d s
  | 0x2001 => execEstAnchorRequest d s
  | 0x2002 => execEstProfile d s
  | 0x2003 => execEstCellInit d s
  | 0x2010 => execLvBackup d s
  | 0x2011 => execLvRestore d s
  | 0x3001 => execBalMode d s
  | 0x3002 => execBalManual d s
  | 0x3003 => execBalWireTest d s
  | 0x4001 => execBankSetpoint d s
  | 0x4002 => execDispMode d s
  | 0x4003 => execDispSchedule d s
  | 0x4004 => execDispPerturb d s
  | 0x5001 => execLoopMode d s
  | 0x6001 => execBerylReset d (BitVec.ofNat 7 s.ctl.free.1) { s with ctl := s.ctl.free.2 }
  | 0x6002 => execBerylParamOpen d s
  | 0x7001 => execNetOpen d s
  | 0x7002 => execNetClose d s
  | 0x7003 => execNetSubscribe d s
  | 0x7004 => execNetUnsubscribe d s
  | 0x7005 => execNetBulkOpen d s
  | 0x7006 => execNetSupervise d s
  | 0x7007 => execNetKey d s
  | 0xB001 => execImgBegin d s
  | 0xB002 => execImgChunk d s
  | 0xB003 => execImgVerify d s
  | 0xB004 => execImgActivate d s
  | 0xB005 => execImgConfirm d s
  | _ => execNetClose d s

/-- A held datagram of a TYPE, handled as one that arrives. -/
def heldOne (type : Nat) (d : Datagram) (s : State) : Host.Outcome State Fault Refusal :=
  match type with
  | 0x01 => execHostRead d s
  | 0x02 => execHostWrite d s
  | 0x09 => execChpBulkReceive d s
  | _ => if d.session = 0 then execNetOpen d s else heldCmd (beNat (d.payload.take 2)) d s

/-- One held datagram after those before it; what each sends leaves in that order. -/
def heldNext (x : State × List Sent) (e : Nat × Datagram) : State × List Sent :=
  match heldOne e.1 e.2 { x.1 with ctl := { x.1.ctl with net := { x.1.ctl.net with sent := [] } } } with
  | .next s => (s, x.2 ++ s.ctl.net.sent)
  | _ => x

/-- The host requests held through the pause are handled in their order of arrival and answered (R451). -/
def answerHeld (s : State) : State :=
  if s.ctl.net.held = [] then s
  else
    let x := s.ctl.net.held.foldl heldNext ({ s with ctl := { s.ctl with net := { s.ctl.net with held := [] } } }, [])
    { x.1 with ctl := { x.1.ctl with net := { x.1.ctl.net with sent := x.2 } } }

/-- IMAGE_RESTART_DONE: the pause ends with every tile restarted and the requests held through it are answered, or the tile
of a rolling step that is carried has restarted on the bank; it takes its section back once its code sets READY. -/
def execImageRestartDone (s : State) : Host.Outcome State Fault Refusal :=
  if s.ctl.img.paused then
    let x := pauseEnd (s.mem, s.ctl)
    .next (answerHeld { s with mem := x.1, ctl := x.2 })
  else s.onModuleM (fun m c => stepRestarted (m, c))

end Sys2Proof.Machine
end

