-- ==== Sys2Proof/Machine/Tick.lean ====
section
/-! DEFINITION. Machine/Tick.lean: the 1 ms tick of a tile and the clock that runs while no command waits (R331 to R335,
R340, R341; assumption 10). -/
namespace Sys2Proof.Machine

/-- A counter of `n` ms units: its phase after one more millisecond, and whether a unit is complete. -/
def Ctl.phaseStep (c : Ctl) (t k n : Nat) : Bool × Ctl :=
  let p := tabGet 0 c.phase (t * 64 + k) + 1
  (decide (n ≤ p), { c with phase := tabSet c.phase (t * 64 + k) (if n ≤ p then 0 else p) })

/-- A counter that falls by one, not below zero. -/
def Ctl.dec (c : Ctl) (t : Nat) (F : Field) : Ctl := c.put t F (c.get t F - 1)

/-- The ages of the budgets of valid containers, in 0.1 s (R245). -/
def Ctl.heatAges (c : Ctl) (t : Nat) : Ctl :=
  forN 32 (fun k (c : Ctl) =>
    if !c.flag t BAL_CONT_VALID k then c
    else
      let x := c.phaseStep t k 100
      if x.1 then x.2.inc t BAL_HEAT_AGE k else x.2) c

/-- Milliseconds of the registers a tile counts itself: the watchdog's rest (R82) and the budgets' ages. -/
def Ctl.tileTimers (c : Ctl) (t : Nat) : Ctl :=
  let c := if c.flag t CASDA_WDOG_CFG_EN then c.dec t CASDA_WDOG_REMAIN_MS else c
  c.heatAges t

/-- What tile 0 counts for the module: operating time and always-on seconds (R340), the confirm window (R460). -/
def Ctl.moduleTimers (c : Ctl) : Ctl :=
  let aon := c.pw.aonMs + 1
  let c := if 1000 ≤ aon then c.incMod 0 TIME_AON_SEC else c
  let c := { c with pw := { c.pw with aonMs := aon % 1000 }, optime := satAdd 48 c.optime 1 }
  if c.img.stage ≠ .trial then c
  else
    let x := c.phaseStep 0 33 1000
    if x.1 then x.2.dec 0 IMG_CONFIRM_REMAIN_S else x.2

/-- The rest of a safety-parameter session, which Beryl counts whatever the tile's state (R314, R318). -/
def Ctl.sessionTimer (c : Ctl) (t : Nat) : Ctl :=
  if !c.flag t BERYL_SESSION_OPEN then c
  else
    let x := c.phaseStep t 32 1000
    if x.1 then x.2.dec t BERYL_SESSION_REMAIN else x.2

/-- A tick of Beryl: a reset counts with what comes from here on as one of another tick (R307). -/
def Ctl.berylTick (c : Ctl) (t : Nat) : Ctl :=
  let c := c.sessionTimer t
  if (c.bry t).resetWas.isNone then c else c.setBry t { c.bry t with resetWas := none }

/-- The shadow transfers of a tile's channels are over (R278). -/
def Ctl.loopSettled (c : Ctl) (t : Nat) : Ctl :=
  { c with chans := c.chans.map (fun e => if e.1 / 64 = t then (e.1, { e.2 with moving := false }) else e) }

/-- The age of the host set-point, which the coordinator counts; while tile 0 is down and none coordinates, the first
running tile counts on the copy that a hand-over restores (R249, R458). -/
def Ctl.ageStep (c : Ctl) (t : Nat) : Ctl :=
  match c.coordinator with
  | some k => if k = t then c.inc 0 DISP_SP_AGE_MS else c
  | none =>
    match tabFind c.handed 0 with
    | none => c
    | some s =>
      let key := DISP_SP_AGE_MS.key 0 0 0
      if (List.range c.tiles).find? (fun k => c.running k) = some t then
        { c with handed := tabSet c.handed 0 { s with
            regs := tabSet s.regs key (satAdd 32 (tabGet DISP_SP_AGE_MS.reset s.regs key) 1) } }
      else c

/-- The 1 ms tick of a tile: its counters, then the governor with the energy `eHw` in µJ its hardware drew, the junction
temperature `tj` in 0.1 °C and its power `mw`, then the judgement of Beryl. -/
def Ctl.tick (c : Ctl) (t eHw : Nat) (tj : Int) (mw : Nat) : Ctl :=
  let c := if c.tileState t = tsOff then c else c.berylTick t
  if c.tileState t = tsOff ∨ c.tileState t = tsHeld ∨ c.tileState t = tsFault then c
  else
    let c := c.loopSettled t
    let c := { c with ticks := tabSet c.ticks t (tabGet 0 c.ticks t + 1) }
    let c := c.timelyLock t
    let c := c.tileTimers t
    let c := if t = 0 ∧ c.live 0 then c.moduleTimers else c
    let c := c.ageStep t
    (c.governorTick t eHw tj mw).judge t

/-- GOVERNOR_TICK, with the rail monitors' energy and power and the die temperature as measured (assumption 2). -/
def execGovernorTick (t : TileId) (eHw : Word) (tj : BitVec 16) (mw : Word) (s : State) : Host.Outcome State Fault Refusal :=
  s.onTileM t (fun m c => (dmaLand t (m, c)).on (fun c => c.sameCycle (c.tick t eHw.toNat tj.toInt mw.toNat)))

/-- What passes while no command waits: one 250 MHz cycle of every tile, and a CAN port that waits for its bus starts its
next attempt (R340, R342, R383; assumption 10). -/
def Ctl.idle (c : Ctl) : Ctl :=
  forN c.tiles (fun t (c : Ctl) => forN 8 (fun p (c : Ctl) => if c.live t then c.canStart t p else c) c) c.clock

end Sys2Proof.Machine
end

