-- ==== Sys2Proof/Machine/Dispatch.lean ====
section
/-! DEFINITION. Machine/Dispatch.lean: one arm per command, one direct call of its meaning. -/
namespace Sys2Proof.Machine

/-- The effect of a command on everything but the queue. -/
def exec (i : Instr) (s : State) : Host.Outcome State Fault Refusal :=
  match i with
  | .hostRead d => Sys2Proof.Machine.execHostRead d s
  | .hostWrite d => Sys2Proof.Machine.execHostWrite d s
  | .registerWrite t o k off w => Sys2Proof.Machine.execRegisterWrite t o k off w s
  | .tileReset o t => Sys2Proof.Machine.execTileReset o t s
  | .tileHold o t => Sys2Proof.Machine.execTileHold o t s
  | .tileHoldRelease o t => Sys2Proof.Machine.execTileHoldRelease o t s
  | .aluOp t k d a b func => Sys2Proof.Machine.execAluOp t k d a b func s
  | .aluImmediate t k op d a imm => Sys2Proof.Machine.execAluImmediate t k op d a imm s
  | .load t k op d a imm ecc => Sys2Proof.Machine.execLoad t k op d a imm ecc s
  | .store t k op d a imm => Sys2Proof.Machine.execStore t k op d a imm s
  | .amo t k d a b func ecc => Sys2Proof.Machine.execAmo t k d a b func ecc s
  | .branch t k op a b disp => Sys2Proof.Machine.execBranch t k op a b disp s
  | .jump t k disp => Sys2Proof.Machine.execJump t k disp s
  | .jal t k disp => Sys2Proof.Machine.execJal t k disp s
  | .jalr t k d a imm => Sys2Proof.Machine.execJalr t k d a imm s
  | .nop t w => Sys2Proof.Machine.execNop t w s
  | .mfs t k d b => Sys2Proof.Machine.execMfs t k d b s
  | .mts t k a b => Sys2Proof.Machine.execMts t k a b s
  | .tend t w => Sys2Proof.Machine.execTend t w s
  | .tret t k d a b => Sys2Proof.Machine.execTret t k d a b s
  | .trig t k d a => Sys2Proof.Machine.execTrig t k d a s
  | .taskStart t o idx => Sys2Proof.Machine.execTaskStart t o idx s
  | .taskStop t o idx => Sys2Proof.Machine.execTaskStop t o idx s
  | .taskTrigger t o idx => Sys2Proof.Machine.execTaskTrigger t o idx s
  | .taskKill t o idx => Sys2Proof.Machine.execTaskKill t o idx s
  | .taskCfgWrite t o idx w => Sys2Proof.Machine.execTaskCfgWrite t o idx w s
  | .coreHalt t o k => Sys2Proof.Machine.execCoreHalt t o k s
  | .coreHalted t k => Sys2Proof.Machine.execCoreHalted t k s
  | .coreResume t o k => Sys2Proof.Machine.execCoreResume t o k s
  | .wdogEnable t o period => Sys2Proof.Machine.execWdogEnable t o period s
  | .wdogKick t o w => Sys2Proof.Machine.execWdogKick t o w s
  | .wdogExpiry t => Sys2Proof.Machine.execWdogExpiry t s
  | .casdaTimerWrite t o n w => Sys2Proof.Machine.execCasdaTimerWrite t o n w s
  | .casdaTimerExpiry t n => Sys2Proof.Machine.execCasdaTimerExpiry t n s
  | .mboxPost t o m w => Sys2Proof.Machine.execMboxPost t o m w s
  | .mboxPop t o m => Sys2Proof.Machine.execMboxPop t o m s
  | .mboxCfgWrite t o m w => Sys2Proof.Machine.execMboxCfgWrite t o m w s
  | .irqRouteWrite t o r w => Sys2Proof.Machine.execIrqRouteWrite t o r w s
  | .vectorArith t k vfunc vd va vb p => Sys2Proof.Machine.execVectorArith t k vfunc vd va vb p s
  | .vectorConvert t k op vd va vb p => Sys2Proof.Machine.execVectorConvert t k op vd va vb p s
  | .vectorCompare t k op vd va vb p => Sys2Proof.Machine.execVectorCompare t k op vd va vb p s
  | .predicateLogic t k op vd va vb p => Sys2Proof.Machine.execPredicateLogic t k op vd va vb p s
  | .vsel t k vd va vb p => Sys2Proof.Machine.execVsel t k vd va vb p s
  | .vbcast t k vd va vb p => Sys2Proof.Machine.execVbcast t k vd va vb p s
  | .vext t k vd va vb p => Sys2Proof.Machine.execVext t k vd va vb p s
  | .vlane t k vd va vb p => Sys2Proof.Machine.execVlane t k vd va vb p s
  | .pfroms t k vd va vb p => Sys2Proof.Machine.execPfroms t k vd va vb p s
  | .ptos t k vd va vb p => Sys2Proof.Machine.execPtos t k vd va vb p s
  | .vectorReduce t k op vd va vb p => Sys2Proof.Machine.execVectorReduce t k op vd va vb p s
  | .vlds t k e vd va vb p => Sys2Proof.Machine.execVlds t k e vd va vb p s
  | .vsts t k e vd va vb p => Sys2Proof.Machine.execVsts t k e vd va vb p s
  | .vldg t k vd va vb p => Sys2Proof.Machine.execVldg t k vd va vb p s
  | .vstx t k vd va vb p => Sys2Proof.Machine.execVstx t k vd va vb p s
  | .veccTrap t addr => Sys2Proof.Machine.execVeccTrap t addr s
  | .yield t k d a => Sys2Proof.Machine.execYield t k d a s
  | .trap t k d a => Sys2Proof.Machine.execTrap t k d a s
  | .fence t k d a => Sys2Proof.Machine.execFence t k d a s
  | .fenceDone t idx => Sys2Proof.Machine.execFenceDone t idx s
  | .budget t k d a => Sys2Proof.Machine.execBudget t k d a s
  | .vclaim t k d a => Sys2Proof.Machine.execVclaim t k d a s
  | .vrelease t k d a => Sys2Proof.Machine.execVrelease t k d a s
  | .vstat t k d a => Sys2Proof.Machine.execVstat t k d a s
  | .ns32 t k d a => Sys2Proof.Machine.execNs32 t k d a s
  | .station t k d a => Sys2Proof.Machine.execStation t k d a s
  | .frame t k d a => Sys2Proof.Machine.execFrame t k d a s
  | .optime t k d a => Sys2Proof.Machine.execOptime t k d a s
  | .rpost t k d a => Sys2Proof.Machine.execRpost t k d a s
  | .rwait t k d a => Sys2Proof.Machine.execRwait t k d a s
  | .sfetch t k d a => Sys2Proof.Machine.execSfetch t k d a s
  | .sfetchDone t idx => Sys2Proof.Machine.execSfetchDone t idx s
  | .slast t k d a => Sys2Proof.Machine.execSlast t k d a s
  | .bduty t k d a => Sys2Proof.Machine.execBduty t k d a s
  | .lshw t k d a => Sys2Proof.Machine.execLshw t k d a s
  | .lcommit t k d a => Sys2Proof.Machine.execLcommit t k d a s
  | .emit t k d a => Sys2Proof.Machine.execEmit t k d a s
  | .dqueue t k d a => Sys2Proof.Machine.execDqueue t k d a s
  | .dwait t k d a => Sys2Proof.Machine.execDwait t k d a s
  | .fwait t k d a => Sys2Proof.Machine.execFwait t k d a s
  | .iwait t k d a => Sys2Proof.Machine.execIwait t k d a s
  | .ringCtrlEnum t o r => Sys2Proof.Machine.execRingCtrlEnum t o r s
  | .ringSmapCommit t o r => Sys2Proof.Machine.execRingSmapCommit t o r s
  | .ringLinkLock t r rx eq => Sys2Proof.Machine.execRingLinkLock t r rx eq s
  | .ringLinkLoss t r rx => Sys2Proof.Machine.execRingLinkLoss t r rx s
  | .assignAtTail t r count acc => Sys2Proof.Machine.execAssignAtTail t r count acc s
  | .assignTimeout t r => Sys2Proof.Machine.execAssignTimeout t r s
  | .enumStepTimeout t r => Sys2Proof.Machine.execEnumStepTimeout t r s
  | .breakLocated t r k n twoBreaks => Sys2Proof.Machine.execBreakLocated t r k n twoBreaks s
  | .carriedBreakLocate t r k => Sys2Proof.Machine.execCarriedBreakLocate t r k s
  | .rejoinAttempt t r => Sys2Proof.Machine.execRejoinAttempt t r s
  | .missingCountReenum t r => Sys2Proof.Machine.execMissingCountReenum t r s
  | .toneLossReport t r tail => Sys2Proof.Machine.execToneLossReport t r tail s
  | .toneRestored t r tail => Sys2Proof.Machine.execToneRestored t r tail s
  | .beaconReceive t r tail => Sys2Proof.Machine.execBeaconReceive t r tail s
  | .beaconTimeout t r tail => Sys2Proof.Machine.execBeaconTimeout t r tail s
  | .collectLaunch t r => Sys2Proof.Machine.execCollectLaunch t r s
  | .sampleResponseReceive t r el => Sys2Proof.Machine.execSampleResponseReceive t r el s
  | .retryPassLaunch t r => Sys2Proof.Machine.execRetryPassLaunch t r s
  | .ringSweepEnd t r reached => Sys2Proof.Machine.execRingSweepEnd t r reached s
  | .ringTxLaunch t r => Sys2Proof.Machine.execRingTxLaunch t r s
  | .ringTxResponse t r seq el => Sys2Proof.Machine.execRingTxResponse t r seq el s
  | .ringTxRetryTimeout t r seq => Sys2Proof.Machine.execRingTxRetryTimeout t r seq s
  | .dutySlotSend t r => Sys2Proof.Machine.execDutySlotSend t r s
  | .quietLaunch t r => Sys2Proof.Machine.execQuietLaunch t r s
  | .blockSyncReceive t r b h req e interval => Sys2Proof.Machine.execBlockSyncReceive t r b h req e interval s
  | .blockConversion t r b a => Sys2Proof.Machine.execBlockConversion t r b a s
  | .collect t r b => Sys2Proof.Machine.execCollect t r b s
  | .retry t r b fr => Sys2Proof.Machine.execRetry t r b fr s
  | .assign t r b h req crc abort upstream retime => Sys2Proof.Machine.execAssign t r b h req crc abort upstream retime s
  | .readId t r b fr => Sys2Proof.Machine.execReadId t r b fr s
  | .setThr t r b fr => Sys2Proof.Machine.execSetThr t r b fr s
  | .lockThr t r b fr => Sys2Proof.Machine.execLockThr t r b fr s
  | .readThr t r b fr => Sys2Proof.Machine.execReadThr t r b fr s
  | .challenge t r b fr => Sys2Proof.Machine.execChallenge t r b fr s
  | .blockAuthReady t r b => Sys2Proof.Machine.execBlockAuthReady t r b s
  | .authRead t r b fr => Sys2Proof.Machine.execAuthRead t r b fr s
  | .setRole t r b fr => Sys2Proof.Machine.execSetRole t r b fr s
  | .setPos t r b fr => Sys2Proof.Machine.execSetPos t r b fr s
  | .openTest t r b fr => Sys2Proof.Machine.execOpenTest t r b fr s
  | .openTestSinkDone t r b below above => Sys2Proof.Machine.execOpenTestSinkDone t r b below above s
  | .burst t r b fr => Sys2Proof.Machine.execBurst t r b fr s
  | .ping t r b fr => Sys2Proof.Machine.execPing t r b fr s
  | .readStatus t r b fr => Sys2Proof.Machine.execReadStatus t r b fr s
  | .setDuty t r b fr => Sys2Proof.Machine.execSetDuty t r b fr s
  | .quiet t r b fr => Sys2Proof.Machine.execQuiet t r b fr s
  | .ship t r b fr => Sys2Proof.Machine.execShip t r b fr s
  | .shipStateExit t r b => Sys2Proof.Machine.execShipStateExit t r b s
  | .bleedCycleStart t r b => Sys2Proof.Machine.execBleedCycleStart t r b s
  | .bleedOnTimeEnd t r b => Sys2Proof.Machine.execBleedOnTimeEnd t r b s
  | .bleedWatchdogExpiry t r b => Sys2Proof.Machine.execBleedWatchdogExpiry t r b s
  | .blockComparatorTrip t r b which => Sys2Proof.Machine.execBlockComparatorTrip t r b which s
  | .blockComparatorClear t r b => Sys2Proof.Machine.execBlockComparatorClear t r b s
  | .frameInstant => Sys2Proof.Machine.execFrameInstant s
  | .frameComplete t => Sys2Proof.Machine.execFrameComplete t s
  | .framePeriodNextWrite o next => Sys2Proof.Machine.execFramePeriodNextWrite o next s
  | .burstSubInstant t j => Sys2Proof.Machine.execBurstSubInstant t j s
  | .burstCollect t r els => Sys2Proof.Machine.execBurstCollect t r els s
  | .burstEntryComplete t => Sys2Proof.Machine.execBurstEntryComplete t s
  | .burstListCommit t o count => Sys2Proof.Machine.execBurstListCommit t o count s
  | .owScheduledTest t r b w => Sys2Proof.Machine.execOwScheduledTest t r b w s
  | .owRetestTimer t r b w => Sys2Proof.Machine.execOwRetestTimer t r b w s
  | .smpOwTest d => Sys2Proof.Machine.execSmpOwTest d s
  | .limitCommitWrite t o w => Sys2Proof.Machine.execLimitCommitWrite t o w s
  | .limitRingSelWrite t o r w => Sys2Proof.Machine.execLimitRingSelWrite t o r w s
  | .estimatorPass t => Sys2Proof.Machine.execEstimatorPass t s
  | .restFit t r str => Sys2Proof.Machine.execRestFit t r str s
  | .restRequestExpiry t r str => Sys2Proof.Machine.execRestRequestExpiry t r str s
  | .lvCommitInterval t => Sys2Proof.Machine.execLvCommitInterval t s
  | .lvCommitComplete t failAt reach => Sys2Proof.Machine.execLvCommitComplete t failAt reach s
  | .estStaleClear t o w => Sys2Proof.Machine.execEstStaleClear t o w s
  | .estAnchorRequest d => Sys2Proof.Machine.execEstAnchorRequest d s
  | .estProfile d => Sys2Proof.Machine.execEstProfile d s
  | .estCellInit d => Sys2Proof.Machine.execEstCellInit d s
  | .lvBackup d => Sys2Proof.Machine.execLvBackup d s
  | .lvRestore d => Sys2Proof.Machine.execLvRestore d s
  | .balancingPlannerRun t => Sys2Proof.Machine.execBalancingPlannerRun t s
  | .heatBudgetStale t k => Sys2Proof.Machine.execHeatBudgetStale t k s
  | .manualTimeout t => Sys2Proof.Machine.execManualTimeout t s
  | .balMode d => Sys2Proof.Machine.execBalMode d s
  | .balManual d => Sys2Proof.Machine.execBalManual d s
  | .balWireTest d => Sys2Proof.Machine.execBalWireTest d s
  | .dispatchCycle => Sys2Proof.Machine.execDispatchCycle s
  | .setpointAgeExpiry => Sys2Proof.Machine.execSetpointAgeExpiry s
  | .allocationExchangeTimeout t => Sys2Proof.Machine.execAllocationExchangeTimeout t s
  | .coordinationRamp t => Sys2Proof.Machine.execCoordinationRamp t s
  | .cyclicTxRelease t => Sys2Proof.Machine.execCyclicTxRelease t s
  | .repeatLimitStop t k => Sys2Proof.Machine.execRepeatLimitStop t k s
  | .restEnd t r str => Sys2Proof.Machine.execRestEnd t r str s
  | .sessionEnd t idx => Sys2Proof.Machine.execSessionEnd t idx s
  | .bankSetpoint d => Sys2Proof.Machine.execBankSetpoint d s
  | .dispMode d => Sys2Proof.Machine.execDispMode d s
  | .dispSchedule d => Sys2Proof.Machine.execDispSchedule d s
  | .dispPerturb d => Sys2Proof.Machine.execDispPerturb d s
  | .dispPerturbStop d => Sys2Proof.Machine.execDispPerturbStop d s
  | .loopSampleBoundary t ch => Sys2Proof.Machine.execLoopSampleBoundary t ch s
  | .loopHoldTimeExpiry t ch => Sys2Proof.Machine.execLoopHoldTimeExpiry t ch s
  | .loopCommitWrite t o w => Sys2Proof.Machine.execLoopCommitWrite t o w s
  | .loopShadowStore t o ch p w => Sys2Proof.Machine.execLoopShadowStore t o ch p w s
  | .loopInputSoftWrite t o idx w => Sys2Proof.Machine.execLoopInputSoftWrite t o idx w s
  | .gainTableWrite t o tab j gain w => Sys2Proof.Machine.execGainTableWrite t o tab j gain w s
  | .loopOutputFrameSend t f => Sys2Proof.Machine.execLoopOutputFrameSend t f s
  | .traceArm t o u => Sys2Proof.Machine.execTraceArm t o u s
  | .traceStop t o u => Sys2Proof.Machine.execTraceStop t o u s
  | .traceForce t o u => Sys2Proof.Machine.execTraceForce t o u s
  | .traceDone t u => Sys2Proof.Machine.execTraceDone t u s
  | .loopMode d => Sys2Proof.Machine.execLoopMode d s
  | .safetyInputChange t idx a b => Sys2Proof.Machine.execSafetyInputChange t idx a b s
  | .discrepancyFault t idx => Sys2Proof.Machine.execDiscrepancyFault t idx s
  | .resetButtonRelease t openMs pressMs skewMs gone => Sys2Proof.Machine.execResetButtonRelease t openMs pressMs skewMs gone s
  | .resetStuck t a b => Sys2Proof.Machine.execResetStuck t a b s
  | .outputEnergiseHs t o => Sys2Proof.Machine.execOutputEnergiseHs t o s
  | .outputReadbackCheck t o hs ls => Sys2Proof.Machine.execOutputReadbackCheck t o hs ls s
  | .testPulseStart t o => Sys2Proof.Machine.execTestPulseStart t o s
  | .testPulseEnd t o hs ls => Sys2Proof.Machine.execTestPulseEnd t o hs ls s
  | .readbackMismatch t o hs ls => Sys2Proof.Machine.execReadbackMismatch t o hs ls s
  | .consumePduReceive t n => Sys2Proof.Machine.execConsumePduReceive t n s
  | .consumeWatchdogExpiry t n => Sys2Proof.Machine.execConsumeWatchdogExpiry t n s
  | .producePduSend t n => Sys2Proof.Machine.execProducePduSend t n s
  | .sf5CauseDetect t cause => Sys2Proof.Machine.execSf5CauseDetect t cause s
  | .berylSelfTestComplete t copy1 copy2 => Sys2Proof.Machine.execBerylSelfTestComplete t copy1 copy2 s
  | .berylParamWrite t o k w => Sys2Proof.Machine.execBerylParamWrite t o k w s
  | .berylSessionTimeout t => Sys2Proof.Machine.execBerylSessionTimeout t s
  | .berylReset d gone => Sys2Proof.Machine.execBerylReset d gone s
  | .berylParamOpen d => Sys2Proof.Machine.execBerylParamOpen d s
  | .berylParamConfirm d => Sys2Proof.Machine.execBerylParamConfirm d s
  | .berylParamAbort d => Sys2Proof.Machine.execBerylParamAbort d s
  | .modeStandby d => Sys2Proof.Machine.execModeStandby d s
  | .standbyPowerOff => Sys2Proof.Machine.execStandbyPowerOff s
  | .modeChrysalis d => Sys2Proof.Machine.execModeChrysalis d s
  | .chrysalisInputSwitchOpen => Sys2Proof.Machine.execChrysalisInputSwitchOpen s
  | .modeRun d => Sys2Proof.Machine.execModeRun d s
  | .wakeComparatorArm => Sys2Proof.Machine.execWakeComparatorArm s
  | .chrysalisWake => Sys2Proof.Machine.execChrysalisWake s
  | .standbyWakeTime => Sys2Proof.Machine.execStandbyWakeTime s
  | .governorTick t eHw tj mw => Sys2Proof.Machine.execGovernorTick t eHw tj mw s
  | .clockFault t clock => Sys2Proof.Machine.execClockFault t clock s
  | .avsStep t m => Sys2Proof.Machine.execAvsStep t m s
  | .avsMarginFault t => Sys2Proof.Machine.execAvsMarginFault t s
  | .tjFault t => Sys2Proof.Machine.execTjFault t s
  | .ptpAnnounceReceive path domain gm better => Sys2Proof.Machine.execPtpAnnounceReceive path domain gm better s
  | .ptpSyncReceive path domain offset => Sys2Proof.Machine.execPtpSyncReceive path domain offset s
  | .ptpPdelayExchange path delay => Sys2Proof.Machine.execPtpPdelayExchange path delay s
  | .ptpSyncTimeout => Sys2Proof.Machine.execPtpSyncTimeout s
  | .holdoverExpiry => Sys2Proof.Machine.execHoldoverExpiry s
  | .timeStrobe t sec ms => Sys2Proof.Machine.execTimeStrobe t sec ms s
  | .strobeLost t => Sys2Proof.Machine.execStrobeLost t s
  | .strobeRecovered t => Sys2Proof.Machine.execStrobeRecovered t s
  | .timeWrap t => Sys2Proof.Machine.execTimeWrap t s
  | .timeStnNsRead t => Sys2Proof.Machine.execTimeStnNsRead t s
  | .timeOptimeRead t => Sys2Proof.Machine.execTimeOptimeRead t s
  | .canSyncLaunch t p => Sys2Proof.Machine.execCanSyncLaunch t p s
  | .followupSend t o p seq => Sys2Proof.Machine.execFollowupSend t o p seq s
  | .chpBulkReceive d => Sys2Proof.Machine.execChpBulkReceive d s
  | .supervisionReceive d => Sys2Proof.Machine.execSupervisionReceive d s
  | .safetyMessageReceive d => Sys2Proof.Machine.execSafetyMessageReceive d s
  | .supervisionSend => Sys2Proof.Machine.execSupervisionSend s
  | .pathSupervisionLoss p => Sys2Proof.Machine.execPathSupervisionLoss p s
  | .pathResyncDone p => Sys2Proof.Machine.execPathResyncDone p s
  | .pathCompatRevert => Sys2Proof.Machine.execPathCompatRevert s
  | .pathLinkUp p ten => Sys2Proof.Machine.execPathLinkUp p ten s
  | .pathLinkDown p los => Sys2Proof.Machine.execPathLinkDown p los s
  | .sfpInsert p medium rxPower => Sys2Proof.Machine.execSfpInsert p medium rxPower s
  | .sessionIdleTimeout slot => Sys2Proof.Machine.execSessionIdleTimeout slot s
  | .eventMessageSend sub => Sys2Proof.Machine.execEventMessageSend sub s
  | .telemCopy sub => Sys2Proof.Machine.execTelemCopy sub s
  | .bulkHandleTimeout h => Sys2Proof.Machine.execBulkHandleTimeout h s
  | .netIpConfigApply => Sys2Proof.Machine.execNetIpConfigApply s
  | .netOpen d => Sys2Proof.Machine.execNetOpen d s
  | .netClose d => Sys2Proof.Machine.execNetClose d s
  | .netSubscribe d => Sys2Proof.Machine.execNetSubscribe d s
  | .netUnsubscribe d => Sys2Proof.Machine.execNetUnsubscribe d s
  | .netBulkOpen d => Sys2Proof.Machine.execNetBulkOpen d s
  | .netSupervise d => Sys2Proof.Machine.execNetSupervise d s
  | .netSuperviseRelease d => Sys2Proof.Machine.execNetSuperviseRelease d s
  | .netKey d => Sys2Proof.Machine.execNetKey d s
  | .ringEnumerate d => Sys2Proof.Machine.execRingEnumerate d s
  | .ringMode d => Sys2Proof.Machine.execRingMode d s
  | .ringInventoryWrite d => Sys2Proof.Machine.execRingInventoryWrite d s
  | .ringInventoryAdopt d => Sys2Proof.Machine.execRingInventoryAdopt d s
  | .ringInventoryClear d => Sys2Proof.Machine.execRingInventoryClear d s
  | .ringTrust d => Sys2Proof.Machine.execRingTrust d s
  | .canInitSet t o p => Sys2Proof.Machine.execCanInitSet t o p s
  | .canInitClear t o p => Sys2Proof.Machine.execCanInitClear t o p s
  | .canBusJoin t p => Sys2Proof.Machine.execCanBusJoin t p s
  | .canRecoverWrite t o p => Sys2Proof.Machine.execCanRecoverWrite t o p s
  | .canRecoveryComplete t p => Sys2Proof.Machine.execCanRecoveryComplete t p s
  | .canDetectStart t o p => Sys2Proof.Machine.execCanDetectStart t o p s
  | .canDetectDwell t p => Sys2Proof.Machine.execCanDetectDwell t p s
  | .canDetectEnd t p timeout => Sys2Proof.Machine.execCanDetectEnd t p timeout s
  | .canAdopt t o p => Sys2Proof.Machine.execCanAdopt t o p s
  | .canTxreq t o p w => Sys2Proof.Machine.execCanTxreq t o p w s
  | .canTxcancel t o p w => Sys2Proof.Machine.execCanTxcancel t o p w s
  | .canTxComplete t p => Sys2Proof.Machine.execCanTxComplete t p s
  | .canTxError t p kind => Sys2Proof.Machine.execCanTxError t p kind s
  | .canFrameReceive t p frame => Sys2Proof.Machine.execCanFrameReceive t p frame s
  | .canRxError t p kind eight inData => Sys2Proof.Machine.execCanRxError t p kind eight inData s
  | .canRxPop t o p w => Sys2Proof.Machine.execCanRxPop t o p w s
  | .twbTargetWrite bytes => Sys2Proof.Machine.execTwbTargetWrite bytes s
  | .twbTargetRead n => Sys2Proof.Machine.execTwbTargetRead n s
  | .twbStatusRefresh => Sys2Proof.Machine.execTwbStatusRefresh s
  | .twbTargetTimeout => Sys2Proof.Machine.execTwbTargetTimeout s
  | .twbBusFree => Sys2Proof.Machine.execTwbBusFree s
  | .sidebandGo => Sys2Proof.Machine.execSidebandGo s
  | .sbIp4 path addr pfx gw => Sys2Proof.Machine.execSbIp4 path addr pfx gw s
  | .sbModuleReset => Sys2Proof.Machine.execSbModuleReset s
  | .twbJobGo o w => Sys2Proof.Machine.execTwbJobGo o w s
  | .twbJobStart b => Sys2Proof.Machine.execTwbJobStart b s
  | .twbArbitrationLoss => Sys2Proof.Machine.execTwbArbitrationLoss s
  | .twbJobEnd e => Sys2Proof.Machine.execTwbJobEnd e s
  | .dmaJobComplete t ch => Sys2Proof.Machine.execDmaJobComplete t ch s
  | .dmaBusError t addr write => Sys2Proof.Machine.execDmaBusError t addr write s
  | .dmaAutoResume t => Sys2Proof.Machine.execDmaAutoResume t s
  | .dmaRecover t o => Sys2Proof.Machine.execDmaRecover t o s
  | .dmaChannelDisable t o ch => Sys2Proof.Machine.execDmaChannelDisable t o ch s
  | .dmaChannelEnable t o ch => Sys2Proof.Machine.execDmaChannelEnable t o ch s
  | .eventRecordAccept t => Sys2Proof.Machine.execEventRecordAccept t s
  | .eventTailWriteDone t => Sys2Proof.Machine.execEventTailWriteDone t s
  | .evtRptrWrite t o w => Sys2Proof.Machine.execEvtRptrWrite t o w s
  | .evtClassWrite t o k w => Sys2Proof.Machine.execEvtClassWrite t o k w s
  | .codeTableWrite t o e hi w => Sys2Proof.Machine.execCodeTableWrite t o e hi w s
  | .imgBegin d => Sys2Proof.Machine.execImgBegin d s
  | .imgChunk d => Sys2Proof.Machine.execImgChunk d s
  | .imgVerify d => Sys2Proof.Machine.execImgVerify d s
  | .imgVerifyDone programOk => Sys2Proof.Machine.execImgVerifyDone programOk s
  | .imgActivate d => Sys2Proof.Machine.execImgActivate d s
  | .activationCommitsDone => Sys2Proof.Machine.execActivationCommitsDone s
  | .imageRestartDone => Sys2Proof.Machine.execImageRestartDone s
  | .rollingStepStart => Sys2Proof.Machine.execRollingStepStart s
  | .rollingStepTimeout => Sys2Proof.Machine.execRollingStepTimeout s
  | .imgConfirm d => Sys2Proof.Machine.execImgConfirm d s
  | .imgCtrlConfirm o => Sys2Proof.Machine.execImgCtrlConfirm o s
  | .selfcheckPass t o => Sys2Proof.Machine.execSelfcheckPass t o s
  | .selfcheckFail t o => Sys2Proof.Machine.execSelfcheckFail t o s
  | .confirmWindowExpiry => Sys2Proof.Machine.execConfirmWindowExpiry s
  | .carryReadyWrite t o => Sys2Proof.Machine.execCarryReadyWrite t o s
  | .modulePowerUp => Sys2Proof.Machine.execModulePowerUp s
  | .vin48Applied => Sys2Proof.Machine.execVin48Applied s
  | .prechargeComplete => Sys2Proof.Machine.execPrechargeComplete s
  | .inputPowerGood => Sys2Proof.Machine.execInputPowerGood s
  | .tileEnterRun t => Sys2Proof.Machine.execTileEnterRun t s
  | .tileRunTimeout t => Sys2Proof.Machine.execTileRunTimeout t s
  | .estimationReady => Sys2Proof.Machine.execEstimationReady s
  | .mrstAssert => Sys2Proof.Machine.execMrstAssert s
  | .mrstRelease => Sys2Proof.Machine.execMrstRelease s
  | .ejectAssert => Sys2Proof.Machine.execEjectAssert s
  | .shutdownCommitDone => Sys2Proof.Machine.execShutdownCommitDone s
  | .ejectReleaseRestart => Sys2Proof.Machine.execEjectReleaseRestart s
  | .powerFailWarning => Sys2Proof.Machine.execPowerFailWarning s
  | .powerFailWithdrawn => Sys2Proof.Machine.execPowerFailWithdrawn s
  | .loopOffChannelTransfer t ch => Sys2Proof.Machine.execLoopOffChannelTransfer t ch s
  | .resetStuckClear t => Sys2Proof.Machine.execResetStuckClear t s
  | .blockPowerCycle t r b => Sys2Proof.Machine.execBlockPowerCycle t r b s
  | .beaconSend t r b tone => Sys2Proof.Machine.execBeaconSend t r b tone s
  | .vin48Dip d => Sys2Proof.Machine.execVin48Dip d s
  | .operatingTimeStore => Sys2Proof.Machine.execOperatingTimeStore s
  | .announceReceiptTimeout path => Sys2Proof.Machine.execAnnounceReceiptTimeout path s
  | .arpNdpEchoReceive p l => Sys2Proof.Machine.execArpNdpEchoReceive p l s

end Sys2Proof.Machine
end

