-- ==== Sys2Proof/Safety.lean ====
section
/-! DEFINITION. Safety.lean: what a safe run is, and the terms in which statements speak of commands: the tile a command stands
on, whether it may write the memories, and the state with another control state or other memories. -/
namespace Sys2Proof.Machine

/-- The tile of the accessor of an access by Casda code; a host has none. -/
def originTile : Origin → Option Nat
  | .casda t _ => some t.val
  | .host _ _ => none

/-- The tile that acts in a command: the one an event or an instruction happens on, or the one whose code makes an access;
none for a command of the module and for an access by a host. -/
def actor : Instr → Option Nat
  | .hostRead _ => none
  | .hostWrite _ => none
  | .registerWrite _ o _ _ _ => originTile o
  | .tileReset o _ => originTile o
  | .tileHold o _ => originTile o
  | .tileHoldRelease o _ => originTile o
  | .aluOp t _ _ _ _ _ => some t.val
  | .aluImmediate t _ _ _ _ _ => some t.val
  | .load t _ _ _ _ _ _ => some t.val
  | .store t _ _ _ _ _ => some t.val
  | .amo t _ _ _ _ _ _ => some t.val
  | .branch t _ _ _ _ _ => some t.val
  | .jump t _ _ => some t.val
  | .jal t _ _ => some t.val
  | .jalr t _ _ _ _ => some t.val
  | .nop t _ => some t.val
  | .mfs t _ _ _ => some t.val
  | .mts t _ _ _ => some t.val
  | .tend t _ => some t.val
  | .tret t _ _ _ _ => some t.val
  | .trig t _ _ _ => some t.val
  | .taskStart _ o _ => originTile o
  | .taskStop _ o _ => originTile o
  | .taskTrigger _ o _ => originTile o
  | .taskKill _ o _ => originTile o
  | .taskCfgWrite _ o _ _ => originTile o
  | .coreHalt _ o _ => originTile o
  | .coreHalted t _ => some t.val
  | .coreResume _ o _ => originTile o
  | .wdogEnable _ o _ => originTile o
  | .wdogKick _ o _ => originTile o
  | .wdogExpiry t => some t.val
  | .casdaTimerWrite _ o _ _ => originTile o
  | .casdaTimerExpiry t _ => some t.val
  | .mboxPost _ o _ _ => originTile o
  | .mboxPop _ o _ => originTile o
  | .mboxCfgWrite _ o _ _ => originTile o
  | .irqRouteWrite _ o _ _ => originTile o
  | .vectorArith t _ _ _ _ _ _ => some t.val
  | .vectorConvert t _ _ _ _ _ _ => some t.val
  | .vectorCompare t _ _ _ _ _ _ => some t.val
  | .predicateLogic t _ _ _ _ _ _ => some t.val
  | .vsel t _ _ _ _ _ => some t.val
  | .vbcast t _ _ _ _ _ => some t.val
  | .vext t _ _ _ _ _ => some t.val
  | .vlane t _ _ _ _ _ => some t.val
  | .pfroms t _ _ _ _ _ => some t.val
  | .ptos t _ _ _ _ _ => some t.val
  | .vectorReduce t _ _ _ _ _ _ => some t.val
  | .vlds t _ _ _ _ _ _ => some t.val
  | .vsts t _ _ _ _ _ _ => some t.val
  | .vldg t _ _ _ _ _ => some t.val
  | .vstx t _ _ _ _ _ => some t.val
  | .veccTrap t _ => some t.val
  | .yield t _ _ _ => some t.val
  | .trap t _ _ _ => some t.val
  | .fence t _ _ _ => some t.val
  | .fenceDone t _ => some t.val
  | .budget t _ _ _ => some t.val
  | .vclaim t _ _ _ => some t.val
  | .vrelease t _ _ _ => some t.val
  | .vstat t _ _ _ => some t.val
  | .ns32 t _ _ _ => some t.val
  | .station t _ _ _ => some t.val
  | .frame t _ _ _ => some t.val
  | .optime t _ _ _ => some t.val
  | .rpost t _ _ _ => some t.val
  | .rwait t _ _ _ => some t.val
  | .sfetch t _ _ _ => some t.val
  | .sfetchDone t _ => some t.val
  | .slast t _ _ _ => some t.val
  | .bduty t _ _ _ => some t.val
  | .lshw t _ _ _ => some t.val
  | .lcommit t _ _ _ => some t.val
  | .emit t _ _ _ => some t.val
  | .dqueue t _ _ _ => some t.val
  | .dwait t _ _ _ => some t.val
  | .fwait t _ _ _ => some t.val
  | .iwait t _ _ _ => some t.val
  | .ringCtrlEnum _ o _ => originTile o
  | .ringSmapCommit _ o _ => originTile o
  | .ringLinkLock t _ _ _ => some t.val
  | .ringLinkLoss t _ _ => some t.val
  | .assignAtTail t _ _ _ => some t.val
  | .assignTimeout t _ => some t.val
  | .enumStepTimeout t _ => some t.val
  | .breakLocated t _ _ _ _ => some t.val
  | .carriedBreakLocate t _ _ => some t.val
  | .rejoinAttempt t _ => some t.val
  | .missingCountReenum t _ => some t.val
  | .toneLossReport t _ _ => some t.val
  | .toneRestored t _ _ => some t.val
  | .beaconReceive t _ _ => some t.val
  | .beaconTimeout t _ _ => some t.val
  | .collectLaunch t _ => some t.val
  | .sampleResponseReceive t _ _ => some t.val
  | .retryPassLaunch t _ => some t.val
  | .ringSweepEnd t _ _ => some t.val
  | .ringTxLaunch t _ => some t.val
  | .ringTxResponse t _ _ _ => some t.val
  | .ringTxRetryTimeout t _ _ => some t.val
  | .dutySlotSend t _ => some t.val
  | .quietLaunch t _ => some t.val
  | .blockSyncReceive t _ _ _ _ _ _ => some t.val
  | .blockConversion t _ _ _ => some t.val
  | .collect t _ _ => some t.val
  | .retry t _ _ _ => some t.val
  | .assign t _ _ _ _ _ _ _ _ => some t.val
  | .readId t _ _ _ => some t.val
  | .setThr t _ _ _ => some t.val
  | .lockThr t _ _ _ => some t.val
  | .readThr t _ _ _ => some t.val
  | .challenge t _ _ _ => some t.val
  | .blockAuthReady t _ _ => some t.val
  | .authRead t _ _ _ => some t.val
  | .setRole t _ _ _ => some t.val
  | .setPos t _ _ _ => some t.val
  | .openTest t _ _ _ => some t.val
  | .openTestSinkDone t _ _ _ _ => some t.val
  | .burst t _ _ _ => some t.val
  | .ping t _ _ _ => some t.val
  | .readStatus t _ _ _ => some t.val
  | .setDuty t _ _ _ => some t.val
  | .quiet t _ _ _ => some t.val
  | .ship t _ _ _ => some t.val
  | .shipStateExit t _ _ => some t.val
  | .bleedCycleStart t _ _ => some t.val
  | .bleedOnTimeEnd t _ _ => some t.val
  | .bleedWatchdogExpiry t _ _ => some t.val
  | .blockComparatorTrip t _ _ _ => some t.val
  | .blockComparatorClear t _ _ => some t.val
  | .frameInstant => none
  | .frameComplete t => some t.val
  | .framePeriodNextWrite o _ => originTile o
  | .burstSubInstant t _ => some t.val
  | .burstCollect t _ _ => some t.val
  | .burstEntryComplete t => some t.val
  | .burstListCommit _ o _ => originTile o
  | .owScheduledTest t _ _ _ => some t.val
  | .owRetestTimer t _ _ _ => some t.val
  | .smpOwTest _ => none
  | .limitCommitWrite _ o _ => originTile o
  | .limitRingSelWrite _ o _ _ => originTile o
  | .estimatorPass t => some t.val
  | .restFit t _ _ => some t.val
  | .restRequestExpiry t _ _ => some t.val
  | .lvCommitInterval t => some t.val
  | .lvCommitComplete t _ _ => some t.val
  | .estStaleClear _ o _ => originTile o
  | .estAnchorRequest _ => none
  | .estProfile _ => none
  | .estCellInit _ => none
  | .lvBackup _ => none
  | .lvRestore _ => none
  | .balancingPlannerRun t => some t.val
  | .heatBudgetStale t _ => some t.val
  | .manualTimeout t => some t.val
  | .balMode _ => none
  | .balManual _ => none
  | .balWireTest _ => none
  | .dispatchCycle => none
  | .setpointAgeExpiry => none
  | .allocationExchangeTimeout t => some t.val
  | .coordinationRamp t => some t.val
  | .cyclicTxRelease t => some t.val
  | .repeatLimitStop t _ => some t.val
  | .restEnd t _ _ => some t.val
  | .sessionEnd t _ => some t.val
  | .bankSetpoint _ => none
  | .dispMode _ => none
  | .dispSchedule _ => none
  | .dispPerturb _ => none
  | .dispPerturbStop _ => none
  | .loopSampleBoundary t _ => some t.val
  | .loopHoldTimeExpiry t _ => some t.val
  | .loopCommitWrite _ o _ => originTile o
  | .loopShadowStore _ o _ _ _ => originTile o
  | .loopInputSoftWrite _ o _ _ => originTile o
  | .gainTableWrite _ o _ _ _ _ => originTile o
  | .loopOutputFrameSend t _ => some t.val
  | .traceArm _ o _ => originTile o
  | .traceStop _ o _ => originTile o
  | .traceForce _ o _ => originTile o
  | .traceDone t _ => some t.val
  | .loopMode _ => none
  | .safetyInputChange t _ _ _ => some t.val
  | .discrepancyFault t _ => some t.val
  | .resetButtonRelease t _ _ _ _ => some t.val
  | .resetStuck t _ _ => some t.val
  | .outputEnergiseHs t _ => some t.val
  | .outputReadbackCheck t _ _ _ => some t.val
  | .testPulseStart t _ => some t.val
  | .testPulseEnd t _ _ _ => some t.val
  | .readbackMismatch t _ _ _ => some t.val
  | .consumePduReceive t _ => some t.val
  | .consumeWatchdogExpiry t _ => some t.val
  | .producePduSend t _ => some t.val
  | .sf5CauseDetect t _ => some t.val
  | .berylSelfTestComplete t _ _ => some t.val
  | .berylParamWrite _ o _ _ => originTile o
  | .berylSessionTimeout t => some t.val
  | .berylReset _ _ => none
  | .berylParamOpen _ => none
  | .berylParamConfirm _ => none
  | .berylParamAbort _ => none
  | .modeStandby _ => none
  | .standbyPowerOff => none
  | .modeChrysalis _ => none
  | .chrysalisInputSwitchOpen => none
  | .modeRun _ => none
  | .wakeComparatorArm => none
  | .chrysalisWake => none
  | .standbyWakeTime => none
  | .governorTick t _ _ _ => some t.val
  | .clockFault t _ => some t.val
  | .avsStep t _ => some t.val
  | .avsMarginFault t => some t.val
  | .tjFault t => some t.val
  | .ptpAnnounceReceive _ _ _ _ => none
  | .ptpSyncReceive _ _ _ => none
  | .ptpPdelayExchange _ _ => none
  | .ptpSyncTimeout => none
  | .holdoverExpiry => none
  | .timeStrobe t _ _ => some t.val
  | .strobeLost t => some t.val
  | .strobeRecovered t => some t.val
  | .timeWrap t => some t.val
  | .timeStnNsRead t => some t.val
  | .timeOptimeRead t => some t.val
  | .canSyncLaunch t _ => some t.val
  | .followupSend _ o _ _ => originTile o
  | .chpBulkReceive _ => none
  | .supervisionReceive _ => none
  | .safetyMessageReceive _ => none
  | .supervisionSend => none
  | .pathSupervisionLoss _ => none
  | .pathResyncDone _ => none
  | .pathCompatRevert => none
  | .pathLinkUp _ _ => none
  | .pathLinkDown _ _ => none
  | .sfpInsert _ _ _ => none
  | .sessionIdleTimeout _ => none
  | .eventMessageSend _ => none
  | .telemCopy _ => none
  | .bulkHandleTimeout _ => none
  | .netIpConfigApply => none
  | .netOpen _ => none
  | .netClose _ => none
  | .netSubscribe _ => none
  | .netUnsubscribe _ => none
  | .netBulkOpen _ => none
  | .netSupervise _ => none
  | .netSuperviseRelease _ => none
  | .netKey _ => none
  | .ringEnumerate _ => none
  | .ringMode _ => none
  | .ringInventoryWrite _ => none
  | .ringInventoryAdopt _ => none
  | .ringInventoryClear _ => none
  | .ringTrust _ => none
  | .canInitSet _ o _ => originTile o
  | .canInitClear _ o _ => originTile o
  | .canBusJoin t _ => some t.val
  | .canRecoverWrite _ o _ => originTile o
  | .canRecoveryComplete t _ => some t.val
  | .canDetectStart _ o _ => originTile o
  | .canDetectDwell t _ => some t.val
  | .canDetectEnd t _ _ => some t.val
  | .canAdopt _ o _ => originTile o
  | .canTxreq _ o _ _ => originTile o
  | .canTxcancel _ o _ _ => originTile o
  | .canTxComplete t _ => some t.val
  | .canTxError t _ _ => some t.val
  | .canFrameReceive t _ _ => some t.val
  | .canRxError t _ _ _ _ => some t.val
  | .canRxPop _ o _ _ => originTile o
  | .twbTargetWrite _ => none
  | .twbTargetRead _ => none
  | .twbStatusRefresh => none
  | .twbTargetTimeout => none
  | .twbBusFree => none
  | .sidebandGo => none
  | .sbIp4 _ _ _ _ => none
  | .sbModuleReset => none
  | .twbJobGo o _ => originTile o
  | .twbJobStart _ => none
  | .twbArbitrationLoss => none
  | .twbJobEnd _ => none
  | .dmaJobComplete t _ => some t.val
  | .dmaBusError t _ _ => some t.val
  | .dmaAutoResume t => some t.val
  | .dmaRecover _ o => originTile o
  | .dmaChannelDisable _ o _ => originTile o
  | .dmaChannelEnable _ o _ => originTile o
  | .eventRecordAccept t => some t.val
  | .eventTailWriteDone t => some t.val
  | .evtRptrWrite _ o _ => originTile o
  | .evtClassWrite _ o _ _ => originTile o
  | .codeTableWrite _ o _ _ _ => originTile o
  | .imgBegin _ => none
  | .imgChunk _ => none
  | .imgVerify _ => none
  | .imgVerifyDone _ => none
  | .imgActivate _ => none
  | .activationCommitsDone => none
  | .imageRestartDone => none
  | .rollingStepStart => none
  | .rollingStepTimeout => none
  | .imgConfirm _ => none
  | .imgCtrlConfirm o => originTile o
  | .selfcheckPass _ o => originTile o
  | .selfcheckFail _ o => originTile o
  | .confirmWindowExpiry => none
  | .carryReadyWrite _ o => originTile o
  | .modulePowerUp => none
  | .vin48Applied => none
  | .prechargeComplete => none
  | .inputPowerGood => none
  | .tileEnterRun t => some t.val
  | .tileRunTimeout t => some t.val
  | .estimationReady => none
  | .mrstAssert => none
  | .mrstRelease => none
  | .ejectAssert => none
  | .shutdownCommitDone => none
  | .ejectReleaseRestart => none
  | .powerFailWarning => none
  | .powerFailWithdrawn => none
  | .loopOffChannelTransfer t _ => some t.val
  | .resetStuckClear t => some t.val
  | .blockPowerCycle t _ _ => some t.val
  | .beaconSend t _ _ _ => some t.val
  | .vin48Dip _ => none
  | .operatingTimeStore => none
  | .announceReceiptTimeout _ => none
  | .arpNdpEchoReceive _ _ => none

/-- Whether a command may write the memories; the others leave every byte as it is. -/
def mayStore : Instr → Bool
  | .hostRead _ => true
  | .hostWrite _ => true
  | .registerWrite _ _ _ _ _ => true
  | .tileReset _ _ => true
  | .tileHold _ _ => true
  | .tileHoldRelease _ _ => true
  | .aluOp _ _ _ _ _ _ => false
  | .aluImmediate _ _ _ _ _ _ => false
  | .load _ _ _ _ _ _ _ => false
  | .store _ _ _ _ _ _ => true
  | .amo _ _ _ _ _ _ _ => true
  | .branch _ _ _ _ _ _ => false
  | .jump _ _ _ => false
  | .jal _ _ _ => false
  | .jalr _ _ _ _ _ => false
  | .nop _ _ => false
  | .mfs _ _ _ _ => false
  | .mts _ _ _ _ => false
  | .tend _ _ => false
  | .tret _ _ _ _ _ => false
  | .trig _ _ _ _ => false
  | .taskStart _ _ _ => false
  | .taskStop _ _ _ => false
  | .taskTrigger _ _ _ => false
  | .taskKill _ _ _ => true
  | .taskCfgWrite _ _ _ _ => false
  | .coreHalt _ _ _ => false
  | .coreHalted _ _ => false
  | .coreResume _ _ _ => false
  | .wdogEnable _ _ _ => false
  | .wdogKick _ _ _ => false
  | .wdogExpiry _ => false
  | .casdaTimerWrite _ _ _ _ => false
  | .casdaTimerExpiry _ _ => false
  | .mboxPost _ _ _ _ => false
  | .mboxPop _ _ _ => false
  | .mboxCfgWrite _ _ _ _ => false
  | .irqRouteWrite _ _ _ _ => false
  | .vectorArith _ _ _ _ _ _ _ => false
  | .vectorConvert _ _ _ _ _ _ _ => false
  | .vectorCompare _ _ _ _ _ _ _ => false
  | .predicateLogic _ _ _ _ _ _ _ => false
  | .vsel _ _ _ _ _ _ => false
  | .vbcast _ _ _ _ _ _ => false
  | .vext _ _ _ _ _ _ => false
  | .vlane _ _ _ _ _ _ => false
  | .pfroms _ _ _ _ _ _ => false
  | .ptos _ _ _ _ _ _ => false
  | .vectorReduce _ _ _ _ _ _ _ => false
  | .vlds _ _ _ _ _ _ _ => false
  | .vsts _ _ _ _ _ _ _ => true
  | .vldg _ _ _ _ _ _ => false
  | .vstx _ _ _ _ _ _ => true
  | .veccTrap _ _ => true
  | .yield _ _ _ _ => false
  | .trap _ _ _ _ => false
  | .fence _ _ _ _ => false
  | .fenceDone _ _ => false
  | .budget _ _ _ _ => false
  | .vclaim _ _ _ _ => false
  | .vrelease _ _ _ _ => false
  | .vstat _ _ _ _ => false
  | .ns32 _ _ _ _ => false
  | .station _ _ _ _ => false
  | .frame _ _ _ _ => false
  | .optime _ _ _ _ => false
  | .rpost _ _ _ _ => true
  | .rwait _ _ _ _ => false
  | .sfetch _ _ _ _ => false
  | .sfetchDone _ _ => true
  | .slast _ _ _ _ => false
  | .bduty _ _ _ _ => false
  | .lshw _ _ _ _ => false
  | .lcommit _ _ _ _ => false
  | .emit _ _ _ _ => true
  | .dqueue _ _ _ _ => false
  | .dwait _ _ _ _ => false
  | .fwait _ _ _ _ => false
  | .iwait _ _ _ _ => false
  | .ringCtrlEnum _ _ _ => true
  | .ringSmapCommit _ _ _ => true
  | .ringLinkLock _ _ _ _ => true
  | .ringLinkLoss _ _ _ => true
  | .assignAtTail _ _ _ _ => true
  | .assignTimeout _ _ => false
  | .enumStepTimeout _ _ => true
  | .breakLocated _ _ _ _ _ => true
  | .carriedBreakLocate _ _ _ => true
  | .rejoinAttempt _ _ => false
  | .missingCountReenum _ _ => true
  | .toneLossReport _ _ _ => false
  | .toneRestored _ _ _ => false
  | .beaconReceive _ _ _ => false
  | .beaconTimeout _ _ _ => false
  | .collectLaunch _ _ => false
  | .sampleResponseReceive _ _ _ => true
  | .retryPassLaunch _ _ => false
  | .ringSweepEnd _ _ _ => true
  | .ringTxLaunch _ _ => true
  | .ringTxResponse _ _ _ _ => true
  | .ringTxRetryTimeout _ _ _ => true
  | .dutySlotSend _ _ => false
  | .quietLaunch _ _ => false
  | .blockSyncReceive _ _ _ _ _ _ _ => false
  | .blockConversion _ _ _ _ => false
  | .collect _ _ _ => false
  | .retry _ _ _ _ => false
  | .assign _ _ _ _ _ _ _ _ _ => false
  | .readId _ _ _ _ => false
  | .setThr _ _ _ _ => false
  | .lockThr _ _ _ _ => false
  | .readThr _ _ _ _ => false
  | .challenge _ _ _ _ => false
  | .blockAuthReady _ _ _ => false
  | .authRead _ _ _ _ => false
  | .setRole _ _ _ _ => false
  | .setPos _ _ _ _ => false
  | .openTest _ _ _ _ => false
  | .openTestSinkDone _ _ _ _ _ => false
  | .burst _ _ _ _ => false
  | .ping _ _ _ _ => false
  | .readStatus _ _ _ _ => false
  | .setDuty _ _ _ _ => false
  | .quiet _ _ _ _ => false
  | .ship _ _ _ _ => false
  | .shipStateExit _ _ _ => false
  | .bleedCycleStart _ _ _ => false
  | .bleedOnTimeEnd _ _ _ => false
  | .bleedWatchdogExpiry _ _ _ => false
  | .blockComparatorTrip _ _ _ _ => false
  | .blockComparatorClear _ _ _ => false
  | .frameInstant => true
  | .frameComplete _ => true
  | .framePeriodNextWrite _ _ => false
  | .burstSubInstant _ _ => false
  | .burstCollect _ _ _ => false
  | .burstEntryComplete _ => true
  | .burstListCommit _ _ _ => false
  | .owScheduledTest _ _ _ _ => false
  | .owRetestTimer _ _ _ _ => false
  | .smpOwTest _ => true
  | .limitCommitWrite _ _ _ => false
  | .limitRingSelWrite _ _ _ _ => false
  | .estimatorPass _ => true
  | .restFit _ _ _ => true
  | .restRequestExpiry _ _ _ => false
  | .lvCommitInterval _ => false
  | .lvCommitComplete _ _ _ => true
  | .estStaleClear _ _ _ => false
  | .estAnchorRequest _ => true
  | .estProfile _ => true
  | .estCellInit _ => true
  | .lvBackup _ => true
  | .lvRestore _ => true
  | .balancingPlannerRun _ => true
  | .heatBudgetStale _ _ => false
  | .manualTimeout _ => true
  | .balMode _ => true
  | .balManual _ => true
  | .balWireTest _ => true
  | .dispatchCycle => true
  | .setpointAgeExpiry => false
  | .allocationExchangeTimeout _ => false
  | .coordinationRamp _ => false
  | .cyclicTxRelease _ => false
  | .repeatLimitStop _ _ => false
  | .restEnd _ _ _ => false
  | .sessionEnd _ _ => false
  | .bankSetpoint _ => true
  | .dispMode _ => true
  | .dispSchedule _ => true
  | .dispPerturb _ => true
  | .dispPerturbStop _ => true
  | .loopSampleBoundary _ _ => true
  | .loopHoldTimeExpiry _ _ => true
  | .loopCommitWrite _ _ _ => false
  | .loopShadowStore _ _ _ _ _ => false
  | .loopInputSoftWrite _ _ _ _ => false
  | .gainTableWrite _ _ _ _ _ _ => false
  | .loopOutputFrameSend _ _ => false
  | .traceArm _ _ _ => false
  | .traceStop _ _ _ => false
  | .traceForce _ _ _ => false
  | .traceDone _ _ => false
  | .loopMode _ => true
  | .safetyInputChange _ _ _ _ => false
  | .discrepancyFault _ _ => false
  | .resetButtonRelease _ _ _ _ _ => false
  | .resetStuck _ _ _ => false
  | .outputEnergiseHs _ _ => false
  | .outputReadbackCheck _ _ _ _ => false
  | .testPulseStart _ _ => false
  | .testPulseEnd _ _ _ _ => false
  | .readbackMismatch _ _ _ _ => false
  | .consumePduReceive _ _ => false
  | .consumeWatchdogExpiry _ _ => false
  | .producePduSend _ _ => false
  | .sf5CauseDetect _ _ => false
  | .berylSelfTestComplete _ _ _ => false
  | .berylParamWrite _ _ _ _ => false
  | .berylSessionTimeout _ => false
  | .berylReset _ _ => true
  | .berylParamOpen _ => true
  | .berylParamConfirm _ => true
  | .berylParamAbort _ => true
  | .modeStandby _ => true
  | .standbyPowerOff => true
  | .modeChrysalis _ => true
  | .chrysalisInputSwitchOpen => true
  | .modeRun _ => true
  | .wakeComparatorArm => false
  | .chrysalisWake => false
  | .standbyWakeTime => true
  | .governorTick _ _ _ _ => true
  | .clockFault _ _ => false
  | .avsStep _ _ => false
  | .avsMarginFault _ => false
  | .tjFault _ => false
  | .ptpAnnounceReceive _ _ _ _ => false
  | .ptpSyncReceive _ _ _ => false
  | .ptpPdelayExchange _ _ => false
  | .ptpSyncTimeout => false
  | .holdoverExpiry => false
  | .timeStrobe _ _ _ => false
  | .strobeLost _ => false
  | .strobeRecovered _ => false
  | .timeWrap _ => false
  | .timeStnNsRead _ => false
  | .timeOptimeRead _ => false
  | .canSyncLaunch _ _ => false
  | .followupSend _ _ _ _ => false
  | .chpBulkReceive _ => true
  | .supervisionReceive _ => false
  | .safetyMessageReceive _ => false
  | .supervisionSend => false
  | .pathSupervisionLoss _ => false
  | .pathResyncDone _ => false
  | .pathCompatRevert => false
  | .pathLinkUp _ _ => false
  | .pathLinkDown _ _ => false
  | .sfpInsert _ _ _ => false
  | .sessionIdleTimeout _ => false
  | .eventMessageSend _ => false
  | .telemCopy _ => false
  | .bulkHandleTimeout _ => false
  | .netIpConfigApply => false
  | .netOpen _ => false
  | .netClose _ => true
  | .netSubscribe _ => true
  | .netUnsubscribe _ => true
  | .netBulkOpen _ => true
  | .netSupervise _ => true
  | .netSuperviseRelease _ => true
  | .netKey _ => true
  | .ringEnumerate _ => true
  | .ringMode _ => true
  | .ringInventoryWrite _ => true
  | .ringInventoryAdopt _ => true
  | .ringInventoryClear _ => true
  | .ringTrust _ => true
  | .canInitSet _ _ _ => false
  | .canInitClear _ _ _ => false
  | .canBusJoin _ _ => false
  | .canRecoverWrite _ _ _ => false
  | .canRecoveryComplete _ _ => false
  | .canDetectStart _ _ _ => false
  | .canDetectDwell _ _ => false
  | .canDetectEnd _ _ _ => false
  | .canAdopt _ _ _ => false
  | .canTxreq _ _ _ _ => false
  | .canTxcancel _ _ _ _ => false
  | .canTxComplete _ _ => false
  | .canTxError _ _ _ => false
  | .canFrameReceive _ _ _ => false
  | .canRxError _ _ _ _ _ => false
  | .canRxPop _ _ _ _ => false
  | .twbTargetWrite _ => true
  | .twbTargetRead _ => true
  | .twbStatusRefresh => false
  | .twbTargetTimeout => false
  | .twbBusFree => false
  | .sidebandGo => true
  | .sbIp4 _ _ _ _ => true
  | .sbModuleReset => true
  | .twbJobGo _ _ => false
  | .twbJobStart _ => false
  | .twbArbitrationLoss => false
  | .twbJobEnd _ => false
  | .dmaJobComplete _ _ => true
  | .dmaBusError _ _ _ => true
  | .dmaAutoResume _ => true
  | .dmaRecover _ _ => true
  | .dmaChannelDisable _ _ _ => true
  | .dmaChannelEnable _ _ _ => true
  | .eventRecordAccept _ => true
  | .eventTailWriteDone _ => true
  | .evtRptrWrite _ _ _ => false
  | .evtClassWrite _ _ _ _ => false
  | .codeTableWrite _ _ _ _ _ => false
  | .imgBegin _ => true
  | .imgChunk _ => true
  | .imgVerify _ => true
  | .imgVerifyDone _ => true
  | .imgActivate _ => true
  | .activationCommitsDone => true
  | .imageRestartDone => true
  | .rollingStepStart => false
  | .rollingStepTimeout => false
  | .imgConfirm _ => true
  | .imgCtrlConfirm _ => true
  | .selfcheckPass _ _ => true
  | .selfcheckFail _ _ => true
  | .confirmWindowExpiry => false
  | .carryReadyWrite _ _ => false
  | .modulePowerUp => true
  | .vin48Applied => false
  | .prechargeComplete => false
  | .inputPowerGood => true
  | .tileEnterRun _ => true
  | .tileRunTimeout _ => false
  | .estimationReady => true
  | .mrstAssert => true
  | .mrstRelease => true
  | .ejectAssert => true
  | .shutdownCommitDone => true
  | .ejectReleaseRestart => true
  | .powerFailWarning => true
  | .powerFailWithdrawn => false
  | .loopOffChannelTransfer _ _ => true
  | .resetStuckClear _ => false
  | .blockPowerCycle _ _ _ => false
  | .beaconSend _ _ _ _ => false
  | .vin48Dip _ => true
  | .operatingTimeStore => false
  | .announceReceiptTimeout _ => false
  | .arpNdpEchoReceive _ _ => false

/-- The acting tile of a command is fitted. -/
def Acts (i : Instr) (s : State) : Prop := ∀ t, actor i = some t → t < s.ctl.tiles

/-- A safe step: it does not stop. -/
def StepSafe (s : State) : Prop := ∃ u, step s = .next u

/-- A safe run of `n` steps. -/
def RunSafe : Nat → State → Prop
  | 0, _ => True
  | n + 1, s => ∃ u, step s = .next u ∧ RunSafe n u

/-- The state with another control state. -/
def State.ctlTo (s : State) (c : Ctl) : State := { s with ctl := c }

/-- The state with other memories and another control state. -/
def State.allTo (s : State) (x : Mem × Ctl) : State := { s with mem := x.1, ctl := x.2 }

/-- Instruction of task `i` retired: the result `v` in `s[d]` and the PC at `pc`, and it was not the first of its activation any
more; nothing else changes. -/
def State.retired (s : State) (t i d : Nat) (v : Word) (pc : Nat) : State :=
  s.ctlTo (s.ctl.setTask t i { (s.ctl.task t i).setReg d v with pc := pc, first := none })

/-- Instruction retired without a result, the PC moved past it. -/
def State.stepped (s : State) (t i : Nat) : State := s.retired t i 0 0 ((s.ctl.task t i).pc + 4)

/-- Instruction retired with one result, the PC moved past it. -/
def State.resulted (s : State) (t i d : Nat) (v : Word) : State := s.retired t i d v ((s.ctl.task t i).pc + 4)

/-- Instruction retired with a result pair; with d = 0 both are discarded (R97). -/
def State.paired (s : State) (t i d : Nat) (v w : Word) : State :=
  if d = 0 then s.stepped t i
  else s.ctlTo (s.ctl.setTask t i
    { ((s.ctl.task t i).setReg (d + 1) w).setReg d v with pc := (s.ctl.task t i).pc + 4, first := none })

/-- Vector instruction issued: the array becomes `v`, its entry joins the issue queue, the PC moved past it (R95). -/
def State.vretired (s : State) (t i : Nat) (v : VecArray) (load : Bool := false) : State :=
  (s.ctlTo (s.ctl.issue t (fun _ => v) load)).stepped t i

/-- A vector store: what the tile's DMA wrote lands first, every active lane of `r` is written at its address in the DRAM of
tile `t`, in ascending order, and the array is left with the sticky flags raised (R91, R421). -/
def State.vstored (s : State) (t i r p e : Nat) (addr : Nat → Nat) : State :=
  let v := s.ctl.vecOf t
  let x := dmaLand t (s.mem, s.ctl)
  let m := v.stores t r p e addr x.1
  (s.allTo (m, x.2.issue t (fun _ => v.lanes p (fun l w => w.raise (elemStore e (v.lane r l)).2)) false
    (v.wrote t p e addr x.1 m))).stepped t i

/-- The block at a position becomes `x`. -/
def State.blkTo (s : State) (t r b : Nat) (x : Blk) : State := s.ctlTo (s.ctl.setBlk t r b x)

/-- A frame found whole: not aborted and with the CRC of its header and data (R121, R122). -/
abbrev Whole (fr : RingFrame) : Prop := fr.abort = false ∧ fr.crcOk = true

/-- A block takes a CMD or POST frame of a type and command code: the block is not in ship state, the frame is whole and of
that type and code, it is for all blocks or names the block's address, its SEQ is not that of the last frame of its kind
accepted, and the request has the length of the command (R121, R122, R126, R127, R146). -/
abbrev Blk.Takes (x : Blk) (fr : RingFrame) (type cmd len : Nat) : Prop :=
  x.ship = false ∧ Whole fr ∧ fr.names type cmd = true ∧ (fr.broadcast = true ∨ x.addr = some (fr.addr.toNat % 1024)) ∧
    (if fr.broadcast then x.lastBc else x.lastUni) ≠ some fr.seq.toNat ∧ fr.req.length = len

/-- A block whose state a frame changed to `y`: the SEQ is remembered, a command executed with OK counts, and a unicast CMD is
answered with the response element of R123 (R126, R128). -/
def Blk.answers (y : Blk) (fr : RingFrame) (code : Nat) (data : List Byte) : Blk :=
  let y := if fr.broadcast then { y with lastBc := some fr.seq.toNat } else { y with lastUni := some fr.seq.toNat }
  let y := if code = eOk then { y with counter := (y.counter + 1) % 256 } else y
  if fr.broadcast ∨ fr.post = true then y
  else { y with response := y.commandResponse fr.seq.toNat code data, sent := y.commandResponse fr.seq.toNat code data }

/-- The same of a frame that came whole: the block has seen no aborted frame since. -/
def Blk.took (y : Blk) (fr : RingFrame) (code : Nat) (data : List Byte) : Blk :=
  Blk.answers { y with aborts := false } fr code data

/-- A request answered with its effect `e` (R363). -/
def State.replied (s : State) (d : Datagram) (q : Req) (e : Eff) : State :=
  s.allTo (e.answered q.slot d.seq.toNat d.path)

/-- A request answered OK with no result, its control state `c`. -/
def State.repliedOk (s : State) (d : Datagram) (q : Req) (c : Ctl) : State := s.replied d q { mem := s.mem, ctl := c }

/-- The message type and the datagram of a request of a session; none for the other commands and for the open exchange. -/
def sessionDatagram : Instr → Option (Nat × Datagram)
  | .hostRead d => some (1, d)
  | .hostWrite d => some (2, d)
  | .chpBulkReceive d => some (9, d)
  | .supervisionReceive d => some (7, d)
  | .safetyMessageReceive d => some (8, d)
  | .smpOwTest d => some (3, d)
  | .estAnchorRequest d => some (3, d)
  | .estProfile d => some (3, d)
  | .estCellInit d => some (3, d)
  | .lvBackup d => some (3, d)
  | .lvRestore d => some (3, d)
  | .balMode d => some (3, d)
  | .balManual d => some (3, d)
  | .balWireTest d => some (3, d)
  | .bankSetpoint d => some (3, d)
  | .dispMode d => some (3, d)
  | .dispSchedule d => some (3, d)
  | .dispPerturb d => some (3, d)
  | .dispPerturbStop d => some (3, d)
  | .loopMode d => some (3, d)
  | .berylReset d _ => some (3, d)
  | .berylParamOpen d => some (3, d)
  | .berylParamConfirm d => some (3, d)
  | .berylParamAbort d => some (3, d)
  | .modeStandby d => some (3, d)
  | .modeChrysalis d => some (3, d)
  | .modeRun d => some (3, d)
  | .netClose d => some (3, d)
  | .netSubscribe d => some (3, d)
  | .netUnsubscribe d => some (3, d)
  | .netBulkOpen d => some (3, d)
  | .netSupervise d => some (3, d)
  | .netSuperviseRelease d => some (3, d)
  | .netKey d => some (3, d)
  | .ringEnumerate d => some (3, d)
  | .ringMode d => some (3, d)
  | .ringInventoryWrite d => some (3, d)
  | .ringInventoryAdopt d => some (3, d)
  | .ringInventoryClear d => some (3, d)
  | .ringTrust d => some (3, d)
  | .imgBegin d => some (3, d)
  | .imgChunk d => some (3, d)
  | .imgVerify d => some (3, d)
  | .imgActivate d => some (3, d)
  | .imgConfirm d => some (3, d)
  | _ => none

/-- The tile, ring and block, the frame, its type and its command code, for the frames whose command a block executes at
once on its own state (R127). -/
def blockFrame : Instr → Option (TileId × RingId × BlockId × RingFrame × Nat × Nat)
  | .readId t r b fr => some (t, r, b, fr, 5, 0x01)
  | .setThr t r b fr => some (t, r, b, fr, 5, 0x02)
  | .lockThr t r b fr => some (t, r, b, fr, 5, 0x03)
  | .readThr t r b fr => some (t, r, b, fr, 5, 0x04)
  | .challenge t r b fr => some (t, r, b, fr, 5, 0x05)
  | .authRead t r b fr => some (t, r, b, fr, 5, 0x06)
  | .setRole t r b fr => some (t, r, b, fr, 5, 0x07)
  | .setPos t r b fr => some (t, r, b, fr, 5, 0x08)
  | .openTest t r b fr => some (t, r, b, fr, 5, 0x09)
  | .burst t r b fr => some (t, r, b, fr, 5, 0x0A)
  | .ping t r b fr => some (t, r, b, fr, 5, 0x0B)
  | .setDuty t r b fr => some (t, r, b, fr, 6, 0x10)
  | .quiet t r b fr => some (t, r, b, fr, 6, 0x11)
  | .ship t r b fr => some (t, r, b, fr, 6, 0x12)
  | _ => none

/-- The accessor of an access is a host or code of a fitted tile. -/
def accessorFitted (c : Ctl) (o : Origin) : Bool := (originTile o).all (fun u => decide (u < c.tiles))

/-- An access answered OK with the control state `c`: a host finds the code as its status (R45). -/
def State.accessed (s : State) (o : Origin) (blk : Nat) (c : Ctl) : State := s.ctlTo (c.answer o blk eOk)

/-- Core `k` of tile `t` executes task `i`: the tile is fitted, the task RUNNING, the core not halted and its System tasks not
preempted, no stall holds the task, and its PC lies in local memory (R53, R72, R83, R99, R216). -/
abbrev Executes (c : Ctl) (t k i : Nat) : Prop :=
  t < c.tiles ∧ c.runningTask t k = some i ∧ c.coreHeld t k = false ∧ (c.task t i).wait = .none ∧ (c.task t i).pc < 0x40000

/-- Core `k` of tile `t` executes task `i`, which holds the vector array (R87). -/
abbrev ExecutesVector (c : Ctl) (t k i : Nat) : Prop := Executes c t k i ∧ (c.vecOf t).holder = some i

/-- A CMD that reaches its effect as the request `q` on the control state `c'`: it is accepted in its session, STATUS and
TILE are right, its payload carries CODE, and fewer than 32 requests wait (R360, R363, R366). -/
structure Delivered (c : Ctl) (code : Nat) (d : Datagram) (q : Req) (c' : Ctl) : Prop where
  ownType : d.asType = none
  accepted : c.receive 0x03 d = .accepted q.slot c'
  request : q = { role := (c'.session q.slot).role, id := (c'.session q.slot).id, slot := q.slot, seq := d.seq.toNat
                  v1 := (c'.session q.slot).v1, args := d.payload.drop 4 }
  status : d.status = 0
  tile : d.tile = 0xFF
  long : 4 ≤ d.payload.length
  code : beNat (d.payload.take 2) = code
  room : (c'.session q.slot).waiting.length < 32

end Sys2Proof.Machine
end

