-- ==== Sys2Proof/WellFormed.lean ====
section
/-! DEFINITION. WellFormed.lean: the commands whose operands the outside world can produce: what the types of Syntax.lean leave
open is checked here. A meaning never relies on a check; an operand that fails one has the effect its fields give it. -/
namespace Sys2Proof

/-- Data bytes of a CAN frame by its format and data length code (R378): 0 to 8, then 12, 16, 20, 24, 32, 48, 64 in FD
frames. -/
def CanFrame.dataLength (f : CanFrame) : Nat :=
  if f.rtr then 0
  else if f.fdf then [0, 1, 2, 3, 4, 5, 6, 7, 8, 12, 16, 20, 24, 32, 48, 64].getD f.dlc.val 0
  else if f.dlc.val < 8 then f.dlc.val else 8

/-- A CAN frame as a bus carries it: a standard identifier has 11 bits, an FD frame is never remote, only an FD frame
switches its rate or carries ESI, and the data have the length its code gives. -/
def CanFrame.wf (f : CanFrame) : Bool :=
  (f.ext || decide (f.id.toNat < 2 ^ 11)) && !(f.fdf && f.rtr) && (f.fdf || (!f.brs && !f.esi && !f.res)) && f.data.length == f.dataLength

/-- A conversion gives 16 cell voltages and 6 temperatures (R124). -/
def Analog.wf (a : Analog) : Bool := a.cells.length == 16 && a.temps.length == 6

/-- A ring frame carries as many data bytes as LEN says, at most 48 (R120). -/
def RingFrame.wf (f : RingFrame) : Bool := decide (f.req.length ≤ 48) && f.req.length == f.len.toNat

/-- A controller job reads at most 64 bytes (R408). -/
def JobEnd.wf : JobEnd → Bool
  | .ok r => decide (r.length ≤ 64)
  | .noAddress _ => true
  | .noData n => decide (n.toNat ≤ 64)
  | .sclLow n => decide (n.toNat ≤ 64)

/-- The length a UDP datagram can have. -/
def Datagram.wf (d : Datagram) : Bool := decide (20 + d.payload.length + d.mac.length ≤ 65507)

/-- The dfuncs assigned to a unit of the device operations (R100). -/
def deviceFuncs : Nat → Nat
  | 0x00 => 7
  | 0x01 => 4
  | 0x02 => 2
  | 0x03 => 2
  | 0x04 => 1
  | 0x05 => 2
  | 0x06 => 1
  | 0x07 => 2
  | 0x08 => 2
  | _ => 0

/-- Whether a row other than NOP stands for an instruction word: by its opcode, and by its func, vfunc or unit and dfunc where
the opcode leaves the operation to them (R57, R60, R63, R64, R91, R100). The rows of the ALU and AMO groups, of vector
arithmetic and of strided access hold their function code themselves. -/
def spelt (w : Nat) : Bool :=
  let op := w / 2 ^ 26 % 64
  let func := w % 2 ^ 11
  if op = 0x30 then decide (0x001 ≤ func ∧ func ≤ 0x005)
  else if op = 0x3E then
    decide (func ≤ 0x01F) || decide (0x020 ≤ func ∧ func ≤ 0x023) || decide (0x028 ≤ func ∧ func ≤ 0x02B)
      || decide (0x030 ≤ func ∧ func ≤ 0x035) || decide (0x038 ≤ func ∧ func ≤ 0x03A) || decide (0x040 ≤ func ∧ func ≤ 0x050)
      || func == 0x058
  else if op = 0x3F then decide (w % 256 < deviceFuncs (w / 256 % 256))
  else decide (op ≤ 0x07) || decide (0x10 ≤ op ∧ op ≤ 0x14) || op == 0x16 || decide (0x18 ≤ op ∧ op ≤ 0x1C)
    || decide (0x20 ≤ op ∧ op ≤ 0x25) || decide (0x28 ≤ op ∧ op ≤ 0x2A)

/-- A well-formed command. -/
def Instr.wf : Instr → Bool
  | .hostRead d => d.wf
  | .hostWrite d => d.wf
  | .registerWrite _ _ _ _ _ => true
  | .tileReset _ _ => true
  | .tileHold _ _ => true
  | .tileHoldRelease _ _ => true
  | .aluOp _ _ _ _ _ _ => true
  | .aluImmediate _ _ _ _ _ _ => true
  | .load _ _ _ _ _ _ _ => true
  | .store _ _ _ _ _ _ => true
  | .amo _ _ _ _ _ _ _ => true
  | .branch _ _ _ _ _ _ => true
  | .jump _ _ _ => true
  | .jal _ _ _ => true
  | .jalr _ _ _ _ _ => true
  | .nop _ w => w.word == 0xC0000000 || !spelt w.word.toNat
  | .mfs _ _ _ _ => true
  | .mts _ _ _ _ => true
  | .tend _ _ => true
  | .tret _ _ _ _ _ => true
  | .trig _ _ _ _ => true
  | .taskStart _ _ _ => true
  | .taskStop _ _ _ => true
  | .taskTrigger _ _ _ => true
  | .taskKill _ _ _ => true
  | .taskCfgWrite _ _ _ _ => true
  | .coreHalt _ _ _ => true
  | .coreHalted _ _ => true
  | .coreResume _ _ _ => true
  | .wdogEnable _ _ _ => true
  | .wdogKick _ _ _ => true
  | .wdogExpiry _ => true
  | .casdaTimerWrite _ _ _ _ => true
  | .casdaTimerExpiry _ _ => true
  | .mboxPost _ _ _ _ => true
  | .mboxPop _ _ _ => true
  | .mboxCfgWrite _ _ _ _ => true
  | .irqRouteWrite _ _ _ _ => true
  | .vectorArith _ _ _ _ _ _ _ => true
  | .vectorConvert _ _ _ _ _ _ _ => true
  | .vectorCompare _ _ _ _ _ _ _ => true
  | .predicateLogic _ _ _ _ _ _ _ => true
  | .vsel _ _ _ _ _ _ => true
  | .vbcast _ _ _ _ _ _ => true
  | .vext _ _ _ _ _ _ => true
  | .vlane _ _ _ _ _ _ => true
  | .pfroms _ _ _ _ _ _ => true
  | .ptos _ _ _ _ _ _ => true
  | .vectorReduce _ _ _ _ _ _ _ => true
  | .vlds _ _ _ _ _ _ _ => true
  | .vsts _ _ _ _ _ _ _ => true
  | .vldg _ _ _ _ _ _ => true
  | .vstx _ _ _ _ _ _ => true
  | .veccTrap _ _ => true
  | .yield _ _ _ _ => true
  | .trap _ _ _ _ => true
  | .fence _ _ _ _ => true
  | .fenceDone _ _ => true
  | .budget _ _ _ _ => true
  | .vclaim _ _ _ _ => true
  | .vrelease _ _ _ _ => true
  | .vstat _ _ _ _ => true
  | .ns32 _ _ _ _ => true
  | .station _ _ _ _ => true
  | .frame _ _ _ _ => true
  | .optime _ _ _ _ => true
  | .rpost _ _ _ _ => true
  | .rwait _ _ _ _ => true
  | .sfetch _ _ _ _ => true
  | .sfetchDone _ _ => true
  | .slast _ _ _ _ => true
  | .bduty _ _ _ _ => true
  | .lshw _ _ _ _ => true
  | .lcommit _ _ _ _ => true
  | .emit _ _ _ _ => true
  | .dqueue _ _ _ _ => true
  | .dwait _ _ _ _ => true
  | .fwait _ _ _ _ => true
  | .iwait _ _ _ _ => true
  | .ringCtrlEnum _ _ _ => true
  | .ringSmapCommit _ _ _ => true
  | .ringLinkLock _ _ _ _ => true
  | .ringLinkLoss _ _ _ => true
  | .assignAtTail _ _ _ _ => true
  | .assignTimeout _ _ => true
  | .enumStepTimeout _ _ => true
  | .breakLocated _ _ _ _ _ => true
  | .carriedBreakLocate _ _ _ => true
  | .rejoinAttempt _ _ => true
  | .missingCountReenum _ _ => true
  | .toneLossReport _ _ _ => true
  | .toneRestored _ _ _ => true
  | .beaconReceive _ _ _ => true
  | .beaconTimeout _ _ _ => true
  | .collectLaunch _ _ => true
  | .sampleResponseReceive _ _ el => el.length == 54 || el.length == 60
  | .retryPassLaunch _ _ => true
  | .ringSweepEnd _ _ _ => true
  | .ringTxLaunch _ _ => true
  | .ringTxResponse _ _ _ el => decide (8 ≤ el.length) && decide (el.length ≤ 72)
  | .ringTxRetryTimeout _ _ _ => true
  | .dutySlotSend _ _ => true
  | .quietLaunch _ _ => true
  | .blockSyncReceive _ _ _ h req e _ => RingFrame.wf { toRingHeader := h, toRingEnd := e, req := req }
  | .blockConversion _ _ _ a => a.wf
  | .collect _ _ b => b.frame.wf
  | .retry _ _ _ fr => fr.wf
  | .assign _ _ _ h req crc abort _ _ =>
    RingFrame.wf { toRingHeader := h, toRingEnd := { crc := crc, abort := abort }, req := req }
  | .readId _ _ _ fr => fr.wf
  | .setThr _ _ _ fr => fr.wf
  | .lockThr _ _ _ fr => fr.wf
  | .readThr _ _ _ fr => fr.wf
  | .challenge _ _ _ fr => fr.wf
  | .blockAuthReady _ _ _ => true
  | .authRead _ _ _ fr => fr.wf
  | .setRole _ _ _ fr => fr.wf
  | .setPos _ _ _ fr => fr.wf
  | .openTest _ _ _ fr => fr.wf
  | .openTestSinkDone _ _ _ _ _ => true
  | .burst _ _ _ fr => fr.wf
  | .ping _ _ _ fr => fr.wf
  | .readStatus _ _ _ fr => fr.wf
  | .setDuty _ _ _ fr => fr.wf
  | .quiet _ _ _ fr => fr.wf
  | .ship _ _ _ fr => fr.wf
  | .shipStateExit _ _ _ => true
  | .bleedCycleStart _ _ _ => true
  | .bleedOnTimeEnd _ _ _ => true
  | .bleedWatchdogExpiry _ _ _ => true
  | .blockComparatorTrip _ _ _ _ => true
  | .blockComparatorClear _ _ _ => true
  | .frameInstant => true
  | .frameComplete _ => true
  | .framePeriodNextWrite _ _ => true
  | .burstSubInstant _ _ => true
  | .burstCollect _ _ _ => true
  | .burstEntryComplete _ => true
  | .burstListCommit _ _ _ => true
  | .owScheduledTest _ _ _ _ => true
  | .owRetestTimer _ _ _ _ => true
  | .smpOwTest d => d.wf
  | .limitCommitWrite _ _ _ => true
  | .limitRingSelWrite _ _ _ _ => true
  | .estimatorPass _ => true
  | .restFit _ _ _ => true
  | .restRequestExpiry _ _ _ => true
  | .lvCommitInterval _ => true
  | .lvCommitComplete _ _ _ => true
  | .estStaleClear _ _ _ => true
  | .estAnchorRequest d => d.wf
  | .estProfile d => d.wf
  | .estCellInit d => d.wf
  | .lvBackup d => d.wf
  | .lvRestore d => d.wf
  | .balancingPlannerRun _ => true
  | .heatBudgetStale _ _ => true
  | .manualTimeout _ => true
  | .balMode d => d.wf
  | .balManual d => d.wf
  | .balWireTest d => d.wf
  | .dispatchCycle => true
  | .setpointAgeExpiry => true
  | .allocationExchangeTimeout _ => true
  | .coordinationRamp _ => true
  | .cyclicTxRelease _ => true
  | .repeatLimitStop _ _ => true
  | .restEnd _ _ _ => true
  | .sessionEnd _ _ => true
  | .bankSetpoint d => d.wf
  | .dispMode d => d.wf
  | .dispSchedule d => d.wf
  | .dispPerturb d => d.wf
  | .dispPerturbStop d => d.wf
  | .loopSampleBoundary _ _ => true
  | .loopHoldTimeExpiry _ _ => true
  | .loopCommitWrite _ _ _ => true
  | .loopShadowStore _ _ _ _ _ => true
  | .loopInputSoftWrite _ _ _ _ => true
  | .gainTableWrite _ _ _ _ _ _ => true
  | .loopOutputFrameSend _ _ => true
  | .traceArm _ _ _ => true
  | .traceStop _ _ _ => true
  | .traceForce _ _ _ => true
  | .traceDone _ _ => true
  | .loopMode d => d.wf
  | .safetyInputChange _ _ _ _ => true
  | .discrepancyFault _ _ => true
  | .resetButtonRelease _ _ _ _ _ => true
  | .resetStuck _ _ _ => true
  | .outputEnergiseHs _ _ => true
  | .outputReadbackCheck _ _ _ _ => true
  | .testPulseStart _ _ => true
  | .testPulseEnd _ _ _ _ => true
  | .readbackMismatch _ _ _ _ => true
  | .consumePduReceive _ _ => true
  | .consumeWatchdogExpiry _ _ => true
  | .producePduSend _ _ => true
  | .sf5CauseDetect _ _ => true
  | .berylSelfTestComplete _ _ _ => true
  | .berylParamWrite _ _ _ _ => true
  | .berylSessionTimeout _ => true
  | .berylReset d _ => d.wf
  | .berylParamOpen d => d.wf
  | .berylParamConfirm d => d.wf
  | .berylParamAbort d => d.wf
  | .modeStandby d => d.wf
  | .standbyPowerOff => true
  | .modeChrysalis d => d.wf
  | .chrysalisInputSwitchOpen => true
  | .modeRun d => d.wf
  | .wakeComparatorArm => true
  | .chrysalisWake => true
  | .standbyWakeTime => true
  | .governorTick _ _ _ _ => true
  | .clockFault _ _ => true
  | .avsStep _ _ => true
  | .avsMarginFault _ => true
  | .tjFault _ => true
  | .ptpAnnounceReceive _ _ _ _ => true
  | .ptpSyncReceive _ _ _ => true
  | .ptpPdelayExchange _ _ => true
  | .ptpSyncTimeout => true
  | .holdoverExpiry => true
  | .timeStrobe _ _ _ => true
  | .strobeLost _ => true
  | .strobeRecovered _ => true
  | .timeWrap _ => true
  | .timeStnNsRead _ => true
  | .timeOptimeRead _ => true
  | .canSyncLaunch _ _ => true
  | .followupSend _ _ _ _ => true
  | .chpBulkReceive d => d.wf
  | .supervisionReceive d => d.wf
  | .safetyMessageReceive d => d.wf
  | .supervisionSend => true
  | .pathSupervisionLoss _ => true
  | .pathResyncDone _ => true
  | .pathCompatRevert => true
  | .pathLinkUp _ _ => true
  | .pathLinkDown _ _ => true
  | .sfpInsert _ _ _ => true
  | .sessionIdleTimeout _ => true
  | .eventMessageSend _ => true
  | .telemCopy _ => true
  | .bulkHandleTimeout _ => true
  | .netIpConfigApply => true
  | .netOpen d => d.wf
  | .netClose d => d.wf
  | .netSubscribe d => d.wf
  | .netUnsubscribe d => d.wf
  | .netBulkOpen d => d.wf
  | .netSupervise d => d.wf
  | .netSuperviseRelease d => d.wf
  | .netKey d => d.wf
  | .ringEnumerate d => d.wf
  | .ringMode d => d.wf
  | .ringInventoryWrite d => d.wf
  | .ringInventoryAdopt d => d.wf
  | .ringInventoryClear d => d.wf
  | .ringTrust d => d.wf
  | .canInitSet _ _ _ => true
  | .canInitClear _ _ _ => true
  | .canBusJoin _ _ => true
  | .canRecoverWrite _ _ _ => true
  | .canRecoveryComplete _ _ => true
  | .canDetectStart _ _ _ => true
  | .canDetectDwell _ _ => true
  | .canDetectEnd _ _ _ => true
  | .canAdopt _ _ _ => true
  | .canTxreq _ _ _ _ => true
  | .canTxcancel _ _ _ _ => true
  | .canTxComplete _ _ => true
  | .canTxError _ _ _ => true
  | .canFrameReceive _ _ f => f.wf
  | .canRxError _ _ _ _ _ => true
  | .canRxPop _ _ _ _ => true
  | .twbTargetWrite _ => true
  | .twbTargetRead _ => true
  | .twbStatusRefresh => true
  | .twbTargetTimeout => true
  | .twbBusFree => true
  | .sidebandGo => true
  | .sbIp4 _ _ _ _ => true
  | .sbModuleReset => true
  | .twbJobGo _ _ => true
  | .twbJobStart _ => true
  | .twbArbitrationLoss => true
  | .twbJobEnd e => e.wf
  | .dmaJobComplete _ _ => true
  | .dmaBusError _ _ _ => true
  | .dmaAutoResume _ => true
  | .dmaRecover _ _ => true
  | .dmaChannelDisable _ _ _ => true
  | .dmaChannelEnable _ _ _ => true
  | .eventRecordAccept _ => true
  | .eventTailWriteDone _ => true
  | .evtRptrWrite _ _ _ => true
  | .evtClassWrite _ _ _ _ => true
  | .codeTableWrite _ _ _ _ _ => true
  | .imgBegin d => d.wf
  | .imgChunk d => d.wf
  | .imgVerify d => d.wf
  | .imgVerifyDone _ => true
  | .imgActivate d => d.wf
  | .activationCommitsDone => true
  | .imageRestartDone => true
  | .rollingStepStart => true
  | .rollingStepTimeout => true
  | .imgConfirm d => d.wf
  | .imgCtrlConfirm _ => true
  | .selfcheckPass _ _ => true
  | .selfcheckFail _ _ => true
  | .confirmWindowExpiry => true
  | .carryReadyWrite _ _ => true
  | .modulePowerUp => true
  | .vin48Applied => true
  | .prechargeComplete => true
  | .inputPowerGood => true
  | .tileEnterRun _ => true
  | .tileRunTimeout _ => true
  | .estimationReady => true
  | .mrstAssert => true
  | .mrstRelease => true
  | .ejectAssert => true
  | .shutdownCommitDone => true
  | .ejectReleaseRestart => true
  | .powerFailWarning => true
  | .powerFailWithdrawn => true
  | .loopOffChannelTransfer _ _ => true
  | .resetStuckClear _ => true
  | .blockPowerCycle _ _ _ => true
  | .beaconSend _ _ _ _ => true
  | .vin48Dip _ => true
  | .operatingTimeStore => true
  | .announceReceiptTimeout _ => true
  | .arpNdpEchoReceive _ _ => true

end Sys2Proof
end

