-- ==== Sys2Proof/Certificates/Slice0/Obligations.lean ====
section
/-! DEFINITION. Certificates/Slice0/Obligations.lean: the statements for the provers. A completion statement says, for each row it
names, the next state exactly: what the equation does not change stays as it was. -/
open Sys2Proof Sys2Proof.Machine

/-- R53, R56, R59 to R62, R64: an instruction of the task a core executes writes its result to s[d] (a write to s0 is
discarded) and moves the PC; nothing else changes. MFS of CYCLES takes a free value (assumption 1), as does the violation
address of an Application access to a trap register. -/
def Obligations.ScalarInstructionsComplete : Prop :=
  (∀ (s : State) (t : TileId) (k : CoreId) (d a b : Fin 32) (func : Fin 2048) (i : Nat) (y : Word), Executes s.ctl t k i →
    aluFn func ((s.ctl.task t i).reg a) ((s.ctl.task t i).reg b) b = some y → (aluUnary func = true → b.val = 0) →
    exec (.aluOp t k d a b func) s = .next (s.resulted t i d y)) ∧
  (∀ (s : State) (t : TileId) (k : CoreId) (op : ImmOp) (d a : Fin 32) (imm : BitVec 16) (i : Nat), Executes s.ctl t k i →
    (op = .lui → a.val = 0) → exec (.aluImmediate t k op d a imm) s = .next
    (s.resulted t i d (immFn op ((s.ctl.task t i).reg a) imm))) ∧
  (∀ (s : State) (t : TileId) (k : CoreId) (op : BranchOp) (a b : Fin 32) (disp : BitVec 16) (i : Nat), Executes s.ctl t k i →
    exec (.branch t k op a b disp) s = .next
    (s.retired t i 0 0 (if branchTaken op ((s.ctl.task t i).reg a) ((s.ctl.task t i).reg b) then
    branchTarget (s.ctl.task t i).pc disp.toInt else (s.ctl.task t i).pc + 4))) ∧
  (∀ (s : State) (t : TileId) (k : CoreId) (disp : BitVec 26) (i : Nat), Executes s.ctl t k i → exec (.jump t k disp) s = .next
    (s.retired t i 0 0 (branchTarget (s.ctl.task t i).pc disp.toInt))) ∧
  (∀ (s : State) (t : TileId) (k : CoreId) (disp : BitVec 26) (i : Nat), Executes s.ctl t k i → exec (.jal t k disp) s = .next
    (s.retired t i 31 (BitVec.ofNat 32 ((s.ctl.task t i).pc + 4)) (branchTarget (s.ctl.task t i).pc disp.toInt))) ∧
  (∀ (s : State) (t : TileId) (k : CoreId) (d a : Fin 32) (imm : BitVec 16) (i : Nat), Executes s.ctl t k i →
    exec (.jalr t k d a imm) s = .next
    (s.retired t i d (BitVec.ofNat 32 ((s.ctl.task t i).pc + 4)) (((s.ctl.task t i).reg a + imm.signExtend 32).toNat / 4 * 4))) ∧
  (∀ (s : State) (t : TileId) (k : CoreId) (w : Word) (i : Nat), Executes s.ctl t k i → w = 0xC0000000#32 →
    exec (.nop t ⟨k, w⟩) s = .next (s.stepped t i)) ∧
  (∀ (s : State) (t : TileId) (k : CoreId) (d a b : Fin 32) (i : Nat), Executes s.ctl t k i → a.val = 0 → b.val ≠ 8 →
    ¬ (9 ≤ b.val ∧ b.val ≤ 12 ∧ s.ctl.level t k = 0) → exec (.mfs t k d ⟨b, a⟩) s = .next
    (s.resulted t i d (BitVec.ofNat 32 (s.ctl.special t i b)))) ∧
  (∀ (s : State) (t : TileId) (k : CoreId) (d a b : Fin 32) (i : Nat), Executes s.ctl t k i → a.val = 0 → b.val = 8 →
    exec (.mfs t k d ⟨b, a⟩) s = .next
    ((s.ctlTo { s.ctl with fresh := s.ctl.fresh + 1 }).resulted t i d (BitVec.ofNat 32 (Config.freeValue s.ctl.fresh)))) ∧
  (∀ (s : State) (t : TileId) (k : CoreId) (d a b : Fin 32) (i : Nat), Executes s.ctl t k i → a.val = 0 → 9 ≤ b.val ∧
    b.val ≤ 12 ∧ s.ctl.level t k = 0 → exec (.mfs t k d ⟨b, a⟩) s = .next
    ((s.ctlTo (Ctl.violate { s.ctl with fresh := s.ctl.fresh + 1 } (taskOrigin t i) (Config.freeValue s.ctl.fresh) false)).resulted t i d 0)) ∧
  (∀ (s : State) (t : TileId) (k : CoreId) (d a b : Fin 32) (i : Nat), Executes s.ctl t k i → d.val = 0 → b.val = 1 →
    exec (.mts t k a ⟨b, d⟩) s = .next
    (s.ctlTo (s.ctl.setTask t i { (s.ctl.task t i) with addrExt := ((s.ctl.task t i).reg a).toNat % 256, pc := (s.ctl.task t i).pc + 4, first := none }))) ∧
  (∀ (s : State) (t : TileId) (k : CoreId) (d a b : Fin 32) (i : Nat), Executes s.ctl t k i → d.val = 0 → b.val ≠ 1 →
    ¬ (9 ≤ b.val ∧ b.val ≤ 12 ∧ s.ctl.level t k = 0) → exec (.mts t k a ⟨b, d⟩) s = .next (s.stepped t i)) ∧
  (∀ (s : State) (t : TileId) (k : CoreId) (d a b : Fin 32) (i : Nat), Executes s.ctl t k i → d.val = 0 → 9 ≤ b.val ∧
    b.val ≤ 12 ∧ s.ctl.level t k = 0 → exec (.mts t k a ⟨b, d⟩) s = .next
    ((s.ctlTo (Ctl.violate { s.ctl with fresh := s.ctl.fresh + 1 } (taskOrigin t i) (Config.freeValue s.ctl.fresh) true)).stepped t i))

/-- R64, R68 to R71, R73, R74, R85, R87 to R89, R97 to R100, R111: the end of an activation, a return from the trap task, a
trigger, YIELD, FENCE, BUDGET, the vector claim and the sticky flags. -/
def Obligations.TaskInstructionsComplete : Prop :=
  (∀ (s : State) (t : TileId) (k : CoreId) (d a b : Fin 32) (i : Nat), Executes s.ctl t k i → d.val = 0 ∧ a.val = 0 ∧
    b.val = 0 → exec (.tend t ⟨k, d, a, b⟩) s = .next
    (s.ctlTo ((s.ctl.setTask t i { (s.ctl.task t i) with pc := (s.ctl.task t i).pc + 4, first := none }).tend t i))) ∧
  (∀ (s : State) (t : TileId) (k : CoreId) (d a b : Fin 32),
    let j := ((s.ctl.task t 0).reg a).toNat % 256
    Executes s.ctl t k 0 → s.ctl.tstate t j = kTrapped → exec (.tret t k d a b) s = .next
    (s.ctlTo ((((s.resulted t 0 d 0).ctl.setTask t j { (s.resulted t 0 d 0).ctl.task t j with
        pc := ((s.ctl.task t 0).reg b).toNat / 4 * 4, first := none }).makeReady t j).sched t (j / 64)))) ∧
  (∀ (s : State) (t : TileId) (k : CoreId) (d a b : Fin 32), Executes s.ctl t k 0 →
    s.ctl.tstate t (((s.ctl.task t 0).reg a).toNat % 256) ≠ kTrapped → exec (.tret t k d a b) s = .next
    (s.resulted t 0 d (BitVec.ofNat 32 eState))) ∧
  (∀ (s : State) (t : TileId) (k : CoreId) (d a b : Fin 32) (i : Nat),
    let j := ((s.ctl.task t i).reg a).toNat % 256
    Executes s.ctl t k i → b.val = 0 → exec (.trig t k d ⟨a, b⟩) s = .next
    (s.ctlTo ((s.resulted t i d (BitVec.ofNat 32 (s.ctl.triggerCode t j))).ctl.trigger t j 0x80))) ∧
  (∀ (s : State) (t : TileId) (k : CoreId) (d a : Fin 32) (i : Nat), Executes s.ctl t k i → d.val = 0 → a.val = 0 →
    exec (.yield t k d a) s = .next (s.ctlTo (((s.stepped t i).ctl.makeReady t i).sched t k))) ∧
  (∀ (s : State) (t : TileId) (k : CoreId) (d a : Fin 32) (i : Nat), Executes s.ctl t k i → d.val = 0 →
    exec (.trap t k d a) s = .next (s.ctlTo (s.ctl.takeTrap t i 3 ((s.ctl.task t i).reg a).toNat))) ∧
  (∀ (s : State) (t : TileId) (k : CoreId) (d a : Fin 32) (i : Nat), Executes s.ctl t k i → d.val = 0 → a.val = 0 →
    exec (.fence t k d a) s = .next
    (s.ctlTo (s.ctl.setTask t i { (s.ctl.task t i) with pc := (s.ctl.task t i).pc + 4, first := none, wait := .fence }))) ∧
  (∀ (s : State) (t : TileId) (i : TaskId), t.val < s.ctl.tiles → (s.ctl.task t i).wait = .fence →
    (s.ctl.task t i).stopReq = false → exec (.fenceDone t i) s = .next
    (s.ctlTo (((s.ctl.setTask t i { (s.ctl.task t i) with wait := .none }).put t TASK_STATE_ACCESS 0 i).memOrder t i
    |>.sched t (i.val / 64)))) ∧
  (∀ (s : State) (t : TileId) (i : TaskId), t.val < s.ctl.tiles → (s.ctl.task t i).wait = .fence →
    (s.ctl.task t i).stopReq = true → exec (.fenceDone t i) s = .next
    (s.ctlTo (((s.ctl.setTask t i { (s.ctl.task t i) with wait := .none }).put t TASK_STATE_ACCESS 0 i).memOrder t i
    |>.stopNow t i))) ∧
  (∀ (s : State) (t : TileId) (k : CoreId) (d a : Fin 32) (i : Nat), Executes s.ctl t k i → s.ctl.get t TASK_CFG_PRIO i = 0 →
    0 < ((s.ctl.task t i).reg a).toNat % 4 → exec (.budget t k d a) s = .next (s.resulted t i d (BitVec.ofNat 32 eRange))) ∧
  (∀ (s : State) (t : TileId) (k : CoreId) (d a : Fin 32) (i : Nat),
    let cls := ((s.ctl.task t i).reg a).toNat % 4
    Executes s.ctl t k i → ¬ (s.ctl.get t TASK_CFG_PRIO i = 0 ∧ 0 < cls) → classCost cls ≤ (s.ctl.task t i).paid →
    exec (.budget t k d a) s = .next
    (s.ctlTo ((s.ctl.setBucket t (s.ctl.getInt t PWR_BUCKET_B + ((s.ctl.task t i).paid - classCost cls : Nat))).setTask t i
        { (s.ctl.task t i).setReg d (BitVec.ofNat 32 eOk) with pc := (s.ctl.task t i).pc + 4, first := none, cost := cls, paid := classCost cls }))) ∧
  (∀ (s : State) (t : TileId) (k : CoreId) (d a : Fin 32) (i : Nat),
    let cls := ((s.ctl.task t i).reg a).toNat % 4
    Executes s.ctl t k i → ¬ (s.ctl.get t TASK_CFG_PRIO i = 0 ∧ 0 < cls) → (s.ctl.task t i).paid < classCost cls →
    s.ctl.grants t (s.ctl.get t TASK_CFG_PRIO i) (classCost cls - (s.ctl.task t i).paid) = true →
    exec (.budget t k d a) s = .next
    (s.ctlTo ((s.ctl.setBucket t (s.ctl.getInt t PWR_BUCKET_B - (classCost cls - (s.ctl.task t i).paid : Nat))).setTask t i
        { (s.ctl.task t i).setReg d (BitVec.ofNat 32 eOk) with pc := (s.ctl.task t i).pc + 4, first := none, cost := cls, paid := classCost cls }))) ∧
  (∀ (s : State) (t : TileId) (k : CoreId) (d a : Fin 32) (i : Nat),
    let cls := ((s.ctl.task t i).reg a).toNat % 4
    Executes s.ctl t k i → ¬ (s.ctl.get t TASK_CFG_PRIO i = 0 ∧ 0 < cls) → (s.ctl.task t i).paid < classCost cls →
    s.ctl.grants t (s.ctl.get t TASK_CFG_PRIO i) (classCost cls - (s.ctl.task t i).paid) = false →
    exec (.budget t k d a) s = .next
    (s.ctlTo ((((s.ctl.setTask t i { (s.ctl.task t i).setReg d (BitVec.ofNat 32 eOk) with pc := (s.ctl.task t i).pc + 4, first := none, cost := cls, granted := false }
        ).makeReady t i).gate t i).sched t k))) ∧
  (∀ (s : State) (t : TileId) (k : CoreId) (d a : Fin 32) (i : Nat), Executes s.ctl t k i → (s.ctl.vecOf t).holder = some i →
    exec (.vclaim t k d a) s = .next (s.resulted t i d (BitVec.ofNat 32 eOk))) ∧
  (∀ (s : State) (t : TileId) (k : CoreId) (d a : Fin 32) (i : Nat), Executes s.ctl t k i → (s.ctl.vecOf t).holder = none →
    (s.ctl.vecOf t).waiters = [] → exec (.vclaim t k d a) s = .next
    ((s.ctlTo (s.ctl.setVec t { s.ctl.vecOf t with v := [], p := [], holder := some i })).resulted t i d (BitVec.ofNat 32 eOk))) ∧
  (∀ (s : State) (t : TileId) (k : CoreId) (d a : Fin 32) (i : Nat), Executes s.ctl t k i → (s.ctl.vecOf t).holder ≠ some i →
    ¬ ((s.ctl.vecOf t).holder = none ∧ (s.ctl.vecOf t).waiters = []) → ((s.ctl.task t i).reg a).toNat % 2 = 0 →
    exec (.vclaim t k d a) s = .next (s.resulted t i d (BitVec.ofNat 32 eBusy))) ∧
  (∀ (s : State) (t : TileId) (k : CoreId) (d a : Fin 32) (i : Nat), Executes s.ctl t k i → (s.ctl.vecOf t).holder ≠ some i →
    ¬ ((s.ctl.vecOf t).holder = none ∧ (s.ctl.vecOf t).waiters = []) → ((s.ctl.task t i).reg a).toNat % 2 = 1 →
    exec (.vclaim t k d a) s = .next
    (s.ctlTo ((s.ctl.setVec t { s.ctl.vecOf t with waiters := (s.ctl.vecOf t).waiters ++ [i] }).blockOn t i d .claim 2))) ∧
  (∀ (s : State) (t : TileId) (k : CoreId) (d a : Fin 32) (i : Nat), Executes s.ctl t k i → a.val = 0 →
    (s.ctl.vecOf t).holder = some i → exec (.vrelease t k d a) s = .next
    (s.ctlTo ((s.resulted t i d (BitVec.ofNat 32 eOk)).ctl.releaseClaim t i))) ∧
  (∀ (s : State) (t : TileId) (k : CoreId) (d a : Fin 32) (i : Nat), Executes s.ctl t k i → a.val = 0 →
    (s.ctl.vecOf t).holder ≠ some i → exec (.vrelease t k d a) s = .next (s.resulted t i d (BitVec.ofNat 32 eState))) ∧
  (∀ (s : State) (t : TileId) (k : CoreId) (d a : Fin 32) (i : Nat),
    let v := s.ctl.vecOf t
    let keep := 31 - ((s.ctl.task t i).reg a).toNat % 32
    let kept : List VecUndo := v.queue.map (fun q => { q with flags := q.flags &&& keep })
    let v1 : VecArray := { v with flags := v.flags &&& keep, queue := kept }
    Executes s.ctl t k i → exec (.vstat t k d a) s = .next
    ((s.ctlTo (s.ctl.setVec t v1)).resulted t i d (BitVec.ofNat 32 v.flags)))

/-- R79, R97, R100, R102, R110, R353: the result or the result pair, both discarded with d = 0, of what the moment gives, and
for the first instruction of a fixed-latency entry of what the cycle of ENTRY_TIME gave, 20 ns after the event; a frame wait
retires at once when the frame is there and else leaves the task WAITING with the scheduler of its core run. -/
def Obligations.TimeAndFrameOperationsComplete : Prop :=
  (∀ (s : State) (t : TileId) (k : CoreId) (d a : Fin 32) (i : Nat),
    let x := s.ctl.taskTime t i
    Executes s.ctl t k i → a.val = 0 → exec (.ns32 t k d a) s = .next (s.resulted t i d (BitVec.ofNat 32 x.ns))) ∧
  (∀ (s : State) (t : TileId) (k : CoreId) (d a : Fin 32) (i : Nat),
    let x := s.ctl.taskTime t i
    Executes s.ctl t k i → a.val = 0 → d.val % 2 = 0 → exec (.station t k d a) s = .next
    (s.paired t i d (BitVec.ofNat 32 (x.stn % 1000000000)) (BitVec.ofNat 32 (x.stn / 1000000000)))) ∧
  (∀ (s : State) (t : TileId) (k : CoreId) (d a : Fin 32) (i : Nat),
    let x := s.ctl.taskTime t i
    Executes s.ctl t k i → a.val = 0 → d.val % 2 = 0 → exec (.frame t k d a) s = .next
    (s.paired t i d (BitVec.ofNat 32 x.frame) (BitVec.ofNat 32 x.frameNs))) ∧
  (∀ (s : State) (t : TileId) (k : CoreId) (d a : Fin 32) (i : Nat),
    let x := s.ctl.taskTime t i
    Executes s.ctl t k i → a.val = 0 → d.val % 2 = 0 → exec (.optime t k d a) s = .next
    (s.paired t i d (BitVec.ofNat 32 x.optime) (BitVec.ofNat 32 (x.optime / 2 ^ 32 % 65536)))) ∧
  (∀ (c : Ctl) (t i : Nat), (c.task t i).first = none → c.taskTime t i =
    { ns := c.get t TIME_NS32_VALUE % 2 ^ 32
      stn := if c.timeLocked t then tabGet 0 c.stnSec t * 1000000000 + tabGet 0 c.stnNs t else 0
      frame := c.get t TIME_FRAME_NUM_VALUE, frameNs := c.get t TIME_FRAME_NS32_VALUE, optime := c.optime }) ∧
  (∀ (c : Ctl) (t i : Nat) (x : TimeSnap), (c.task t i).first = some x → (c.task t i).pc = c.get t TASK_ENTRY_ENTRY i * 4 →
    c.taskTime t i = x) ∧
  (∀ (c : Ctl) (t i : Nat), (c.task t i).entered = false → (c.task t i).late = false → ((c.enter t i).task t i).first =
    some { ns := (c.get t TIME_NS32_VALUE + 20) % 2 ^ 32
           stn := if c.timeLocked t then tabGet 0 c.stnSec t * 1000000000 + tabGet 0 c.stnNs t + 20 else 0
           frame := c.get t TIME_FRAME_NUM_VALUE, frameNs := c.get t TIME_FRAME_NS32_VALUE, optime := c.optime }) ∧
  (∀ (s : State) (t : TileId) (k : CoreId) (d a : Fin 32) (i : Nat), Executes s.ctl t k i → a.val = 0 →
    exec (.slast t k d a) s = .next (s.resulted t i d (BitVec.ofNat 32 (s.ctl.get t SMP_LAST_COMPLETE_FRAME)))) ∧
  (∀ (s : State) (t : TileId) (k : CoreId) (d a : Fin 32) (i : Nat), Executes s.ctl t k i →
    0 ≤ frameDiff (s.ctl.get t SMP_LAST_COMPLETE_FRAME) ((s.ctl.task t i).reg a).toNat → exec (.fwait t k d a) s = .next
    (s.resulted t i d (BitVec.ofNat 32 (s.ctl.get t SMP_LAST_COMPLETE_FRAME)))) ∧
  (∀ (s : State) (t : TileId) (k : CoreId) (d a : Fin 32) (i : Nat), Executes s.ctl t k i →
    frameDiff (s.ctl.get t SMP_LAST_COMPLETE_FRAME) ((s.ctl.task t i).reg a).toNat < 0 → exec (.fwait t k d a) s = .next
    (s.ctlTo (s.ctl.blockOn t i d (.frame ((s.ctl.task t i).reg a).toNat) 1))) ∧
  (∀ (s : State) (t : TileId) (k : CoreId) (d a : Fin 32) (i : Nat), Executes s.ctl t k i →
    0 ≤ frameDiff (s.ctl.get t SMP_FRAME_NUM_FRAME) ((s.ctl.task t i).reg a).toNat → exec (.iwait t k d a) s = .next
    (s.resulted t i d (BitVec.ofNat 32 (s.ctl.get t SMP_FRAME_NUM_FRAME)))) ∧
  (∀ (s : State) (t : TileId) (k : CoreId) (d a : Fin 32) (i : Nat), Executes s.ctl t k i →
    frameDiff (s.ctl.get t SMP_FRAME_NUM_FRAME) ((s.ctl.task t i).reg a).toNat < 0 → exec (.iwait t k d a) s = .next
    (s.ctlTo (s.ctl.blockOn t i d (.instant ((s.ctl.task t i).reg a).toNat) 1)))

/-- R35, R60, R63, R65, R74: the module address is ADDR_EXT with s[a] and the displacement; a load answers with what the
access delivers, a store writes memory or a register after the PC has moved, an AMO answers the old value; an uncorrectable
error traps. Each finds the task's vector accesses in effect and the tile's DMA writes landed (assumption 7). What an access
delivers and stores is stated by LoadsOfATask and ScalarStoresWriteTheirBytes. -/
def Obligations.MemoryInstructionsComplete : Prop :=
  (∀ (s : State) (t : TileId) (k : CoreId) (op : LoadOp) (d a : Fin 32) (imm : BitVec 16) (ecc : Bool) (i : Nat),
    let p := s.ctl.dataAddr t i ((s.ctl.task t i).reg a + imm.signExtend 32)
    let y := casdaLoad (s.ctl.landed s.mem t) (s.ctl.memOrder t i) t i p (loadCode op).2
    Executes s.ctl t k i → op ≠ .ldp → (ecc && s.ctl.eccHits t i p (loadCode op).2) = false →
    exec (.load t k op d a imm ecc) s = .next ((s.ctlTo y.1).resulted t i d (loadValue op y.2))) ∧
  (∀ (s : State) (t : TileId) (k : CoreId) (op : LoadOp) (d a : Fin 32) (imm : BitVec 16) (ecc : Bool) (i : Nat),
    let p := s.ctl.dataAddr t i ((s.ctl.task t i).reg a + imm.signExtend 32)
    let y := casdaLoad (s.ctl.landed s.mem t) (s.ctl.memOrder t i) t i p 8
    Executes s.ctl t k i → op = .ldp → d.val % 2 = 0 → (ecc && s.ctl.eccHits t i p 8) = false →
    exec (.load t k op d a imm ecc) s = .next
    (s.ctlTo (y.1.setTask t i { ((y.1.task t i).setReg (d.val + 1) (BitVec.ofNat 32 (y.2 / 2 ^ 32))).setReg d
        (BitVec.ofNat 32 y.2) with pc := (y.1.task t i).pc + 4, first := none }))) ∧
  (∀ (s : State) (t : TileId) (k : CoreId) (op : LoadOp) (d a : Fin 32) (imm : BitVec 16) (ecc : Bool) (i : Nat),
    let x := (s.ctl.task t i).reg a + imm.signExtend 32
    Executes s.ctl t k i → (op = .ldp → d.val % 2 = 0) → ecc = true →
    s.ctl.eccHits t i (s.ctl.dataAddr t i x) (loadCode op).2 = true → exec (.load t k op d a imm ecc) s = .next
    (s.ctlTo ((s.ctl.memOrder t i).takeTrap t i 4 x.toNat))) ∧
  (∀ (s : State) (t : TileId) (k : CoreId) (op : StoreOp) (d a : Fin 32) (imm : BitVec 16) (i : Nat),
    let n := (storeCode op).2
    let v := ((s.ctl.task t i).reg d).toNat + (if op = .sdp then ((s.ctl.task t i).reg (d.val + 1)).toNat * 2 ^ 32 else 0)
    let c1 := ((s.ctlTo (s.ctl.memOrder t i)).stepped t i).ctl
    let x := dmaLand t (s.mem, c1)
    Executes s.ctl t k i → (op = .sdp → d.val % 2 = 0) → exec (.store t k op d a imm) s = .next
    (s.allTo (casdaStore x.1 x.2 t i (s.ctl.dataAddr t i ((s.ctl.task t i).reg a + imm.signExtend 32)) n (v % 256 ^ n)))) ∧
  (∀ (s : State) (t : TileId) (k : CoreId) (d a b : Fin 32) (func : Fin 2048) (ecc : Bool) (i : Nat),
    let x := dmaLand t (s.mem, s.ctl.memOrder t i)
    let y :=
        casdaAmo x.1 x.2 t i (s.ctl.dataAddr t i ((s.ctl.task t i).reg a)) (fun old => (amoFn func old ((s.ctl.task t i).reg b) ((s.ctl.task t i).reg d)).getD old)
    Executes s.ctl t k i → func.val < 8 → ecc = false → exec (.amo t k d a b func ecc) s = .next
    (s.allTo (y.1, y.2.1.retire t i d (BitVec.ofNat 32 y.2.2)))) ∧
  (∀ (s : State) (t : TileId) (k : CoreId) (d a b : Fin 32) (func : Fin 2048) (ecc : Bool) (i : Nat),
    let p := s.ctl.dataAddr t i ((s.ctl.task t i).reg a)
    let x := dmaLand t (s.mem, s.ctl.memOrder t i)
    Executes s.ctl t k i → func.val < 8 → ecc = true → s.ctl.eccHits t i p 4 = true → p % 4 = 0 →
    regionOf (p % 2 ^ 36) ∈ [.dram, .owner, .loc 0, .loc 1, .loc 2, .loc 3] → exec (.amo t k d a b func ecc) s = .next
    (s.allTo (x.1, x.2.takeTrap t i 4 ((s.ctl.task t i).reg a).toNat)))

/-- R42, R45, R68, R69, R77 to R85: task commands, TASK_CFG, CASDA_CORE_CTRL, the watchdog, timers, mailboxes and interrupt
routes, for an accessor that reaches the tile and has the right; the answer is OK. -/
def Obligations.TaskAndTimerWritesComplete : Prop :=
  (∀ (s : State) (t : TileId) (o : Origin) (i : TaskId), accessorFitted s.ctl o = true → s.ctl.reachedBy o t = true →
    s.ctl.mayConfig o = true → s.ctl.tstate t i = kStopped → exec (.taskStart t o i) s = .next
    (s.accessed o 0x10 (s.ctl.taskStart t i))) ∧
  (∀ (s : State) (t : TileId) (o : Origin) (i : TaskId), accessorFitted s.ctl o = true → s.ctl.reachedBy o t = true →
    s.ctl.mayConfig o = true → i.val ≠ 0 → s.ctl.tstate t i = kRunning → (s.ctl.task t i).wait ≠ .none →
    exec (.taskStop t o i) s = .next (s.accessed o 0x10 (s.ctl.setTask t i { (s.ctl.task t i) with stopReq := true }))) ∧
  (∀ (s : State) (t : TileId) (o : Origin) (i : TaskId), accessorFitted s.ctl o = true → s.ctl.reachedBy o t = true →
    s.ctl.mayConfig o = true → i.val ≠ 0 → s.ctl.tstate t i ≠ kEmpty → ¬ (s.ctl.tstate t i = kRunning ∧
    (s.ctl.task t i).wait ≠ .none) → exec (.taskStop t o i) s = .next (s.accessed o 0x10 (s.ctl.stopNow t i))) ∧
  (∀ (s : State) (t : TileId) (o : Origin) (i : TaskId), accessorFitted s.ctl o = true → s.ctl.reachedBy o t = true →
    s.ctl.mayTaskCmd o 3 t i = true → s.ctl.tstate t i ≠ kEmpty → s.ctl.tstate t i ≠ kStopped →
    exec (.taskTrigger t o i) s = .next (s.accessed o 0x10 (s.ctl.trigger t i 0x80))) ∧
  (∀ (s : State) (t : TileId) (o : Origin) (i : TaskId),
    let x := vecDiscard s.mem s.ctl t i
    accessorFitted s.ctl o = true → s.ctl.reachedBy o t = true → s.ctl.mayConfig o = true → i.val ≠ 0 →
    s.ctl.tstate t i ≠ kEmpty → exec (.taskKill t o i) s = .next (s.allTo (x.1, (x.2.stopNow t i).answer o 0x10 eOk))) ∧
  (∀ (s : State) (t : TileId) (o : Origin) (i : TaskId) (w : Word),
    let n := w.toNat
    accessorFitted s.ctl o = true → s.ctl.reachedBy o t = true → s.ctl.isSystem o = true → ¬ (bitsOf n 24 4 = 0 ∧
    bitsOf n 28 2 ≠ 0) → (s.ctl.fixedBound t i = true → bitsOf n 24 4 = 0 ∧ bitsOf n 28 2 = 0) → s.ctl.tstate t i = kStopped →
    bitsOf n 31 1 = s.ctl.get t TASK_CFG_VALID i → exec (.taskCfgWrite t o i w) s = .next
    (s.accessed o 0x10 ((((s.ctl.put t TASK_CFG_VALID (bitsOf n 31 1) i).put t TASK_CFG_COST (bitsOf n 28 2) i).put t TASK_CFG_PRIO
        (bitsOf n 24 4) i).put t TASK_CFG_ONESHOT (bitsOf n 23 1) i))) ∧
  (∀ (s : State) (t : TileId) (o : Origin) (k : CoreId), accessorFitted s.ctl o = true → s.ctl.reachedBy o t = true →
    s.ctl.isSystem o = true → exec (.coreHalt t o k) s = .next
    (s.accessed o 0x10 (s.ctl.coreCtrlWrite o t (setBit (s.ctl.get t CASDA_CORE_CTRL_HALT) k true)).1)) ∧
  (∀ (s : State) (t : TileId) (k : CoreId), t.val < s.ctl.tiles → s.ctl.halted t k = true →
    (s.ctl.runningTask t k).all (fun i => decide ((s.ctl.task t i).wait = .none)) = true → exec (.coreHalted t k) s = .next
    (s.ctlTo (s.ctl.put t CASDA_CORE_CTRL_HALTED (setBit (s.ctl.get t CASDA_CORE_CTRL_HALTED) k true)))) ∧
  (∀ (s : State) (t : TileId) (o : Origin) (k : CoreId), accessorFitted s.ctl o = true → s.ctl.reachedBy o t = true →
    s.ctl.isSystem o = true → exec (.coreResume t o k) s = .next
    (s.accessed o 0x10 (s.ctl.coreCtrlWrite o t (setBit (s.ctl.get t CASDA_CORE_CTRL_HALT) k false)).1)) ∧
  (∀ (s : State) (t : TileId) (o : Origin) (period : BitVec 14), accessorFitted s.ctl o = true → s.ctl.reachedBy o t = true →
    s.ctl.isSystem o = true → 10 ≤ period.toNat → period.toNat ≤ 10000 → s.ctl.flag t CASDA_WDOG_CFG_EN = false →
    exec (.wdogEnable t o period) s = .next
    (s.accessed o 0x10 (((s.ctl.put t CASDA_WDOG_CFG_PERIOD period.toNat).put t CASDA_WDOG_CFG_EN 1).put t CASDA_WDOG_REMAIN_MS
        period.toNat))) ∧
  (∀ (s : State) (t : TileId) (o : Origin) (w : Word), accessorFitted s.ctl o = true → s.ctl.reachedBy o t = true →
    s.ctl.isSystem o = true → w.toNat = 0x5A17 → s.ctl.flag t CASDA_WDOG_CFG_EN = true → exec (.wdogKick t o w) s = .next
    (s.accessed o 0x10 (s.ctl.put t CASDA_WDOG_REMAIN_MS (s.ctl.get t CASDA_WDOG_CFG_PERIOD)))) ∧
  (∀ (s : State) (t : TileId), t.val < s.ctl.tiles → s.ctl.flag t CASDA_WDOG_CFG_EN = true → exec (.wdogExpiry t) s = .next
    (s.ctlTo (s.ctl.tileFault t TILE_RESET_CAUSE_WATCHDOG .watchdog))) ∧
  (∀ (s : State) (t : TileId) (o : Origin) (n : Fin 4) (w : Word), accessorFitted s.ctl o = true → s.ctl.reachedBy o t = true →
    s.ctl.mayConfig o = true → (w.toNat = 0 ∨ (10 ≤ w.toNat ∧ w.toNat ≤ 60000000)) → exec (.casdaTimerWrite t o n w) s = .next
    (s.accessed o 0x10 (s.ctl.put t CASDA_TIMER_PERIOD_PERIOD w.toNat n))) ∧
  (∀ (s : State) (t : TileId) (n : Fin 4), t.val < s.ctl.tiles → s.ctl.get t CASDA_TIMER_PERIOD_PERIOD n ≠ 0 →
    exec (.casdaTimerExpiry t n) s = .next (s.ctlTo (s.ctl.irq t (0x30 + n.val)))) ∧
  (∀ (s : State) (t : TileId) (o : Origin) (m : Fin 16) (w : Word), accessorFitted s.ctl o = true → s.ctl.reachedBy o t = true →
    (s.ctl.isSystem o = true ∨ (s.ctl.isApp o = true ∧
    s.ctl.mboxApp t m = true) ∨ isRole o .operator = true ∨ isRole o .engineer = true ∨ isRole o .management = true) →
    s.ctl.flag t CASDA_MBOX_CFG_EN m = true → (s.ctl.mailbox t m).length < 16 → exec (.mboxPost t o m w) s = .next
    (s.accessed o 0x10 ((s.ctl.setMailbox t m (s.ctl.mailbox t m
    ++ [w.toNat % 2 ^ 31])).trigger t (s.ctl.get t CASDA_MBOX_CFG_TASK m)
        (0x40 + m.val)))) ∧
  (∀ (s : State) (t : TileId) (o : Origin) (m : Fin 16) (n : Nat) (l : List Nat), accessorFitted s.ctl o = true →
    s.ctl.reachedBy o t = true → (s.ctl.isSystem o = true ∨ (s.ctl.isApp o = true ∧ s.ctl.mboxApp t m = true)) →
    s.ctl.mailbox t m = n :: l → exec (.mboxPop t o m) s = .next (s.ctlTo { s.ctl.setMailbox t m l with data := 2 ^ 31 + n })) ∧
  (∀ (s : State) (t : TileId) (o : Origin) (m : Fin 16) (w : Word), accessorFitted s.ctl o = true → s.ctl.reachedBy o t = true →
    s.ctl.isSystem o = true → bit w.toNat 31 = true → exec (.mboxCfgWrite t o m w) s = .next
    (s.accessed o 0x10 ((s.ctl.put t CASDA_MBOX_CFG_EN (bitsOf w.toNat 31 1) m).put t CASDA_MBOX_CFG_TASK (w.toNat % 256) m))) ∧
  (∀ (s : State) (t : TileId) (o : Origin) (m : Fin 16) (w : Word), accessorFitted s.ctl o = true → s.ctl.reachedBy o t = true →
    s.ctl.isSystem o = true → bit w.toNat 31 = false → exec (.mboxCfgWrite t o m w) s = .next
    (s.accessed o 0x10 (((s.ctl.put t CASDA_MBOX_CFG_EN (bitsOf w.toNat 31 1) m).put t CASDA_MBOX_CFG_TASK (w.toNat % 256) m
        ).setMailbox t m []))) ∧
  (∀ (s : State) (t : TileId) (o : Origin) (r : Fin 64) (w : Word), accessorFitted s.ctl o = true → s.ctl.reachedBy o t = true →
    s.ctl.isSystem o = true → (bit w.toNat 30 = true → s.ctl.get t TASK_CFG_PRIO (w.toNat % 256) = 0 ∧
    s.ctl.get t TASK_CFG_COST (w.toNat % 256) = 0) → exec (.irqRouteWrite t o r w) s = .next
    (s.accessed o 0x10 (((s.ctl.put t CASDA_IRQ_ROUTE_EN (bitsOf w.toNat 31 1) r).put t CASDA_IRQ_ROUTE_FIXED (bitsOf w.toNat 30 1) r
        ).put t CASDA_IRQ_ROUTE_TASK (w.toNat % 256) r)))

/-- R86 to R91: each active lane of the destination takes its result, the lanes that are not active keep what they held, and
the sticky flags collect what the lanes raise. The FP results of the corner cases of assumption 9 are the model's choice. -/
def Obligations.VectorInstructionsComplete : Prop :=
  (∀ (s : State) (t : TileId) (k : CoreId) (vfunc : Fin 2048) (vd va vb : Fin 16) (p : Fin 8) (i : Nat),
    let v := s.ctl.vecOf t
    ExecutesVector s.ctl t k i → (vectorFn vfunc 0 0 0).isNone = false → (vectorUnary vfunc = true → vb.val = 0) →
    exec (.vectorArith t k vfunc vd va vb p) s = .next
    (s.vretired t i (v.map p vd (fun l => (vectorFn vfunc (v.lane vd l) (v.lane va l) (v.lane vb l)).getD (0, 0))))) ∧
  (∀ (s : State) (t : TileId) (k : CoreId) (op : CvtOp) (vd va vb : Fin 16) (p : Fin 8) (i : Nat),
    let v := s.ctl.vecOf t
    ExecutesVector s.ctl t k i → vb.val = 0 → exec (.vectorConvert t k op vd va vb p) s = .next
    (s.vretired t i (v.map p vd (fun l => cvtFn op (v.lane va l))))) ∧
  (∀ (s : State) (t : TileId) (k : CoreId) (op : CmpOp) (vd va vb : Fin 16) (p : Fin 8) (i : Nat),
    let v := s.ctl.vecOf t
    ExecutesVector s.ctl t k i → vd.val ≤ 7 → exec (.vectorCompare t k op vd va vb p) s = .next
    (s.vretired t i ((v.lanes p (fun l x => x.raise (cmpFn op (v.lane va l) (v.lane vb l)).2)).setPred vd (laneWord
        (fun l => v.active p l && (cmpFn op (v.lane va l) (v.lane vb l)).1))))) ∧
  (∀ (s : State) (t : TileId) (k : CoreId) (op : PredOp) (vd va vb : Fin 16) (p : Fin 8) (i : Nat),
    let v := s.ctl.vecOf t
    ExecutesVector s.ctl t k i → p.val = 0 → vd.val ≤ 7 → va.val ≤ 7 → (if op = .pnot then vb.val = 0 else vb.val ≤ 7) →
    exec (.predicateLogic t k op vd va vb p) s = .next (s.vretired t i (v.setPred vd (predFn op (v.pred va) (v.pred vb))))) ∧
  (∀ (s : State) (t : TileId) (k : CoreId) (vd va vb : Fin 16) (p : Fin 8) (i : Nat),
    let v := s.ctl.vecOf t
    ExecutesVector s.ctl t k i → exec (.vsel t k vd va vb p) s = .next
    (s.vretired t i (v.lanes 0 (fun l w => w.setLane vd l (if v.active p l then v.lane va l else v.lane vb l))))) ∧
  (∀ (s : State) (t : TileId) (k : CoreId) (vd va vb : Fin 16) (p : Fin 8) (i : Nat), ExecutesVector s.ctl t k i → vb.val = 0 →
    exec (.vbcast t k vd va vb p) s = .next
    (s.vretired t i ((s.ctl.vecOf t).map p vd (fun _ => ((s.ctl.task t i).reg va, 0))))) ∧
  (∀ (s : State) (t : TileId) (k : CoreId) (vd va vb : Fin 16) (p : Fin 8) (i : Nat), ExecutesVector s.ctl t k i → p.val = 0 →
    exec (.vext t k vd va vb p) s = .next
    ((s.ctlTo (s.ctl.drain t)).resulted t i vd ((s.ctl.vecOf t).lane va (((s.ctl.task t i).reg vb).toNat % 32)))) ∧
  (∀ (s : State) (t : TileId) (k : CoreId) (vd va vb : Fin 16) (p : Fin 8) (i : Nat), ExecutesVector s.ctl t k i → va.val = 0 →
    vb.val = 0 → exec (.vlane t k vd va vb p) s = .next
    (s.vretired t i ((s.ctl.vecOf t).map p vd (fun l => ((intFp l 0).1, 0))))) ∧
  (∀ (s : State) (t : TileId) (k : CoreId) (vd va vb : Fin 16) (p : Fin 8) (i : Nat), ExecutesVector s.ctl t k i → p.val = 0 →
    vb.val = 0 → vd.val ≤ 7 → exec (.pfroms t k vd va vb p) s = .next
    (s.vretired t i ((s.ctl.vecOf t).setPred vd ((s.ctl.task t i).reg va)))) ∧
  (∀ (s : State) (t : TileId) (k : CoreId) (vd va vb : Fin 16) (p : Fin 8) (i : Nat), ExecutesVector s.ctl t k i → p.val = 0 →
    vb.val = 0 → va.val ≤ 7 → exec (.ptos t k vd va vb p) s = .next
    ((s.ctlTo (s.ctl.drain t)).resulted t i vd ((s.ctl.vecOf t).pred va))) ∧
  (∀ (s : State) (t : TileId) (k : CoreId) (op : RedOp) (vd va vb : Fin 16) (p : Fin 8) (i : Nat),
    let v := s.ctl.vecOf t
    let r := redTree op (fun l => if v.active p l then some (v.lane va l) else none) 5 0
    ExecutesVector s.ctl t k i → vb.val = 0 → exec (.vectorReduce t k op vd va vb p) s = .next
    (s.vretired t i ((v.lanes 0 (fun l w => w.setLane vd l ((r.1.map fpCanon).getD (redNone op)))).raise r.2)))

/-- R91 to R95: when no active lane breaks the address rule of R93, a load finds the tile's DMA writes landed and gives each
active lane its element and joins the issue queue as a load; a store writes each active lane's element in ascending order of
lanes, so that the highest lane stays where addresses meet, unless an Application core has an active lane below 0x8000_0000:
then no lane is written and one violation counts, at the lowest active lane's address, and the PC moves past. The issue queue
is the model's reading of R95 (assumption 7). -/
def Obligations.VectorMemoryComplete : Prop :=
  (∀ (s : State) (t : TileId) (k : CoreId) (e : ElemType) (vd va vb : Fin 16) (p : Fin 8) (i : Nat),
    let v := s.ctl.vecOf t
    let addr := stridedAddr t va vb s.ctl i
    ExecutesVector s.ctl t k i → e.val ≤ 4 → vecBad v p t (s.ctl.task t i).addrExt (elemSize e) addr = none →
    exec (.vlds t k e vd va vb p) s = .next
    (s.vretired t i (v.map p vd (fun l => elemLoad e (memNat (s.ctl.landed s.mem t) (modAddr t (addr l)) (elemSize e)))) true)) ∧
  (∀ (s : State) (t : TileId) (k : CoreId) (vd va vb : Fin 16) (p : Fin 8) (i : Nat),
    let v := s.ctl.vecOf t
    let addr := indexedAddr t va vb s.ctl i
    ExecutesVector s.ctl t k i → vecBad v p t (s.ctl.task t i).addrExt (elemSize 0) addr = none →
    exec (.vldg t k vd va vb p) s = .next
    (s.vretired t i (v.map p vd (fun l => elemLoad 0 (memNat (s.ctl.landed s.mem t) (modAddr t (addr l)) (elemSize 0)))) true)) ∧
  (∀ (s : State) (t : TileId) (k : CoreId) (e : ElemType) (vd va vb : Fin 16) (p : Fin 8) (i : Nat),
    let v := s.ctl.vecOf t
    let addr := stridedAddr t va vb s.ctl i
    ExecutesVector s.ctl t k i → e.val ≤ 4 → vecBad v p t (s.ctl.task t i).addrExt (elemSize e) addr = none →
    s.ctl.level t (i / 64) ≠ 0 → exec (.vsts t k e vd va vb p) s = .next (s.vstored t i vd p e addr)) ∧
  (∀ (s : State) (t : TileId) (k : CoreId) (e : ElemType) (vd va vb : Fin 16) (p : Fin 8) (i : Nat),
    let v := s.ctl.vecOf t
    let addr := stridedAddr t va vb s.ctl i
    ExecutesVector s.ctl t k i → e.val ≤ 4 → vecBad v p t (s.ctl.task t i).addrExt (elemSize e) addr = none →
    s.ctl.level t (i / 64) = 0 → anyN 32 (fun l => v.active p l && decide (addr l < 0x80000000)) = false →
    exec (.vsts t k e vd va vb p) s = .next (s.vstored t i vd p e addr)) ∧
  (∀ (s : State) (t : TileId) (k : CoreId) (e : ElemType) (vd va vb : Fin 16) (p : Fin 8) (i : Nat),
    let v := s.ctl.vecOf t
    let addr := stridedAddr t va vb s.ctl i
    ExecutesVector s.ctl t k i → e.val ≤ 4 → vecBad v p t (s.ctl.task t i).addrExt (elemSize e) addr = none →
    s.ctl.level t (i / 64) = 0 → anyN 32 (fun l => v.active p l && decide (addr l < 0x80000000)) = true →
    exec (.vsts t k e vd va vb p) s = .next
    ((s.ctlTo (s.ctl.violate (taskOrigin t i) (modAddr 15 (addr (((List.range 32).find? (fun l => v.active p l)).getD 0))) true
        )).stepped t i)) ∧
  (∀ (s : State) (t : TileId) (k : CoreId) (vd va vb : Fin 16) (p : Fin 8) (i : Nat),
    let v := s.ctl.vecOf t
    let addr := indexedAddr t va vb s.ctl i
    ExecutesVector s.ctl t k i → vecBad v p t (s.ctl.task t i).addrExt (elemSize 0) addr = none → s.ctl.level t (i / 64) ≠ 0 →
    exec (.vstx t k vd va vb p) s = .next (s.vstored t i vd p 0 addr)) ∧
  (∀ (s : State) (t : TileId) (k : CoreId) (vd va vb : Fin 16) (p : Fin 8) (i : Nat),
    let v := s.ctl.vecOf t
    let addr := indexedAddr t va vb s.ctl i
    ExecutesVector s.ctl t k i → vecBad v p t (s.ctl.task t i).addrExt (elemSize 0) addr = none → s.ctl.level t (i / 64) = 0 →
    anyN 32 (fun l => v.active p l && decide (addr l < 0x80000000)) = false → exec (.vstx t k vd va vb p) s = .next
    (s.vstored t i vd p 0 addr)) ∧
  (∀ (s : State) (t : TileId) (k : CoreId) (vd va vb : Fin 16) (p : Fin 8) (i : Nat),
    let v := s.ctl.vecOf t
    let addr := indexedAddr t va vb s.ctl i
    ExecutesVector s.ctl t k i → vecBad v p t (s.ctl.task t i).addrExt (elemSize 0) addr = none → s.ctl.level t (i / 64) = 0 →
    anyN 32 (fun l => v.active p l && decide (addr l < 0x80000000)) = true → exec (.vstx t k vd va vb p) s = .next
    ((s.ctlTo (s.ctl.violate (taskOrigin t i) (modAddr 15 (addr (((List.range 32).find? (fun l => v.active p l)).getD 0))) true
        )).stepped t i))

/-- R93, R112: an uncorrectable error on a vector load discards the load that failed and what is queued behind it (which of
the queued loads it is is a free value, assumption 7), ends a wait of the task that holds the claim, and traps it with cause
VECC and the address bits; with no holder nothing changes. A vector access with an active lane that breaks R93 traps VACCESS
at the lowest such lane's address. -/
def Obligations.VectorErrorsTrap : Prop :=
  (∀ (s : State) (t : TileId) (addr : Word) (i : Nat),
    let x := veccDiscard s.mem s.ctl t
    let c1 := x.2
    let c2 := (c1.setTask t i { c1.task t i with wait := .none }).put t TASK_STATE_WAIT_ON 0 i
    t.val < s.ctl.tiles → (s.ctl.vecOf t).holder = some i → exec (.veccTrap t addr) s = .next
    (s.allTo (x.1, c2.takeTrap t i 0x12 addr.toNat))) ∧
  (∀ (s : State) (t : TileId) (addr : Word), t.val < s.ctl.tiles → (s.ctl.vecOf t).holder = none →
    exec (.veccTrap t addr) s = .next (s)) ∧
  (∀ (s : State) (t : TileId) (k : CoreId) (e : ElemType) (vd va vb : Fin 16) (p : Fin 8) (i l : Nat),
    let addr := stridedAddr t va vb s.ctl i
    ExecutesVector s.ctl t k i → e.val ≤ 4 → vecBad (s.ctl.vecOf t) p t (s.ctl.task t i).addrExt (elemSize e) addr = some l →
    exec (.vlds t k e vd va vb p) s = .next (s.ctlTo (s.ctl.takeTrap t i 0x10 (addr l)))) ∧
  (∀ (s : State) (t : TileId) (k : CoreId) (vd va vb : Fin 16) (p : Fin 8) (i l : Nat),
    let addr := indexedAddr t va vb s.ctl i
    ExecutesVector s.ctl t k i → vecBad (s.ctl.vecOf t) p t (s.ctl.task t i).addrExt (elemSize 0) addr = some l →
    exec (.vldg t k vd va vb p) s = .next (s.ctlTo (s.ctl.takeTrap t i 0x10 (addr l)))) ∧
  (∀ (s : State) (t : TileId) (k : CoreId) (e : ElemType) (vd va vb : Fin 16) (p : Fin 8) (i l : Nat),
    let addr := stridedAddr t va vb s.ctl i
    ExecutesVector s.ctl t k i → e.val ≤ 4 → vecBad (s.ctl.vecOf t) p t (s.ctl.task t i).addrExt (elemSize e) addr = some l →
    exec (.vsts t k e vd va vb p) s = .next (s.ctlTo (s.ctl.takeTrap t i 0x10 (addr l)))) ∧
  (∀ (s : State) (t : TileId) (k : CoreId) (vd va vb : Fin 16) (p : Fin 8) (i l : Nat),
    let addr := indexedAddr t va vb s.ctl i
    ExecutesVector s.ctl t k i → vecBad (s.ctl.vecOf t) p t (s.ctl.task t i).addrExt (elemSize 0) addr = some l →
    exec (.vstx t k vd va vb p) s = .next (s.ctlTo (s.ctl.takeTrap t i 0x10 (addr l))))

/-- R117, R128, R129, R132, R134, R143, R147, R149, R150, R232, R528: what a receiver's lock and loss of lock, a launch, a
response, a retry time-out, a duty slot and QUIET change, and that they change nothing where the ring is not in a state they
belong to. A receiver that gains lock starts the enumeration of a ring in IDLE where it drives the ring and AUTO_ENUM is set,
and starts one under way again up to step 7; a loss of lock sends a ring with no lock left to IDLE, starts an enumeration
again, and at the tail in RUN raises suspicion of a break. A frame is launched in the order of R129; a block that cannot be
reached gives E_ABSENT; a response ends a transaction with its RCODE, a corrupt one marks it, and a time-out repeats it up to
RETRIES times. -/
def Obligations.RingEventsComplete : Prop :=
  (∀ (s : State) (t : TileId) (r : RingId) (rx : RingReceiver) (eq : Byte), t.val < s.ctl.tiles → portEnd rx = none →
    exec (.ringLinkLock t r rx eq) s = .next (s.ctlTo (s.ctl.linkAt t r rx true))) ∧
  (∀ (s : State) (t : TileId) (r : RingId) (rx : RingReceiver) (eq : Byte) (tail : Bool),
    let c1 := (s.ctl.linkAt t r rx true).put t (if tail then RING_LINK_EQ_TAIL else RING_LINK_EQ_HEAD) eq.toNat r
    let idle := decide (c1.rstate t r = rgIdle) && (tail == decide (c1.get t RING_CTRL_MODE r = 2))
        && c1.flag t RING_CTRL_AUTO_ENUM r
    let again := decide (c1.rstate t r = rgEnum) && decide ((c1.rng t r).step < 8) && !s.ctl.endLock t r tail
    t.val < s.ctl.tiles → portEnd rx = some tail → (idle || again) = true → exec (.ringLinkLock t r rx eq) s = .next
    (s.allTo (enumStart (s.mem, c1) t r))) ∧
  (∀ (s : State) (t : TileId) (r : RingId) (rx : RingReceiver) (eq : Byte) (tail : Bool),
    let c1 := (s.ctl.linkAt t r rx true).put t (if tail then RING_LINK_EQ_TAIL else RING_LINK_EQ_HEAD) eq.toNat r
    let idle := decide (c1.rstate t r = rgIdle) && (tail == decide (c1.get t RING_CTRL_MODE r = 2))
        && c1.flag t RING_CTRL_AUTO_ENUM r
    let again := decide (c1.rstate t r = rgEnum) && decide ((c1.rng t r).step < 8) && !s.ctl.endLock t r tail
    t.val < s.ctl.tiles → portEnd rx = some tail → (idle || again) = false → exec (.ringLinkLock t r rx eq) s = .next
    (s.ctlTo c1)) ∧
  (∀ (s : State) (t : TileId) (r : RingId) (rx : RingReceiver),
    let had := (portEnd rx).any (fun tail => s.ctl.endLock t r tail)
    let c0 := s.ctl.linkAt t r rx false
    let c1 := c0.setRng t r { c0.rng t r with missRun := [] }
    t.val < s.ctl.tiles → had = false → exec (.ringLinkLoss t r rx) s = .next (s.ctlTo c1)) ∧
  (∀ (s : State) (t : TileId) (r : RingId) (rx : RingReceiver),
    let had := (portEnd rx).any (fun tail => s.ctl.endLock t r tail)
    let c0 := s.ctl.linkAt t r rx false
    let c1 := c0.setRng t r { c0.rng t r with missRun := [] }
    let st := c1.rstate t r
    let dark := !(c1.endLock t r false || c1.endLock t r true) && (st == rgEnum || st == rgRun || st == rgSplit)
    t.val < s.ctl.tiles → had = true → dark = true → exec (.ringLinkLoss t r rx) s = .next
    (s.allTo (ringIdle (s.mem, c1) t r))) ∧
  (∀ (s : State) (t : TileId) (r : RingId) (rx : RingReceiver),
    let had := (portEnd rx).any (fun tail => s.ctl.endLock t r tail)
    let c0 := s.ctl.linkAt t r rx false
    let c1 := c0.setRng t r { c0.rng t r with missRun := [] }
    let st := c1.rstate t r
    let dark := !(c1.endLock t r false || c1.endLock t r true) && (st == rgEnum || st == rgRun || st == rgSplit)
    t.val < s.ctl.tiles → had = true → dark = false → st = rgEnum ∧ (c1.rng t r).step < 8 →
    exec (.ringLinkLoss t r rx) s = .next (s.allTo (enumStart (s.mem, c1) t r))) ∧
  (∀ (s : State) (t : TileId) (r : RingId) (rx : RingReceiver),
    let had := (portEnd rx).any (fun tail => s.ctl.endLock t r tail)
    let c0 := s.ctl.linkAt t r rx false
    let c1 := c0.setRng t r { c0.rng t r with missRun := [] }
    let st := c1.rstate t r
    let dark := !(c1.endLock t r false || c1.endLock t r true) && (st == rgEnum || st == rgRun || st == rgSplit)
    t.val < s.ctl.tiles → had = true → dark = false → st = rgRun ∧ rx = .tail → exec (.ringLinkLoss t r rx) s = .next
    (s.ctlTo (c1.setRng t r { c1.rng t r with suspect := true }))) ∧
  (∀ (s : State) (t : TileId) (r : RingId) (rx : RingReceiver),
    let had := (portEnd rx).any (fun tail => s.ctl.endLock t r tail)
    let c0 := s.ctl.linkAt t r rx false
    let c1 := c0.setRng t r { c0.rng t r with missRun := [] }
    let st := c1.rstate t r
    let dark := !(c1.endLock t r false || c1.endLock t r true) && (st == rgEnum || st == rgRun || st == rgSplit)
    t.val < s.ctl.tiles → had = true → dark = false → ¬ (st = rgEnum ∧ (c1.rng t r).step < 8) → ¬ (st = rgRun ∧ rx = .tail) →
    exec (.ringLinkLoss t r rx) s = .next (s.ctlTo c1)) ∧
  (∀ (s : State) (t : TileId) (r : RingId), t.val < s.ctl.tiles → s.ctl.rstate t r ≠ rgEnum ∧ s.ctl.ringUp t r = false →
    exec (.ringTxLaunch t r) s = .next (s)) ∧
  (∀ (s : State) (t : TileId) (r : RingId),
    let g := s.ctl.rng t r
    t.val < s.ctl.tiles → s.ctl.rstate t r = rgEnum ∨ s.ctl.ringUp t r = true → g.flight.any (fun y => y.again
    && s.ctl.launchable t r y) = true → exec (.ringTxLaunch t r) s = .next
    (s.ctlTo (s.ctl.setRng t r { g with flight := g.flight.map (fun y => if some y = g.flight.find? (fun y => y.again && s.ctl.launchable t r y) then { y with again := false } else y) }))) ∧
  (∀ (s : State) (t : TileId) (r : RingId) (tx : Tx),
    let g := s.ctl.rng t r
    t.val < s.ctl.tiles → s.ctl.rstate t r = rgEnum ∨ s.ctl.ringUp t r = true → g.flight.any (fun y => y.again
    && s.ctl.launchable t r y) = false → g.ctl.find? (s.ctl.launchable t r) = some tx → exec (.ringTxLaunch t r) s = .next
    (s.allTo (enumAdvance (s.mem, (s.ctl.setRng t r { g with ctl := g.ctl.erase tx }).launch t r tx) t r))) ∧
  (∀ (s : State) (t : TileId) (r : RingId),
    let g := s.ctl.rng t r
    t.val < s.ctl.tiles → s.ctl.rstate t r = rgEnum ∨ s.ctl.ringUp t r = true → g.flight.any (fun y => y.again
    && s.ctl.launchable t r y) = false → g.ctl.find? (s.ctl.launchable t r) = none →
    g.posted.head?.any (s.ctl.launchable t r) = false → exec (.ringTxLaunch t r) s = .next (s)) ∧
  (∀ (s : State) (t : TileId) (r : RingId) (tx : Tx) (rest : List Tx),
    let g := s.ctl.rng t r
    t.val < s.ctl.tiles → s.ctl.rstate t r = rgEnum ∨ s.ctl.ringUp t r = true → g.flight.any (fun y => y.again
    && s.ctl.launchable t r y) = false → g.ctl.find? (s.ctl.launchable t r) = none → g.posted = tx :: rest →
    s.ctl.launchable t r tx = true → (s.ctl.setRng t r { g with posted := rest }).reachable t r tx.addr = true →
    exec (.ringTxLaunch t r) s = .next (s.ctlTo ((s.ctl.setRng t r { g with posted := rest }).launch t r tx))) ∧
  (∀ (s : State) (t : TileId) (r : RingId) (tx : Tx) (rest : List Tx),
    let g := s.ctl.rng t r
    t.val < s.ctl.tiles → s.ctl.rstate t r = rgEnum ∨ s.ctl.ringUp t r = true → g.flight.any (fun y => y.again
    && s.ctl.launchable t r y) = false → g.ctl.find? (s.ctl.launchable t r) = none → g.posted = tx :: rest →
    s.ctl.launchable t r tx = true → (s.ctl.setRng t r { g with posted := rest }).reachable t r tx.addr = false →
    exec (.ringTxLaunch t r) s = .next
    (s.allTo (completeTx (s.mem, s.ctl.setRng t r { g with posted := rest }) tx eAbsent 0 []))) ∧
  (∀ (s : State) (t : TileId) (r : RingId) (seq : Byte) (el : List Byte), t.val < s.ctl.tiles →
    (s.ctl.rng t r).flight.find? (fun y => y.seq == seq.toNat) = none → exec (.ringTxResponse t r seq el) s = .next (s)) ∧
  (∀ (s : State) (t : TileId) (r : RingId) (seq : Byte) (el : List Byte) (tx : Tx),
    let g := s.ctl.rng t r
    t.val < s.ctl.tiles → (s.ctl.rng t r).flight.find? (fun y => y.seq == seq.toNat) = some tx →
    (!elementOk el || beNat (el.take 2) / 128 != tx.addr || beNat ((el.drop 3).take 1) != seq.toNat) = true →
    exec (.ringTxResponse t r seq el) s = .next
    (s.ctlTo ((s.ctl.setRng t r { g with flight := g.flight.map (fun y => if y.seq = tx.seq then { y with corrupt := true } else y) }).inc t RING_ERR_CRC r))) ∧
  (∀ (s : State) (t : TileId) (r : RingId) (seq : Byte) (el : List Byte) (tx : Tx),
    let count := beNat ((el.drop 2).take 1)
    let rcode := beNat ((el.drop 4).take 1)
    let data := (el.drop 6).take (beNat ((el.drop 5).take 1))
    let c1 := if rcode = eOk then s.ctl
        else s.ctl.put t RING_BLK_EXP_COUNTER (s.ctl.get t RING_BLK_EXP_COUNTER r tx.addr + 255) r tx.addr
    t.val < s.ctl.tiles → (s.ctl.rng t r).flight.find? (fun y => y.seq == seq.toNat) = some tx →
    (!elementOk el || beNat (el.take 2) / 128 != tx.addr || beNat ((el.drop 3).take 1) != seq.toNat) = false →
    exec (.ringTxResponse t r seq el) s = .next
    (s.allTo (txOutcome (s.mem, c1.counterCheck t r tx.addr count) t r tx rcode count data))) ∧
  (∀ (s : State) (t : TileId) (r : RingId) (seq : Byte), t.val < s.ctl.tiles →
    (s.ctl.rng t r).flight.find? (fun y => y.seq == seq.toNat) = none → exec (.ringTxRetryTimeout t r seq) s = .next (s)) ∧
  (∀ (s : State) (t : TileId) (r : RingId) (seq : Byte) (tx : Tx),
    let g := s.ctl.rng t r
    t.val < s.ctl.tiles → (s.ctl.rng t r).flight.find? (fun y => y.seq == seq.toNat) = some tx → tx.again = false →
    tx.tries < s.ctl.get t RING_CTRL_RETRIES r → exec (.ringTxRetryTimeout t r seq) s = .next
    (s.ctlTo (s.ctl.setRng t r { g with flight := g.flight.map (fun y => if y.seq = tx.seq then { y with tries := y.tries + 1, again := !s.ctl.launchable t r tx } else y) }))) ∧
  (∀ (s : State) (t : TileId) (r : RingId) (seq : Byte) (tx : Tx), t.val < s.ctl.tiles →
    (s.ctl.rng t r).flight.find? (fun y => y.seq == seq.toNat) = some tx → tx.again = true →
    exec (.ringTxRetryTimeout t r seq) s = .next (s)) ∧
  (∀ (s : State) (t : TileId) (r : RingId) (seq : Byte) (tx : Tx), t.val < s.ctl.tiles →
    (s.ctl.rng t r).flight.find? (fun y => y.seq == seq.toNat) = some tx → tx.again = false →
    s.ctl.get t RING_CTRL_RETRIES r ≤ tx.tries → exec (.ringTxRetryTimeout t r seq) s = .next
    (s.allTo (txOutcome (s.mem, s.ctl) t r tx (if tx.corrupt then eIntegrity else eTimeout) 0 []))) ∧
  (∀ (s : State) (t : TileId) (r : RingId) (b : Nat) (x : Duty),
    let g := s.ctl.rng t r
    let f := s.ctl.get t SMP_FRAME_NUM_FRAME
    let g1 := Rng.dutySent { g with slots := tabErase g.slots b, held := g.held.filter (fun n => n != b) } f [b] x
    let c1 := s.ctl.setRng t r g1
    t.val < s.ctl.tiles → s.ctl.ringUp t r = true → s.ctl.dutyReady t r = some (b, x) → exec (.dutySlotSend t r) s = .next
    (s.ctlTo ((if g.cycleFrom f = f then c1.cycleSent t r b f x
    else c1).launch t r { addr := b, cmd := 0x10, post := true, req := beBytes 2 x.map ++ leBytes 1 x.duty ++ leBytes 1 (b2n x.alt) }))) ∧
  (∀ (s : State) (t : TileId) (r : RingId), t.val < s.ctl.tiles → s.ctl.ringUp t r = false ∨ s.ctl.dutyReady t r = none →
    exec (.dutySlotSend t r) s = .next (s)) ∧
  (∀ (s : State) (t : TileId) (r : RingId), t.val < s.ctl.tiles → s.ctl.ringUp t r = true → s.ctl.get t BAL_CFG_QUIET ≠ 0 →
    exec (.quietLaunch t r) s = .next
    (s.ctlTo ((s.ctl.setRng t r { s.ctl.rng t r with quiet := true }).launch t r { addr := 0x3FF, cmd := 0x11, post := true }))) ∧
  (∀ (s : State) (t : TileId) (r : RingId), t.val < s.ctl.tiles → s.ctl.ringUp t r = false ∨ s.ctl.get t BAL_CFG_QUIET = 0 →
    exec (.quietLaunch t r) s = .next (s))

/-- R137, R138, R149 to R151, R528, R529: what ASSIGN at the far end, its time-out, a step's time-out, a located break, a
rejoin attempt and a missing block change, and that they change nothing where the ring is not in a state they belong to.
ASSIGN ends step 3 of an enumeration with the count, and a rejoin pass with RUN to come where the count is that of both
segments, and the pass of a hand-over or hand-back with the loop delay where the count is the ring's; a break that is
suspected is located with its SET_POS frames; a second break is a fault. How BREAK_LOCATED delivers the segments' counts is
the model's reading of the row (assumption 46). -/
def Obligations.RingEnumerationComplete : Prop :=
  (∀ (s : State) (t : TileId) (r : RingId) (count : Fin 513) (acc : BitVec 24), t.val < s.ctl.tiles →
    s.ctl.rstate t r = rgEnum ∧ (s.ctl.rng t r).step = 2 → exec (.assignAtTail t r count acc) s = .next
    (s.allTo (enumCounted (s.mem, s.ctl.put t RING_LOOP_NS acc.toNat r) t r count none))) ∧
  (∀ (s : State) (t : TileId) (r : RingId) (count : Fin 513) (acc : BitVec 24),
    let g := s.ctl.rng t r
    let k := s.ctl.get t RING_STATUS_SPLIT_AT r
    let pos := (List.range (count.val - k)).map (fun i => ({ addr := k + i, cmd := 0x08, req := leBytes 4 0 } : Tx))
    t.val < s.ctl.tiles → s.ctl.rstate t r = rgSplit ∧ g.rejoining = true → count.val = s.ctl.get t RING_STATUS_COUNT r →
    exec (.assignAtTail t r count acc) s = .next
    (s.ctlTo ((s.ctl.put t RING_LOOP_NS acc.toNat r).setRng t r { g with rejoining := false, toRun := true, splitAt := none, ctl := g.ctl ++ [{ addr := k - 1, cmd := 0x08, req := leBytes 4 0 }] ++ pos }))) ∧
  (∀ (s : State) (t : TileId) (r : RingId) (count : Fin 513) (acc : BitVec 24),
    let g := s.ctl.rng t r
    t.val < s.ctl.tiles → s.ctl.rstate t r = rgSplit ∧ g.rejoining = true → count.val ≠ s.ctl.get t RING_STATUS_COUNT r →
    exec (.assignAtTail t r count acc) s = .next (s.ctlTo (s.ctl.setRng t r { g with rejoining := false }))) ∧
  (∀ (s : State) (t : TileId) (r : RingId) (count : Fin 513) (acc : BitVec 24), t.val < s.ctl.tiles →
    ¬ (s.ctl.rstate t r = rgEnum ∧ (s.ctl.rng t r).step = 2) → ¬ (s.ctl.rstate t r = rgSplit ∧
    (s.ctl.rng t r).rejoining = true) → ¬ (s.ctl.rstate t r = rgRun ∧ (s.ctl.rng t r).measuring = true) →
    exec (.assignAtTail t r count acc) s = .next (s)) ∧
  (∀ (s : State) (t : TileId) (r : RingId) (count : Fin 513) (acc : BitVec 24),
    let c1 := s.ctl.setRng t r { s.ctl.rng t r with measuring := false }
    t.val < s.ctl.tiles → s.ctl.rstate t r = rgRun ∧ (s.ctl.rng t r).measuring = true →
    exec (.assignAtTail t r count acc) s = .next (s.ctlTo (if count.val = c1.get t RING_STATUS_COUNT r then
    c1.put t RING_LOOP_NS acc.toNat r else c1))) ∧
  (∀ (s : State) (t : TileId) (r : RingId), t.val < s.ctl.tiles → s.ctl.rstate t r = rgEnum ∧ (s.ctl.rng t r).step = 2 →
    exec (.assignTimeout t r) s = .next (s.ctlTo (s.ctl.setRng t r { s.ctl.rng t r with suspect := true }))) ∧
  (∀ (s : State) (t : TileId) (r : RingId), t.val < s.ctl.tiles → ¬ (s.ctl.rstate t r = rgEnum ∧ (s.ctl.rng t r).step = 2) →
    exec (.assignTimeout t r) s = .next
    (s.ctlTo (s.ctl.setRng t r { s.ctl.rng t r with rejoining := false, measuring := false }))) ∧
  (∀ (s : State) (t : TileId) (r : RingId), t.val < s.ctl.tiles → s.ctl.rstate t r = rgEnum ∧ (s.ctl.rng t r).step < 8 →
    exec (.enumStepTimeout t r) s = .next (s.allTo (ringFault (s.mem, s.ctl) t r 4 0))) ∧
  (∀ (s : State) (t : TileId) (r : RingId), t.val < s.ctl.tiles → ¬ (s.ctl.rstate t r = rgEnum ∧ (s.ctl.rng t r).step < 8) →
    exec (.enumStepTimeout t r) s = .next (s)) ∧
  (∀ (s : State) (t : TileId) (r : RingId) (k n : Fin 513) (twoBreaks : Bool), t.val < s.ctl.tiles → s.ctl.rstate t r = rgEnum ∧
    (s.ctl.rng t r).step = 2 ∧ (s.ctl.rng t r).suspect = true → twoBreaks = true →
    exec (.breakLocated t r k n twoBreaks) s = .next (s.allTo (ringFault (s.mem, s.ctl) t r 2 k))) ∧
  (∀ (s : State) (t : TileId) (r : RingId) (k n : Fin 513) (twoBreaks : Bool),
    let x := enumCounted (s.mem, s.ctl.setRng t r { s.ctl.rng t r with suspect := false }) t r n (some k.val)
    t.val < s.ctl.tiles → s.ctl.rstate t r = rgEnum ∧ (s.ctl.rng t r).step = 2 ∧ (s.ctl.rng t r).suspect = true →
    twoBreaks = false → exec (.breakLocated t r k n twoBreaks) s = .next
    (s.allTo (x.on (fun c => if c.rstate t r = rgEnum then c.queue t r (posFrames k n) else c)))) ∧
  (∀ (s : State) (t : TileId) (r : RingId) (k n : Fin 513) (twoBreaks : Bool), t.val < s.ctl.tiles →
    s.ctl.rstate t r = rgSplit → exec (.breakLocated t r k n twoBreaks) s = .next
    (s.allTo (ringFault (s.mem, s.ctl) t r 2 k))) ∧
  (∀ (s : State) (t : TileId) (r : RingId) (k n : Fin 513) (twoBreaks : Bool), t.val < s.ctl.tiles → s.ctl.rstate t r = rgRun ∧
    (s.ctl.rng t r).suspect = true → twoBreaks = true → exec (.breakLocated t r k n twoBreaks) s = .next
    (s.allTo (ringFault (s.mem, s.ctl) t r 2 k))) ∧
  (∀ (s : State) (t : TileId) (r : RingId) (k n : Fin 513) (twoBreaks : Bool),
    let g := s.ctl.rng t r
    t.val < s.ctl.tiles → s.ctl.rstate t r = rgRun ∧ (s.ctl.rng t r).suspect = true → twoBreaks = false →
    exec (.breakLocated t r k n twoBreaks) s = .next
    (s.ctlTo (s.ctl.setRng t r { g with suspect := false, splitAt := some k.val, ctl := g.ctl ++ posFrames k (s.ctl.get t RING_STATUS_COUNT r) }))) ∧
  (∀ (s : State) (t : TileId) (r : RingId) (k n : Fin 513) (twoBreaks : Bool), t.val < s.ctl.tiles →
    ¬ (s.ctl.rstate t r = rgEnum ∧ (s.ctl.rng t r).step = 2 ∧ (s.ctl.rng t r).suspect = true) → s.ctl.rstate t r ≠ rgSplit →
    ¬ (s.ctl.rstate t r = rgRun ∧ (s.ctl.rng t r).suspect = true) → exec (.breakLocated t r k n twoBreaks) s = .next (s)) ∧
  (∀ (s : State) (t : TileId) (r : RingId) (k : Fin 513), t.val < s.ctl.tiles → s.ctl.tileState t = tsCarried ∧
    s.ctl.get t RING_CTRL_MODE r = 2 → s.ctl.rstate t r = rgSplit → exec (.carriedBreakLocate t r k) s = .next
    (s.allTo (ringFault (s.mem, s.ctl) t r 2 k))) ∧
  (∀ (s : State) (t : TileId) (r : RingId) (k : Fin 513),
    let g := s.ctl.rng t r
    t.val < s.ctl.tiles → s.ctl.tileState t = tsCarried ∧ s.ctl.get t RING_CTRL_MODE r = 2 → s.ctl.rstate t r = rgRun ∧
    (s.ctl.rng t r).suspect = true → exec (.carriedBreakLocate t r k) s = .next
    (s.ctlTo (s.ctl.setRng t r { g with suspect := false, splitAt := some k.val, ctl := g.ctl ++ [{ addr := k.val, cmd := 0x08, req := [0x00, 0x03, 0, 0] }] }))) ∧
  (∀ (s : State) (t : TileId) (r : RingId) (k : Fin 513), t.val < s.ctl.tiles → ¬ (s.ctl.tileState t = tsCarried ∧
    s.ctl.get t RING_CTRL_MODE r = 2) ∨ (s.ctl.rstate t r ≠ rgSplit ∧ ¬ (s.ctl.rstate t r = rgRun ∧
    (s.ctl.rng t r).suspect = true)) → exec (.carriedBreakLocate t r k) s = .next (s)) ∧
  (∀ (s : State) (t : TileId) (r : RingId), t.val < s.ctl.tiles → s.ctl.rstate t r = rgSplit ∧
    s.ctl.flag t RING_CTRL_AUTO_REJOIN r = true ∧ s.ctl.tileState t ≠ tsCarried ∧
    s.ctl.facingLocked t r (s.ctl.get t RING_STATUS_SPLIT_AT r) = true → exec (.rejoinAttempt t r) s = .next
    (s.ctlTo (s.ctl.setRng t r { s.ctl.rng t r with rejoining := true }))) ∧
  (∀ (s : State) (t : TileId) (r : RingId), t.val < s.ctl.tiles → ¬ (s.ctl.rstate t r = rgSplit ∧
    s.ctl.flag t RING_CTRL_AUTO_REJOIN r = true ∧ s.ctl.tileState t ≠ tsCarried ∧
    s.ctl.facingLocked t r (s.ctl.get t RING_STATUS_SPLIT_AT r) = true) → exec (.rejoinAttempt t r) s = .next (s)) ∧
  (∀ (s : State) (t : TileId) (r : RingId), t.val < s.ctl.tiles → (s.ctl.ringUp t r && s.ctl.flag t RING_CTRL_AUTO_ENUM r
    && s.ctl.linksLocked t r && (s.ctl.rng t r).missRun.any (fun e => decide (3 ≤ e.2))) = true →
    exec (.missingCountReenum t r) s = .next (s.allTo (enumStart (s.mem, s.ctl) t r))) ∧
  (∀ (s : State) (t : TileId) (r : RingId), t.val < s.ctl.tiles → (s.ctl.ringUp t r && s.ctl.flag t RING_CTRL_AUTO_ENUM r
    && s.ctl.linksLocked t r && (s.ctl.rng t r).missRun.any (fun e => decide (3 ≤ e.2))) = false →
    exec (.missingCountReenum t r) s = .next (s))

/-- R46, R103, R104, R106, R143, R154, R155, R181: a delivered command of a role that may send it, with arguments in range,
has its effect and is answered OK; RPOST queues a transaction and sets STATUS to 0xFF, RWAIT answers it; BDUTY writes the duty
slot and returns the duty granted. -/
def Obligations.RingRequestsComplete : Prop :=
  (∀ (s : State) (d : Datagram) (q : Req) (c' : Ctl),
    let x := enumerateRings (s.mem, c') (q.arg 0 1) (q.arg 1 4)
    Delivered s.ctl 0x1001 d q c' → engRoles.contains q.role = true → q.args.length = 5 → c'.running (q.arg 0 1) = true →
    c'.enumerateCode (q.arg 0 1) (q.arg 1 4) = eOk → exec (.ringEnumerate d) s = .next
    (s.replied d q { mem := x.1, ctl := x.2 })) ∧
  (∀ (s : State) (d : Datagram) (q : Req) (c' : Ctl),
    let t := q.arg 0 1
    let r := q.arg 1 1
    let c1 :=
        ((((c'.put t RING_CTRL_POLICY (q.arg 3 1) r).put t RING_CTRL_AUTO_ENUM (q.arg 4 1) r).put t RING_CTRL_AUTO_REJOIN (q.arg 5 1) r).put t RING_CTRL_RETRIES (q.arg 6 1) r)
    let x := ringMode (s.mem, c1) t r (q.arg 2 1)
    Delivered s.ctl 0x1002 d q c' → engRoles.contains q.role = true → q.args.length = 7 → c'.ringAbsent t r = false →
    q.arg 2 1 ≤ 1 ∧ q.arg 3 1 ≤ 1 ∧ q.arg 4 1 ≤ 1 ∧ q.arg 5 1 ≤ 1 ∧ q.arg 6 1 ≤ 3 → ¬ (q.arg 2 1 = 0 ∧
    c'.mapValid t r = true) → c'.rstate t r ≠ rgEnum → exec (.ringMode d) s = .next
    (s.replied d q { mem := x.1, ctl := x.2 })) ∧
  (∀ (s : State) (t : TileId) (o : Origin) (r : RingId),
    let keep :=
        s.ctl.get t RING_CTRL_AUTO_REJOIN r * 2048 + s.ctl.get t RING_CTRL_AUTO_ENUM r * 1024 + s.ctl.get t RING_CTRL_RETRIES r * 256 + s.ctl.get t RING_CTRL_POLICY r * 128 + 4 + s.ctl.get t RING_CTRL_MODE r
    let x := ringCtrlWrite s.mem s.ctl o t r keep
    accessorFitted s.ctl o = true → s.ctl.reachedBy o t = true → x.2 = eOk → exec (.ringCtrlEnum t o r) s = .next
    (s.allTo (x.1.1, x.1.2.answer o 3 eOk))) ∧
  (∀ (s : State) (d : Datagram) (q : Req) (c' : Ctl),
    let v := fun i : Nat => q.arg (6 + 8 * i) 8
    let key := blkKey (q.arg 0 1) (q.arg 1 1) (q.arg 3 2)
    Delivered s.ctl 0x1003 d q c' → engRoles.contains q.role = true → c'.inventoryCode q = eOk → q.arg 2 1 = 0 →
    exec (.ringInventoryWrite d) s = .next
    (s.repliedOk d q (forN (q.arg 5 1) (fun i (c : Ctl) => { c with inventory := if v i = 0 then tabErase c.inventory (key + i) else tabSet c.inventory (key + i) (v i) }) c'))) ∧
  (∀ (s : State) (d : Datagram) (q : Req) (c' : Ctl),
    let key := blkKey (q.arg 0 1) (q.arg 1 1) (q.arg 3 2)
    let v := fun (c : Ctl) (i : Nat) => tabGet 0 c.found (key + i)
    Delivered s.ctl 0x1003 d q c' → engRoles.contains q.role = true → c'.inventoryCode q = eOk → q.arg 2 1 = 1 →
    exec (.ringInventoryAdopt d) s = .next
    (s.repliedOk d q (forN (q.arg 5 1) (fun i (c : Ctl) => { c with inventory := if v c i = 0 then tabErase c.inventory (key + i) else tabSet c.inventory (key + i) (v c i) }) c'))) ∧
  (∀ (s : State) (d : Datagram) (q : Req) (c' : Ctl),
    let key := blkKey (q.arg 0 1) (q.arg 1 1) (q.arg 3 2)
    Delivered s.ctl 0x1003 d q c' → engRoles.contains q.role = true → c'.inventoryCode q = eOk → 2 ≤ q.arg 2 1 →
    exec (.ringInventoryClear d) s = .next
    (s.repliedOk d q (forN (q.arg 5 1) (fun i (c : Ctl) => { c with inventory := tabErase c.inventory (key + i) }) c'))) ∧
  (∀ (s : State) (d : Datagram) (q : Req) (c' : Ctl),
    let t := q.arg 0 1
    let r := q.arg 1 1
    let b := q.arg 2 2
    let key := blkKey t r b
    let inv := if (c'.rng t r).policy then tabSet c'.inventory key (tabGet 0 c'.found key) else c'.inventory
    Delivered s.ctl 0x1004 d q c' → engRoles.contains q.role = true → q.args.length = 4 → c'.ringAbsent t r = false →
    b < 512 ∧ c'.present? t r b = true → c'.flag t RING_BLK_QUAR r b = true → exec (.ringTrust d) s = .next
    (s.repliedOk d q ((Ctl.put { c' with identity := tabErase c'.identity key, inventory := inv } t RING_BLK_QUAR 0 r b).ringEvent t r b 0x1016))) ∧
  (∀ (s : State) (t : TileId) (k : CoreId) (d a : Fin 32) (i : Nat),
    let p := ((s.ctl.task t i).reg a).toNat
    let e := if localOk p 16 16 then s.ctl.rpostCode t p (memBytes s.mem (localAddr t k p) 16) else eFormat
    Executes s.ctl t k i → e ≠ eOk → exec (.rpost t k d a) s = .next (s.resulted t i d (BitVec.ofNat 32 e))) ∧
  (∀ (s : State) (t : TileId) (k : CoreId) (d a : Fin 32) (i g : Nat),
    let p := ((s.ctl.task t i).reg a).toNat
    let ds := memBytes s.mem (localAddr t k p) 16
    let r := leNat (ds.take 2) / 512 % 32
    let req := memBytes s.mem (localAddr t k (leNat ((ds.drop 8).take 4))) (leNat ((ds.drop 4).take 1))
    let tx : Tx :=
        { addr := leNat (ds.take 2) % 512, cmd := leNat ((ds.drop 2).take 1), req := req, desc := some (t.val, k.val, p), rsp := leNat ((ds.drop 12).take 4), cap := leNat ((ds.drop 5).take 1) }
    Executes s.ctl t k i → localOk p 16 16 = true → s.ctl.rpostCode t p ds = eOk →
    s.ctl.targetTile t (leNat (ds.take 2)) = some g → s.ctl.rstate g r = rgEnum ∨ s.ctl.ringUp g r = true →
    exec (.rpost t k d a) s = .next
    (s.allTo (memWrite s.mem (localAddr t k (p + 3)) 0xFF, (s.ctl.setRng g r { s.ctl.rng g r with posted := (s.ctl.rng g r).posted ++ [tx] }).retireCode t i d eOk))) ∧
  (∀ (s : State) (t : TileId) (k : CoreId) (d a : Fin 32) (i g : Nat),
    let p := ((s.ctl.task t i).reg a).toNat
    let ds := memBytes s.mem (localAddr t k p) 16
    let r := leNat (ds.take 2) / 512 % 32
    let req := memBytes s.mem (localAddr t k (leNat ((ds.drop 8).take 4))) (leNat ((ds.drop 4).take 1))
    let tx : Tx :=
        { addr := leNat (ds.take 2) % 512, cmd := leNat ((ds.drop 2).take 1), req := req, desc := some (t.val, k.val, p), rsp := leNat ((ds.drop 12).take 4), cap := leNat ((ds.drop 5).take 1) }
    let c1 := (s.ctl.setRng g r { s.ctl.rng g r with posted := (s.ctl.rng g r).posted ++ [tx] }).retireCode t i d eOk
    Executes s.ctl t k i → localOk p 16 16 = true → s.ctl.rpostCode t p ds = eOk →
    s.ctl.targetTile t (leNat (ds.take 2)) = some g → s.ctl.rstate g r ≠ rgEnum ∧ s.ctl.ringUp g r = false →
    exec (.rpost t k d a) s = .next
    (s.allTo (completeTx (memWrite s.mem (localAddr t k (p + 3)) 0xFF, c1.setRng g r { c1.rng g r with posted := (s.ctl.rng g r).posted }) tx eAbsent 0 []))) ∧
  (∀ (s : State) (t : TileId) (k : CoreId) (d a : Fin 32) (i : Nat),
    let w := ((s.ctl.task t i).reg a).toNat
    let v := ((s.ctl.task t i).reg (a.val + 1)).toNat
    let r := w % 16384 / 512
    let b := w % 512
    let duty := if dieCap s.mem s.ctl t r b < v % 128 then dieCap s.mem s.ctl t r b else v % 128
    let x : Duty := { map := v / 65536, duty := duty, alt := !s.ctl.flag t BAL_RING_CFG_ADJACENT_PERMIT r }
    let n := blkKey t r b
    let man := if v / 65536 = 0 then tabErase s.ctl.manual n else tabSet s.ctl.manual n { map := v / 65536, duty := v % 128 }
    let c1 := if s.ctl.get t BAL_CTRL_MODE ≠ 2 then s.ctl else { s.ctl with manual := man }
    Executes s.ctl t k i → a.val % 2 = 0 → bitsOf v 7 9 = 0 →
    (s.ctl.targetTile t w).any (fun g => s.ctl.present? g r b) = true → v % 128 ≤ 100 → bit w 14 = false ∧
    ¬ (s.ctl.level t k = 0 ∧ s.ctl.get t BAL_CTRL_MODE ≠ 2) → s.ctl.flag t RING_BLK_QUAR r b = false →
    ¬ (adjacent (v / 65536) = true ∧ s.ctl.flag t BAL_RING_CFG_ADJACENT_PERMIT r = false) → exec (.bduty t k d a) s = .next
    (s.ctlTo ((c1.dutySlot t r b x).retire t i d (BitVec.ofNat 32 (duty * 256))))) ∧
  (∀ (s : State) (t : TileId) (k : CoreId) (d a : Fin 32) (i : Nat),
    let p := ((s.ctl.task t i).reg a).toNat
    Executes s.ctl t k i → localOk p 16 16 = true → (memRead s.mem (localAddr t k (p + 3))).toNat ≠ 0xFF →
    exec (.rwait t k d a) s = .next (s.resulted t i d (BitVec.ofNat 32 (memRead s.mem (localAddr t k (p + 3))).toNat))) ∧
  (∀ (s : State) (t : TileId) (k : CoreId) (d a : Fin 32) (i : Nat),
    let p := ((s.ctl.task t i).reg a).toNat
    Executes s.ctl t k i → localOk p 16 16 = true → (memRead s.mem (localAddr t k (p + 3))).toNat = 0xFF →
    exec (.rwait t k d a) s = .next (s.ctlTo (s.ctl.blockOn t i d (.ring p) 2)))

/-- R105, R110, R121, R123 to R125, R128, R131, R133, R135, R136, R150, R157, R162, R172, R229, R454, R529: what a frame
instant, the end of a frame, a write of the next period, COLLECT, a sample response, a RETRY pass, the end of a sweep, the
tone and beacon events and SFETCH change, and that they change nothing where the tile, the ring, the frame or the task is not
in a state they belong to. -/
def Obligations.FrameAndSamplingComplete : Prop :=
  (∀ (s : State) ,
    let n := (s.ctl.frameNum + 1) % 2 ^ 32
    s.ctl.tileState 0 ≠ tsOff → s.ctl.pw.mode = .run → exec (.frameInstant) s = .next
    (s.allTo ((frameBegin n (s.mem, (Ctl.periodSwitch n { s.ctl with frameNum := n }).frameAligned)).on (Ctl.sameCycle s.ctl)))) ∧
  (∀ (s : State) , s.ctl.tileState 0 = tsOff ∨ s.ctl.pw.mode ≠ .run → exec (.frameInstant) s = .next (s)) ∧
  (∀ (s : State) (t : TileId), t.val < s.ctl.tiles → (s.ctl.running t && s.ctl.frameOpen.contains t.val
    && !s.ctl.recordsHalted t && !(s.ctl.sections t).any (fun h => !s.ctl.sweepsDone h)) = true →
    exec (.frameComplete t) s = .next
    (s.allTo ((frameEnd t (s.ctl.get t SMP_FRAME_NUM_FRAME) (s.mem, s.ctl)).on (Ctl.sameCycle s.ctl)))) ∧
  (∀ (s : State) (t : TileId), t.val < s.ctl.tiles → (s.ctl.running t && s.ctl.frameOpen.contains t.val
    && !s.ctl.recordsHalted t && !(s.ctl.sections t).any (fun h => !s.ctl.sweepsDone h)) = false →
    exec (.frameComplete t) s = .next (s)) ∧
  (∀ (s : State) (o : Origin) (next : Fin 4),
    let ahead := frameDiff (s.ctl.get 0 SMP_FRAME_SWITCH_AT) (s.ctl.get 0 SMP_FRAME_NUM_FRAME)
    accessorFitted s.ctl o = true → s.ctl.reachedBy o 0 = true → s.ctl.mayConfig o = true → next.val = 0 ∨ (4 ≤ ahead ∧
    ahead ≤ 65536 ∧ s.ctl.activating = false ∧ s.ctl.carryUnderWay = false) → exec (.framePeriodNextWrite o next) s = .next
    (s.accessed o 4 (s.ctl.put 0 SMP_FRAME_CFG_NEXT next))) ∧
  (∀ (s : State) (t : TileId) (r : RingId), t.val < s.ctl.tiles → s.ctl.live t = true ∧ s.ctl.ringUp t r = true ∧
    s.ctl.frameOpen.contains t.val = true → exec (.collectLaunch t r) s = .next
    (s.ctlTo (s.ctl.setRng t r { s.ctl.rng t r with collecting := true }))) ∧
  (∀ (s : State) (t : TileId) (r : RingId), t.val < s.ctl.tiles → ¬ (s.ctl.live t = true ∧ s.ctl.ringUp t r = true ∧
    s.ctl.frameOpen.contains t.val = true) → exec (.collectLaunch t r) s = .next (s)) ∧
  (∀ (s : State) (t : TileId) (r : RingId) (el : List Byte),
    let g := s.ctl.rng t r
    t.val < s.ctl.tiles → ¬ (s.ctl.live t = true ∧ s.ctl.ringUp t r = true ∧ s.ctl.frameOpen.contains t.val = true ∧
    g.collecting = true ∧ g.swept = false) → exec (.sampleResponseReceive t r el) s = .next (s)) ∧
  (∀ (s : State) (t : TileId) (r : RingId) (el : List Byte),
    let g := s.ctl.rng t r
    t.val < s.ctl.tiles → s.ctl.live t = true ∧ s.ctl.ringUp t r = true ∧ s.ctl.frameOpen.contains t.val = true →
    g.collecting = true ∧ g.swept = false → (el.length ≠ 54 ∧ el.length ≠ 60) ∨ elementOk el = false →
    exec (.sampleResponseReceive t r el) s = .next (s.ctlTo (s.ctl.inc t RING_ERR_CRC r))) ∧
  (∀ (s : State) (t : TileId) (r : RingId) (el : List Byte),
    let g := s.ctl.rng t r
    let b := beNat (el.take 2) / 128
    t.val < s.ctl.tiles → s.ctl.live t = true ∧ s.ctl.ringUp t r = true ∧ s.ctl.frameOpen.contains t.val = true →
    g.collecting = true ∧ g.swept = false → ¬ (el.length ≠ 54 ∧ el.length ≠ 60) ∧ elementOk el = true →
    s.ctl.present? t r b = false ∨ g.got.contains b = true → exec (.sampleResponseReceive t r el) s = .next (s)) ∧
  (∀ (s : State) (t : TileId) (r : RingId) (el : List Byte),
    let g := s.ctl.rng t r
    let b := beNat (el.take 2) / 128
    let x := parseSample el
    let c1 := s.ctl.counterCheck t r b x.counter
    t.val < s.ctl.tiles → s.ctl.live t = true ∧ s.ctl.ringUp t r = true ∧ s.ctl.frameOpen.contains t.val = true →
    g.collecting = true ∧ g.swept = false → ¬ (el.length ≠ 54 ∧ el.length ≠ 60) ∧ elementOk el = true →
    s.ctl.present? t r b = true ∧ g.got.contains b = false → exec (.sampleResponseReceive t r el) s = .next
    (s.allTo (takeRecord s.mem (if bit x.status 2 then c1.wdogSeen t r b g
    else c1) t r b x (s.ctl.freshIn t r b (s.ctl.get t SMP_FRAME_NUM_FRAME) el)))) ∧
  (∀ (s : State) (t : TileId) (r : RingId),
    let g := s.ctl.rng t r
    let missing := (s.ctl.missingBlocks t r).take 8
    t.val < s.ctl.tiles → (s.ctl.ringUp t r && g.collecting && !g.swept && decide (g.passes < 2) && missing != []) = true →
    exec (.retryPassLaunch t r) s = .next (s.ctlTo (s.ctl.setRng t r { g with passes := g.passes + 1, listed := missing }))) ∧
  (∀ (s : State) (t : TileId) (r : RingId),
    let g := s.ctl.rng t r
    let missing := (s.ctl.missingBlocks t r).take 8
    t.val < s.ctl.tiles → (s.ctl.ringUp t r && g.collecting && !g.swept && decide (g.passes < 2) && missing != []) = false →
    exec (.retryPassLaunch t r) s = .next (s)) ∧
  (∀ (s : State) (t : TileId) (r : RingId) (reached : Bool), t.val < s.ctl.tiles → ¬ (s.ctl.live t = true ∧
    s.ctl.ringUp t r = true ∧ s.ctl.frameOpen.contains t.val = true ∧ (s.ctl.rng t r).swept = false) →
    exec (.ringSweepEnd t r reached) s = .next (s)) ∧
  (∀ (s : State) (t : TileId) (r : RingId) (reached : Bool),
    let x := fillRing (s.mem, s.ctl) t r
    t.val < s.ctl.tiles → s.ctl.live t = true ∧ s.ctl.ringUp t r = true ∧ s.ctl.frameOpen.contains t.val = true ∧
    (s.ctl.rng t r).swept = false → s.ctl.sweepSuspect t r reached = false → exec (.ringSweepEnd t r reached) s = .next
    (s.allTo x)) ∧
  (∀ (s : State) (t : TileId) (r : RingId) (reached : Bool),
    let x := fillRing (s.mem, s.ctl) t r
    t.val < s.ctl.tiles → s.ctl.live t = true ∧ s.ctl.ringUp t r = true ∧ s.ctl.frameOpen.contains t.val = true ∧
    (s.ctl.rng t r).swept = false → s.ctl.sweepSuspect t r reached = true → exec (.ringSweepEnd t r reached) s = .next
    (s.allTo (x.on (fun c => c.setRng t r { c.rng t r with suspect := true })))) ∧
  (∀ (s : State) (t : TileId) (r : RingId) (tail : Bool), t.val < s.ctl.tiles → exec (.toneLossReport t r tail) s = .next
    (s.ctlTo (s.ctl.toneAt t r tail true))) ∧
  (∀ (s : State) (t : TileId) (r : RingId) (tail : Bool), t.val < s.ctl.tiles → s.ctl.rstate t r ≠ rgSplit →
    exec (.toneRestored t r tail) s = .next (s.ctlTo (s.ctl.toneAt t r tail false))) ∧
  (∀ (s : State) (t : TileId) (r : RingId) (tail : Bool), t.val < s.ctl.tiles → s.ctl.rstate t r = rgSplit →
    exec (.toneRestored t r tail) s = .next (s)) ∧
  (∀ (s : State) (t : TileId) (r : RingId) (tail : Bool), t.val < s.ctl.tiles → s.ctl.rstate t r = rgSplit →
    exec (.beaconReceive t r tail) s = .next (s.ctlTo (s.ctl.toneAt t r tail false))) ∧
  (∀ (s : State) (t : TileId) (r : RingId) (tail : Bool), t.val < s.ctl.tiles → s.ctl.rstate t r ≠ rgSplit →
    exec (.beaconReceive t r tail) s = .next (s)) ∧
  (∀ (s : State) (t : TileId) (r : RingId) (tail : Bool), t.val < s.ctl.tiles → s.ctl.rstate t r = rgSplit →
    exec (.beaconTimeout t r tail) s = .next (s.ctlTo (s.ctl.toneAt t r tail true))) ∧
  (∀ (s : State) (t : TileId) (r : RingId) (tail : Bool), t.val < s.ctl.tiles → s.ctl.rstate t r ≠ rgSplit →
    exec (.beaconTimeout t r tail) s = .next (s)) ∧
  (∀ (s : State) (t : TileId) (k : CoreId) (d a : Fin 32) (i : Nat),
    let f := ((s.ctl.task t i).reg a).toNat
    let w := ((s.ctl.task t i).reg (a.val + 1)).toNat
    Executes s.ctl t k i → a.val % 2 = 0 → s.ctl.sfetchCode t f w = eOk → exec (.sfetch t k d a) s = .next
    (s.ctlTo (s.ctl.blockOn t i d (.fetch f w (bitsOf w 20 12 * 64)) 2))) ∧
  (∀ (s : State) (t : TileId) (k : CoreId) (d a : Fin 32) (i : Nat),
    let e := s.ctl.sfetchCode t ((s.ctl.task t i).reg a).toNat ((s.ctl.task t i).reg (a.val + 1)).toNat
    Executes s.ctl t k i → a.val % 2 = 0 → e ≠ eOk → exec (.sfetch t k d a) s = .next (s.resulted t i d (BitVec.ofNat 32 e))) ∧
  (∀ (s : State) (t : TileId) (i : TaskId) (f w dst : Nat),
    let g := (s.ctl.targetTile t w).getD t
    t.val < s.ctl.tiles → (s.ctl.task t i).wait = .fetch f w dst → exec (.sfetchDone t i) s = .next
    (s.allTo (memStore s.mem (localAddr t (i.val / 64) dst) (memBytes s.mem (s.ctl.recordAddr g f (w % 16384)) 64),
    s.ctl.resume t i 0))) ∧
  (∀ (s : State) (t : TileId) (i : TaskId), t.val < s.ctl.tiles → (∀ f w dst, (s.ctl.task t i).wait ≠ .fetch f w dst) →
    exec (.sfetchDone t i) s = .next (s))

/-- R161, R164 to R167: a commit takes the list over for the next instant; a sub-instant opens an entry and skips the rings
with listed cells whose sweep is not done, each with its count and event 0x1025; a RETRY frame of a burst lists the blocks of
R165, whose responses, and no other's, fill the entry; a complete entry is stored and raises interrupt 0x02. Nothing changes
where there is no list, no entry or no ring to ask. -/
def Obligations.BurstSamplingComplete : Prop :=
  (∀ (s : State) (t : TileId) (o : Origin) (count : Fin 2048),
    let cells := (List.range count).map (fun i => s.ctl.get t SMP_BURST_LIST_CELL i)
    let c1 := s.ctl.put t SMP_BURST_CTRL_COUNT count
    accessorFitted s.ctl o = true → s.ctl.reachedBy o t = true → s.ctl.mayConfig o = true → s.ctl.burstCode t count = eOk →
    exec (.burstListCommit t o count) s = .next
    (s.accessed o 4 { c1 with bursts := tabSet c1.bursts t { tabGet {} c1.bursts t with committed := some cells } })) ∧
  (∀ (s : State) (t : TileId) (j : Fin 20),
    let x := tabGet {} s.ctl.bursts t
    t.val < s.ctl.tiles → j = 0 ∨ s.ctl.periodMs / 10 ≤ j.val ∨ x.list = [] ∨ s.ctl.live t = false →
    exec (.burstSubInstant t j) s = .next (s)) ∧
  (∀ (s : State) (t : TileId) (j : Fin 20),
    let x := tabGet {} s.ctl.bursts t
    let late := (List.range 32).filter (fun r => s.ctl.ringUp t r && !(s.ctl.rng t r).swept
        && x.list.any (fun id => id / 2 ^ 13 % 32 == r))
    let c1 := s.ctl.burstOpen t j
    let y := tabGet {} c1.bursts t
    let c2 : Ctl :=
        { c1 with bursts := tabSet c1.bursts t { y with entry := y.entry.map (fun e => { e with skipped := late }) } }
    t.val < s.ctl.tiles → ¬ (j = 0 ∨ s.ctl.periodMs / 10 ≤ j.val ∨ x.list = [] ∨ s.ctl.live t = false) →
    exec (.burstSubInstant t j) s = .next
    (s.ctlTo (late.foldl (fun (c : Ctl) r => (c.inc t SMP_BURST_SKIP_VALUE).event (c.recorderOf t) 0x04 0x1025 (cellId t r 0)) c2))) ∧
  (∀ (s : State) (t : TileId) (r : RingId) (els : List (List Byte)), t.val < s.ctl.tiles →
    (tabGet {} s.ctl.bursts t).entry.all (fun e => e.j == 0 || e.skipped.contains r.val || !s.ctl.ringUp t r) = true →
    exec (.burstCollect t r els) s = .next (s)) ∧
  (∀ (s : State) (t : TileId) (r : RingId) (els : List (List Byte)) (e : BurstEntry),
    let x := tabGet {} s.ctl.bursts t
    let asked := x.nextListed e t r
    let e1 := { e with asked := asked.foldl (fun (k : Tab Nat) b => tabSet k b (tabGet 0 k b + 1)) e.asked }
    t.val < s.ctl.tiles → x.entry = some e → (e.j == 0 || e.skipped.contains r.val || !s.ctl.ringUp t r) = false →
    exec (.burstCollect t r els) s = .next
    (s.ctlTo (els.foldl (Ctl.burstTake t r asked) { s.ctl with bursts := tabSet s.ctl.bursts t { x with entry := some e1 } }))) ∧
  (∀ (s : State) (t : TileId), t.val < s.ctl.tiles → (tabGet {} s.ctl.bursts t).entry = none →
    exec (.burstEntryComplete t) s = .next (s)) ∧
  (∀ (s : State) (t : TileId) (e : BurstEntry),
    let x := tabGet {} s.ctl.bursts t
    let a := modAddr t (s.ctl.get t SMP_BURST_BASE_BASE * 2 ^ 26 + e.seq % 16384 * 4096)
    let c1 := Ctl.put { s.ctl with bursts := tabSet s.ctl.bursts t { x with entry := none } } t SMP_BURST_SEQ_VALUE e.seq
    t.val < s.ctl.tiles → x.entry = some e → exec (.burstEntryComplete t) s = .next
    (s.allTo (memStore s.mem a (e.bytes x.list.length), c1.irq t 0x02)))

/-- R169, R171, R175, R181, R184, R185, R204, R216, R217, R220, R224 to R226, R233, R240, R243: the state change of each row
under the condition that it applies; requests are delivered, of a role that may send them and in range. -/
def Obligations.LimitsAndEstimationComplete : Prop :=
  (∀ (s : State) (t : TileId) (o : Origin) (w : Word), accessorFitted s.ctl o = true → s.ctl.reachedBy o t = true →
    s.ctl.mayConfig o = true → anyN 8 (fun k => bit w.toNat k && s.ctl.limitRange t k) = false →
    exec (.limitCommitWrite t o w) s = .next (s.accessed o 5 (forN 8 (fun k (c : Ctl) => if bit w.toNat k then
    { c with limCommit := tabSet c.limCommit (t * 8 + k) ((List.range 8).map (fun j => c.rawWord 5 t (0x100 + k * 0x40 + 4 * j))) }
    else c) s.ctl))) ∧
  (∀ (s : State) (t : TileId) (o : Origin) (r : RingId) (w : Word), accessorFitted s.ctl o = true → s.ctl.reachedBy o t = true →
    s.ctl.mayConfig o = true → exec (.limitRingSelWrite t o r w) s = .next
    (s.accessed o 5 ((s.ctl.put t LIMIT_RING_SEL_TEMP_MASK (bitsOf w.toNat 16 6) r).put t LIMIT_RING_SEL_SET (w.toNat % 8) r))) ∧
  (∀ (s : State) (t : TileId) (r : RingId) (b : BlockId) (w : Fin 17), t.val < s.ctl.tiles → s.ctl.flag t SMP_OW_CFG_EN = true ∧
    s.ctl.ringUp t r = true ∧ s.ctl.present? t r b = true → exec (.owScheduledTest t r b w) s = .next
    (s.ctlTo (s.ctl.owTest t r b [w.val]))) ∧
  (∀ (s : State) (t : TileId) (r : RingId) (b : BlockId) (w : Fin 17), t.val < s.ctl.tiles →
    (s.ctl.owOf t r b).confirmed.contains w.val = true ∧ s.ctl.ringUp t r = true ∧ s.ctl.present? t r b = true →
    exec (.owRetestTimer t r b w) s = .next (s.ctlTo (s.ctl.owTest t r b [w.val]))) ∧
  (∀ (s : State) (d : Datagram) (q : Req) (c' : Ctl),
    let t := q.arg 0 1
    let r := q.arg 1 1
    let b := q.arg 2 2
    Delivered s.ctl 0x1010 d q c' → engRoles.contains q.role = true → q.args.length = 4 → c'.ringAbsent t r = false ∧
    b < 512 ∧ c'.present? t r b = true → (c'.owOf t r b).pending = [] → exec (.smpOwTest d) s = .next
    (s.repliedOk d q (c'.owLater t r b))) ∧
  (∀ (s : State) (t : TileId) (n : Nat),
    let last := s.ctl.get t SMP_LAST_COMPLETE_FRAME
    t.val < s.ctl.tiles → s.ctl.running t = true ∧ s.ctl.systemHeld t = false → (s.ctl.estOf t).next = some n →
    0 ≤ frameDiff last n ∧ frameDiff last n ≤ 1198 → exec (.estimatorPass t) s = .next
    (s.allTo (estimatorRun t n last (s.mem, s.ctl)))) ∧
  (∀ (s : State) (t : TileId) (n : Nat),
    let last := s.ctl.get t SMP_LAST_COMPLETE_FRAME
    let back := frameDiff last n
    let z :=
        skipFrames t n ((last + 2 ^ 32 - 1199) % 2 ^ 32) (s.mem, s.ctl.event t 0x06 0x2002 0 (leBytes 4 (back - 1198).toNat))
    t.val < s.ctl.tiles → s.ctl.running t = true ∧ s.ctl.systemHeld t = false → (s.ctl.estOf t).next = some n → 1198 < back →
    exec (.estimatorPass t) s = .next (s.allTo (estimatorRun t ((last + 2 ^ 32 - 1198) % 2 ^ 32) last z))) ∧
  (∀ (s : State) (t : TileId) (r : RingId) (str : StringId),
    let p := s.ctl.execOf t
    let x : Run := { p := p, h := t, f := s.ctl.get p EST_PASS_FRAME }
    t.val < s.ctl.tiles → s.ctl.running p = true ∧ s.ctl.systemHeld p = false ∧ s.ctl.fitDue t r str = true →
    exec (.restFit t r str) s = .next (s.allTo ((x.cells s.ctl r str).foldl (fun y i => x.fitCell r str i y) (s.mem, s.ctl)))) ∧
  (∀ (s : State) (t : TileId) (r : RingId) (str : StringId),
    let p := s.ctl.execOf t
    let x : Run := { p := p, h := t, f := s.ctl.get p EST_PASS_FRAME }
    let c1 := s.ctl.put t EST_REST_REQ_STRING (setBit (s.ctl.get t EST_REST_REQ_STRING r) str false) r
    t.val < s.ctl.tiles → s.ctl.systemHeld p = false → bit (s.ctl.get t EST_REST_REQ_STRING r) str = true →
    bit (s.ctl.get t DISP_REST_GNT_STRING r) str = false → exec (.restRequestExpiry t r str) s = .next
    (s.ctlTo (x.event s.mem (c1.setSx t r str { c1.sx t r str with reqAt := none, blocked := c1.optime + 3600000 }) r str 0x2021))) ∧
  (∀ (s : State) (t : TileId) (o : Origin) (w : Word),
    let b := w.toNat % 16384
    accessorFitted s.ctl o = true → s.ctl.reachedBy o t = true → s.ctl.isSystem o = true →
    s.ctl.flag t RING_BLK_STALE (b / 512) (b % 512) = true → exec (.estStaleClear t o w) s = .next
    (s.accessed o 6 { s.ctl with staleDue := (t * 16384 + b) :: s.ctl.staleDue.filter (fun k => k != t * 16384 + b) })) ∧
  (∀ (s : State) (d : Datagram) (q : Req) (c' : Ctl),
    let t := q.arg 0 1
    let r := q.arg 1 1
    let x : Run := { p := t, h := t, f := c'.get t EST_PASS_FRAME }
    let new := (List.range 32).filter (fun i => bit (q.arg 2 4) i && !bit (c'.get t EST_REST_REQ_STRING r) i)
    let c1 := fun (c : Ctl) (i : Nat) => c.put t EST_REST_REQ_STRING (setBit (c.get t EST_REST_REQ_STRING r) i true) r
    Delivered s.ctl 0x2001 d q c' → engRoles.contains q.role = true → q.args.length = 6 → c'.ringAbsent t r = false →
    anyN 32 (fun i => bit (q.arg 2 4) i && !c'.flag t RING_SMAP_ACT_VALID r i) = false → exec (.estAnchorRequest d) s = .next
    (s.repliedOk d q (new.foldl (fun (c : Ctl) i => x.event s.mem ((c1 c i).setSx t r i { (c1 c i).sx t r i with reqAt := some (c1 c i).optime }) r i 0x2020) c'))) ∧
  (∀ (s : State) (d : Datagram) (q : Req) (c' c1 : Ctl) (b : List Byte),
    let n := q.arg 1 1
    let tiles := c1.named (q.arg 0 1)
    Delivered s.ctl 0x2002 d q c' → engRoles.contains q.role = true → q.args.length = 3 →
    c'.takeBulk q (q.arg 2 1) = (eOk, b, c1) → b.length = 0x828 → c1.namedAbsent (q.arg 0 1) = false →
    profCode b ≠ eIntegrity ∧ profCode b ≠ eRange → n ≤ 7 →
    tiles.any (fun t => anyN 1024 (fun i => c1.flag t RING_SMAP_ACT_VALID (i / 32) (i % 32)
    && c1.get t RING_SMAP_ACT_PROFILE (i / 32) (i % 32) == n
    && over1500 ((c1.get t RING_SMAP_ACT_LAST (i / 32) (i % 32) + 1 - c1.get t RING_SMAP_ACT_FIRST (i / 32) (i % 32)) * 16) (leNat ((b.drop 0x7E0).take 2)))) = false →
    exec (.estProfile d) s = .next
    (s.repliedOk d q (tiles.foldl (fun (c : Ctl) t => { c with profiles := tabSet c.profiles (t * 8 + n) b, profDue := (t * 8 + n) :: c.profDue.filter (fun k => k != t * 8 + n) }) c1))) ∧
  (∀ (s : State) (d : Datagram) (q : Req) (c' : Ctl),
    let t := q.arg 0 1
    let r := q.arg 1 1
    let b := q.arg 2 2
    Delivered s.ctl 0x2003 d q c' → engRoles.contains q.role = true → q.args.length = 6 → c'.ringAbsent t r = false ∧
    b < 512 ∧ c'.present? t r b = true → exec (.estCellInit d) s = .next
    (s.repliedOk d q (forN 16 (fun n (c : Ctl) => if bit (q.arg 4 2) n then
    c.setCx (cellId t r b n) { c.cx (cellId t r b n) with initDue := true } else c) c'))) ∧
  (∀ (s : State) (d : Datagram) (q : Req) (c' : Ctl),
    let tiles := c'.named (q.arg 0 1)
    let c1 := tiles.foldl (fun (c : Ctl) t => c.startCommit t 8 none) c'
    Delivered s.ctl 0x2010 d q c' → opRoles.contains q.role = true → q.args.length = 1 → c'.namedAbsent (q.arg 0 1) = false →
    tiles.any (fun t => c'.committing t [4, 7]) = false → exec (.lvBackup d) s = .next
    (s.replied d q { mem := s.mem, ctl := { c1 with backups := c1.backups ++ [(q.id, q.seq, tiles)] }, later := true })) ∧
  (∀ (s : State) (d : Datagram) (q : Req) (c' : Ctl),
    let tiles := c'.named (q.arg 0 1)
    let src := q.arg 1 1
    Delivered s.ctl 0x2011 d q c' → engRoles.contains q.role = true → q.args.length = 2 → c'.namedAbsent (q.arg 0 1) = false →
    ¬ (src = 1 ∧ tiles.any (fun t => !anyN 262144 (fun i => (lvSource s.mem t i true false).isSome)) = true) → src ≤ 1 →
    (c'.get 0 DISP_CTRL_MODE = 1 ∨ c'.get 0 DISP_CTRL_MODE = 2) → exec (.lvRestore d) s = .next
    (s.repliedOk d q (tiles.foldl (fun (c : Ctl) t => c.setEst t { c.estOf t with reload := some src, restored := false }) c'))) ∧
  (∀ (s : State) (t : TileId), t.val < s.ctl.tiles → s.ctl.running t = true ∧ s.ctl.flag t EST_LV_CFG_EN = true →
    exec (.lvCommitInterval t) s = .next (s.ctlTo (s.ctl.startCommit t 0 none))) ∧
  (∀ (s : State) (t : TileId) (failAt : Option (BitVec 32)) (reach : Bool), t.val < s.ctl.tiles →
    (s.ctl.estOf t).commit = none → exec (.lvCommitComplete t failAt reach) s = .next (s.ctlTo s.ctl)) ∧
  (∀ (s : State) (t : TileId) (failAt : Option (BitVec 32)) (reach : Bool) (cause : Nat) (rest : Option (List Nat)),
    let x : MC := lvCommit s.mem s.ctl t (failAt.map (fun a => a.toNat)) reach
    let y : MC := if s.ctl.img.stage = .activating ∧ formatsDiffer s.mem 0x20 = true then (legacyCopy t x.1, x.2) else x
    let c0 := if cause = 4 ∨ cause = 7 then forN 4 (fun k (c : Ctl) => c.sched t k) (y.2.backupDone t) else y.2.backupDone t
    let c1 := if cause = 3 ∨ cause = 4 ∨ cause = 6 ∨ cause = 7 then c0.storeOptime else c0
    t.val < s.ctl.tiles → (s.ctl.estOf t).commit = some (cause, rest) → exec (.lvCommitComplete t failAt reach) s = .next
    (s.allTo (warnStep (chrysalisStep (y.1, c1))))) ∧
  (∀ (s : State) (t : TileId) (k : Fin 32),
    let n := t.val * 32 + k.val
    let c1 := (s.ctl.put t BAL_HEAT_BUDGET 0 k).put t BAL_HEAT_STALE 1 k
    t.val < s.ctl.tiles → s.ctl.running t = true ∧ s.ctl.flag t BAL_CONT_VALID k = true ∧ s.ctl.heatEp.contains n = false →
    exec (.heatBudgetStale t k) s = .next
    (s.ctlTo (Ctl.event { c1 with heatEp := n :: c1.heatEp } t 0x07 0x3002 (cellId t (c1.get t BAL_CONT_RING_A k) 0)))) ∧
  (∀ (s : State) (t : TileId),
    let f := s.ctl.get t EST_PASS_FRAME
    t.val < s.ctl.tiles → s.ctl.running t = true ∧ s.ctl.systemHeld t = false ∧ s.ctl.planDue.contains t.val = true →
    exec (.balancingPlannerRun t) s = .next
    (s.allTo (carriedBleed t f (plannerRun t f (s.mem, { s.ctl with planDue := s.ctl.planDue.filter (fun k => k != t.val) }))))) ∧
  (∀ (s : State) (d : Datagram) (q : Req) (c' : Ctl),
    let tiles := c'.named (q.arg 0 1)
    let mode := q.arg 1 1
    let z := tiles.foldl (fun (z : MC) t => if z.2.get t BAL_CTRL_MODE = mode then z
        else Machine.balMode t mode (z.1, z.2.put t BAL_CTRL_MAN_TIMEOUT (q.arg 2 1))) (s.mem, c')
    Delivered s.ctl 0x3001 d q c' → engRoles.contains q.role = true → q.args.length = 3 → c'.namedAbsent (q.arg 0 1) = false →
    mode ≤ 2 ∧ q.arg 2 1 ≠ 0 ∧ q.arg 2 1 ≤ 60 → (mode = 0 ∨ tiles.any (fun t => c'.get t BAL_CTRL_MODE != mode
    && !(c'.estOf t).passed) = false) → exec (.balMode d) s = .next (s.replied d q { mem := z.1, ctl := z.2 })) ∧
  (∀ (s : State) (t : TileId),
    let z := zeroAll t (Machine.balMode t (tabGet 0 s.ctl.balBefore t) (s.mem, s.ctl))
    t.val < s.ctl.tiles → s.ctl.running t = true ∧ s.ctl.get t BAL_CTRL_MODE = 2 → exec (.manualTimeout t) s = .next
    (s.allTo (z.1, z.2.event t 0x07 0x3008))) ∧
  (∀ (s : State) (d : Datagram) (q : Req) (c' : Ctl),
    let t := q.arg 0 1
    let r := q.arg 1 1
    let b := q.arg 2 2
    let map := q.arg 4 2
    let k := blkKey t r b
    let z : MC := (tableFlag s.mem t r b 2 (map != 0),
        { c' with manual := if map = 0 then tabErase c'.manual k else tabSet c'.manual k { map := map, duty := q.arg 6 1 } })
    let y := if map = 0 ∧ holds z t r b then issue z t r b 0 0 else z
    Delivered s.ctl 0x3002 d q c' → engRoles.contains q.role = true → q.args.length = 7 → c'.ringAbsent t r = false ∧
    b < 512 ∧ c'.present? t r b = true → q.arg 6 1 ≤ 100 → c'.get t BAL_CTRL_MODE = 2 → c'.flag t RING_BLK_QUAR r b = false →
    ¬ (adjacent map = true ∧ c'.flag t BAL_RING_CFG_ADJACENT_PERMIT r = false) → exec (.balManual d) s = .next
    (s.replied d q { mem := y.1, ctl := y.2 })) ∧
  (∀ (s : State) (d : Datagram) (q : Req) (c' : Ctl),
    let t := q.arg 0 1
    let r := q.arg 1 1
    let b := q.arg 2 2
    Delivered s.ctl 0x3003 d q c' → engRoles.contains q.role = true → q.args.length = 4 → c'.ringAbsent t r = false ∧
    b < 512 ∧ c'.present? t r b = true → c'.flag t BAL_RING_CFG_MWB r = true → c'.flag t BAL_RING_CFG_WIRE_BUSY r = false →
    exec (.balWireTest d) s = .next (s.repliedOk d q (c'.queueLearn t r [b])))

/-- R121, R122, R126 to R128, R142, R146, R147, R164, R169, R228: a block that is not in ship state and takes a whole frame
for it, or for all, of a new SEQ and of the right length executes the command; an executed command increases the counter
modulo 256, a unicast CMD is answered with the response element. The bit places of SET_POS are assumption 15, the die
temperature of READ_STATUS is a measured value (assumption 2). -/
def Obligations.BlockCommandsComplete : Prop :=
  (∀ (s : State) (t : TileId) (r : RingId) (b : BlockId) (fr : RingFrame),
    let x := s.ctl.blk t r b
    t.val < s.ctl.tiles → x.Takes fr 5 0x1 0 → exec (.readId t r b fr) s = .next
    (s.blkTo t r b (Blk.took x fr eOk (beBytes 8 (Config.blockUid (blkKey t r b)) ++ beBytes 2 0x1016
    ++ beBytes 2 (Config.blockStep (blkKey t r b)))))) ∧
  (∀ (s : State) (t : TileId) (r : RingId) (b : BlockId) (fr : RingFrame),
    let x := s.ctl.blk t r b
    t.val < s.ctl.tiles → x.Takes fr 5 0x2 6 → x.thrLocked = false → exec (.setThr t r b fr) s = .next
    (s.blkTo t r b (Blk.took { x with ov := reqArg fr.req 0 2, uv := reqArg fr.req 2 2, ot := reqArg fr.req 4 2 } fr eOk []))) ∧
  (∀ (s : State) (t : TileId) (r : RingId) (b : BlockId) (fr : RingFrame),
    let x := s.ctl.blk t r b
    t.val < s.ctl.tiles → x.Takes fr 5 0x2 6 → x.thrLocked = true → exec (.setThr t r b fr) s = .next
    (s.blkTo t r b (Blk.took x fr eLocked []))) ∧
  (∀ (s : State) (t : TileId) (r : RingId) (b : BlockId) (fr : RingFrame),
    let x := s.ctl.blk t r b
    t.val < s.ctl.tiles → x.Takes fr 5 0x3 0 → exec (.lockThr t r b fr) s = .next
    (s.blkTo t r b (Blk.took { x with thrLocked := true } fr eOk []))) ∧
  (∀ (s : State) (t : TileId) (r : RingId) (b : BlockId) (fr : RingFrame),
    let x := s.ctl.blk t r b
    t.val < s.ctl.tiles → x.Takes fr 5 0x4 0 → exec (.readThr t r b fr) s = .next
    (s.blkTo t r b (Blk.took x fr eOk (beBytes 2 x.ov ++ beBytes 2 x.uv ++ beBytes 2 x.ot ++ leBytes 1 (b2n x.thrLocked))))) ∧
  (∀ (s : State) (t : TileId) (r : RingId) (b : BlockId) (fr : RingFrame),
    let x := s.ctl.blk t r b
    t.val < s.ctl.tiles → x.Takes fr 5 0x5 16 → exec (.challenge t r b fr) s = .next
    (s.blkTo t r b (Blk.took { x with challenge := fr.req, authReady := false } fr eOk []))) ∧
  (∀ (s : State) (t : TileId) (r : RingId) (b : BlockId) (fr : RingFrame),
    let x := s.ctl.blk t r b
    t.val < s.ctl.tiles → x.Takes fr 5 0x6 0 → x.authReady = true → exec (.authRead t r b fr) s = .next
    (s.blkTo t r b (Blk.took x fr eOk (authAnswer (Config.blockKey (blkKey t r b)) x.challenge (Config.blockUid (blkKey t r b)) (t.val * 32 + r.val) (x.addr.getD 0))))) ∧
  (∀ (s : State) (t : TileId) (r : RingId) (b : BlockId) (fr : RingFrame),
    let x := s.ctl.blk t r b
    t.val < s.ctl.tiles → x.Takes fr 5 0x6 0 → x.authReady = false → exec (.authRead t r b fr) s = .next
    (s.blkTo t r b (Blk.took x fr eBusy []))) ∧
  (∀ (s : State) (t : TileId) (r : RingId) (b : BlockId) (fr : RingFrame),
    let x := s.ctl.blk t r b
    t.val < s.ctl.tiles → x.Takes fr 5 0x7 2 → exec (.setRole t r b fr) s = .next
    (s.blkTo t r b (Blk.took { x with nextHead := bit (reqArg fr.req 0 2) 0, nextMwb := bit (reqArg fr.req 0 2) 1 } fr eOk []))) ∧
  (∀ (s : State) (t : TileId) (r : RingId) (b : BlockId) (fr : RingFrame),
    let x := s.ctl.blk t r b
    t.val < s.ctl.tiles → x.Takes fr 5 0x8 4 → exec (.setPos t r b fr) s = .next
    (s.blkTo t r b (Blk.took { x with fromTail := bit (reqArg fr.req 0 2) 0, segEnd := bit (reqArg fr.req 0 2) 1 } fr eOk []))) ∧
  (∀ (s : State) (t : TileId) (r : RingId) (b : BlockId) (fr : RingFrame),
    let x := s.ctl.blk t r b
    t.val < s.ctl.tiles → x.Takes fr 5 0xa 2 → exec (.burst t r b fr) s = .next
    (s.blkTo t r b (Blk.took { x with burst := reqArg fr.req 0 2 } fr eOk []))) ∧
  (∀ (s : State) (t : TileId) (r : RingId) (b : BlockId) (fr : RingFrame),
    let x := s.ctl.blk t r b
    t.val < s.ctl.tiles → x.Takes fr 5 0xb 0 → exec (.ping t r b fr) s = .next (s.blkTo t r b (Blk.took x fr eOk []))) ∧
  (∀ (s : State) (t : TileId) (r : RingId) (b : BlockId) (fr : RingFrame),
    let x := s.ctl.blk t r b
    t.val < s.ctl.tiles → x.Takes fr 5 0xc 0 → exec (.readStatus t r b fr) s = .next
    (State.blkTo (s.ctlTo { s.ctl with fresh := s.ctl.fresh + 1 }) t r b (Blk.took x fr eOk (beBytes 2 x.crcUp
    ++ beBytes 2 x.crcDown
        ++ beBytes 2 (Config.measured s.ctl.fresh) ++ beBytes 2 x.resets)))) ∧
  (∀ (s : State) (t : TileId) (r : RingId) (b : BlockId) (fr : RingFrame),
    let x := s.ctl.blk t r b
    t.val < s.ctl.tiles → x.Takes fr 6 0x10 4 → reqArg fr.req 0 2 = 0 → exec (.setDuty t r b fr) s = .next
    (s.blkTo t r b (Blk.took { x with pending := none, cmd := { map := 0, duty := reqArg fr.req 2 1, alt := bit (reqArg fr.req 3 1) 0 }, conduct := 0 } fr eOk []))) ∧
  (∀ (s : State) (t : TileId) (r : RingId) (b : BlockId) (fr : RingFrame),
    let x := s.ctl.blk t r b
    t.val < s.ctl.tiles → x.Takes fr 6 0x10 4 → reqArg fr.req 0 2 ≠ 0 → exec (.setDuty t r b fr) s = .next
    (s.blkTo t r b (Blk.took { x with pending := some { map := reqArg fr.req 0 2, duty := reqArg fr.req 2 1, alt := bit (reqArg fr.req 3 1) 0 } } fr eOk []))) ∧
  (∀ (s : State) (t : TileId) (r : RingId) (b : BlockId) (fr : RingFrame),
    let x := s.ctl.blk t r b
    t.val < s.ctl.tiles → x.Takes fr 6 0x11 0 → exec (.quiet t r b fr) s = .next (s.blkTo t r b (Blk.took (if x.mwb then x
    else { x with conduct := 0, quiet := true }) fr eOk []))) ∧
  (∀ (s : State) (t : TileId) (r : RingId) (b : BlockId) (fr : RingFrame),
    let x := s.ctl.blk t r b
    t.val < s.ctl.tiles → x.Takes fr 6 0x12 0 → exec (.ship t r b fr) s = .next
    (s.blkTo t r b (Blk.took { x with ship := true, sync := none, pending := none, cmd := {}, conduct := 0 } fr eOk []))) ∧
  (∀ (s : State) (t : TileId) (r : RingId) (b : BlockId) (fr : RingFrame),
    let x := s.ctl.blk t r b
    let n := reqArg fr.req 0 1
    t.val < s.ctl.tiles → x.Takes fr 5 0x9 2 → fr.broadcast = false → n ≤ 16 → exec (.openTest t r b fr) s = .next
    (s.blkTo t r b { x with aborts := false, openTest := some (n, fr.seq.toNat), suspended := wireMask n, lastUni := some fr.seq.toNat, response := [], sent := [] })) ∧
  (∀ (s : State) (t : TileId) (r : RingId) (b : BlockId) (below above : BitVec 16) (n q : Nat),
    let x := s.ctl.blk t r b
    let y : Blk := { x with openTest := none, suspended := 0, counter := (x.counter + 1) % 256 }
    let z := y.commandResponse q eOk (beBytes 2 (if 1 ≤ n then below.toNat else 0) ++ beBytes 2 (if n ≤ 15 then above.toNat
        else 0))
    t.val < s.ctl.tiles → x.openTest = some (n, q) → exec (.openTestSinkDone t r b below above) s = .next
    (s.blkTo t r b { y with response := z, sent := z }))

/-- R120 to R124, R128 to R130, R133, R135 to R137, R146, R147, R150, R159, R164, R228, R229, R528: what an event changes in
the block it happens at, the frames among them whole ones; a beacon goes on through the blocks on its way whose comparators
pass the tone. The thresholds after a power cycle are free values (assumption 16). -/
def Obligations.BlockEventsComplete : Prop :=
  (∀ (s : State) (t : TileId) (r : RingId) (b : BlockId) (fr : RingFrame) (interval : Word),
    let x : Blk := { s.ctl.blk t r b with aborts := false }
    let frame := reqArg fr.req 0 4
    let align := reqArg fr.req 4 2
    let burst := reqArg fr.req 6 1
    t.val < s.ctl.tiles → x.ship = false → Whole fr ∧ fr.names 1 0 = true → fr.req.length = 8 ∧ x.addr ≠ none → burst = 0 →
    exec (.blockSyncReceive t r b fr.toRingHeader fr.req fr.toRingEnd interval) s = .next
    (s.blkTo t r b { x with sync := some (frame, 0, align), frame := frame, interval := interval.toNat })) ∧
  (∀ (s : State) (t : TileId) (r : RingId) (b : BlockId) (fr : RingFrame) (interval : Word),
    let x : Blk := { s.ctl.blk t r b with aborts := false }
    let frame := reqArg fr.req 0 4
    let align := reqArg fr.req 4 2
    let burst := reqArg fr.req 6 1
    t.val < s.ctl.tiles → x.ship = false → Whole fr ∧ fr.names 1 0 = true → fr.req.length = 8 ∧ x.addr ≠ none → burst ≠ 0 ∧
    x.burst ≠ 0 → exec (.blockSyncReceive t r b fr.toRingHeader fr.req fr.toRingEnd interval) s = .next
    (s.blkTo t r b { x with sync := some (frame, burst, align) })) ∧
  (∀ (s : State) (t : TileId) (r : RingId) (b : BlockId) (fr : RingFrame) (interval : Word),
    let x : Blk := { s.ctl.blk t r b with aborts := false }
    let burst := reqArg fr.req 6 1
    t.val < s.ctl.tiles → x.ship = false → Whole fr ∧ fr.names 1 0 = true → fr.req.length ≠ 8 ∨ x.addr = none ∨ (burst ≠ 0 ∧
    x.burst = 0) → exec (.blockSyncReceive t r b fr.toRingHeader fr.req fr.toRingEnd interval) s = .next (s.blkTo t r b x)) ∧
  (∀ (s : State) (t : TileId) (r : RingId) (b : BlockId) (a : Analog) (f g : Nat),
    let x := s.ctl.blk t r b
    t.val < s.ctl.tiles → x.ship = false → x.sync = some (f, 0, g) → exec (.blockConversion t r b a) s = .next
    (s.blkTo t r b (x.convertFrame a))) ∧
  (∀ (s : State) (t : TileId) (r : RingId) (b : BlockId) (a : Analog) (f n g : Nat),
    let x := s.ctl.blk t r b
    t.val < s.ctl.tiles → x.ship = false → x.sync = some (f, n, g) → n ≠ 0 → exec (.blockConversion t r b a) s = .next
    (s.blkTo t r b (x.convertBurst a))) ∧
  (∀ (s : State) (t : TileId) (r : RingId) (b : BlockId) (fr : RingFrame),
    let x : Blk := { s.ctl.blk t r b with aborts := false }
    let el := element (x.head2 ++ leBytes 1 x.counter ++ x.sample)
    t.val < s.ctl.tiles → x.ship = false → Whole fr ∧ fr.names 2 0 = true → x.addr ≠ none ∧ x.kept = [] →
    exec (.collect t r ⟨b, fr⟩) s = .next (s.blkTo t r b { x with sent := el, kept := el, wdogStop := false })) ∧
  (∀ (s : State) (t : TileId) (r : RingId) (b : BlockId) (fr : RingFrame),
    let x : Blk := { s.ctl.blk t r b with aborts := false }
    t.val < s.ctl.tiles → x.ship = false → Whole fr ∧ fr.names 2 0 = true → x.addr ≠ none ∧ x.kept ≠ [] →
    exec (.collect t r ⟨b, fr⟩) s = .next (s.blkTo t r b { x with sent := x.kept })) ∧
  (∀ (s : State) (t : TileId) (r : RingId) (b : BlockId) (fr : RingFrame),
    let x : Blk := { s.ctl.blk t r b with aborts := false }
    let el := element (x.head2 ++ leBytes 1 x.counter ++ x.sample)
    t.val < s.ctl.tiles → x.ship = false → Whole fr ∧ fr.names 3 0 = true → fr.listed.any (fun a => x.addr == some a) = true →
    x.addr ≠ none ∧ x.kept = [] → exec (.retry t r b fr) s = .next
    (s.blkTo t r b { x with sent := el, kept := el, wdogStop := false })) ∧
  (∀ (s : State) (t : TileId) (r : RingId) (b : BlockId) (fr : RingFrame),
    let x : Blk := { s.ctl.blk t r b with aborts := false }
    t.val < s.ctl.tiles → x.ship = false → Whole fr ∧ fr.names 3 0 = true → fr.listed.any (fun a => x.addr == some a) = true →
    x.addr ≠ none ∧ x.kept ≠ [] → exec (.retry t r b fr) s = .next (s.blkTo t r b { x with sent := x.kept })) ∧
  (∀ (s : State) (t : TileId) (r : RingId) (b : BlockId) (fr : RingFrame),
    let x : Blk := { s.ctl.blk t r b with aborts := false }
    t.val < s.ctl.tiles → x.ship = false → Whole fr ∧ fr.names 3 0 = true →
    fr.listed.any (fun a => x.addr == some a) = false → exec (.retry t r b fr) s = .next (s.blkTo t r b x)) ∧
  (∀ (s : State) (t : TileId) (r : RingId) (b : BlockId) (fr : RingFrame) (upstream retime : BitVec 16),
    let x : Blk := { s.ctl.blk t r b with aborts := false }
    let n := reqArg fr.req 0 2
    let a := reqArg fr.req 2 4 + upstream.toNat
    let flags := reqArg fr.req 6 1
    let count := (if bit flags 1 then n + 65535 else n + 1) % 65536
    let acc := (a + retime.toNat) % 2 ^ 32
    let y : Blk :=
        { x with arrival := a, assignOut := (count, acc, crc16 (fr.header ++ beBytes 2 count ++ beBytes 4 acc ++ leBytes 1 flags)) }
    t.val < s.ctl.tiles → x.ship = false → Whole fr ∧ fr.names 4 0 = true → fr.req.length = 7 → bit flags 0 = true →
    exec (.assign t r b fr.toRingHeader fr.req fr.crc fr.abort upstream retime) s = .next (s.blkTo t r b y)) ∧
  (∀ (s : State) (t : TileId) (r : RingId) (b : BlockId) (fr : RingFrame) (upstream retime : BitVec 16),
    let x : Blk := { s.ctl.blk t r b with aborts := false }
    let n := reqArg fr.req 0 2
    let a := reqArg fr.req 2 4 + upstream.toNat
    let flags := reqArg fr.req 6 1
    let count := (if bit flags 1 then n + 65535 else n + 1) % 65536
    let acc := (a + retime.toNat) % 2 ^ 32
    let y : Blk :=
        { x with arrival := a, assignOut := (count, acc, crc16 (fr.header ++ beBytes 2 count ++ beBytes 4 acc ++ leBytes 1 flags)) }
    t.val < s.ctl.tiles → x.ship = false → Whole fr ∧ fr.names 4 0 = true → fr.req.length = 7 → bit flags 0 = false →
    exec (.assign t r b fr.toRingHeader fr.req fr.crc fr.abort upstream retime) s = .next
    (s.blkTo t r b { y with addr := some n, counter := 0, pending := none, cmd := {}, conduct := 0, fromTail := false, segEnd := false })) ∧
  (∀ (s : State) (t : TileId) (r : RingId) (b : BlockId),
    let x := s.ctl.blk t r b
    t.val < s.ctl.tiles → x.challenge ≠ [] → exec (.blockAuthReady t r b) s = .next
    (s.blkTo t r b { x with authReady := true })) ∧
  (∀ (s : State) (t : TileId) (r : RingId) (b : BlockId),
    let x := s.ctl.blk t r b
    t.val < s.ctl.tiles → x.ship = true → exec (.shipStateExit t r b) s = .next
    (s.blkTo t r b { x with ship := false, addr := none })) ∧
  (∀ (s : State) (t : TileId) (r : RingId) (b : BlockId),
    let x := s.ctl.blk t r b
    let d := x.pending.getD x.cmd
    t.val < s.ctl.tiles → exec (.bleedCycleStart t r b) s = .next
    (s.blkTo t r b { x with pending := none, cmd := d, quiet := false, conduct := if x.ship then 0 else d.cells x.frame })) ∧
  (∀ (s : State) (t : TileId) (r : RingId) (b : BlockId),
    let x := s.ctl.blk t r b
    t.val < s.ctl.tiles → exec (.bleedOnTimeEnd t r b) s = .next (s.blkTo t r b { x with conduct := 0 })) ∧
  (∀ (s : State) (t : TileId) (r : RingId) (b : BlockId),
    let x := s.ctl.blk t r b
    t.val < s.ctl.tiles → (x.pending.getD x.cmd).map ≠ 0 → exec (.bleedWatchdogExpiry t r b) s = .next
    (s.blkTo t r b { x with pending := none, cmd := {}, conduct := 0, wdogStop := true })) ∧
  (∀ (s : State) (t : TileId) (r : RingId) (b : BlockId),
    let x := s.ctl.blk t r b
    t.val < s.ctl.tiles → (x.pending.getD x.cmd).map = 0 → exec (.bleedWatchdogExpiry t r b) s = .next (s.blkTo t r b x)) ∧
  (∀ (s : State) (t : TileId) (r : RingId) (b : BlockId) (which : Fin 3),
    let x := s.ctl.blk t r b
    t.val < s.ctl.tiles → exec (.blockComparatorTrip t r b which) s = .next (s.blkTo t r b (if which.val = 0 then
    { x with cmpOv := true } else if which.val = 1 then { x with cmpUv := true } else { x with cmpOt := true }))) ∧
  (∀ (s : State) (t : TileId) (r : RingId) (b : BlockId) (which : BitVec 3),
    let x := s.ctl.blk t r b
    t.val < s.ctl.tiles → exec (.blockComparatorClear t r ⟨b, which⟩) s = .next
    (s.blkTo t r b { x with cmpOv := x.cmpOv && !bit which.toNat 0, cmpUv := x.cmpUv && !bit which.toNat 1, cmpOt := x.cmpOt && !bit which.toNat 2 })) ∧
  (∀ (s : State) (t : TileId) (r : RingId) (b : BlockId) (tone : Bool),
    let x := s.ctl.blk t r b
    let sends := x.segEnd && tone && !x.ship
    let way :=
        (s.ctl.beaconWay t r b).foldl (fun (z : Ctl × Bool) k => (z.1.setBlk t r k { z.1.blk t r k with beacon := z.2 && (z.1.blk t r k).passesTone }, z.2
        && (z.1.blk t r k).passesTone))
    t.val < s.ctl.tiles → exec (.beaconSend t r b tone) s = .next
    (s.ctlTo (way (s.ctl.setBlk t r b { x with beacon := sends }, sends)).1)) ∧
  (∀ (s : State) (t : TileId) (r : RingId) (b : BlockId),
    let u := fun n : Nat => Config.freeValue (s.ctl.fresh + n) % 65536
    t.val < s.ctl.tiles → exec (.blockPowerCycle t r b) s = .next
    (State.blkTo (s.ctlTo { s.ctl with fresh := s.ctl.fresh + 3 }) t r b { ov := u 0, uv := u 1, ot := u 2, resets := ((s.ctl.blk t r b).resets + 1) % 65536 }))

/-- R246, R249, R250, R255 to R262, R265: what a cycle instant and the events of bank dispatch change. The per-cycle order of
the model is that of R246 and R257; DISPATCH_CYCLE also applies the age expiry itself. -/
def Obligations.BankDispatchEventsComplete : Prop :=
  (∀ (s : State) ,
    let c1 : Ctl := { s.ctl with bank := { s.ctl.bank with tick := (s.ctl.bank.tick + 1) % 2 ^ 32 } }
    let held := (List.range c1.tiles).filter (fun t => c1.systemHeld t && !c1.bank.late.contains t)
    let led := match c1.coordinator with | some k => !c1.systemHeld k | none => false
    let led1 : Ctl := { c1 with bank := { c1.bank with late := held ++ c1.bank.late } }
    let c2 := if led = true then led1.coordinated s.mem else forN c1.tiles Ctl.loneCycle c1
    let c3 := forN c2.tiles (fun t (c : Ctl) => if c.live t then c.telemTrigger t 2 else c) c2
    exec (.dispatchCycle) s = .next (s.ctlTo { c3 with bank := { c3.bank with cyc := c3.bank.cyc + 1, late := [] } })) ∧
  (∀ (s : State) , s.ctl.coordinator.isSome = true → s.ctl.bank.mode = none → exec (.setpointAgeExpiry) s = .next
    (s.ctlTo s.ctl.ageExpire)) ∧
  (∀ (s : State) (t : TileId), t.val < s.ctl.tiles → s.ctl.bank.late.contains t.val = false →
    exec (.allocationExchangeTimeout t) s = .next
    (s.ctlTo { s.ctl with bank := { s.ctl.bank with late := t.val :: s.ctl.bank.late } })) ∧
  (∀ (s : State) (t : TileId),
    let x := tabGet ({} : Lone) s.ctl.lone t
    let c1 : Ctl := { s.ctl with lone := tabSet s.ctl.lone t { x with ramping := true } }
    t.val < s.ctl.tiles → s.ctl.coordinator = none → x.ramping = false ∧ x.cycles ≠ 0 →
    s.ctl.get t DISP_CFG_AGE_LIMIT * 100 ≤ x.cycles * 10 → exec (.coordinationRamp t) s = .next
    (s.ctlTo ((c1.sections t).foldl (fun (c : Ctl) h => forN 4 (fun i c => Ctl.endPert c h i true) ((c.restsOf h).foldl (fun (c : Ctl) e => c.endRest h (e.1 / 32) (e.1 % 32)) c)) c1))) ∧
  (∀ (s : State) (t : TileId), t.val < s.ctl.tiles → s.ctl.flag t DISP_CTRL_STARTED = true → exec (.cyclicTxRelease t) s = .next
    (s.ctlTo (s.ctl.release t))) ∧
  (∀ (s : State) (t : TileId), t.val < s.ctl.tiles → s.ctl.flag t DISP_CTRL_STARTED = false →
    exec (.cyclicTxRelease t) s = .next (s.ctlTo s.ctl)) ∧
  (∀ (s : State) (t : TileId) (k : Fin 32),
    let x := tabGet ({} : Slot) s.ctl.slots (t.val * 32 + k.val)
    let c1 := Ctl.putStopped { s.ctl with slots := tabSet s.ctl.slots (t.val * 32 + k.val) { x with stopped := true } } t
    t.val < s.ctl.tiles → x.stopped = false → s.ctl.get t DISP_CFG_REPEAT_LIMIT * 50 ≤ x.missed * 10 →
    exec (.repeatLimitStop t k) s = .next (s.ctlTo (c1.event (s.ctl.recorderOf t) 0x08 0x4009))) ∧
  (∀ (s : State) (t : TileId) (r : RingId) (str : StringId) (n at_ : Nat), t.val < s.ctl.tiles →
    (s.ctl.restsOf t).find? (fun e => e.1 == r.val * 32 + str.val) = some (n, at_) →
    ((match (s.ctl.sx t r str).rest with | some ms => decide (s.ctl.get t DISP_REST_DURATION * 1000 ≤ ms) | none => decide (at_ + 30000 ≤ s.ctl.optime)) || !bit (s.ctl.get t EST_REST_REQ_STRING r) str) = true →
    exec (.restEnd t r str) s = .next (s.ctlTo (s.ctl.endRest t r str))) ∧
  (∀ (s : State) (t : TileId) (i : Fin 4), t.val < s.ctl.tiles → (s.ctl.pert t i).begun = true →
    2000000 ≤ s.ctl.pertCycles (s.ctl.pert t i) * s.ctl.get t DISP_PERT_FREQ i → exec (.sessionEnd t i) s = .next
    (s.ctlTo (s.ctl.endPert t i false))) ∧
  (∀ (s : State) (t : TileId) (o : Origin) (r : RingId),
    let c1 :=
        s.ctl.setRng t r { s.ctl.rng t r with mapCommit := some ((List.range 32).map (fun i => s.ctl.rawWord 3 t (0x2000 + r.val * 0x80 + i * 4))) }
    let has := fun q : Nat => if q = r.val then anyN 8 (fun i => s.ctl.flag t RING_SMAP_PEND_VALID r (24 + i))
        else s.ctl.has24 t q
    let n := fun (f : Nat → Bool) (p : Nat) => portFrames (s.ctl.contEntry t) f p
    accessorFitted s.ctl o = true → s.ctl.reachedBy o t = true → s.ctl.mayConfig o = true → s.ctl.mapBad s.mem t r = false →
    anyN 8 (fun p => decide (8 < n has p) && decide (n (fun q => s.ctl.has24 t q) p < n has p)) = false →
    s.ctl.rstate t r ≠ rgEnum → exec (.ringSmapCommit t o r) s = .next (s.accessed o 0x03 c1))

/-- R248, R251, R252, R264: the commands bank.setpoint, disp.mode, disp.schedule and disp.perturb, delivered, of a permitted
role and inside their ranges. A new set-point and a new mode take effect at the next cycle instant. -/
def Obligations.BankDispatchCommandsComplete : Prop :=
  (∀ (s : State) (d : Datagram) (q : Req) (c' : Ctl),
    let v := q.argInt 4 4
    Delivered s.ctl 0x4001 d q c' → opRoles.contains q.role = true → q.args.length = 8 → -8000000 ≤ v ∧ v ≤ 8000000 →
    c'.dispModeNow = dmFollow → c'.spNewer (q.arg 0 4) = true → exec (.bankSetpoint d) s = .next
    (s.repliedOk d q (Ctl.put { c' with bank := { c'.bank with host := some v, seq := some (q.arg 0 4) } } 0 DISP_SP_AGE_MS 0))) ∧
  (∀ (s : State) (d : Datagram) (q : Req) (c' : Ctl),
    let mode := q.arg 0 1
    Delivered s.ctl 0x4002 d q c' → opRoles.contains q.role = true → q.args.length = 1 → mode ≠ dmFollow ∧ mode ≤ 3 →
    (mode = dmLocal → c'.schedule ≠ []) → exec (.dispMode d) s = .next
    (s.repliedOk d q (Ctl.put { c' with bank := { c'.bank with mode := some (mode, 0) } } 0 DISP_CTRL_STARTED 1))) ∧
  (∀ (s : State) (d : Datagram) (q : Req) (c' : Ctl),
    let v := q.argInt 5 4
    let c1 := Ctl.put { c' with bank := { c'.bank with host := some v, seq := some (q.arg 1 4) } } 0 DISP_SP_AGE_MS 0
    Delivered s.ctl 0x4002 d q c' → opRoles.contains q.role = true → q.args.length = 9 → q.arg 0 1 = dmFollow → -8000000 ≤ v ∧
    v ≤ 8000000 → c'.spNewer (q.arg 1 4) = true → exec (.dispMode d) s = .next
    (s.repliedOk d q (Ctl.put { c1 with bank := { c1.bank with mode := some (dmFollow, 0) } } 0 DISP_CTRL_STARTED 1))) ∧
  (∀ (s : State) (d : Datagram) (q : Req) (c' : Ctl) (b : List Byte) (c1 : Ctl), Delivered s.ctl 0x4003 d q c' →
    engRoles.contains q.role = true → q.args.length = 1 → c'.takeBulk q (q.arg 0 1) = (eOk, b, c1) → schedCode b = eOk →
    exec (.dispSchedule d) s = .next (s.repliedOk d q { c1 with schedule := schedEntries b })) ∧
  (∀ (s : State) (d : Datagram) (q : Req) (c' : Ctl), Delivered s.ctl 0x4004 d q c' → engRoles.contains q.role = true →
    q.args.length = 2 → c'.running (q.arg 0 1) = true → q.arg 1 1 ≤ 3 ∧
    c'.flag (q.arg 0 1) DISP_PERT_ACTIVE (q.arg 1 1) = true → exec (.dispPerturbStop d) s = .next
    (s.repliedOk d q (c'.endPert (q.arg 0 1) (q.arg 1 1) true))) ∧
  (∀ (s : State) (d : Datagram) (q : Req) (c' : Ctl) (i : Nat),
    let t := q.arg 0 1
    let r := q.arg 1 1
    let a := q.arg 2 1
    let b := q.arg 3 1
    let f := q.arg 4 2
    let n := q.arg 6 2
    let ratio := fun x : Nat => rdiv (c'.powerOf t r x).1 (c'.powerOf t r x).2
    let rated := fun x : Nat => c'.get t DISP_STR_RATED_I_RATED r x
    let busy := fun x : Nat => bit (c'.get t DISP_REST_GNT_STRING r) x || (c'.pertOn t r x).isSome
    let c1 : Ctl := { c' with perts := tabErase c'.perts (t * 4 + i) }
    let c2 := c1.put t DISP_PERT_ACTIVE 1 i |>.put t DISP_PERT_RING r i |>.put t DISP_PERT_STR_A a i
        |>.put t DISP_PERT_STR_B b i
    let c3 := c2.put t DISP_PERT_FREQ f i |>.put t DISP_PERT_AMPL n i
    Delivered s.ctl 0x4004 d q c' → engRoles.contains q.role = true → q.args.length = 8 → c'.ringAbsent t r = false → a < 32 ∧
    b < 32 ∧ c'.flag t RING_SMAP_ACT_VALID r a = true ∧ c'.flag t RING_SMAP_ACT_VALID r b = true → 50 ≤ f ∧ f ≤ 1000 ∧
    4 * f * c'.periodMs ≤ 1000000 → rated a ≠ 0 ∧ rated b ≠ 0 ∧ 50 * n ≤ rated a ∧
    50 * ((n : Rat) * rdiv (ratio a) (ratio b)) ≤ (rated b : Rat) → c'.dispModeNow ≠ dmRampdown ∧ c'.takesPart t r a = true ∧
    c'.takesPart t r b = true → a ≠ b ∧ busy a = false ∧ busy b = false →
    (List.range 4).find? (fun i => !c'.flag t DISP_PERT_ACTIVE i) = some i → exec (.dispPerturb d) s = .next
    (s.replied d q { mem := s.mem, ctl := c3, result := leBytes 1 i }))

/-- R107, R268, R270 to R273, R276, R277, R280, R284, R285: what the instructions, the register writes and the events of the
loop engine change under the conditions the rules set. -/
def Obligations.LoopOperationsComplete : Prop :=
  (∀ (s : State) (t : TileId) (k : CoreId) (d a : Fin 32) (i : Nat),
    let w := ((s.ctl.task t i).reg a).toNat
    let x := s.ctl.shadowPut t (w % 64) (bitsOf w 8 6) ((s.ctl.task t i).reg (a.val + 1)).toNat
    Executes s.ctl t k i → a.val % 2 = 0 → bitsOf w 14 18 = 0 ∧ bitsOf w 6 2 = 0 → exec (.lshw t k d a) s = .next
    (s.ctlTo (x.1.retireCode t i d x.2))) ∧
  (∀ (s : State) (t : TileId) (k : CoreId) (d a : Fin 32) (i : Nat),
    let w := ((s.ctl.task t i).reg a).toNat
    Executes s.ctl t k i → a.val % 2 = 0 → ¬ (bitsOf w 14 18 = 0 ∧ bitsOf w 6 2 = 0) → exec (.lshw t k d a) s = .next
    (s.ctlTo (s.ctl.retireCode t i d eFormat))) ∧
  (∀ (s : State) (t : TileId) (k : CoreId) (d a : Fin 32) (i : Nat), Executes s.ctl t k i → exec (.lcommit t k d a) s = .next
    (s.ctlTo ((s.ctl.put t LOOP_CH_COMMIT_PENDING 1 (((s.ctl.task t i).reg a).toNat % 64)).retireCode t i d eOk))) ∧
  (∀ (s : State) (t : TileId) (ch : ChanId), t.val < s.ctl.tiles → s.ctl.loopMode t ch ≠ lmOff →
    exec (.loopSampleBoundary t ch) s = .next (s.allTo (boundary (s.mem, s.ctl) t ch false))) ∧
  (∀ (s : State) (t : TileId) (ch : ChanId), t.val < s.ctl.tiles → s.ctl.loopMode t ch = lmHold →
    s.ctl.flag t LOOP_CH_FB_FAIL ch = true → exec (.loopHoldTimeExpiry t ch) s = .next
    (s.allTo (boundary (s.mem, s.ctl) t ch true))) ∧
  (∀ (s : State) (t : TileId) (ch : ChanId), t.val < s.ctl.tiles → s.ctl.loopMode t ch = lmOff →
    s.ctl.flag t LOOP_CH_COMMIT_PENDING ch = true → exec (.loopOffChannelTransfer t ch) s = .next
    (s.allTo (boundary (s.mem, s.ctl) t ch false))) ∧
  (∀ (s : State) (t : TileId) (o : Origin) (w : Word), accessorFitted s.ctl o = true → s.ctl.reachedBy o t = true →
    s.ctl.mayLoop o = true → exec (.loopCommitWrite t o w) s = .next
    (s.accessed o 0x09 (s.ctl.put t LOOP_CH_COMMIT_PENDING 1 (w.toNat % 64)))) ∧
  (∀ (s : State) (t : TileId) (o : Origin) (ch : ChanId) (p : Fin 64) (w : Word), accessorFitted s.ctl o = true →
    s.ctl.reachedBy o t = true → s.ctl.mayLoop o = true → paramCode p w.toNat = eOk → (s.ctl.put t (LOOP_SHADOW p) w.toNat ch
    |>.chan t ch).moving = false → exec (.loopShadowStore t o ch p w) s = .next
    (s.accessed o 0x09 (s.ctl.put t (LOOP_SHADOW p) w.toNat ch))) ∧
  (∀ (s : State) (t : TileId) (o : Origin) (ch : ChanId) (p : Fin 64) (w : Word),
    let c1 := s.ctl.put t (LOOP_SHADOW p) w.toNat ch
    accessorFitted s.ctl o = true → s.ctl.reachedBy o t = true → s.ctl.mayLoop o = true → paramCode p w.toNat = eOk →
    (c1.chan t ch).moving = true → exec (.loopShadowStore t o ch p w) s = .next (s.accessed o 0x09 (if c1.free.1 % 2 = 1 then
    c1.free.2.put t LOOP_CH_COMMIT_PENDING 1 ch else c1.free.2))) ∧
  (∀ (s : State) (t : TileId) (o : Origin) (i : Fin 256) (w : Word), accessorFitted s.ctl o = true →
    s.ctl.reachedBy o t = true → s.ctl.mayLoop o = true → s.ctl.get t LOOP_IN_MAP_SRC i = 0 →
    exec (.loopInputSoftWrite t o i w) s = .next (s.accessed o 0x09 (s.ctl.putInput t i (toSigned 32 w.toNat)))) ∧
  (∀ (s : State) (t : TileId) (o : Origin) (tab : Fin 32) (j : Fin 33) (gain : Bool) (w : Word), accessorFitted s.ctl o = true →
    s.ctl.reachedBy o t = true → s.ctl.mayConfig o = true → s.ctl.tableUsed t tab = false →
    exec (.gainTableWrite t o tab j gain w) s = .next (s.accessed o 0x09 (s.ctl.put t (if gain then LOOP_GAIN_G
    else LOOP_GAIN_E) w.toNat tab j))) ∧
  (∀ (s : State) (t : TileId) (f : Fin 16), t.val < s.ctl.tiles → s.ctl.flag t LOOP_OFRAME_EN f = true →
    anyN 64 (fun k => s.ctl.loopMode t k != lmOff && bit (s.ctl.par t k 0x15) 15
    && bitsOf (s.ctl.par t k 0x15) 8 4 == f.val) = true → exec (.loopOutputFrameSend t f) s = .next
    (s.ctlTo (s.ctl.canOffer t (s.ctl.get t LOOP_OFRAME_PORT f) (s.ctl.frameBuffer t f) (hwFrame (s.ctl.flag t LOOP_OFRAME_EXT f) (s.ctl.flag t LOOP_OFRAME_FD f) (s.ctl.get t LOOP_OFRAME_CAN_ID f) (s.ctl.frameBytes t f))))) ∧
  (∀ (s : State) (t : TileId) (o : Origin) (u : Fin 8),
    let w := s.ctl.traceWord t u + 2 ^ 31
    let c1 := s.ctl.put t LOOP_TRACE_COND (bitsOf w 24 3) u |>.put t LOOP_TRACE_TRIG_NODE (bitsOf w 22 2) u
    let c2 := c1.put t LOOP_TRACE_TIMEBASE (bitsOf w 16 6) u |>.put t LOOP_TRACE_PRE (w % 4096) u
    let c3 := (c2.setTrace t u {}).put t LOOP_TRACE_STATE 1 u |>.put t LOOP_TRACE_COUNT 0 u
    accessorFitted s.ctl o = true → s.ctl.reachedBy o t = true → s.ctl.mayConfig o = true →
    s.ctl.get t LOOP_TRACE_STATE u ≠ 1 ∧ s.ctl.get t LOOP_TRACE_STATE u ≠ 2 → bit w 30 = false ∧ bit w 29 = false ∧
    bit w 31 = true → bitsOf w 24 3 ≤ 4 → exec (.traceArm t o u) s = .next (s.accessed o 0x09 (c3.put t LOOP_TRACE_FIRST 0 u
    |>.put t LOOP_TRACE_TRIG_INDEX 0 u))) ∧
  (∀ (s : State) (t : TileId) (o : Origin) (u : Fin 8),
    let w := s.ctl.traceWord t u + 2 ^ 30
    let c1 := s.ctl.put t LOOP_TRACE_COND (bitsOf w 24 3) u |>.put t LOOP_TRACE_TRIG_NODE (bitsOf w 22 2) u
    let c2 := c1.put t LOOP_TRACE_TIMEBASE (bitsOf w 16 6) u |>.put t LOOP_TRACE_PRE (w % 4096) u
    let busy := s.ctl.get t LOOP_TRACE_STATE u == 1 || s.ctl.get t LOOP_TRACE_STATE u == 2
    accessorFitted s.ctl o = true → s.ctl.reachedBy o t = true → s.ctl.mayConfig o = true → bitsOf w 24 3 ≤ 4 →
    bit w 30 = true → busy = false ∨ (s.ctl.traceSame t u w = true ∧ bit w 31 = false ∧ bit w 29 = false) →
    exec (.traceStop t o u) s = .next (s.accessed o 0x09 (c2.put t LOOP_TRACE_STATE 0 u))) ∧
  (∀ (s : State) (t : TileId) (o : Origin) (u : Fin 8),
    let w := s.ctl.traceWord t u + 2 ^ 29
    let c1 := s.ctl.put t LOOP_TRACE_COND (bitsOf w 24 3) u |>.put t LOOP_TRACE_TRIG_NODE (bitsOf w 22 2) u
    let c2 := c1.put t LOOP_TRACE_TIMEBASE (bitsOf w 16 6) u |>.put t LOOP_TRACE_PRE (w % 4096) u
    accessorFitted s.ctl o = true → s.ctl.reachedBy o t = true → s.ctl.mayConfig o = true →
    s.ctl.get t LOOP_TRACE_STATE u = 1 → bit w 30 = false ∧ bit w 29 = true ∧ bit w 31 = false → bitsOf w 24 3 ≤ 4 ∧
    s.ctl.traceSame t u w = true → exec (.traceForce t o u) s = .next (s.accessed o 0x09 (c2.traceTrigger t u))) ∧
  (∀ (s : State) (t : TileId) (u : Fin 8), t.val < s.ctl.tiles → s.ctl.get t LOOP_TRACE_STATE u = 2 →
    s.ctl.traceOpen t u = false → exec (.traceDone t u) s = .next (s.ctlTo ((s.ctl.put t LOOP_TRACE_STATE 3 u).irq t 0x29))) ∧
  (∀ (s : State) (d : Datagram) (q : Req) (c' : Ctl),
    let t := q.arg 0 1
    let ch := q.arg 1 1
    let c1 := (c'.put t (LOOP_SHADOW 0) (q.arg 2 1) ch).loopCommit t ch
    Delivered s.ctl 0x5001 d q c' → engRoles.contains q.role = true → q.args.length = 3 → c'.running t = true → ch ≤ 63 ∧
    q.arg 2 1 ≤ 6 → exec (.loopMode d) s = .next
    (s.replied d q { mem := s.mem, later := true, ctl := { c1 with loopWait := tabSet c1.loopWait (t * 64 + ch) (tabGet [] c1.loopWait (t * 64 + ch) ++ [(q.id, q.seq)]) } }))

/-- R108, R435 to R437, R439: under conditions on the state and the operands alone each of the six commands answers the next
state of its own effect. The oldest presented record is accepted where its bucket holds a token, which it takes, and at
severity 5 without one: it takes SEQ, is written to its slot of the DRAM ring and joins the queue of the tail; any other is
withheld and counted. The oldest record of the tail's queue is written to its slot and EVT_TAIL_SEQ follows; with nothing
presented or queued nothing changes. A write of EVT_RPTR by System re-arms the fill mark; one of a class or of a word of a
code-table entry by an accessor that may configure sets its fields and fills the bucket to BURST. EMIT with a right argument
presents its record and returns SUPPRESSED with it, and with 16 records of its core waiting the record is withheld. Which of
two records of one command comes first is the model's reading (assumption 71). -/
def Obligations.RecorderOperationsComplete : Prop :=
  (∀ (s : State) (t : TileId) (x : Presented) (rest : List Presented),
    let c1 : Ctl := { s.ctl with presented := tabSet s.ctl.presented t rest }
    let b := c1.bucketOf t x.code
    let q := c1.get t EVT_SEQ_SEQ
    let bytes := recordBytes x q (tabGet 0 c1.withheld (t * 65536 + x.code))
    let c2 := c1.setTokens t b (c1.tokensOf t b - 1000)
    let c3 :=
        (Ctl.incMod { c2 with withheld := tabErase c2.withheld (t * 65536 + x.code) } t EVT_SEQ_SEQ).feedSubs t x.code x.severity bytes
    t.val < s.ctl.tiles → tabGet [] s.ctl.presented t = x :: rest → 1000 ≤ c1.tokensOf t b →
    exec (.eventRecordAccept t) s = .next
    (s.allTo (recordSteps 3 s.mem (ringAddr t q) bytes, (c3.queueTail t q bytes).fillMark t))) ∧
  (∀ (s : State) (t : TileId) (x : Presented) (rest : List Presented),
    let c1 : Ctl := { s.ctl with presented := tabSet s.ctl.presented t rest }
    let q := c1.get t EVT_SEQ_SEQ
    let bytes := recordBytes x q (tabGet 0 c1.withheld (t * 65536 + x.code))
    let c3 :=
        (Ctl.incMod { c1 with withheld := tabErase c1.withheld (t * 65536 + x.code) } t EVT_SEQ_SEQ).feedSubs t x.code x.severity bytes
    t.val < s.ctl.tiles → tabGet [] s.ctl.presented t = x :: rest → c1.tokensOf t (c1.bucketOf t x.code) < 1000 →
    x.severity = 5 → exec (.eventRecordAccept t) s = .next
    (s.allTo (recordSteps 3 s.mem (ringAddr t q) bytes, (c3.queueTail t q bytes).fillMark t))) ∧
  (∀ (s : State) (t : TileId) (x : Presented) (rest : List Presented),
    let c1 : Ctl := { s.ctl with presented := tabSet s.ctl.presented t rest }
    t.val < s.ctl.tiles → tabGet [] s.ctl.presented t = x :: rest → c1.tokensOf t (c1.bucketOf t x.code) < 1000 →
    x.severity ≠ 5 → exec (.eventRecordAccept t) s = .next (s.ctlTo (c1.withhold t x.code))) ∧
  (∀ (s : State) (t : TileId), t.val < s.ctl.tiles → tabGet [] s.ctl.presented t = [] → exec (.eventRecordAccept t) s = .next
    (s)) ∧
  (∀ (s : State) (t : TileId), t.val < s.ctl.tiles → tabGet [] s.ctl.tailQueue t = [] → exec (.eventTailWriteDone t) s = .next
    (s)) ∧
  (∀ (s : State) (t : TileId) (q : Nat) (b : List Byte) (rest : List (Nat × List Byte)), t.val < s.ctl.tiles →
    tabGet [] s.ctl.tailQueue t = (q, b) :: rest → exec (.eventTailWriteDone t) s = .next
    (s.allTo (recordSteps 3 s.mem (tailAddr t q) b, Ctl.put { s.ctl with tailQueue := tabSet s.ctl.tailQueue t rest } t EVT_TAIL_SEQ_SEQ q))) ∧
  (∀ (s : State) (t : TileId) (o : Origin) (w : Word), accessorFitted s.ctl o = true → s.ctl.reachedBy o t = true →
    s.ctl.isSystem o = true → exec (.evtRptrWrite t o w) s = .next
    (s.accessed o 0x0D (Ctl.fillMark (Ctl.put { s.ctl with marked := s.ctl.marked.filter (fun x => x != t.val) } t EVT_RPTR_SEQ w.toNat) t))) ∧
  (∀ (s : State) (t : TileId) (o : Origin) (k : Fin 16) (w : Word), accessorFitted s.ctl o = true → s.ctl.reachedBy o t = true →
    s.ctl.mayConfig o = true → exec (.evtClassWrite t o k w) s = .next
    (s.accessed o 0x0D (((s.ctl.put t EVT_CLASS_RATE (bitsOf w.toNat 16 16) k).put t EVT_CLASS_BURST (w.toNat % 65536) k).setTokens t k (w.toNat % 65536 * 1000)))) ∧
  (∀ (s : State) (t : TileId) (o : Origin) (e : Fin 4096) (hi : Fin 2) (w : Word), accessorFitted s.ctl o = true →
    s.ctl.reachedBy o t = true → s.ctl.mayConfig o = true → hi = 0 → (bit w.toNat 31
    && ((s.ctl.put t EVT_CODE_VALID 0 e).codeEntry t (w.toNat % 65536)).isSome) = false →
    exec (.codeTableWrite t o e hi w) s = .next
    (s.accessed o 0x0D (((s.ctl.put t EVT_CODE_VALID (bitsOf w.toNat 31 1) e).put t EVT_CODE_CODE (w.toNat % 65536) e).setTokens t (4096 + e.val) (s.ctl.get t EVT_CODE_BURST e * 1000)))) ∧
  (∀ (s : State) (t : TileId) (o : Origin) (e : Fin 4096) (hi : Fin 2) (w : Word), accessorFitted s.ctl o = true →
    s.ctl.reachedBy o t = true → s.ctl.mayConfig o = true → hi = 1 → exec (.codeTableWrite t o e hi w) s = .next
    (s.accessed o 0x0D (((s.ctl.put t EVT_CODE_RATE (bitsOf w.toNat 16 16) e).put t EVT_CODE_BURST (w.toNat % 65536) e).setTokens t (4096 + e.val) (w.toNat % 65536 * 1000)))) ∧
  (∀ (s : State) (t : TileId) (k : CoreId) (d a : Fin 32) (i : Nat),
    let x := ((s.ctl.task t i).reg a).toNat
    let b := memBytes s.mem (localAddr t k x) 32
    let y := presentNow s.mem s.ctl t (s.ctl.emitRecord t k b)
    Executes s.ctl t k i → localOk x 32 8 = true → s.ctl.emitCode t k b = eOk →
    ((tabGet [] s.ctl.presented t).filter (fun z => z.source == 0x40 + k.val)).length < 16 → exec (.emit t k d a) s = .next
    (s.allTo (y.1, y.2.1.retire t i d (if y.2.2 then 0 else 0x100)))) ∧
  (∀ (s : State) (t : TileId) (k : CoreId) (d a : Fin 32) (i : Nat),
    let x := ((s.ctl.task t i).reg a).toNat
    let b := memBytes s.mem (localAddr t k x) 32
    Executes s.ctl t k i → localOk x 32 8 = true → s.ctl.emitCode t k b = eOk →
    16 ≤ ((tabGet [] s.ctl.presented t).filter (fun z => z.source == 0x40 + k.val)).length → exec (.emit t k d a) s = .next
    (s.ctlTo ((s.ctl.withhold t (leNat (b.take 2))).retire t i d 0x100)))

/-- R109, R414, R421 to R423, R425, R426, R428: what the instructions, register writes and events of the DMA unit change. A
job completes once the engine has served its bursts, by priority and in turn; how many bursts a bus error or a disable finds
served is a free value. -/
def Obligations.DmaOperationsComplete : Prop :=
  (∀ (s : State) (t : TileId) (ch : Fin 16) (j : Job) (rest : List Job),
    let x0 := dmaLand t (s.mem, s.ctl)
    let x := dmaServe t ch (s.ctl.dmaWork t) x0
    let y := jobEnds t j (j.parts j.rowCount 0) x.2
    t.val < s.ctl.tiles → (s.ctl.chn t ch).queue = j :: rest → s.ctl.get t DMA_CH_STATE ch = dmRun →
    exec (.dmaJobComplete t ch) s = .next (s.allTo (lastOnWay t j x0.1 (x.1, (y.1.jobEnd t ch y.2 true).dmaNext t ch)))) ∧
  (∀ (s : State) (t : TileId) (addr : BitVec 40) (write : Bool),
    let a := addr.toNat
    let x := dmaSome t (dmaLand t (s.mem, s.ctl))
    let c1 := forN 16 (fun ch (c : Ctl) => if c.get t DMA_CH_STATE ch = dmDisabled then c else if ((c.chn t ch).under
        && ((c.chn t ch).queue.head?).any Job.irq) = true then (c.dmaState t ch dmHalted).irq t (8 + ch)
        else c.dmaState t ch dmHalted) x.2
    let c2 := c1.inc t DMA_COUNT_HALTS
    let c3 := c2.put t DMA_ERR_INFO_VALID 1 |>.put t DMA_ERR_INFO_WRITE (b2n write) |>.put t DMA_ERR_INFO_TILE (a / 2 ^ 36)
    let c4 := if c2.flag t DMA_ERR_INFO_VALID = true then c2 else c3.put t DMA_ERR_INFO_OFFSET_HI (bitsOf a 32 4)
        |>.put t DMA_ERR_ADDR_OFFSET_LO a
    let c5 := c4.event t 0x0B 0xA001 0 (leBytes 8 a ++ leBytes 1 (b2n write))
    let n := c5.optime :: (tabGet [] c5.dmaHalts t).filter (fun n => decide (c5.optime < n + c5.periodMs))
    let c6 : Ctl := { c5 with dmaHalts := tabSet c5.dmaHalts t n }
    t.val < s.ctl.tiles → s.ctl.live t = true → exec (.dmaBusError t addr write) s = .next (s.allTo (x.1, if 3 ≤ n.length then
    c6.tileFault t TILE_RESET_CAUSE_FAULT .fault else c6))) ∧
  (∀ (s : State) (t : TileId), t.val < s.ctl.tiles → s.ctl.recordsHalted t = true → exec (.dmaAutoResume t) s = .next
    (s.allTo ((recordsResume t 1 (recordsResume t 0 (s.mem, s.ctl))).on (fun c => (c.inc t DMA_COUNT_AUTO).event t 0x0B 0xA002)))) ∧
  (∀ (s : State) (t : TileId) (o : Origin),
    let halted := ((List.range 16).drop 2).filter (fun ch => s.ctl.get t DMA_CH_STATE ch == dmHalted)
    let cut := halted.filter (fun ch => (s.ctl.chn t ch).under)
    let c0 := cut.foldl (fun (c : Ctl) ch => (c.jobCut t ch).jobEnd t ch eIntegrity true) s.ctl
    let c1 :=
        (halted.foldl (fun (c : Ctl) ch => c.dmaNext t ch) c0).event t 0x0B 0xA003 0 (leBytes 2 (maskN 16 (fun ch => cut.contains ch)))
    accessorFitted s.ctl o = true → s.ctl.reachedBy o t = true → s.ctl.isSystem o = true → halted ≠ [] →
    exec (.dmaRecover t o) s = .next (s.accessed o 0x0B c1)) ∧
  (∀ (s : State) (t : TileId) (o : Origin) (ch : Fin 16),
    let w := 2 ^ 31 + s.ctl.get t DMA_CH_PRIO ch
    accessorFitted s.ctl o = true → s.ctl.reachedBy o t = true → s.ctl.isSystem o = true → 2 ≤ ch.val → w % 4 ≠ 0 ∧
    bitsOf w 31 1 = 1 → s.ctl.get t DMA_CH_EN ch = 0 → exec (.dmaChannelEnable t o ch) s = .next
    (s.accessed o 0x0B (((s.ctl.put t DMA_CH_EN 1 ch).put t DMA_CH_PRIO w ch).dmaState t ch dmIdle))) ∧
  (∀ (s : State) (t : TileId) (o : Origin) (ch : Fin 16), accessorFitted s.ctl o = true → s.ctl.reachedBy o t = true →
    s.ctl.isSystem o = true → ch.val < 2 → exec (.dmaChannelEnable t o ch) s = .next (s.ctlTo (s.ctl.answer o 0x0B eLocked))) ∧
  (∀ (s : State) (t : TileId) (o : Origin) (ch : Fin 16),
    let w := s.ctl.get t DMA_CH_PRIO ch
    let c1 := (s.ctl.put t DMA_CH_EN 0 ch).put t DMA_CH_PRIO w ch
    let code := if c1.get t DMA_CH_STATE ch = dmHalted then eIntegrity else eState
    let y := dmaSome t (dmaLand t (s.mem, c1))
    let c0 := if (c1.chn t ch).under = true then (y.2.jobCut t ch).jobEnd t ch code true else y.2
    let c2 := (forN 16 (fun _ (c : Ctl) => c.jobEnd t ch eState true) c0).dmaState t ch dmDisabled
    accessorFitted s.ctl o = true → s.ctl.reachedBy o t = true → s.ctl.isSystem o = true → 2 ≤ ch.val → w % 4 ≠ 0 ∧
    bitsOf w 31 1 = 0 → s.ctl.get t DMA_CH_EN ch = 1 → exec (.dmaChannelDisable t o ch) s = .next
    (s.allTo (y.1, c2.answer o 0x0B eOk))) ∧
  (∀ (s : State) (t : TileId) (k : CoreId) (d a : Fin 32) (i : Nat),
    let x := ((s.ctl.task t i).reg a).toNat
    let ch := ((s.ctl.task t i).reg (a.val + 1)).toNat % 16
    let b := memBytes s.mem (localAddr t k x) 32
    let num := (s.ctl.get t DMA_CH_JOBS ch + 1) % 2 ^ 32
    let j := jobOf t i num (s.ctl.level t k == 1) b
    let y := s.ctl.chn t ch
    let c1 := (s.ctl.setChn t ch { y with queue := y.queue ++ [j] }).put t DMA_CH_JOBS num ch
    let c2 := if c1.get t DMA_CH_STATE ch = dmIdle then c1.dmaNext t ch else c1
    Executes s.ctl t k i → a.val % 2 = 0 ∧ d.val % 2 = 0 → localOk x 32 32 = true → s.ctl.dqueueCode t ch b j = eOk →
    exec (.dqueue t k d a) s = .next (s.ctlTo (c2.retirePair t i d (BitVec.ofNat 32 eOk) (BitVec.ofNat 32 num)))) ∧
  (∀ (s : State) (t : TileId) (k : CoreId) (d a : Fin 32) (i : Nat),
    let ch := ((s.ctl.task t i).reg a).toNat % 16
    let num := ((s.ctl.task t i).reg (a.val + 1)).toNat
    Executes s.ctl t k i → a.val % 2 = 0 → (s.ctl.chn t ch).queue.any (fun j => j.num == num) = true →
    exec (.dwait t k d a) s = .next (s.ctlTo (s.ctl.blockOn t i d (.dma ch num) 2))) ∧
  (∀ (s : State) (t : TileId) (k : CoreId) (d a : Fin 32) (i : Nat),
    let ch := ((s.ctl.task t i).reg a).toNat % 16
    let num := ((s.ctl.task t i).reg (a.val + 1)).toNat
    Executes s.ctl t k i → a.val % 2 = 0 → (s.ctl.chn t ch).queue.any (fun j => j.num == num) = false →
    exec (.dwait t k d a) s = .next (s.ctlTo (s.ctl.retireCode t i d ((tabFind (s.ctl.chn t ch).outcomes num).getD eAbsent))))

/-- R296 to R308, R315: what each event of the safety channels changes; every event that a demand depends on ends in one
evaluation of all safety functions (Ctl.judge). The causes of SF5 absent for one second are an operand of the reset events. -/
def Obligations.SafetyInputsAndOutputsComplete : Prop :=
  (∀ (s : State) (t : TileId) (i : Fin 8) (a b : Bool),
    let c1 := s.ctl.put t BERYL_INPUT_CH_A (setBit (s.ctl.get t BERYL_INPUT_CH_A) i a)
    let c2 := c1.put t BERYL_INPUT_CH_B (setBit (s.ctl.get t BERYL_INPUT_CH_B) i b)
    t.val < s.ctl.tiles → bit (c2.get t BERYL_INPUT_DISC_FAULT) i = false → exec (.safetyInputChange t i a b) s = .next
    (s.ctlTo (c2.judge t))) ∧
  (∀ (s : State) (t : TileId) (i : Fin 8) (a b : Bool),
    let c1 := s.ctl.put t BERYL_INPUT_CH_A (setBit (s.ctl.get t BERYL_INPUT_CH_A) i true)
    let c2 := c1.put t BERYL_INPUT_CH_B (setBit (s.ctl.get t BERYL_INPUT_CH_B) i true)
    let x := c2.bry t
    let c3 := c2.put t BERYL_INPUT_DISC_FAULT (setBit (c2.get t BERYL_INPUT_DISC_FAULT) i false)
    t.val < s.ctl.tiles → a = true ∧ b = true → bit (c2.get t BERYL_INPUT_DISC_FAULT) i = true →
    x.opened.contains i.val = true → exec (.safetyInputChange t i a b) s = .next
    (s.ctlTo ((c3.setBry t { x with opened := x.opened.filter (fun n => n != i.val) }).judge t))) ∧
  (∀ (s : State) (t : TileId) (i : Fin 8),
    let x := s.ctl.bry t
    let c1 := s.ctl.setBry t { x with opened := x.opened.filter (fun n => n != i.val) }
    let c2 := c1.put t BERYL_INPUT_DISC_FAULT (setBit (c1.get t BERYL_INPUT_DISC_FAULT) i true)
    t.val < s.ctl.tiles → s.ctl.flag t BERYL_PA_IN_EN i = true →
    (bit (s.ctl.get t BERYL_INPUT_CH_A) i != bit (s.ctl.get t BERYL_INPUT_CH_B) i) = true →
    bit (s.ctl.get t BERYL_INPUT_DISC_FAULT) i = false → exec (.discrepancyFault t i) s = .next
    (s.ctlTo ((c2.event t 0x0A 0x6005 0 (leBytes 1 i)).judge t))) ∧
  (∀ (s : State) (t : TileId) (openMs pressMs skewMs : BitVec 16) (gone : BitVec 7),
    let c1 := (s.ctl.put t BERYL_INPUT_LRST_A 0).put t BERYL_INPUT_LRST_B 0
    t.val < s.ctl.tiles → 100 ≤ openMs.toNat ∧ 100 ≤ pressMs.toNat ∧ pressMs.toNat ≤ 3000 ∧ skewMs.toNat ≤ 100 →
    exec (.resetButtonRelease t openMs pressMs skewMs gone) s = .next (s.ctlTo ((c1.deliberate t 0xFF gone true).1.judge t))) ∧
  (∀ (s : State) (t : TileId) (openMs pressMs skewMs : BitVec 16) (gone : BitVec 7), t.val < s.ctl.tiles →
    ¬ (100 ≤ openMs.toNat ∧ 100 ≤ pressMs.toNat ∧ pressMs.toNat ≤ 3000 ∧ skewMs.toNat ≤ 100) →
    exec (.resetButtonRelease t openMs pressMs skewMs gone) s = .next
    (s.ctlTo ((s.ctl.put t BERYL_INPUT_LRST_A 0).put t BERYL_INPUT_LRST_B 0))) ∧
  (∀ (s : State) (t : TileId) (a b : Bool),
    let c1 := (s.ctl.put t BERYL_INPUT_LRST_A (b2n a)).put t BERYL_INPUT_LRST_B (b2n b)
    t.val < s.ctl.tiles → (a || b) = true → c1.flag t BERYL_INPUT_RESET_STUCK = false → exec (.resetStuck t a b) s = .next
    (s.ctlTo ((c1.put t BERYL_INPUT_RESET_STUCK 1).event t 0x0A 0x6004))) ∧
  (∀ (s : State) (t : TileId), t.val < s.ctl.tiles → exec (.resetStuckClear t) s = .next
    (s.ctlTo (s.ctl.put t BERYL_INPUT_LRST_A 0 |>.put t BERYL_INPUT_LRST_B 0 |>.put t BERYL_INPUT_RESET_STUCK 0))) ∧
  (∀ (s : State) (t : TileId) (o : Fin 8),
    let x := s.ctl.bry t
    let c1 :=
        s.ctl.setBry t { x with hs := setBit x.hs o true, hsDue := x.hsDue.filter (fun n => n != o.val), rbDue := o.val :: x.rbDue }
    let c2 := c1.put t BERYL_OUT_ON 1 o |>.put t BERYL_OUT_HS_RB 1 o
    t.val < s.ctl.tiles → x.hsDue.contains o.val = true → exec (.outputEnergiseHs t o) s = .next
    (s.ctlTo (c2.put t BERYL_STATUS_ON (setBit (c1.get t BERYL_STATUS_ON) o true)))) ∧
  (∀ (s : State) (t : TileId) (o : Fin 8) (hs ls : Bool),
    let x := s.ctl.bry t
    let c1 := (s.ctl.put t BERYL_OUT_HS_RB (b2n hs) o).put t BERYL_OUT_LS_RB (b2n ls) o
    t.val < s.ctl.tiles → x.rbDue.contains o.val = true → exec (.outputReadbackCheck t o hs ls) s = .next
    (s.ctlTo (if hs = true ∧ ls = true then c1.setBry t { x with rbDue := x.rbDue.filter (fun n => n != o.val) }
    else c1.outFault t o (switchOf (!hs) (!ls))))) ∧
  (∀ (s : State) (t : TileId) (o : Fin 8),
    let x := s.ctl.bry t
    let high := !x.lastHs.contains o.val
    let rest := x.lastHs.filter (fun n => n != o.val)
    let c1 := s.ctl.setBry t { x with pulse := tabSet x.pulse o high, lastHs := if high then o.val :: rest else rest }
    t.val < s.ctl.tiles → s.ctl.flag t BERYL_PA_OUT_TEST_EN o = true ∧ s.ctl.flag t BERYL_OUT_ON o = true →
    tabFind x.pulse o = none → x.rbDue.contains o.val = false → s.ctl.outputDemand t o = none →
    exec (.testPulseStart t o) s = .next (s.ctlTo (c1.put t (if high then BERYL_OUT_HS_RB else BERYL_OUT_LS_RB) 0 o))) ∧
  (∀ (s : State) (t : TileId) (o : Fin 8) (hs ls : Bool) (high : Bool),
    let x := s.ctl.bry t
    let c1 := s.ctl.setBry t { x with pulse := tabErase x.pulse o }
    let badHs := if high then hs else !hs
    let badLs := if high then !ls else ls
    t.val < s.ctl.tiles → tabFind x.pulse o = some high → exec (.testPulseEnd t o hs ls) s = .next
    (s.ctlTo (if (badHs || badLs) = true then c1.outFault t o (switchOf badHs badLs)
    else (c1.put t BERYL_OUT_HS_RB 1 o).put t BERYL_OUT_LS_RB 1 o))) ∧
  (∀ (s : State) (t : TileId) (o : Fin 8) (hs ls : Bool),
    let x := s.ctl.bry t
    let badHs := hs != bit x.hs o
    let badLs := ls != bit x.ls o
    let c1 := s.ctl.outFault t o (switchOf badHs badLs)
    t.val < s.ctl.tiles → tabFind x.pulse o = none → (badHs || badLs) = true → exec (.readbackMismatch t o hs ls) s = .next
    (s.ctlTo ((c1.put t BERYL_OUT_HS_RB (b2n (badHs && hs)) o).put t BERYL_OUT_LS_RB (b2n (badLs && ls)) o))) ∧
  (∀ (s : State) (t : TileId) (cause : Fin 6),
    let F :=
        match cause.val with | 0 => BERYL_SF5_LOCKSTEP | 1 => BERYL_SF5_ROM | 2 => BERYL_SF5_RAM | 3 => BERYL_SF5_CLOCK | 4 => BERYL_SF5_SUPPLY | _ => BERYL_SF5_CROSS
    let c1 := (s.ctl.put t F 1).event t 0x0A 0x6010 0 (leBytes 1 cause)
    t.val < s.ctl.tiles → s.ctl.flag t F = false → exec (.sf5CauseDetect t cause) s = .next (s.ctlTo ((if cause.val < 3 then
    c1.put t BERYL_STATUS_STATE byHalt else c1).judge t))) ∧
  (∀ (s : State) (t : TileId) (copy1 copy2 : Bool),
    let bad := (s.ctl.put t BERYL_SF5_PARAM 1).event t 0x0A 0x6010 0 (leBytes 1 6)
    let c2 := if s.ctl.copyChecks t false copy1 = true then (s.ctl.takeCopy t false).storeCopy t true
        else if s.ctl.copyChecks t true copy2 = true then (s.ctl.takeCopy t true).storeCopy t false else bad
    t.val < s.ctl.tiles → s.ctl.get t BERYL_STATUS_STATE = bySelftest → exec (.berylSelfTestComplete t copy1 copy2) s = .next
    (s.ctlTo ((((c2.put t BERYL_STATUS_STATE byRun).lockAll t 0x42).event t 0x0A 0x6030).judge t)))

/-- R306, R309 to R314, R317, R318, R369: a consumed PDU is checked and judged, a produced one numbered and queued, a
parameter session opened by the Safety role copies the active parameters and ends with their confirmation or abort. -/
def Obligations.SafetyConnectionsComplete : Prop :=
  (∀ (s : State) (t : TileId) (n : Fin 16) (x : List Byte),
    let y := s.ctl.conn t n
    let c1 := s.ctl.setConn t n { y with slot := none }
    let c2 := c1.setConn t n { c1.conn t n with base := true, wd := true, strobe := true }
    let c3 := c2.put t BERYL_CONN_STAT_SEQ (beNat ((x.drop 2).take 2)) n
        |>.put t BERYL_CONN_STAT_LIVE (((x.drop 6).headD 0).toNat % 2) n
    t.val < s.ctl.tiles → y.slot = some x → c1.flag t BERYL_PA_CONN_EN n = true ∧ c1.get t BERYL_PA_CONN_KIND n = 0 →
    c1.get t BERYL_STATUS_STATE ≠ bySelftest → c1.pduCheck t n x = 0 → exec (.consumePduReceive t n) s = .next
    (s.ctlTo (c3.judge t))) ∧
  (∀ (s : State) (t : TileId) (n : Fin 16) (x : List Byte),
    let y := s.ctl.conn t n
    let c1 := s.ctl.setConn t n { y with slot := none }
    t.val < s.ctl.tiles → y.slot = some x → c1.flag t BERYL_PA_CONN_EN n = true ∧ c1.get t BERYL_PA_CONN_KIND n = 0 →
    c1.get t BERYL_STATUS_STATE ≠ bySelftest → c1.pduCheck t n x ≠ 0 ∧ c1.pduCheck t n x ≠ 7 →
    exec (.consumePduReceive t n) s = .next (s.ctlTo ((c1.pduInvalid t n (c1.pduCheck t n x)).judge t))) ∧
  (∀ (s : State) (t : TileId) (n : Fin 16),
    let x := s.ctl.conn t n
    t.val < s.ctl.tiles → s.ctl.flag t BERYL_PA_CONN_EN n = true ∧ s.ctl.get t BERYL_PA_CONN_KIND n = 0 ∧ x.wd = true →
    exec (.consumeWatchdogExpiry t n) s = .next
    (s.ctlTo ((((s.ctl.setConn t n { x with wd := false, strobe := false }).put t BERYL_CONN_STAT_LIVE 0 n).event t 0x0A 0x6008 0 (leBytes 1 n)).judge t))) ∧
  (∀ (s : State) (d : Datagram) (slot : Nat) (c' : Ctl),
    let t := d.tile.toNat
    let n := (d.payload.headD 0).toNat
    s.ctl.receive 0x08 d = .accepted slot c' →
    (c'.session slot).role = .operator ∨ (c'.session slot).role = .engineer ∨ (c'.session slot).role = .safety →
    d.asType = none ∧ (c'.session slot).v1 = false → d.status = 0 ∧ 2 ≤ d.payload.length ∧ t < c'.tiles ∧ n < 16 →
    c'.flag t BERYL_PA_CONN_EN n = true ∧ c'.get t BERYL_PA_CONN_KIND n = 0 ∧ c'.get t BERYL_PA_CONN_MEDIUM n = 1 →
    exec (.safetyMessageReceive d) s = .next (s.ctlTo (c'.setConn t n { c'.conn t n with slot := some (d.payload.drop 2) }))) ∧
  (∀ (s : State) (d : Datagram) (gone : BitVec 7) (q : Req) (c' : Ctl) (n : Nat),
    let t := q.arg 0 1
    let x := q.bytes 1 11
    let c1 := c'.setConn t n { c'.conn t n with base := true }
    let c2 := c1.put t BERYL_CONN_STAT_SEQ (beNat ((x.drop 2).take 2)) n
    let y := c2.deliberate t ((x.drop 6).headD 0).toNat gone false
    Delivered s.ctl 0x6001 d q c' → q.role = .safety → q.args.length = 12 → t < c'.tiles ∧
    c'.get t BERYL_STATUS_STATE ≠ byHalt → (List.range 16).find? (fun n => c'.flag t BERYL_PA_CONN_EN n
    && c'.get t BERYL_PA_CONN_KIND n == 2 && c'.get t BERYL_PA_CONN_CID32 n % 65536 == beNat (x.take 2)) = some n →
    c'.pduCheck t n x = 0 → exec (.berylReset d gone) s = .next
    (s.replied d q { mem := s.mem, ctl := y.1.judge t, result := leBytes 1 y.2 })) ∧
  (∀ (s : State) (d : Datagram) (q : Req) (c' : Ctl),
    let t := q.arg 0 1
    let c1 := (c'.copyRegs t 0x0A 0x800 0x400 0x180).setBry t { c'.bry t with owner := some q.id }
    Delivered s.ctl 0x6002 d q c' → q.role = .safety → q.args.length = 2 ∧ q.arg 1 1 = 0 → c'.running t = true ∧
    c'.flag t BERYL_SESSION_OPEN = false → exec (.berylParamOpen d) s = .next
    (s.repliedOk d q ((c1.putSession t true).event t 0x0A 0x6020))) ∧
  (∀ (s : State) (d : Datagram) (q : Req) (c' : Ctl),
    let t := q.arg 0 1
    let crc := crc32c 0xFFFFFFFF (c'.rawBytes 0x0A t 0x400 96)
    Delivered s.ctl 0x6002 d q c' → q.role = .safety → q.args.length = 6 ∧ q.arg 1 1 = 1 → c'.running t = true ∧
    c'.flag t BERYL_SESSION_OPEN = true ∧ (c'.bry t).owner = some q.id → crc = q.arg 2 4 → c'.paramRange t = false ∧
    c'.paramConflict t = false → exec (.berylParamConfirm d) s = .next (s.repliedOk d q (c'.confirmParams t crc))) ∧
  (∀ (s : State) (d : Datagram) (q : Req) (c' : Ctl),
    let t := q.arg 0 1
    Delivered s.ctl 0x6002 d q c' → q.role = .safety → q.args.length = 2 ∧ q.arg 1 1 = 2 → c'.running t = true ∧
    c'.flag t BERYL_SESSION_OPEN = true ∧ (c'.bry t).owner = some q.id → exec (.berylParamAbort d) s = .next
    (s.repliedOk d q ((c'.endSession t).event t 0x0A 0x6022))) ∧
  (∀ (s : State) (t : TileId) (o : Origin) (k : Fin 96) (w : Word) (role : Role) (q : Nat),
    let c1 := (fieldsAt 0x0A t (0x400 + 4 * k.val)).foldl (fun (c : Ctl) f => c.put t f.field (f.of w.toNat) f.i f.j) s.ctl
    o = .host role q ∧ role = .safety → s.ctl.reachedBy o t = true ∧ s.ctl.running t = true →
    s.ctl.flag t BERYL_SESSION_OPEN = true ∧ (s.ctl.bry t).owner = some q → exec (.berylParamWrite t o k w) s = .next
    (s.accessed o 0x0A ((c1.rephase t 32).put t BERYL_SESSION_REMAIN 600))) ∧
  (∀ (s : State) (t : TileId), t.val < s.ctl.tiles → s.ctl.flag t BERYL_SESSION_OPEN = true →
    exec (.berylSessionTimeout t) s = .next (s.ctlTo ((s.ctl.endSession t).event t 0x0A 0x6022)))

/-- R379 to R386, R389, R391, R394: a control write sets the fields the accessor may set and starts what its one-shot bits
ask; a transmission that ends is counted and reported, and the port goes on with the next buffer. -/
def Obligations.CanPortControlComplete : Prop :=
  (∀ (s : State) (t : TileId) (o : Origin) (p : PortId),
    let v := setBit (s.ctl.canCtrl t p) 31 true
    let c0 := s.ctl.put t CAN_CTRL_INIT (bitsOf v 31 1) p |>.put t CAN_CTRL_LISTEN (bitsOf v 30 1) p
        |>.put t CAN_CTRL_FD_EN (bitsOf v 29 1) p
    let c1 := c0.put t CAN_CTRL_AUTO_RECOVER (bitsOf v 28 1) p |>.put t CAN_CTRL_TERM (bitsOf v 27 1) p
    let c2 := c1.put t CAN_CTRL_APP (if s.ctl.isSystem o = true then bitsOf v 26 1 else s.ctl.get t CAN_CTRL_APP p) p
    accessorFitted s.ctl o = true → s.ctl.reachedBy o t = true → s.ctl.mayConfig o = true →
    s.ctl.get t CAN_CTRL_LISTEN p = bitsOf v 30 1 ∧ s.ctl.get t CAN_CTRL_FD_EN p = bitsOf v 29 1 → bit v 31 = true ∧
    bit v 25 = false ∧ bit v 24 = false → s.ctl.flag t CAN_CTRL_INIT p = false → (c2.canInitSet t p).canState t p ≠ cnOff →
    exec (.canInitSet t o p) s = .next (s.accessed o 0x0C (c2.canInitSet t p))) ∧
  (∀ (s : State) (t : TileId) (o : Origin) (p : PortId),
    let v := setBit (s.ctl.canCtrl t p) 31 false
    let c0 := s.ctl.put t CAN_CTRL_INIT (bitsOf v 31 1) p |>.put t CAN_CTRL_LISTEN (bitsOf v 30 1) p
        |>.put t CAN_CTRL_FD_EN (bitsOf v 29 1) p
    let c1 := c0.put t CAN_CTRL_AUTO_RECOVER (bitsOf v 28 1) p |>.put t CAN_CTRL_TERM (bitsOf v 27 1) p
    let c2 := c1.put t CAN_CTRL_APP (if s.ctl.isSystem o = true then bitsOf v 26 1 else s.ctl.get t CAN_CTRL_APP p) p
    accessorFitted s.ctl o = true → s.ctl.reachedBy o t = true → s.ctl.mayConfig o = true →
    s.ctl.get t CAN_CTRL_LISTEN p = bitsOf v 30 1 ∧ s.ctl.get t CAN_CTRL_FD_EN p = bitsOf v 29 1 → bit v 31 = false ∧
    bit v 25 = false ∧ bit v 24 = false → s.ctl.flag t CAN_CTRL_INIT p = true → c2.timingBad t p = false →
    (c2.canCounters t p 0 0).canState t p ≠ cnOff → exec (.canInitClear t o p) s = .next
    (s.accessed o 0x0C (c2.canCounters t p 0 0))) ∧
  (∀ (s : State) (t : TileId) (o : Origin) (p : PortId),
    let v := setBit (s.ctl.canCtrl t p) 24 true
    let c0 := s.ctl.put t CAN_CTRL_INIT (bitsOf v 31 1) p |>.put t CAN_CTRL_LISTEN (bitsOf v 30 1) p
        |>.put t CAN_CTRL_FD_EN (bitsOf v 29 1) p
    let c1 := c0.put t CAN_CTRL_AUTO_RECOVER (bitsOf v 28 1) p |>.put t CAN_CTRL_TERM (bitsOf v 27 1) p
    let c2 := c1.put t CAN_CTRL_APP (if s.ctl.isSystem o = true then bitsOf v 26 1 else s.ctl.get t CAN_CTRL_APP p) p
    accessorFitted s.ctl o = true → s.ctl.reachedBy o t = true → s.ctl.mayConfig o = true →
    s.ctl.get t CAN_CTRL_LISTEN p = bitsOf v 30 1 ∧ s.ctl.get t CAN_CTRL_FD_EN p = bitsOf v 29 1 → bit v 31 = false ∧
    bit v 25 = false ∧ bit v 24 = true → s.ctl.flag t CAN_CTRL_INIT p = false → s.ctl.canState t p = cnOff →
    exec (.canRecoverWrite t o p) s = .next (s.accessed o 0x0C (c2.canTo t p cnRecovering))) ∧
  (∀ (s : State) (t : TileId) (o : Origin) (p : PortId),
    let v := setBit (s.ctl.canCtrl t p) 25 true
    let c0 := s.ctl.put t CAN_CTRL_INIT (bitsOf v 31 1) p |>.put t CAN_CTRL_LISTEN (bitsOf v 30 1) p
        |>.put t CAN_CTRL_FD_EN (bitsOf v 29 1) p
    let c1 := c0.put t CAN_CTRL_AUTO_RECOVER (bitsOf v 28 1) p |>.put t CAN_CTRL_TERM (bitsOf v 27 1) p
    let c2 := c1.put t CAN_CTRL_APP (if s.ctl.isSystem o = true then bitsOf v 26 1 else s.ctl.get t CAN_CTRL_APP p) p
    accessorFitted s.ctl o = true → s.ctl.reachedBy o t = true → s.ctl.mayConfig o = true →
    s.ctl.get t CAN_CTRL_LISTEN p = bitsOf v 30 1 ∧ s.ctl.get t CAN_CTRL_FD_EN p = bitsOf v 29 1 → bit v 31 = true ∧
    bit v 25 = true ∧ bit v 24 = false → s.ctl.flag t CAN_CTRL_INIT p = true → s.ctl.canState t p = cnInit →
    exec (.canDetectStart t o p) s = .next
    (s.accessed o 0x0C (Ctl.canTo { c2 with canDet := tabSet c2.canDet (canKey t p) {} } t p cnDetect))) ∧
  (∀ (s : State) (t : TileId) (p : PortId), t.val < s.ctl.tiles → s.ctl.canState t p = cnInit →
    s.ctl.flag t CAN_CTRL_INIT p = false → exec (.canBusJoin t p) s = .next (s.ctlTo (s.ctl.canTo t p cnActive))) ∧
  (∀ (s : State) (t : TileId) (p : PortId),
    let c1 := ((s.ctl.put t CAN_ERRCNT_TEC 0 p).put t CAN_ERRCNT_REC 0 p).canWarn t p
    t.val < s.ctl.tiles → s.ctl.canState t p = cnRecovering → exec (.canRecoveryComplete t p) s = .next
    (s.ctlTo ((c1.canTo t p cnActive).event t 0x0C 0x8007 0 (leBytes 1 p.val)))) ∧
  (∀ (s : State) (t : TileId) (o : Origin) (p : PortId) (w : Word),
    let bufs := (List.range 32).filter (fun b => bit w.toNat b)
    accessorFitted s.ctl o = true → s.ctl.reachedBy o t = true → s.ctl.canMay o t p = true →
    bufs.all (fun b => s.ctl.canSoft t p b && !s.ctl.windowBad t p b) = true → s.ctl.canState t p ≠ cnInit ∧
    s.ctl.canState t p ≠ cnDetect ∧ s.ctl.canState t p ≠ cnOff ∧ s.ctl.flag t CAN_CTRL_LISTEN p = false →
    (s.ctl.flag t CAN_CTRL_FD_EN p = true ∨ bufs.any (fun b => s.ctl.flag t CAN_TXB_FDF p b) = false) →
    exec (.canTxreq t o p w) s = .next (s.accessed o 0x0C (bufs.foldl (fun (c : Ctl) b => c.canRequest t p b) s.ctl))) ∧
  (∀ (s : State) (t : TileId) (o : Origin) (p : PortId) (w : Word),
    let bufs := (List.range 32).filter (fun b => bit w.toNat b)
    accessorFitted s.ctl o = true → s.ctl.reachedBy o t = true → s.ctl.canMay o t p = true →
    bufs.any (fun b => !s.ctl.canSoft t p b) = false → exec (.canTxcancel t o p w) s = .next
    (s.accessed o 0x0C (bufs.foldl (fun (c : Ctl) b => if !c.canPending t p b then c
    else if (tabFind c.canTry (canKey t p)).any (fun a => a.buf == b) then c.putTxBit t p b CAN_TXCANCEL true
    else c.canEnd t p b CAN_TXCAN) s.ctl))) ∧
  (∀ (s : State) (t : TileId) (p : PortId) (a : CanTry),
    let c1 := s.ctl.canStart t p
    let c2 := c1.canEnd t p a.buf CAN_TXDONE
    let c3 := if bit (c1.get t CAN_TXCANCEL p) a.buf = true then c2.putTxBit t p a.buf CAN_TXCSENT true else c2
    t.val < s.ctl.tiles → tabFind c1.canTry (canKey t p) = some a → a.again = false → a.buf ≠ 15 →
    exec (.canTxComplete t p) s = .next (s.ctlTo ((c3.canAcked t p).canAfter t p))) ∧
  (∀ (s : State) (t : TileId) (p : PortId) (a : CanTry),
    let c1 := s.ctl.canStart t p
    let c2 := c1.canEnd t p 15 CAN_TXDONE
    let c3 := if bit (c1.get t CAN_TXCANCEL p) 15 = true then c2.putTxBit t p 15 CAN_TXCSENT true else c2
    let c4 :=
        Ctl.put { c3 with syncRef := tabSet c3.syncRef (canKey t p) (c3.stn t), followed := c3.followed.filter (fun n => n != canKey t p) } t TIME_CAN_CFG_SYNC_DONE 1 p
    t.val < s.ctl.tiles → tabFind c1.canTry (canKey t p) = some a → a.again = false ∧ a.buf = 15 →
    c3.flag t TIME_CAN_CFG_EN p = true → exec (.canTxComplete t p) s = .next (s.ctlTo ((c4.canAcked t p).canAfter t p))) ∧
  (∀ (s : State) (t : TileId) (p : PortId) (x : CanTxFault) (a : CanTry),
    let c1 := s.ctl.canStart t p
    let last := bit (c1.get t CAN_TXCANCEL p) a.buf || c1.flag t CAN_TXB_ONESHOT p a.buf
    let c2 := c1.canTxFault t p x
    let c3 := if (last && c2.canPending t p a.buf) = true then c2.canEnd t p a.buf CAN_TXFAIL else c2
    t.val < s.ctl.tiles → tabFind c1.canTry (canKey t p) = some a → exec (.canTxError t p x) s = .next
    (s.ctlTo (c3.canAfter t p))) ∧
  (∀ (s : State) (t : TileId) (p : PortId),
    let x := s.ctl.detect t p
    t.val < s.ctl.tiles → s.ctl.canState t p = cnDetect → exec (.canDetectDwell t p) s = .next
    (s.ctlTo (s.ctl.setDetect t p (if x.found = true then { x with quiet := x.quiet || !x.brs, brs := false }
    else { nominal := x.nominal % 5 + 1 })))) ∧
  (∀ (s : State) (t : TileId) (p : PortId) (timeout : Bool),
    let x := s.ctl.detect t p
    let c1 := s.ctl.put t CAN_RATE_VALID (b2n x.found) p |>.put t CAN_RATE_FAIL (b2n timeout) p
    let c2 := c1.put t CAN_RATE_NOMINAL (if x.found = true then x.nominal else 0) p
        |>.put t CAN_RATE_DATA (if x.dataFound = true then x.data else 0) p
    let c3 := c2.canFlag t p CAN_IRQ_RATE_DONE CAN_IRQ_EN_RATE_DONE
    let c4 := c3.event t 0x0C 0x8006 0 (leBytes 1 p.val ++ leBytes 4 (c3.rawWord 0x0C t (p.val * 0x2000 + 0x048)))
    t.val < s.ctl.tiles → s.ctl.canState t p = cnDetect → (timeout = true ∨ (x.found = true ∧
    (x.dataFound = true ∨ x.quiet = true))) → exec (.canDetectEnd t p timeout) s = .next
    (s.ctlTo (Ctl.canTo { c4 with canDet := tabErase c4.canDet (canKey t p) } t p cnInit))) ∧
  (∀ (s : State) (t : TileId) (o : Origin) (p : PortId),
    let n := nominalTiming (s.ctl.get t CAN_RATE_NOMINAL p)
    let c1 := s.ctl.put t CAN_NBT_NBRP n.1 p |>.put t CAN_NBT_NTSEG1 n.2.1 p |>.put t CAN_NBT_NTSEG2 n.2.2 p
        |>.put t CAN_NBT_NSJW n.2.2 p
    accessorFitted s.ctl o = true → s.ctl.reachedBy o t = true → s.ctl.mayConfig o = true →
    s.ctl.flag t CAN_RATE_VALID p = true ∧ s.ctl.flag t CAN_CTRL_INIT p = true → s.ctl.get t CAN_RATE_DATA p = 0 →
    exec (.canAdopt t o p) s = .next (s.accessed o 0x0C c1)) ∧
  (∀ (s : State) (t : TileId) (o : Origin) (p : PortId),
    let n := nominalTiming (s.ctl.get t CAN_RATE_NOMINAL p)
    let k := s.ctl.get t CAN_RATE_DATA p
    let d := dataTiming k
    let c1 := s.ctl.put t CAN_NBT_NBRP n.1 p |>.put t CAN_NBT_NTSEG1 n.2.1 p |>.put t CAN_NBT_NTSEG2 n.2.2 p
        |>.put t CAN_NBT_NSJW n.2.2 p
    let c2 := c1.put t CAN_DBT_DBRP d.1 p |>.put t CAN_DBT_DTSEG1 d.2.1 p |>.put t CAN_DBT_DTSEG2 d.2.2 p
        |>.put t CAN_DBT_DSJW d.2.2 p
    accessorFitted s.ctl o = true → s.ctl.reachedBy o t = true → s.ctl.mayConfig o = true →
    s.ctl.flag t CAN_RATE_VALID p = true ∧ s.ctl.flag t CAN_CTRL_INIT p = true → k ≠ 0 → exec (.canAdopt t o p) s = .next
    (s.accessed o 0x0C (c2.put t CAN_DBT_TDCO (d.1 * (1 + d.2.1)) p |>.put t CAN_DBT_TDC_EN (b2n (decide (1 < k))) p)))

/-- R311, R352, R353, R387 to R389, R488: a good frame goes to the consume connection it matches, else to the loop inputs, the
containers and the filters; errors are counted; the launches of the time unit and of Beryl. -/
def Obligations.CanReceptionComplete : Prop :=
  (∀ (s : State) (t : TileId) (p : PortId) (frame : CanFrame) (n : Nat),
    let c1 := s.ctl.canRxGood t p
    t.val < s.ctl.tiles → s.ctl.canState t p ≠ cnDetect ∧ s.ctl.canOnBus t p = true → s.ctl.canExcepts t p frame = false →
    c1.consumer t p frame = some n → c1.flag t CAN_CTRL_LISTEN p = false → exec (.canFrameReceive t p frame) s = .next
    (s.ctlTo (c1.setConn t n { c1.conn t n with slot := some frame.data }))) ∧
  (∀ (s : State) (t : TileId) (p : PortId) (frame : CanFrame),
    let c1 := s.ctl.canRxGood t p
    let c2 := forN 32 (fun k (c : Ctl) => if c.flag t BAL_CONT_VALID k && c.get t BAL_CONT_PORT k == p.val
        && c.flag t BAL_CONT_EXT k == frame.ext && c.get t BAL_CONT_CAN_ID k == frame.id.toNat then c.heatFrame t k frame.data
        else c) (c1.loopFrame t p frame)
    t.val < s.ctl.tiles → s.ctl.canState t p ≠ cnDetect ∧ s.ctl.canOnBus t p = true → s.ctl.canExcepts t p frame = false →
    c1.consumer t p frame = none → exec (.canFrameReceive t p frame) s = .next (s.ctlTo (c2.canFile t p frame))) ∧
  (∀ (s : State) (t : TileId) (p : PortId) (frame : CanFrame), t.val < s.ctl.tiles → s.ctl.canExcepts t p frame = true →
    exec (.canFrameReceive t p frame) s = .next (s)) ∧
  (∀ (s : State) (t : TileId) (p : PortId) (frame : CanFrame), t.val < s.ctl.tiles → s.ctl.canExcepts t p frame = false →
    s.ctl.canState t p = cnDetect → exec (.canFrameReceive t p frame) s = .next
    (s.ctlTo (s.ctl.setDetect t p (detectGood (s.ctl.detect t p) frame.brs)))) ∧
  (∀ (s : State) (t : TileId) (p : PortId) (kind : CanFault) (eight inData : Bool), t.val < s.ctl.tiles →
    s.ctl.canState t p ≠ cnDetect ∧ s.ctl.canOnBus t p = true → kind ≠ .arbitration →
    exec (.canRxError t p kind eight inData) s = .next
    (s.ctlTo ((s.ctl.put t CAN_STATUS_LEC (lecOf kind) p).canCounters t p (s.ctl.tec t p) (s.ctl.rcv t p + (if eight then 8
    else 1))))) ∧
  (∀ (s : State) (t : TileId) (o : Origin) (p : PortId) (w : BitVec 2),
    let c1 := if bit w.toNat 0 = true then s.ctl.fifoPop t p 0 else s.ctl
    accessorFitted s.ctl o = true → s.ctl.reachedBy o t = true → s.ctl.canMay o t p = true →
    exec (.canRxPop t o p w) s = .next (s.accessed o 0x0C (if bit w.toNat 1 = true then c1.fifoPop t p 1 else c1))) ∧
  (∀ (s : State) (t : TileId) (p : PortId),
    let seq := (s.ctl.get t TIME_CAN_CFG_SEQ p + 1) % 256
    let f : CanFrame :=
        { ext := s.ctl.flag t TIME_CAN_CFG_EXT p, fdf := false, brs := false, esi := false, rtr := false, id := BitVec.ofNat 29 (s.ctl.get t TIME_CAN_CFG_SYNC_ID p), dlc := 2, data := [BitVec.ofNat 8 seq, 0] }
    let c1 : Ctl :=
        { s.ctl with syncRef := tabErase s.ctl.syncRef (canKey t p), followed := s.ctl.followed.filter (fun n => n != canKey t p) }
    t.val < s.ctl.tiles → s.ctl.flag t TIME_CAN_CFG_EN p = true ∧ s.ctl.timeLocked t = true ∧
    s.ctl.canTakes t p false = true → exec (.canSyncLaunch t p) s = .next
    (s.ctlTo ((c1.put t TIME_CAN_CFG_SEQ seq p).canOffer t p 15 f))) ∧
  (∀ (s : State) (t : TileId) (o : Origin) (p : PortId) (seq : Byte) (ref : Nat),
    let q := 2 ^ 31 + seq.toNat
    let k := canKey t p
    let hold := b2n (decide (s.ctl.get 0 TIME_STATE_STATE = tmHoldover))
    let c1 : Ctl := { s.ctl with followed := k :: s.ctl.followed.filter (fun n => n != k) }
    let data := leBytes 1 q ++ leBytes 1 hold ++ beBytes 2 (ref / 1000000000 / 2 ^ 32)
        ++ beBytes 4 (c1.get t TIME_CAN_FU_SEC p) ++ beBytes 4 (c1.get t TIME_CAN_FU_NS p)
    accessorFitted s.ctl o = true → s.ctl.reachedBy o t = true → s.ctl.isSystem o = true →
    tabFind s.ctl.syncRef k = some ref → s.ctl.flag t TIME_CAN_CFG_EN p = true ∧ q % 256 = s.ctl.get t TIME_CAN_CFG_SEQ p ∧
    s.ctl.followed.contains k = false → s.ctl.stn t ≤ ref + 8000000 → s.ctl.tileState t ≠ tsCarried →
    exec (.followupSend t o p seq) s = .next
    (s.accessed o 0x02 ((c1.put t TIME_CAN_FU_SEQ q p).canOffer t p 14 (hwFrame (s.ctl.flag t TIME_CAN_CFG_EXT p) true (s.ctl.get t TIME_CAN_CFG_SYNC_ID p + 1) data)))) ∧
  (∀ (s : State) (t : TileId) (n : Fin 16),
    let port := s.ctl.get t BERYL_PA_CONN_PORT n
    let x := s.ctl.producePdu t n
    t.val < s.ctl.tiles → s.ctl.flag t BERYL_PA_CONN_EN n = true ∧ s.ctl.get t BERYL_PA_CONN_KIND n = 1 ∧
    (s.ctl.bry t).stopped = false → s.ctl.get t BERYL_STATUS_STATE ≠ bySelftest → s.ctl.get t BERYL_PA_CONN_MEDIUM n = 0 ∧
    s.ctl.canTakes t port true = true → exec (.producePduSend t n) s = .next
    (s.ctlTo (x.2.canOffer t port (s.ctl.produceBuffer t n) (hwFrame (s.ctl.flag t BERYL_PA_CONN_EXT n) true (s.ctl.get t BERYL_PA_CONN_CAN_ID n) x.1)))) ∧
  (∀ (s : State) (t : TileId) (n : Fin 16),
    let x := s.ctl.producePdu t n
    t.val < s.ctl.tiles → s.ctl.flag t BERYL_PA_CONN_EN n = true ∧ s.ctl.get t BERYL_PA_CONN_KIND n = 1 ∧
    (s.ctl.bry t).stopped = false → s.ctl.get t BERYL_STATUS_STATE ≠ bySelftest → s.ctl.get t BERYL_PA_CONN_MEDIUM n ≠ 0 →
    exec (.producePduSend t n) s = .next (s.ctlTo (x.2.sendSafety t n x.1)))

/-- R340, R342 to R345, R347, R351, R355: what each event of the time unit changes. Which of two masters is better is an
operand (assumption 11); the phase of a strobe is assumption 12. -/
def Obligations.TimeBaseEventsComplete : Prop :=
  (∀ (s : State) (path : Fin 2) (domain : Byte) (gm : BitVec 64) (better : Bool),
    let c1 : Ctl := { s.ctl with ptp := { s.ctl.ptp with heard := tabSet s.ctl.ptp.heard path gm.toNat } }
    s.ctl.ptpTakes domain.toNat = true → exec (.ptpAnnounceReceive path domain gm better) s = .next
    (s.ctlTo (if s.ctl.ptp.chosen = false ∨ better = true then c1.chooseMaster path gm.toNat else c1))) ∧
  (∀ (s : State) (path : Fin 2) (domain : Byte) (offset : BitVec 64), s.ctl.ptpTakes domain.toNat = true →
    s.ctl.ptp.chosen = true ∧ s.ctl.get 0 TIME_STATE_PATH = path.val → exec (.ptpSyncReceive path domain offset) s = .next
    (s.ctlTo (s.ctl.ptpSync offset.toInt))) ∧
  (∀ (s : State) (path : Fin 2) (delay : Word), s.ctl.tileState 0 ≠ tsOff → s.ctl.flag 0 TIME_PTP_CFG_EN = true →
    exec (.ptpPdelayExchange path delay) s = .next
    (s.ctlTo { s.ctl with ptp := { s.ctl.ptp with linkDelay := tabSet s.ctl.ptp.linkDelay path delay.toNat } })) ∧
  (∀ (s : State) , s.ctl.get 0 TIME_STATE_STATE = tmLocked → exec (.ptpSyncTimeout) s = .next
    (s.ctlTo ((s.ctl.setTime tmHoldover).event 0 0x02 0x7102))) ∧
  (∀ (s : State) , s.ctl.get 0 TIME_STATE_STATE = tmHoldover → exec (.holdoverExpiry) s = .next
    (s.ctlTo ((s.ctl.setTime tmAcquire).event 0 0x02 0x7103))) ∧
  (∀ (s : State) (path : Fin 2),
    let c1 : Ctl := { s.ctl with ptp := { s.ctl.ptp with heard := tabErase s.ctl.ptp.heard path } }
    s.ctl.ptp.chosen = true ∧ s.ctl.get 0 TIME_STATE_PATH = path.val → exec (.announceReceiptTimeout path) s = .next
    (s.ctlTo (match tabFind c1.ptp.heard (1 - path.val) with | some gm => c1.chooseMaster (1 - path.val) gm | none => { c1 with ptp := { c1.ptp with chosen := false } }))) ∧
  (∀ (s : State) (t : TileId) (sec : BitVec 48) (ms : Fin 1000), t.val < s.ctl.tiles →
    t.val = 0 ∨ (tabFind s.ctl.stnSec t).isSome = true → exec (.timeStrobe t sec ms) s = .next (s)) ∧
  (∀ (s : State) (t : TileId) (sec : BitVec 48) (ms : Fin 1000), t.val < s.ctl.tiles → s.ctl.live t = true → t.val ≠ 0 →
    tabFind s.ctl.stnSec t = none → s.ctl.stn 0 / 1000000 = sec.toNat * 1000 + ms.val → exec (.timeStrobe t sec ms) s = .next
    (s.ctlTo (s.ctl.setStn t (s.ctl.stn 0)))) ∧
  (∀ (s : State) (t : TileId),
    let c1 := (s.ctl.put t TIME_STATE_STROBE_LOST 1).event t 0x02 0x7107
    t.val < s.ctl.tiles → s.ctl.live t = true ∧ s.ctl.flag t TIME_STATE_STROBE_LOST = false → exec (.strobeLost t) s = .next
    (s.ctlTo (if s.ctl.timeLocked t = true then c1.irq t 0x2C else c1))) ∧
  (∀ (s : State) (t : TileId),
    let c1 := s.ctl.put t TIME_STATE_STROBE_LOST 0
    t.val < s.ctl.tiles → s.ctl.flag t TIME_STATE_STROBE_LOST = true → exec (.strobeRecovered t) s = .next
    (s.ctlTo (if c1.timeLocked t = true then c1.irq t 0x2C else c1))) ∧
  (∀ (s : State) (t : TileId),
    let n := s.ctl.get t TIME_NS32_VALUE + 4
    t.val < s.ctl.tiles → s.ctl.counts t = true ∧ 2 ^ 32 ≤ n → exec (.timeWrap t) s = .next
    (s.ctlTo ((s.ctl.put t TIME_NS32_VALUE n).incMod t TIME_WRAP_VALUE))) ∧
  (∀ (s : State) (t : TileId), t.val < s.ctl.tiles → s.ctl.counts t = false ∨ s.ctl.get t TIME_NS32_VALUE + 4 < 2 ^ 32 →
    exec (.timeWrap t) s = .next (s.ctlTo s.ctl)) ∧
  (∀ (s : State) (t : TileId), t.val < s.ctl.tiles → exec (.timeStnNsRead t) s = .next
    (s.ctlTo { (s.ctl.readStnNs t).1 with data := (s.ctl.readStnNs t).2 })) ∧
  (∀ (s : State) (t : TileId), t.val < s.ctl.tiles → exec (.timeOptimeRead t) s = .next
    (s.ctlTo { (s.ctl.readOptime t).1 with data := (s.ctl.readOptime t).2 })) ∧
  (∀ (s : State) , exec (.operatingTimeStore) s = .next (s.ctlTo s.ctl.storeOptime))

/-- R356, R357, R363, R367, R368, R370 to R373, R377: what the events of the paths and the timers of sessions change. -/
def Obligations.NetworkEventsComplete : Prop :=
  (∀ (s : State) (p : Fin 2) (medium : Medium) (rxPower : BitVec 16),
    let ok := medium != .other
    let ten := medium == .sr10g || medium == .lr10g
    let c0 := s.ctl.put 0 NET_P_PRESENT 1 p |>.put 0 NET_P_SUPPORTED (b2n ok) p |>.put 0 NET_P_RX_PWR rxPower.toNat p
    let c1 : Ctl := { c0 with net := { c0.net with tenGig := tabSet c0.net.tenGig p ten } }
    exec (.sfpInsert p medium rxPower) s = .next (s.ctlTo (if ok = true then c1 else (if c1.linkUp p = true then
    c1.linkDown p false else c1).event 0 0x11 0x720A))) ∧
  (∀ (s : State) (p : Fin 2) (ten : Bool),
    let c0 := s.ctl.put 0 NET_P_LINK 1 p |>.put 0 NET_P_LOS 0 p |>.put 0 NET_P_SPEED (if ten then 2 else 1) p
    let c1 : Ctl := { c0 with net := { c0.net with sent := [] } }
    s.ctl.flag 0 NET_P_SUPPORTED p = true ∧ s.ctl.linkUp p = false ∧ ten = tabGet false s.ctl.net.tenGig p →
    s.ctl.net.supervisor ≠ none → exec (.pathLinkUp p ten) s = .next (s.ctlTo c1.flushOut)) ∧
  (∀ (s : State) (p : Fin 2) (ten : Bool),
    let c0 := s.ctl.put 0 NET_P_LINK 1 p |>.put 0 NET_P_LOS 0 p |>.put 0 NET_P_SPEED (if ten then 2 else 1) p
    let c1 : Ctl := { c0 with net := { c0.net with sent := [] } }
    s.ctl.flag 0 NET_P_SUPPORTED p = true ∧ s.ctl.linkUp p = false ∧ ten = tabGet false s.ctl.net.tenGig p →
    s.ctl.net.supervisor = none → c1.activePath = 3 → exec (.pathLinkUp p ten) s = .next (s.ctlTo (c1.makeActive p))) ∧
  (∀ (s : State) (p : Fin 2) (ten : Bool),
    let c0 := s.ctl.put 0 NET_P_LINK 1 p |>.put 0 NET_P_LOS 0 p |>.put 0 NET_P_SPEED (if ten then 2 else 1) p
    let c1 : Ctl := { c0 with net := { c0.net with sent := [] } }
    s.ctl.flag 0 NET_P_SUPPORTED p = true ∧ s.ctl.linkUp p = false ∧ ten = tabGet false s.ctl.net.tenGig p →
    s.ctl.net.supervisor = none → c1.activePath ≠ 3 → p.val = 0 ∧ s.ctl.net.bActive = false →
    exec (.pathLinkUp p ten) s = .next (s.ctlTo ((c1.putPath 1 paStandby).makeActive 0))) ∧
  (∀ (s : State) (p : Fin 2) (ten : Bool),
    let c0 := s.ctl.put 0 NET_P_LINK 1 p |>.put 0 NET_P_LOS 0 p |>.put 0 NET_P_SPEED (if ten then 2 else 1) p
    let c1 : Ctl := { c0 with net := { c0.net with sent := [] } }
    s.ctl.flag 0 NET_P_SUPPORTED p = true ∧ s.ctl.linkUp p = false ∧ ten = tabGet false s.ctl.net.tenGig p →
    s.ctl.net.supervisor = none → c1.activePath ≠ 3 → ¬ (p.val = 0 ∧ s.ctl.net.bActive = false) →
    exec (.pathLinkUp p ten) s = .next (s.ctlTo (c1.putPath p paStandby))) ∧
  (∀ (s : State) (p : Fin 2) (ten : Bool),
    s.ctl.flag 0 NET_P_SUPPORTED p = false ∨ s.ctl.linkUp p = true ∨ ten ≠ tabGet false s.ctl.net.tenGig p →
    exec (.pathLinkUp p ten) s = .next (s)) ∧
  (∀ (s : State) (p : Fin 2) (los : Bool),
    let c1 := (s.ctl.put 0 NET_P_LINK 0 p |>.put 0 NET_P_LOS (b2n los) p |>.put 0 NET_P_SPEED 0 p).pathLost p 0
    exec (.pathLinkDown p los) s = .next (s.ctlTo (if p.val = 1 then { c1 with net := { c1.net with bActive := false } }
    else c1))) ∧
  (∀ (s : State) (d : Datagram) (slot : Nat) (c' : Ctl), s.ctl.receive 0x07 d = .accepted slot c' → d.asType = none →
    d.status = 0 ∧ d.tile = 0xFF ∧ d.payload.length = 16 ∧ beNat (d.payload.take 1) = d.path.val →
    c'.net.supervisor = some slot → exec (.supervisionReceive d) s = .next (s.ctlTo (c'.supervisionValid d.path))) ∧
  (∀ (s : State)  (slot : Nat),
    let c1 : Ctl := { s.ctl with net := { s.ctl.net with sent := [] } }
    s.ctl.net.supervisor = some slot → exec (.supervisionSend) s = .next
    (s.ctlTo (c1.linked.foldl (fun (c : Ctl) p => c.supervision slot p) c1))) ∧
  (∀ (s : State) (p : Fin 2), s.ctl.net.supervisor ≠ none → exec (.pathSupervisionLoss p) s = .next
    (s.ctlTo (s.ctl.pathLost p 1))) ∧
  (∀ (s : State) (p : Fin 2), s.ctl.path p = paResync → exec (.pathResyncDone p) s = .next
    (s.ctlTo ((s.ctl.putPath p paStandby).event 0 0x11 0x7203))) ∧
  (∀ (s : State) , s.ctl.net.supervisor ≠ none ∧ s.ctl.flag 0 NET_CFG_COMPAT = true ∧ s.ctl.path 0 = paStandby →
    exec (.pathCompatRevert) s = .next (s.ctlTo ((if s.ctl.path 1 = paActive then s.ctl.putPath 1 paStandby
    else s.ctl).makeActive 0))) ∧
  (∀ (s : State) (slot : Fin 16), exec (.sessionIdleTimeout slot) s = .next (s.ctlTo (s.ctl.closeSession slot 1))) ∧
  (∀ (s : State) (sub : Fin 32) (x : Sub) (t : Nat) (b : List Byte) (rest : List (Nat × List Byte)),
    let y := takeRecords t x.records
    let c1 : Ctl := { s.ctl with net := { s.ctl.net with subs := tabSet s.ctl.net.subs sub { x with records := y.2 } } }
    tabFind s.ctl.net.subs sub = some x → x.records = (t, b) :: rest → exec (.eventMessageSend sub) s = .next
    (s.ctlTo (c1.unsolicited x.slot sub 0x05 t (leBytes 1 y.1.length ++ leBytes 3 0 ++ y.1.flatten)))) ∧
  (∀ (s : State) (h : Fin 4), exec (.bulkHandleTimeout h) s = .next
    (s.ctlTo { s.ctl with net := { s.ctl.net with bulks := tabErase s.ctl.net.bulks h } })) ∧
  (∀ (s : State) , exec (.netIpConfigApply) s = .next
    (s.ctlTo { s.ctl with net := { s.ctl.net with ipActive := s.ctl.net.ipPending.foldl (fun a e => tabSet a e.1 e.2) s.ctl.net.ipActive, ipPending := [] } })) ∧
  (∀ (s : State) (p : Fin 2) (l : Lookup), s.ctl.live 0 = true ∧ s.ctl.linkUp p = true → exec (.arpNdpEchoReceive p l) s = .next
    (s.ctlTo (match l with
        | .arpRequest a b mac => if s.ctl.ip NET_P_IP4_EN p ≠ 0 ∧ a.toNat = s.ctl.ip NET_P_IP4_ADDR p then
            (s.ctl.learn p b.toNat mac.toNat).answerLookup p 0 else s.ctl
        | .arpReply a mac => if s.ctl.ip NET_P_IP4_EN p ≠ 0 then s.ctl.learn p a.toNat mac.toNat else s.ctl
        | .ndpSolicit a b mac => if s.ctl.ip NET_P_IP6_EN p ≠ 0 ∧ a.toNat = s.ctl.ip6 p then
            (s.ctl.learn p b.toNat mac.toNat).answerLookup p 1 else s.ctl
        | .ndpAdvert a mac => if s.ctl.ip NET_P_IP6_EN p ≠ 0 then s.ctl.learn p a.toNat mac.toNat else s.ctl
        | .routerAdvert a mac => if s.ctl.ip NET_P_IP6_EN p ≠ 0 then
            Ctl.learn { s.ctl with net := { s.ctl.net with routers := tabSet s.ctl.net.routers p a.toNat } } p a.toNat mac.toNat
            else s.ctl
        | .echo4 a => if s.ctl.ip NET_P_IP4_EN p ≠ 0 ∧ a.toNat = s.ctl.ip NET_P_IP4_ADDR p then s.ctl.answerLookup p 2
            else s.ctl
        | .echo6 a => if s.ctl.ip NET_P_IP6_EN p ≠ 0 ∧ a.toNat = s.ctl.ip6 p then s.ctl.answerLookup p 3 else s.ctl)))

/-- R361, R363 to R365, R367, R370, R371, R374, R375: sessions opened and closed, subscriptions, bulk transfers, the
supervising session and role keys. Nonces and session identities are free values, the two hash functions opaque (assumption
3). -/
def Obligations.NetworkCommandsComplete : Prop :=
  (∀ (s : State) (d : Datagram) (key : List Byte) (slot : Nat),
    let role := beNat ((d.payload.drop 4).take 1)
    let y := s.ctl.free.2.free
    let id := y.2.newId s.ctl.free.1
    let nm := beBytes 16 y.1
    let ks := Config.hmacSha256 key ([0x53, 0x4B, 0x56, 0x53] ++ (d.payload.drop 8).take 16 ++ nm ++ beBytes 4 id)
    let c1 :=
        y.2.setSession slot { open_ := true, role := roleOf role, id := id, key := ks, v1 := decide (d.version = 1), peers := [(d.path.val, d.src)] }
    s.ctl.arrives 0x03 d = none ∧ d.asType = none → s.ctl.formatOk d = true → beNat (d.payload.take 2) = 0x7001 ∧
    d.payload.length = 24 ∧ d.tile = 0xFF ∧ d.status = 0 ∧ d.session = 0 → role ≤ 3 → tabFind s.ctl.net.keys role = some key →
    dgMac d 0x03 key = d.mac → (List.range 16).find? (fun i => !(s.ctl.session i).open_) = some slot →
    exec (.netOpen d) s = .next (s.ctlTo ((c1.event 0 0x11 0x7205 0 (leBytes 1 role
    ++ leBytes 4 id)).openResp d eOk (beBytes 4 id ++ nm) (some key)))) ∧
  (∀ (s : State) (d : Datagram) (q : Req) (c' : Ctl), Delivered s.ctl 0x7002 d q c' → anyHost.contains q.role = true →
    q.args.length = 0 → exec (.netClose d) s = .next (s.replied d q { mem := s.mem, ctl := c', closes := true })) ∧
  (∀ (s : State) (d : Datagram) (q : Req) (c' : Ctl) (kind : SubKind) (n : Nat), Delivered s.ctl 0x7003 d q c' →
    ¬ (q.arg 0 1 = 2 ∧ q.role = .observer) → q.subKind = some kind → q.arg 0 1 ≤ 2 ∧ c'.subPresent kind = true ∧
    q.v1 = false ∧ subInRange kind = true → c'.subsOf q.slot < 8 ∧ c'.net.subs.length < 32 →
    (List.range 32).find? (fun i => (tabFind c'.net.subs i).isNone) = some n → exec (.netSubscribe d) s = .next
    (s.replied d q { mem := s.mem, result := leBytes 1 n, ctl := { c' with net := { c'.net with subs := tabSet c'.net.subs n { slot := q.slot, kind := kind } } } })) ∧
  (∀ (s : State) (d : Datagram) (q : Req) (c' : Ctl) (x : Sub), Delivered s.ctl 0x7004 d q c' → anyHost.contains q.role = true →
    q.args.length = 1 → tabFind c'.net.subs (q.arg 0 1) = some x → x.slot = q.slot → exec (.netUnsubscribe d) s = .next
    (s.repliedOk d q { c' with net := { c'.net with subs := tabErase c'.net.subs (q.arg 0 1) } })) ∧
  (∀ (s : State) (d : Datagram) (q : Req) (c' : Ctl) (n : Nat), Delivered s.ctl 0x7005 d q c' →
    q.role = .engineer ∨ q.role = .safety → q.args.length = 4 → q.v1 = false ∧ 1 ≤ q.arg 0 4 ∧ q.arg 0 4 ≤ 65536 →
    c'.net.bulks.length < 4 → (List.range 4).find? (fun i => (tabFind c'.net.bulks i).isNone) = some n →
    exec (.netBulkOpen d) s = .next
    (s.replied d q { mem := s.mem, result := leBytes 1 n, ctl := { c' with net := { c'.net with bulks := tabSet c'.net.bulks n { slot := q.slot, len := q.arg 0 4 } } } })) ∧
  (∀ (s : State) (d : Datagram) (slot : Nat) (c' : Ctl) (b : Bulk),
    let x := c'.session slot
    let q : Req := { role := x.role, id := x.id, slot := slot, seq := d.seq.toNat, v1 := x.v1, args := d.payload }
    let data := d.payload.drop 8
    s.ctl.receive 0x09 d = .accepted slot c' → d.asType = none ∧ d.status = 0 ∧ d.tile = 0xFF ∧ d.version = 2 →
    9 ≤ d.payload.length ∧ d.payload.length ≤ 1032 → x.waiting.length < 32 → tabFind c'.net.bulks (q.arg 0 1) = some b →
    b.slot = slot ∧ q.arg 4 4 + data.length ≤ b.len → exec (.chpBulkReceive d) s = .next
    (s.repliedOk d q { c' with net := { c'.net with bulks := tabSet c'.net.bulks (q.arg 0 1) { b with data := bulkStore b.data (q.arg 4 4) data } } })) ∧
  (∀ (s : State) (d : Datagram) (q : Req) (c' : Ctl), Delivered s.ctl 0x7006 d q c' →
    q.role = .operator ∨ q.role = .engineer ∨ q.role = .safety → q.args.length = 1 → q.arg 0 1 = 1 →
    c'.net.supervisor = none ∨ c'.net.supervisor = some q.slot → exec (.netSupervise d) s = .next
    (s.repliedOk d q (c'.supervise q.slot))) ∧
  (∀ (s : State) (d : Datagram) (q : Req) (c' : Ctl), Delivered s.ctl 0x7006 d q c' →
    q.role = .operator ∨ q.role = .engineer ∨ q.role = .safety → q.args.length = 1 → q.arg 0 1 = 0 →
    c'.net.supervisor = some q.slot → exec (.netSuperviseRelease d) s = .next (s.repliedOk d q c'.unsupervise)) ∧
  (∀ (s : State) (d : Datagram) (q : Req) (c' : Ctl),
    let key := xorBytes (q.bytes 4 32) (Config.hmacSha256 (c'.session q.slot).key ([0x53, 0x4B, 0x56, 0x4B]
        ++ beBytes 4 q.seq))
    Delivered s.ctl 0x7007 d q c' → mayKey q.role (q.arg 0 1) = true → q.args.length = 40 → q.arg 0 1 ≤ 3 →
    (Config.hmacSha256 key [0x53, 0x4B, 0x56, 0x43]).take 4 = q.bytes 36 4 → exec (.netKey d) s = .next
    (s.repliedOk d q { c' with net := { c'.net with keys := tabSet c'.net.keys (q.arg 0 1) key } }))

/-- R50, R321 to R326, R476: what a mode command starts, what the end of the commits of an entry does, and the writes of
MOD_TILE_CTRL. -/
def Obligations.PowerModeCommandsComplete : Prop :=
  (∀ (s : State) (d : Datagram) (q : Req) (c' : Ctl),
    let wake := q.arg 0 4
    let x := shutdownStart 6 .standby (s.mem, { c' with pw := { c'.pw with wake := wake } })
    Delivered s.ctl 0x0001 d q c' → modeRoles.contains q.role = true → q.args.length = 4 → wake = 0 ∨ (60 ≤ wake ∧
    wake ≤ 604800) → c'.leaveCode = eOk → exec (.modeStandby d) s = .next (s.replied d q { mem := x.1, ctl := x.2 })) ∧
  (∀ (s : State) (d : Datagram) (q : Req) (c' : Ctl), Delivered s.ctl 0x0002 d q c' → engRoles.contains q.role = true →
    q.args.length = 0 → c'.leaveCode = eOk → exec (.modeChrysalis d) s = .next
    (s.repliedOk d q (Ctl.commitAll { c' with pw := { c'.pw with leaving := .chrysalis } } 3))) ∧
  (∀ (s : State) (d : Datagram) (q : Req) (c' : Ctl), Delivered s.ctl 0x0003 d q c' → modeRoles.contains q.role = true →
    q.args.length = 0 → c'.pw.mode = .run → exec (.modeRun d) s = .next (s.repliedOk d q c')) ∧
  (∀ (s : State) ,
    let cause := if s.ctl.pw.leaving = .standby then 6 else 7
    let x := (settle 0 (s.mem, s.ctl.storeOptime.event 0 0x01 0x0131 0 (leBytes 1 cause))).on Ctl.sendEvents
    let y : MC := if cause = 6 then settle 0 (x.on (fun c => c.event 0 0x01 0x0110)) else x
    let z :=
        (resetAll .module tsHeld y).on (fun c => { c with pw := { c.pw with held := true }, net := { c.net with sent := y.2.net.sent } })
    s.ctl.pw.leaving = .standby ∨ s.ctl.pw.leaving = .eject → s.ctl.pw.held = false ∧ s.ctl.anyCommit = false →
    exec (.shutdownCommitDone) s = .next (s.allTo z)) ∧
  (∀ (s : State) ,
    let wake := s.ctl.pw.wake
    let x := resetAll .standby tsOff (s.mem, s.ctl)
    s.ctl.pw.leaving = .standby ∧ s.ctl.pw.held = true → exec (.standbyPowerOff) s = .next
    (s.allTo (x.on (fun c => { c with pw := { c.pw with mode := .standby, leaving := .none, held := false, wake := 0, warned := false, warnDue := false, wakeAt := if wake = 0 then none else some (c.get 0 TIME_AON_SEC + wake) } })))) ∧
  (∀ (s : State)  (a : Nat), s.ctl.pw.wakeAt = some a → s.ctl.pw.mode = .standby ∧ s.ctl.pw.ejectLow = false →
    exec (.standbyWakeTime) s = .next
    (s.allTo (startTimeline [TILE_RESET_CAUSE_POWER] (resetAll .standby tsBoot (s.mem, (s.ctl.put 0 TIME_AON_SEC (if s.ctl.get 0 TIME_AON_SEC < a then
    a else s.ctl.get 0 TIME_AON_SEC)).put 0 PWR_WAKE_CAUSE 2))))) ∧
  (∀ (s : State) ,
    let x := chrysalisStep (s.mem, s.ctl)
    s.ctl.pw.leaving = .chrysalis → exec (.chrysalisInputSwitchOpen) s = .next (s.allTo (if x.2.pw.held = true then
    (powerLost x).on (fun c => { c with pw := { c.pw with mode := .chrysalis, charged := false } }) else x))) ∧
  (∀ (s : State) , s.ctl.pw.mode = .chrysalis → exec (.wakeComparatorArm) s = .next
    (s.ctlTo { s.ctl with pw := { s.ctl.pw with armed := true } })) ∧
  (∀ (s : State) , s.ctl.pw.mode = .chrysalis ∧ s.ctl.pw.armed = true → exec (.chrysalisWake) s = .next
    (s.ctlTo { s.ctl with pw := { s.ctl.pw with mode := .off, armed := false, charged := false } })) ∧
  (∀ (s : State) (o : Origin) (t : TileId),
    let v := setBit s.ctl.holdBits t true
    let x := tileCtrlDown t (bit v (8 + t)) (s.mem, s.ctl.put 0 MOD_TILE_CTRL_HOLD (bitsOf v 9 7))
    accessorFitted s.ctl o = true → s.ctl.reachedBy o 0 = true →
    (s.ctl.isSystem o = true ∨ isRole o .engineer = true ∨ isRole o .management = true) → 1 ≤ t.val →
    s.ctl.tileCtrlCode v [t.val] [] [] = eOk → exec (.tileReset o t) s = .next (s.allTo (x.1, x.2.answer o 0x13 eOk))) ∧
  (∀ (s : State) (o : Origin) (t : TileId),
    let v := setBit s.ctl.holdBits (8 + t) true
    let x := tileCtrlDown t true (s.mem, s.ctl.put 0 MOD_TILE_CTRL_HOLD (bitsOf v 9 7))
    accessorFitted s.ctl o = true → s.ctl.reachedBy o 0 = true →
    (s.ctl.isSystem o = true ∨ isRole o .engineer = true ∨ isRole o .management = true) → 1 ≤ t.val →
    bit s.ctl.holdBits (8 + t) = false → s.ctl.tileCtrlCode v [] [t.val] [t.val] = eOk → exec (.tileHold o t) s = .next
    (s.allTo (x.1, x.2.answer o 0x13 eOk))) ∧
  (∀ (s : State) (o : Origin) (t : TileId),
    let v := setBit s.ctl.holdBits (8 + t) false
    let c1 := s.ctl.put 0 MOD_TILE_CTRL_HOLD (bitsOf v 9 7)
    accessorFitted s.ctl o = true → s.ctl.reachedBy o 0 = true →
    (s.ctl.isSystem o = true ∨ isRole o .engineer = true ∨ isRole o .management = true) → 1 ≤ t.val →
    bit s.ctl.holdBits (8 + t) = true → s.ctl.tileCtrlCode v [] [t.val] [] = eOk → exec (.tileHoldRelease o t) s = .next
    (s.ctlTo ((if c1.tileState t = tsHeld ∧ c1.pw.mrstLow = false ∧ c1.pw.held = false then c1.put t TILE_STATUS_STATE tsBoot
    else c1).answer o 0x13 eOk)))

/-- R321, R325, R328 to R330, R351, R467, R470, R472 to R479, R496, R497: what each event on the power inputs and lines
changes, and what start-up does. Energies and temperatures are measured (assumption 2); DRAM keeps its bytes over a loss of
power (R468). -/
def Obligations.PowerEventsComplete : Prop :=
  (∀ (s : State) , s.ctl.pw.vin = false → exec (.vin48Applied) s = .next
    (s.ctlTo { s.ctl with pw := { s.ctl.pw with vin := true, charged := false } })) ∧
  (∀ (s : State) , s.ctl.pw.mode = .off ∧ s.ctl.pw.vin = true → exec (.prechargeComplete) s = .next
    (s.ctlTo { s.ctl with pw := { s.ctl.pw with charged := true } })) ∧
  (∀ (s : State) , s.ctl.pw.mode = .off ∧ s.ctl.pw.vin = true ∧ s.ctl.pw.charged = true ∧ s.ctl.pw.ejectLow = false →
    exec (.inputPowerGood) s = .next (s.allTo (powerUp (s.mem, s.ctl)))) ∧
  (∀ (s : State) , exec (.modulePowerUp) s = .next (s.allTo (powerUp (s.mem, s.ctl)))) ∧
  (∀ (s : State) (d : VinDip), d = .removed → exec (.vin48Dip d) s = .next
    (s.allTo ((powerLost (s.mem, s.ctl)).on (fun c => { c with pw := { c.pw with vin := false, charged := false } })))) ∧
  (∀ (s : State) (d : VinDip), d = .below30 → s.ctl.pw.mode = .off → exec (.vin48Dip d) s = .next
    (s.ctlTo { s.ctl with pw := { s.ctl.pw with charged := false } })) ∧
  (∀ (s : State) (d : VinDip), d = .below34 ∨ (d = .below30 ∧ s.ctl.pw.mode ≠ .off) → exec (.vin48Dip d) s = .next
    (s.ctlTo s.ctl)) ∧
  (∀ (s : State) , s.ctl.pw.mrstLow = false → s.ctl.pw.mode = .run ∧ s.ctl.pw.leaving = .none → exec (.mrstAssert) s = .next
    (s.allTo (resetAll .module tsHeld (s.mem, { s.ctl with pw := { s.ctl.pw with mrstLow := true, mrstMs := 0 } })))) ∧
  (∀ (s : State) , s.ctl.pw.mrstLow = false → s.ctl.pw.mode = .run ∧ s.ctl.pw.leaving = .eject ∧ s.ctl.pw.held = false →
    exec (.mrstAssert) s = .next
    (s.allTo ((resetAll .module tsHeld (s.mem, { s.ctl with pw := { s.ctl.pw with mrstLow := true, mrstMs := 0 } })).on (fun c => { c with pw := { c.pw with held := true } })))) ∧
  (∀ (s : State) , s.ctl.pw.mrstLow = false → ¬ (s.ctl.pw.mode = .run ∧ s.ctl.pw.leaving = .none) ∧ ¬ (s.ctl.pw.mode = .run ∧
    s.ctl.pw.leaving = .eject ∧ s.ctl.pw.held = false) → exec (.mrstAssert) s = .next
    (s.ctlTo { s.ctl with pw := { s.ctl.pw with mrstLow := true, mrstMs := 0 } })) ∧
  (∀ (s : State) , s.ctl.pw.mrstLow = true → s.ctl.pw.mode = .run ∧ s.ctl.pw.leaving = .none → exec (.mrstRelease) s = .next
    (s.allTo (moduleReset (s.mem, { s.ctl with pw := { s.ctl.pw with mrstLow := false } })))) ∧
  (∀ (s : State) , s.ctl.pw.mrstLow = true → s.ctl.pw.mode = .standby → exec (.mrstRelease) s = .next
    (s.allTo (standbyExit 3 (s.mem, { s.ctl with pw := { s.ctl.pw with mrstLow := false } })))) ∧
  (∀ (s : State) , s.ctl.pw.ejectLow = false → s.ctl.pw.mode = .run ∧ s.ctl.pw.leaving = .none → exec (.ejectAssert) s = .next
    (s.allTo (shutdownStart 7 .eject (s.mem, { s.ctl with pw := { s.ctl.pw with ejectLow := true } })))) ∧
  (∀ (s : State) , s.ctl.pw.mode = .run ∧ s.ctl.pw.leaving = .eject ∧ s.ctl.pw.held = true →
    exec (.ejectReleaseRestart) s = .next
    (s.allTo (moduleReset (s.mem, { s.ctl with pw := { s.ctl.pw with ejectLow := false } })))) ∧
  (∀ (s : State) ,
    let c1 := Ctl.commitAll { s.ctl with pw := { s.ctl.pw with warned := true, warnDue := true } } 4
    s.ctl.pw.mode = .run ∧ s.ctl.pw.warned = false → exec (.powerFailWarning) s = .next
    (s.allTo ((List.range c1.tiles).foldl (fun (x : MC) t => settle t x) (s.mem, c1)))) ∧
  (∀ (s : State) , s.ctl.pw.warned = true → exec (.powerFailWithdrawn) s = .next
    (s.ctlTo (Ctl.event { s.ctl with pw := { s.ctl.pw with warned := false } } 0 0x01 0x0133))) ∧
  (∀ (s : State) (t : TileId) (clock : Fin 5), t.val < s.ctl.tiles → exec (.clockFault t clock) s = .next
    (s.ctlTo (((s.ctl.put t PWR_STATUS_CLK_FAULT 1).event t 0x01 0x0106 0 (leBytes 4 (clock.val + 2))).tileFault t TILE_RESET_CAUSE_FAULT .fault))) ∧
  (∀ (s : State) (t : TileId) (m : Margin),
    let code := s.ctl.get t PWR_AVS_CODE
    let c1 := if m = .tooSmall then s.ctl else s.ctl.put t PWR_STATUS_AVS_LIMIT 0
    t.val < s.ctl.tiles → exec (.avsStep t m) s = .next (s.ctlTo (if m = .tooSmall then (if code < 40 then
    s.ctl.put t PWR_AVS_CODE (code + 1) else if s.ctl.flag t PWR_STATUS_AVS_LIMIT = true then s.ctl
    else (s.ctl.put t PWR_STATUS_AVS_LIMIT 1).event t 0x01 0x0105)
        else if s.ctl.flag t PWR_AVS_FIX_EN = true ∧ code < s.ctl.get t PWR_AVS_FIX then c1.put t PWR_AVS_CODE (code + 1)
        else if (s.ctl.flag t PWR_AVS_FIX_EN = true ∧ s.ctl.get t PWR_AVS_FIX < code) ∨ (s.ctl.flag t PWR_AVS_FIX_EN = false ∧
    m = .spare) then c1.put t PWR_AVS_CODE (code - 1) else c1))) ∧
  (∀ (s : State) (t : TileId), t.val < s.ctl.tiles → s.ctl.flag t PWR_STATUS_AVS_LIMIT = true →
    exec (.avsMarginFault t) s = .next (s.ctlTo (s.ctl.tileFault t TILE_RESET_CAUSE_FAULT .fault))) ∧
  (∀ (s : State) (t : TileId), t.val < s.ctl.tiles → exec (.tjFault t) s = .next
    (s.ctlTo (((s.ctl.put t PWR_STATUS_TJ_FAULT 1).event t 0x01 0x0107).tileFault t TILE_RESET_CAUSE_FAULT .fault))) ∧
  (∀ (s : State) (t : TileId) (eHw : Word) (tj : BitVec 16) (mw : Word),
    let z := dmaLand t (s.mem, s.ctl)
    let c0 := if z.2.tileState t = tsOff then z.2 else z.2.berylTick t
    let cs := c0.loopSettled t
    let ct := Ctl.timelyLock { cs with ticks := tabSet cs.ticks t (tabGet 0 cs.ticks t + 1) } t
    let c1 := ct.tileTimers t
    let c2 := if t.val = 0 ∧ c1.live 0 = true then c1.moduleTimers else c1
    t.val < s.ctl.tiles → c0.tileState t ≠ tsOff ∧ c0.tileState t ≠ tsHeld ∧ c0.tileState t ≠ tsFault →
    exec (.governorTick t eHw tj mw) s = .next
    (s.allTo (z.1, Ctl.sameCycle z.2 (((c2.ageStep t).governorTick t eHw.toNat tj.toInt mw.toNat).judge t)))) ∧
  (∀ (s : State) (t : TileId), t.val < s.ctl.tiles → s.ctl.boots t = true → exec (.tileEnterRun t) s = .next
    (s.allTo (enterRun t (s.mem, s.ctl)))) ∧
  (∀ (s : State) (t : TileId),
    let c1 := s.ctl.tileFault t TILE_RESET_CAUSE_FAULT .fault
    t.val < s.ctl.tiles → s.ctl.tileState t = tsBoot → exec (.tileRunTimeout t) s = .next
    (s.ctlTo (Ctl.sameCycle s.ctl (c1.event (c1.recorderOf t) 0x01 0x0134)))) ∧
  (∀ (s : State) ,
    let up := (List.range s.ctl.tiles).filter (fun t => s.ctl.running t)
    let z :=
        up.foldl (fun (z : MC) t => Machine.balMode t 1 z) (s.mem, { s.ctl with pw := { s.ctl.pw with readyDue := false } })
    let a := z.2.measure
    let b := a.2.measure
    let d := b.2.measure
    let e := d.2.measure
    s.ctl.pw.readyDue = true ∧ up ≠ [] → up.any (fun t => !(s.ctl.estOf t).passed || (s.ctl.estOf t).reload.isSome) = false →
    exec (.estimationReady) s = .next (s.allTo (z.1, e.2.event 0 0x01 0x0130 0 (leBytes 4 a.1 ++ leBytes 4 b.1
    ++ leBytes 4 d.1 ++ leBytes 4 e.1))))

/-- R365, R368, R439: under conditions on the state and the operands alone each of the four commands answers the next state of
its own effect. A write of a register word that its block accepts (the code is OK and no violation is counted) has the block's
effect and is answered OK; at EVT_MARK, from an accessor that may configure and with a COUNT of 1 to 1,048,576, it sets EN and
COUNT. A READ that is accepted, of 1 to 1,024 bytes that the role may read, is answered with the bytes read: of registers
their words, elsewhere the bytes of memory. A WRITE that is accepted, of 1 to 1,024 bytes that the role may write, stores its
bytes; at registers that take every word it writes each word. A TELEM copy that is due is sent with SUB, the frame of the
trigger, the dispatch cycle and its ranges, and is due no more. -/
def Obligations.RegisterAndHostAccessComplete : Prop :=
  (∀ (s : State) (t : TileId) (o : Origin) (k : Fin 20) (off : Fin 16384) (w : Word),
    let x := regWrite s.mem s.ctl o t k (4 * off.val) w.toNat
    accessorFitted s.ctl o = true → s.ctl.reachedBy o t = true → x.2 = eOk →
    violates s.ctl o (fun c => (regWrite s.mem c o t k (4 * off.val) w.toNat).1.2) = false →
    exec (.registerWrite t o k off w) s = .next (s.allTo (x.1.1, x.1.2.answer o k eOk))) ∧
  (∀ (s : State) (t : TileId) (o : Origin) (k : Fin 20) (off : Fin 16384) (w : Word), accessorFitted s.ctl o = true →
    s.ctl.reachedBy o t = true → s.ctl.mayConfig o = true → k.val = 0x0D ∧ off.val = 3 → 1 ≤ bitsOf w.toNat 0 21 ∧
    bitsOf w.toNat 0 21 ≤ 1048576 → exec (.registerWrite t o k off w) s = .next
    (s.accessed o 0x0D (((s.ctl.put t EVT_MARK_EN (bitsOf w.toNat 31 1)).put t EVT_MARK_COUNT (bitsOf w.toNat 0 21)).configCopied t))) ∧
  (∀ (s : State) (d : Datagram) (slot : Nat) (c' : Ctl),
    let x := c'.session slot
    let q : Req := { role := x.role, id := x.id, slot := slot, seq := d.seq.toNat, v1 := x.v1, args := d.payload }
    let a := q.arg 0 5
    let n := q.arg 6 2
    let off := a % 2 ^ 36
    s.ctl.receive 0x01 d = .accepted slot c' → d.asType = none ∧ d.status = 0 ∧ tileMatches d = true ∧ d.payload.length = 8 →
    x.waiting.length < 32 → (regionsOf off n).any (fun g => !hostGrant q.role false g) = false → c'.hostCode a n false = eOk →
    1 ≤ n ∧ n ≤ 1024 → rangeOf off ≠ 2 → exec (.hostRead d) s = .next
    (s.replied d q { mem := s.mem, ctl := c', result := c'.bytesAt s.mem (a / 2 ^ 36) off n })) ∧
  (∀ (s : State) (d : Datagram) (slot : Nat) (c' : Ctl),
    let x := c'.session slot
    let q : Req := { role := x.role, id := x.id, slot := slot, seq := d.seq.toNat, v1 := x.v1, args := d.payload }
    let a := q.arg 0 5
    let n := q.arg 6 2
    let off := a % 2 ^ 36
    let y := hostWords s.mem q.origin (a / 2 ^ 36) (wordOffs off n) c'
    s.ctl.receive 0x01 d = .accepted slot c' → d.asType = none ∧ d.status = 0 ∧ tileMatches d = true ∧ d.payload.length = 8 →
    x.waiting.length < 32 → (regionsOf off n).any (fun g => !hostGrant q.role false g) = false → c'.hostCode a n false = eOk →
    1 ≤ n ∧ n ≤ 1024 → rangeOf off = 2 →
    (wordOffs (off / 4 * 4) (off % 4 + n + 3)).any (fun w => systemRead (a / 2 ^ 36) (blockOf w) (blockOff w)) = false →
    exec (.hostRead d) s = .next (s.replied d q { mem := s.mem, ctl := y.2, result := y.1 })) ∧
  (∀ (s : State) (d : Datagram) (slot : Nat) (c' : Ctl),
    let x := c'.session slot
    let q : Req := { role := x.role, id := x.id, slot := slot, seq := d.seq.toNat, v1 := x.v1, args := d.payload }
    let a := q.arg 0 5
    let n := q.arg 6 2
    let off := a % 2 ^ 36
    s.ctl.receive 0x02 d = .accepted slot c' → d.asType = none ∧ d.status = 0 ∧ tileMatches d = true ∧ 8 ≤ d.payload.length ∧
    d.payload.length = 8 + beNat ((d.payload.drop 6).take 2) → x.waiting.length < 32 →
    (regionsOf off n).any (fun g => !hostGrant q.role true g) = false → rangeOf off ≠ 2 → c'.hostCode a n true = eOk → 1 ≤ n ∧
    n ≤ 1024 → exec (.hostWrite d) s = .next
    (s.replied d q { mem := storeAt s.mem (a / 2 ^ 36) off (q.bytes 8 n), ctl := c' })) ∧
  (∀ (s : State) (d : Datagram) (slot : Nat) (c' : Ctl),
    let x := c'.session slot
    let q : Req := { role := x.role, id := x.id, slot := slot, seq := d.seq.toNat, v1 := x.v1, args := d.payload }
    let a := q.arg 0 5
    let n := q.arg 6 2
    let off := a % 2 ^ 36
    let data := q.bytes 8 n
    let words : Nat → List (Nat × Nat) :=
        fun n => (wordOffs (off / 4 * 4) n).map (fun v => (v, leNat ((data.drop (v - off / 4 * 4)).take 4)))
    let y := writeWords q.origin (a / 2 ^ 36) (words n) ((s.mem, c'), eOk)
    s.ctl.receive 0x02 d = .accepted slot c' → d.asType = none ∧ d.status = 0 ∧ tileMatches d = true ∧ 8 ≤ d.payload.length ∧
    d.payload.length = 8 + beNat ((d.payload.drop 6).take 2) → x.waiting.length < 32 →
    (regionsOf off n).any (fun g => !hostGrant q.role true g) = false → rangeOf off = 2 →
    (words (off % 4 + n + 3)).any (fun v => violates c' q.origin (fun c => (regWrite s.mem c q.origin (a / 2 ^ 36) (blockOf v.1) (blockOff v.1) v.2).1.2)) = false →
    c'.hostCode a n true = eOk → 1 ≤ n ∧ n ≤ 1024 → y.2 = eOk → exec (.hostWrite d) s = .next
    (s.replied d q { mem := y.1.1, ctl := y.1.2 })) ∧
  (∀ (s : State) (sub : Fin 32) (x : Sub) (tile trigger decim : Nat) (ranges : List (Nat × Nat)),
    let c1 : Ctl := { s.ctl with net := { s.ctl.net with subs := tabSet s.ctl.net.subs sub { x with due := false } } }
    let y := c1.session x.slot
    let z := ranges.foldl (telemRange s.mem y.role (.host y.role y.id)) ([], c1)
    let c2 : Ctl := { z.2 with status := s.ctl.status }
    tabFind s.ctl.net.subs sub = some x → x.kind = .telem tile trigger decim ranges → x.due = true →
    exec (.telemCopy sub) s = .next (s.ctlTo (c2.unsolicited x.slot sub 0x06 tile (leBytes 1 sub.val ++ leBytes 3 0
    ++ beBytes 4 x.frame ++ beBytes 4 s.ctl.bank.tick ++ z.1))))

/-- R397, R399, R400, R403 to R406, R408 to R410: transfers to and from the side-band space, commands through its request
area, and jobs of the controller role. How many bytes a job had written as it lost arbitration is a free value (assumption
63). -/
def Obligations.TwoWireBusComplete : Prop :=
  (∀ (s : State) (x : TargetRead),
    let c1 := s.ctl.busAfter x.stop
    let out := (List.range x.n.toNat).map (fun i => s.ctl.sideByte s.mem ((s.ctl.twb.ptr + i) % 65536))
    s.ctl.twbOn = true → exec (.twbTargetRead x) s = .next
    (s.ctlTo { c1 with twb := { c1.twb with out := out, ptr := (c1.twb.ptr + x.n.toNat) % 65536 } })) ∧
  (∀ (s : State) (x : TargetWrite) (hi lo b : Byte) (rest : List Byte),
    let p := hi.toNat * 256 + lo.toNat
    let page := p / 64 * 64
    let c1 := s.ctl.busAfter x.stop
    let c2 : Ctl := { c1 with twb := { c1.twb with ptr := page + (p + (b :: rest).length) % 64 } }
    let y := sideApply s.mem c2 page (stageBytes p (b :: rest) [])
    s.ctl.twbOn = true → x.bytes = hi :: lo :: b :: rest → exec (.twbTargetWrite x) s = .next
    (s.allTo (y.1.on (fun c => { c with twb := { c.twb with lastWr := y.2, wrCount := (c.twb.wrCount + 1) % 65536 } })))) ∧
  (∀ (s : State) (x : TargetWrite) (hi lo : Byte),
    let p := hi.toNat * 256 + lo.toNat
    let c1 := s.ctl.busAfter x.stop
    s.ctl.twbOn = true → x.bytes = [hi, lo] → exec (.twbTargetWrite x) s = .next
    (s.ctlTo { c1 with twb := { c1.twb with ptr := p / 64 * 64 + p % 64 } })) ∧
  (∀ (s : State) (x : TargetWrite), s.ctl.twbOn = true → x.bytes.length < 2 → exec (.twbTargetWrite x) s = .next
    (s.ctlTo (s.ctl.busAfter x.stop))) ∧
  (∀ (s : State) ,
    let c1 := s.ctl.busAfter true
    let x := sideGo s.mem { c1 with twb := { c1.twb with ptr := 0x101 } }
    s.ctl.twbOn = true → s.ctl.twb.state ≠ 1 → exec (.sidebandGo) s = .next
    (s.allTo (x.on (fun c => { c with twb := { c.twb with lastWr := eOk, wrCount := (c.twb.wrCount + 1) % 65536 } })))) ∧
  (∀ (s : State) (path : Byte) (addr : Word) (pfx : Byte) (gw : Word),
    let c1 := s.ctl.busAfter true
    let args := [path] ++ beBytes 4 addr.toNat ++ [pfx] ++ beBytes 4 gw.toNat
    let area := stageBytes 0x104 (beBytes 2 0x9001 ++ beBytes 2 10 ++ args) []
    let c2 := Ctl.putReq { c1 with twb := { c1.twb with ptr := 0x112 } } 0 area
    let c3 : Ctl := { c2 with twb := { c2.twb with lastWr := eOk, wrCount := (c2.twb.wrCount + 1) % 65536 } }
    let c4 := c3.busAfter true
    let x := sideGo s.mem { c4 with twb := { c4.twb with ptr := 0x101 } }
    s.ctl.twbOn = true → s.ctl.twb.state ≠ 1 → exec (.sbIp4 path addr pfx gw) s = .next
    (s.allTo (x.on (fun c => { c with twb := { c.twb with lastWr := eOk, wrCount := (c.twb.wrCount + 1) % 65536 } })))) ∧
  (∀ (s : State) ,
    let c1 := s.ctl.busAfter true
    let area := stageBytes 0x104 (beBytes 2 0x9002 ++ beBytes 2 0) []
    let c2 := Ctl.putReq { c1 with twb := { c1.twb with ptr := 0x108 } } 0 area
    let c3 : Ctl := { c2 with twb := { c2.twb with lastWr := eOk, wrCount := (c2.twb.wrCount + 1) % 65536 } }
    let c4 := c3.busAfter true
    let x := sideGo s.mem { c4 with twb := { c4.twb with ptr := 0x101 } }
    s.ctl.twbOn = true → s.ctl.twb.state ≠ 1 → exec (.sbModuleReset) s = .next
    (s.allTo (x.on (fun c => { c with twb := { c.twb with lastWr := eOk, wrCount := (c.twb.wrCount + 1) % 65536 } })))) ∧
  (∀ (s : State) ,
    let ms := if s.ctl.pw.mrstLow = true then satAdd 32 s.ctl.pw.mrstMs 1 else s.ctl.pw.mrstMs
    let aon := if s.ctl.live 0 = true then s.ctl.pw.aonMs else s.ctl.pw.aonMs + 1
    let c1 := if 1000 ≤ aon then s.ctl.incMod 0 TIME_AON_SEC else s.ctl
    let c2 : Ctl :=
        { c1 with pw := { c1.pw with mrstMs := ms, aonMs := aon % 1000 }, optime := if c1.live 0 = true then c1.optime else satAdd 48 c1.optime 1 }
    s.ctl.twbOn = true → exec (.twbStatusRefresh) s = .next
    (s.ctlTo { c2 with twb := { c2.twb with page := c2.statusPage } })) ∧
  (∀ (s : State) , s.ctl.twbOn = true → exec (.twbTargetTimeout) s = .next
    (s.ctlTo ((s.ctl.inc 0 TWB_COUNT_TIMEOUTS).twbEvent 0x9003 []))) ∧
  (∀ (s : State) , s.ctl.twbOn = true → exec (.twbBusFree) s = .next (s.ctlTo (s.ctl.put 0 TWB_STATUS_BUS_BUSY 0
    |>.put 0 TWB_STATUS_SCL 1 |>.put 0 TWB_STATUS_SDA 1))) ∧
  (∀ (s : State) (o : Origin) (w : Word),
    let v := w.toNat
    let a := jobAddr v
    let c1 := s.ctl.put 0 TWB_JOB_RETRIES (bitsOf v 29 2) |>.put 0 TWB_JOB_ADDR a |>.put 0 TWB_JOB_WLEN (jobWlen v)
        |>.put 0 TWB_JOB_RLEN (jobRlen v)
    accessorFitted s.ctl o = true → s.ctl.reachedBy o 0 = true → s.ctl.isSystem o = true → bit v 31 = true →
    a ≠ s.ctl.twb.taddr ∧ 8 ≤ a ∧ a < 0x78 ∧ jobWlen v ≤ 64 ∧ jobRlen v ≤ 64 → s.ctl.flag 0 TWB_RESULT_BUSY = false →
    exec (.twbJobGo o w) s = .next
    (s.accessed o 0x12 (Ctl.put { c1 with twb := { c1.twb with job := v, tries := bitsOf v 29 2, sending := false } } 0 TWB_RESULT_BUSY 1))) ∧
  (∀ (s : State) (b : BusCheck),
    let on :=
        fun c : Ctl => Ctl.put { c with twb := { c.twb with sending := true, jobOut := c.jobBytes } } 0 TWB_STATUS_BUS_BUSY 1
    let c1 := s.ctl.inc 0 TWB_COUNT_CLEARS
    s.ctl.flag 0 TWB_RESULT_BUSY = true ∧ s.ctl.twb.sending = false ∧ s.ctl.twbOn = true → (b = .high →
    s.ctl.flag 0 TWB_STATUS_BUS_BUSY = false) → exec (.twbJobStart b) s = .next (s.ctlTo (match b with
        | .high => on s.ctl
        | .freed => on (((c1.put 0 TWB_STATUS_STUCK 0).put 0 TWB_STATUS_SDA 1).twbEvent 0x9001 [])
        | .stuck => (((c1.put 0 TWB_STATUS_STUCK 1).put 0 TWB_STATUS_SDA 0).twbEnd eTimeout 0).twbEvent 0x9002 []))) ∧
  (∀ (s : State) ,
    let c1 := s.ctl.inc 0 TWB_COUNT_ARB_LOST
    let v := c1.openDone
    s.ctl.twb.sending = true → exec (.twbArbitrationLoss) s = .next (s.ctlTo (if c1.twb.tries = 0 then
    v.2.twbEnd eConflict v.1 else { c1 with twb := { c1.twb with sending := false, tries := c1.twb.tries - 1 } }))) ∧
  (∀ (s : State) (e : JobEnd),
    let v := s.ctl.twb.job
    let stop := fun c : Ctl => (c.put 0 TWB_STATUS_BUS_BUSY 0).put 0 TWB_STATUS_STUCK 0
    s.ctl.twb.sending = true → exec (.twbJobEnd e) s = .next (s.ctlTo (match e with
        | .ok read => ((stop s.ctl).bufStore 0 (read.take (jobRlen v))).twbEnd eOk (jobWlen v)
        | .noAddress again => (stop s.ctl).twbEnd eAbsent (if (again && jobRlen v != 0) = true then jobWlen v else 0)
        | .noData n => (stop s.ctl).twbEnd eBusy (n.toNat % (jobWlen v + 1))
        | .sclLow n => (s.ctl.put 0 TWB_STATUS_SCL 0).twbEnd eTimeout (n.toNat % (jobWlen v + 1)))))

/-- R443 to R445, R448 to R450, R456, R457, R459, R460, R465: download, verification, activation and confirmation of an image.
The checks of a command are those the model computes in activateCode and confirmCode; Eff.imaged records the last code. -/
def Obligations.ImageCommandsComplete : Prop :=
  (∀ (s : State) (d : Datagram) (q : Req) (c' : Ctl),
    let n := q.arg 0 4
    let c1 : Ctl := { c' with img := { c'.img with len := n, granules := [] } }
    Delivered s.ctl 0xB001 d q c' → engRoles.contains q.role = true → q.args.length = 4 → 1024 ≤ n ∧ n ≤ 33554432 ∧
    n % 16 = 0 → c'.img.stage ≠ .activating ∧ c'.img.stage ≠ .trial ∧ c'.img.stage ≠ .fallback ∧ c'.img.stage ≠ .verify →
    exec (.imgBegin d) s = .next
    (s.replied d q (Eff.imaged { mem := memClear s.mem stageAddr 33554432, ctl := (c1.setStage .download).event 0 0x0E 0xB001 0 (leBytes 4 n) }))) ∧
  (∀ (s : State) (d : Datagram) (q : Req) (c' : Ctl) (b : List Byte) (c1 : Ctl),
    let off := q.arg 0 4
    let g := (List.range ((b.length + 1023) / 1024)).map (fun i => off / 1024 + i)
    Delivered s.ctl 0xB002 d q c' → engRoles.contains q.role = true → q.args.length = 5 →
    c'.takeBulk q (q.arg 4 1) = (eOk, b, c1) → c1.img.stage = .download → off % 1024 = 0 ∧ off + b.length ≤ c1.img.len ∧
    (b.length % 1024 = 0 ∨ off + b.length = c1.img.len) → exec (.imgChunk d) s = .next
    (s.replied d q (Eff.imaged { mem := memStore s.mem (stageAddr + off) b, ctl := { c1 with img := { c1.img with granules := c1.img.granules ++ g.filter (fun i => !c1.img.granules.contains i) } } }))) ∧
  (∀ (s : State) (d : Datagram) (q : Req) (c' : Ctl), Delivered s.ctl 0xB003 d q c' → engRoles.contains q.role = true →
    q.args.length = 0 → c'.img.stage = .download ∧ (c'.img.len + 1023) / 1024 ≤ c'.img.granules.length →
    exec (.imgVerify d) s = .next
    (s.replied d q (Eff.imaged { mem := s.mem, later := true, ctl := Ctl.setStage { c' with img := { c'.img with reply := some (q.id, q.seq) } } .verify }))) ∧
  (∀ (s : State) (programOk : Bool),
    let v := verifyCode s.mem s.ctl
    s.ctl.img.stage = .verify → v.1 ≠ eOk → exec (.imgVerifyDone programOk) s = .next (s.ctlTo (s.ctl.verifyFails v.1 v.2))) ∧
  (∀ (s : State) (programOk : Bool),
    let b := s.ctl.inactive
    let c1 := s.ctl.writeBoot (s.ctl.img.boot.with b .empty)
    let m1 := (List.range c1.tiles).foldl (fun m' t => memCopy m' stageAddr (bankAddr t b) c1.img.len) s.mem
    let r := c1.img.boot.with b .verified
    let c2 := c1.writeBoot (if b = true then { r with digestB := Config.sha384 (memBytes s.mem stageAddr c1.img.len) }
        else { r with digestA := Config.sha384 (memBytes s.mem stageAddr c1.img.len) })
    let v := verifyCode s.mem s.ctl
    s.ctl.img.stage = .verify → programOk = true → exec (.imgVerifyDone programOk) s = .next (s.allTo (if v.1 = eOk then
    (m1, ((c2.setStage .verified).event 0 0x0E 0xB002 0 (leBytes 4 (mfField s.mem stageAddr 0x14 4))).verifyReply eOk)
    else (s.mem, s.ctl.verifyFails v.1 v.2)))) ∧
  (∀ (s : State) (programOk : Bool),
    let b := s.ctl.inactive
    let c1 := s.ctl.writeBoot (s.ctl.img.boot.with b .empty)
    let x := c1.free
    let m1 := (List.range c1.tiles).foldl (fun m' t => memCopy m' stageAddr (bankAddr t b) (x.1 % (c1.img.len + 1))) s.mem
    let v := verifyCode s.mem s.ctl
    s.ctl.img.stage = .verify → programOk = false → exec (.imgVerifyDone programOk) s = .next (s.allTo (if v.1 = eOk then
    (m1, x.2.verifyFails eIntegrity 6) else (s.mem, s.ctl.verifyFails v.1 v.2)))) ∧
  (∀ (s : State) (d : Datagram) (q : Req) (c' : Ctl),
    let mode := q.arg 0 1
    let pause := mode == 1 || !c'.hasCarry
    let c1 : Ctl :=
        { c' with img := { c'.img with byPause := pause, commits := pause, revert := false, rollTile := none, rollBack := false, legacyRead := false } }
    let c2 := ((c1.inc 0 IMG_COUNT_ACTIVATE).setStage .activating).event 0 0x0E 0xB004 0 (leBytes 1 mode)
    Delivered s.ctl 0xB004 d q c' → engRoles.contains q.role = true → q.args.length = 1 → activateCode s.mem c' mode = eOk →
    exec (.imgActivate d) s = .next
    (s.replied d q (Eff.imaged { mem := s.mem, ctl := if pause = true then c2.commitAll 5 else c2.beginTrialRecord s.mem true }))) ∧
  (∀ (s : State) (d : Datagram) (q : Req) (c' : Ctl), Delivered s.ctl 0xB005 d q c' → engRoles.contains q.role = true →
    q.args.length = 0 → c'.confirmCode = eOk → exec (.imgConfirm d) s = .next
    (s.replied d q (Eff.imaged { mem := s.mem, ctl := c'.confirm s.mem })))

/-- R445, R450, R451, R455 to R457, R460, R461, R465, R466: what follows the commits and the restarts of an activation, the
steps of a rolling one, and the register writes of the image block. -/
def Obligations.ImageEventsComplete : Prop :=
  (∀ (s : State) , s.ctl.img.stage = .activating ∧ s.ctl.img.commits = true ∧ s.ctl.anyCommit = false →
    exec (.activationCommitsDone) s = .next
    (s.ctlTo (Ctl.beginTrialRecord { s.ctl with img := { s.ctl.img with commits := false } } s.mem false))) ∧
  (∀ (s : State) ,
    let x := pauseEnd (s.mem, s.ctl)
    s.ctl.img.paused = true → exec (.imageRestartDone) s = .next (answerHeld { s with mem := x.1, ctl := x.2 })) ∧
  (∀ (s : State)  (t : Nat),
    let x := imageRestart t s.ctl.targetBank (s.mem, s.ctl)
    s.ctl.img.paused = false → s.ctl.img.rollTile = some t → s.ctl.carry t = csCarried ∧
    s.ctl.img.onB.contains t ≠ s.ctl.targetBank → exec (.imageRestartDone) s = .next
    (s.allTo (x.on (fun c => if c.img.rollBack = true then c else c.event (c.recorderOf t) 0x0E 0xB005 0 (leBytes 1 t))))) ∧
  (∀ (s : State)  (t : Nat), s.ctl.rolling = true ∧ s.ctl.img.rollTile = none → s.ctl.nextRoll = some t →
    exec (.rollingStepStart) s = .next
    (s.ctlTo (Ctl.startCommit { s.ctl with img := { s.ctl.img with rollTile := some t } } t 5 none))) ∧
  (∀ (s : State) , s.ctl.img.rollTile ≠ none → exec (.rollingStepTimeout) s = .next (s.ctlTo (if s.ctl.img.rollBack = true then
    { s.ctl with img := { s.ctl.img with rollTile := none, rollBack := false, revert := true } } else s.ctl.abandonRolling))) ∧
  (∀ (s : State) (o : Origin), accessorFitted s.ctl o = true → s.ctl.reachedBy o 0 = true → s.ctl.isSystem o = true →
    s.ctl.confirmCode = eOk → exec (.imgCtrlConfirm o) s = .next (s.accessed o 0x0E (s.ctl.confirm s.mem))) ∧
  (∀ (s : State) (t : TileId) (o : Origin), accessorFitted s.ctl o = true → s.ctl.reachedBy o t = true →
    s.ctl.isSystem o = true → s.ctl.img.stage = .trial ∧ s.ctl.flag t IMG_STATUS_SELF_OK = false ∧
    s.ctl.flag t IMG_STATUS_SELF_FAIL = false → exec (.selfcheckPass t o) s = .next
    (s.accessed o 0x0E ((s.ctl.put t IMG_STATUS_SELF_OK 1).autoConfirm s.mem))) ∧
  (∀ (s : State) (t : TileId) (o : Origin), accessorFitted s.ctl o = true → s.ctl.reachedBy o t = true →
    s.ctl.isSystem o = true → s.ctl.img.stage = .trial ∧ s.ctl.flag t IMG_STATUS_SELF_OK = false ∧
    s.ctl.flag t IMG_STATUS_SELF_FAIL = false → exec (.selfcheckFail t o) s = .next
    (s.accessed o 0x0E (((s.ctl.put t IMG_STATUS_SELF_FAIL 1).event t 0x0E 0xB006 0 (leBytes 1 t)).imgFallBack 1))) ∧
  (∀ (s : State) , s.ctl.img.stage = .trial → exec (.confirmWindowExpiry) s = .next (s.ctlTo (s.ctl.imgFallBack 0))) ∧
  (∀ (s : State) (t : TileId) (o : Origin),
    let v := s.ctl.get t CARRY_CTRL_AUTO * 2 ^ 31 + 1
    let c1 := s.ctl.put t CARRY_CTRL_AUTO (bitsOf v 31 1)
    accessorFitted s.ctl o = true → s.ctl.reachedBy o t = true → s.ctl.isSystem o = true → s.ctl.hasCarry = true ∧
    s.ctl.tileState t = tsCarried → exec (.carryReadyWrite t o) s = .next
    (s.accessed o 0x0F (if c1.readySet.contains t.val = true then c1 else { c1 with readySet := t.val :: c1.readySet })))

/-- R9, R483: with a command at the front of its queue, a step is the effect of that command on the machine with the queue's
rest. -/
def Obligations.StepRunsTheFrontCommand : Prop :=
  (∀ (i : Instr) (rest : List Instr) (s : State), step { s with pending := i :: rest } = exec i { s with pending := rest })

/-- The model's own choice (assumption 10): a step on an empty queue lets one clock cycle pass on the control state and leaves
memory and the queue as they are; it never stops. -/
def Obligations.AnIdleStepPassesTime : Prop :=
  (∀ s : State, s.pending = [] → step s = .next { s with ctl := s.ctl.idle })

/-- R2, R33: whatever the state and the operands, a command that stands on no tile or on a fitted one answers a next state; a
command of a tile that is not fitted answers the fault of the absent tile. -/
def Obligations.CommandsStopOnlyForAnAbsentTile : Prop :=
  (∀ (i : Instr) (s : State), Acts i s → ∃ u, exec i s = .next u) ∧
  (∀ (i : Instr) (s : State) (t : Nat), actor i = some t → s.ctl.tiles ≤ t → exec i s = .fault .absentTile)

/-- R483: the effect of a command leaves the queue of waiting commands as it is, so commands are taken in the order in which
they came. -/
def Obligations.CommandsLeaveTheQueue : Prop :=
  (∀ (i : Instr) (s u : State), exec i s = .next u → u.pending = s.pending)

/-- R31, R32: a command that is no store, no atomic operation, no frame or section operation that writes an area and no write
by a host leaves the memories as they are. -/
def Obligations.OtherCommandsLeaveMemory : Prop :=
  (∀ (i : Instr) (s u : State), mayStore i = false → exec i s = .next u → u.mem = s.mem)

/-- R31, R32: from every state whose memory is in the canonical form (addresses strictly rising, no listed byte that reads as
an unlisted one), reachable or not, whatever command stands in front, a step that answers a next state leaves it in that form,
so that equal memories are equal data. -/
def Obligations.StepKeepsMemoryForm : Prop :=
  (∀ s u : State, Memory.wf s.mem = true → step s = .next u → Memory.wf u.mem = true)

/-- Right after reset, every register field holds the reset value its table gives: every tile reads its own number, its
partner and BOOT, the cause is POWER, tasks are EMPTY, rings IDLE, balancing OFF, dispatch in RAMPDOWN, loop channels OFF,
station time FREE, CAN ports in INIT, Beryl in its self-test with cause 0x42. The queue is empty and memory lists nothing
(assumptions 4 and 5). -/
def Obligations.ResetState : Prop :=
  (Memory.wf State.reset.mem = true ∧ State.reset.mem = [] ∧ State.reset.pending = []) ∧
  (∀ (t : Nat) (F : Field) (i j : Nat), State.reset.ctl.get t F i j = F.reset) ∧
  (∀ t < 8, ∀ o : Origin, (State.reset.ctl.regRead [] o t 0x00 0x000).1 = (t + 1 - 2 * (t % 2)) * 16 + (if t = 0 then 8
    else 0) + t ∧
    (State.reset.ctl.regRead [] o t 0x00 0x004).1 = t * 16 + 1 ∧ (State.reset.ctl.regRead [] o t 0x00 0x008).1 = 1) ∧
  (∀ e ∈ [(TASK_STATE_STATE, 0), (RING_STATUS_STATE, 0), (RING_STATUS_SPLIT_AT, 0x3FF), (RING_CTRL_RETRIES, 2),
    (BAL_CTRL_MODE, 0),
    (DISP_CTRL_MODE, 2), (DISP_CTRL_STARTED, 0), (LOOP_CH_MODE, 6), (TIME_STATE_STATE, 0), (CAN_CTRL_INIT, 1),
    (CAN_STATUS_STATE, 0),
    (BERYL_STATUS_STATE, 0), (BERYL_OUT_FIRST_CAUSE, 0x42), (CARRY_STATUS_STATE, 0)], Field.reset e.1 = e.2)

/-- R58, R61, R63, R64: an ALU word whose func is not assigned, or a unary one with b not 0, LUI with a not 0, LDP or SDP with
an odd register, an AMO whose func is not assigned, and TRET by any task but the trap task raise an ILLEGAL trap with the
instruction word, before any effect; an instruction whose PC lies beyond local memory raises FETCH with the fetch offset. -/
def Obligations.IllegalInstructionsTrap : Prop :=
  (∀ (s : State) (t : TileId) (k : CoreId) (d a b : Fin 32) (func : Fin 2048) (i : Nat), Executes s.ctl t k i →
    (aluFn func 0 0 b = none ∨ (aluUnary func = true ∧ b.val ≠ 0)) →
    exec (.aluOp t k d a b func) s = .next (s.ctlTo (s.ctl.takeTrap t i 0x01 (wordA 0x00 d a b func)))) ∧
  (∀ (s : State) (t : TileId) (k : CoreId) (d a : Fin 32) (imm : BitVec 16) (i : Nat), Executes s.ctl t k i → a.val ≠ 0 →
    exec (.aluImmediate t k .lui d a imm) s = .next (s.ctlTo (s.ctl.takeTrap t i 0x01 (wordI 0x07 d a imm.toNat)))) ∧
  (∀ (s : State) (t : TileId) (k : CoreId) (d a : Fin 32) (imm : BitVec 16) (ecc : Bool) (i : Nat), Executes s.ctl t k i →
    d.val % 2 = 1 →
    exec (.load t k .ldp d a imm ecc) s = .next (s.ctlTo (s.ctl.takeTrap t i 0x01 (wordI 0x16 d a imm.toNat))) ∧
    exec (.store t k .sdp d a imm) s = .next (s.ctlTo (s.ctl.takeTrap t i 0x01 (wordI 0x1B d a imm.toNat)))) ∧
  (∀ (s : State) (t : TileId) (k : CoreId) (d a b : Fin 32) (func : Fin 2048) (ecc : Bool) (i : Nat), Executes s.ctl t k i →
    8 ≤ func.val →
    exec (.amo t k d a b func ecc) s = .next (s.ctlTo (s.ctl.takeTrap t i 0x01 (wordA 0x1C d a b func)))) ∧
  (∀ (s : State) (t : TileId) (k : CoreId) (d a b : Fin 32) (i : Nat), Executes s.ctl t k i → i ≠ 0 →
    exec (.tret t k d a b) s = .next (s.ctlTo (s.ctl.takeTrap t i 0x01 (wordA 0x30 d a b 0x004)))) ∧
  (∀ (s : State) (t : TileId) (k : CoreId) (w : Word) (i : Nat), t < s.ctl.tiles → s.ctl.runningTask t k = some i →
    s.ctl.coreHeld t k = false →
    (s.ctl.task t i).wait = .none → 0x40000 ≤ (s.ctl.task t i).pc →
    exec (.nop t ⟨k, w⟩) s = .next (s.ctlTo (s.ctl.takeTrap t i 0x02 (s.ctl.task t i).pc)))

/-- R74, R75: a trap of a task of any slot but the trap task's counts, puts that task in TRAPPED and no other slot with it,
and joins the queue of the tile behind the traps already there, with its cause, the PC of the trapping instruction, its value
and its task; a trap task that waits for a trigger takes the oldest of them at once. A trap of the trap task itself is a tile
fault. -/
def Obligations.TrapsStopTheTaskAndQueue : Prop :=
  (∀ (c : Ctl) (t i cause val : Nat), t < 8 → i < 256 → i ≠ 0 → (c.takeTrap t i cause val).tstate t i = kTrapped) ∧
  (∀ (c : Ctl) (t i cause val : Nat), t < 8 → i < 256 → i ≠ 0 → c.waitsForTrigger t 0 = false →
    tabGet [] (c.takeTrap t i cause val).traps t = tabGet [] c.traps t ++
    [{ cause := cause, pc := (c.task t i).pc, val := val, task := i }]) ∧
  (∀ (c : Ctl) (t i cause val : Nat), t < 8 → i < 256 → i ≠ 0 → c.waitsForTrigger t 0 = true →
    tabGet {} (c.takeTrap t i cause val).curTrap t :: tabGet [] (c.takeTrap t i cause val).traps t =
    tabGet [] c.traps t ++ [{ cause := cause, pc := (c.task t i).pc, val := val, task := i }]) ∧
  (∀ (c : Ctl) (t cause val : Nat),
    c.takeTrap t 0 cause val = (c.inc t CASDA_TRAP_COUNT_COUNT).tileFault t TILE_RESET_CAUSE_FAULT .fault)

/-- R52: reading s0 gives zero and writing it changes no register of the task; a write of another register changes that
register alone; JAL leaves its return address in s31. -/
def Obligations.ScalarRegisterZero : Prop :=
  (∀ (k : Task) (v : Word), k.reg 0 = 0 ∧ k.setReg 0 v = k) ∧
  (∀ (k : Task) (n m : Nat) (v : Word), n ≠ 0 → (k.setReg n v).reg n = v ∧ (m ≠ n → (k.setReg n v).reg m = k.reg m)) ∧
  (∀ (s : State) (t : TileId) (k : CoreId) (a b : Fin 32) (i : Nat), Executes s.ctl t k i →
    exec (.aluOp t k 0 a b 0x000) s = .next (s.stepped t i)) ∧
  (∀ (s : State) (t : TileId) (k : CoreId) (disp : BitVec 26) (i : Nat), Executes s.ctl t k i →
    ∃ u, exec (.jal t k disp) s = .next u ∧ (u.ctl.task t i).reg 31 = BitVec.ofNat 32 ((s.ctl.task t i).pc + 4))

/-- R59: a taken branch, J and JAL leave the PC at PC + 4 + displacement x 4, with a displacement of 16 bits in format B and
of 26 bits in format J, modulo 2^32. -/
def Obligations.BranchTargets : Prop :=
  (∀ (s : State) (t : TileId) (k : CoreId) (op : BranchOp) (a b : Fin 32) (disp : BitVec 16) (i : Nat), Executes s.ctl t k i →
    branchTaken op ((s.ctl.task t i).reg a) ((s.ctl.task t i).reg b) = true →
    ∃ u, exec (.branch t k op a b disp) s = .next u ∧
    ((u.ctl.task t i).pc : Int) = ((s.ctl.task t i).pc + 4 + disp.toInt * 4) % 2 ^ 32) ∧
  (∀ (s : State) (t : TileId) (k : CoreId) (disp : BitVec 26) (i : Nat), Executes s.ctl t k i →
    (∃ u, exec (.jump t k disp) s = .next u ∧
    ((u.ctl.task t i).pc : Int) = ((s.ctl.task t i).pc + 4 + disp.toInt * 4) % 2 ^ 32) ∧
    (∃ u, exec (.jal t k disp) s = .next u ∧
    ((u.ctl.task t i).pc : Int) = ((s.ctl.task t i).pc + 4 + disp.toInt * 4) % 2 ^ 32))

/-- R62: DIV and DIVU by zero leave 0xFFFF_FFFF, REM and REMU the dividend; DIV of 0x8000_0000 by 0xFFFF_FFFF leaves
0x8000_0000 and REM of the same leaves 0. The instruction retires in each case. -/
def Obligations.DivisionCorners : Prop :=
  (∀ (s : State) (t : TileId) (k : CoreId) (d a b : Fin 32) (i : Nat), Executes s.ctl t k i → (s.ctl.task t i).reg b = 0 →
    exec (.aluOp t k d a b 0x014) s = .next (s.resulted t i d 0xFFFFFFFF#32) ∧
    exec (.aluOp t k d a b 0x015) s = .next (s.resulted t i d 0xFFFFFFFF#32) ∧
    exec (.aluOp t k d a b 0x016) s = .next (s.resulted t i d ((s.ctl.task t i).reg a)) ∧
    exec (.aluOp t k d a b 0x017) s = .next (s.resulted t i d ((s.ctl.task t i).reg a))) ∧
  (∀ (s : State) (t : TileId) (k : CoreId) (d a b : Fin 32) (i : Nat), Executes s.ctl t k i →
    (s.ctl.task t i).reg a = 0x80000000#32 →
    (s.ctl.task t i).reg b = 0xFFFFFFFF#32 → exec (.aluOp t k d a b 0x014) s = .next (s.resulted t i d 0x80000000#32) ∧
    exec (.aluOp t k d a b 0x016) s = .next (s.resulted t i d 0))

/-- R86: predicate p0 reads as all ones, a write to it leaves the array as it is, and a write of another predicate changes
that one alone; every lane is active under p0. -/
def Obligations.PredicateZero : Prop :=
  (∀ (v : VecArray) (x : Word), v.pred 0 = BitVec.allOnes 32 ∧ v.setPred 0 x = v) ∧
  (∀ (v : VecArray) (l : Nat), l < 32 → v.active 0 l = true) ∧
  (∀ (v : VecArray) (p q : Nat) (x : Word), p ≠ 0 → q ≠ 0 → (v.setPred p x).pred p = x ∧ (q ≠ p →
    (v.setPred p x).pred q = v.pred q))

/-- R33, R36, R44, R45, R65: a load from memory that the task may read, on a tile it reaches, delivers the bytes there and
changes nothing; one it may not read delivers zero and counts a violation; a load of the wrong width or alignment on a
register block delivers zero and records E_FORMAT, and one from a tile that is not reached delivers zero and records E_ABSENT.
-/
def Obligations.LoadsOfATask : Prop :=
  (∀ (m : Mem) (c : Ctl) (t : TileId) (i a n : Nat), (regionsOf (a % 2 ^ 36) n).contains .blocks = false →
    (regionsOf (a % 2 ^ 36) n).all (fun r => memGrant (c.level t (i / 64) == 1) (ownCore t i (a / 2 ^ 36)) false r) = true →
    c.reaches t a = true → inConfigStore (a % 2 ^ 36) n = false →
    casdaLoad m c t i a n = (c, leNat (c.bytesAt m (a / 2 ^ 36) (a % 2 ^ 36) n))) ∧
  (∀ (m : Mem) (c : Ctl) (t : TileId) (i a n : Nat), (regionsOf (a % 2 ^ 36) n).contains .blocks = false →
    (regionsOf (a % 2 ^ 36) n).any (fun r => !memGrant (c.level t (i / 64) == 1) (ownCore t i (a / 2 ^ 36)) false r) = true →
    casdaLoad m c t i a n = (c.violate (taskOrigin t i) a false, 0)) ∧
  (∀ (m : Mem) (c : Ctl) (t : TileId) (i a n : Nat), (regionsOf (a % 2 ^ 36) n).contains .blocks = true → (n ≠ 4 ∨ a % 4 ≠ 0) →
    violates c (taskOrigin t i) (fun c => (c.regRead m (taskOrigin t i) (a / 2 ^ 36) (blockOf (a % 2 ^ 36 / 4 * 4)) (blockOff (a % 2 ^ 36 / 4 * 4))).2) = false →
    casdaLoad m c t i a n = (c.lastErr t (blockOf (a % 2 ^ 36)) eFormat, 0)) ∧
  (∀ (m : Mem) (c : Ctl) (t : TileId) (i a n : Nat), (regionsOf (a % 2 ^ 36) n).contains .blocks = false →
    (regionsOf (a % 2 ^ 36) n).all (fun r => memGrant (c.level t (i / 64) == 1) (ownCore t i (a / 2 ^ 36)) false r) = true →
    c.reaches t a = false → casdaLoad m c t i a n = (c.lastErr t 0xFF eAbsent, 0))

/-- R35, R41, R60, R63: a store whose bytes do not touch the register blocks leaves every byte outside the width of its form
at its address as it was; where the task may write each of the bytes, they are memory and the task reaches the tile, the bytes
there become the bytes of the value. An AMO leaves every byte outside its word as it was. As it was means with the DMA writes
of the tile that were on their way landed first, the memory itself where none was (assumption 7). -/
def Obligations.ScalarStoresWriteTheirBytes : Prop :=
  (∀ (s : State) (t : TileId) (k : CoreId) (op : StoreOp) (d a : Fin 32) (imm : BitVec 16) (i x : Nat), Executes s.ctl t k i →
    (op = .sdp → d.val % 2 = 0) →
    (regionsOf (s.ctl.dataAddr t i ((s.ctl.task t i).reg a + imm.signExtend 32) % 2 ^ 36) (storeCode op).2).contains .blocks = false →
    (x < s.ctl.dataAddr t i ((s.ctl.task t i).reg a + imm.signExtend 32) ∨
    s.ctl.dataAddr t i ((s.ctl.task t i).reg a + imm.signExtend 32) + (storeCode op).2 ≤ x) →
    ∃ u, exec (.store t k op d a imm) s = .next u ∧ memRead u.mem x = memRead (s.ctl.landed s.mem t) x) ∧
  (∀ (s : State) (t : TileId) (k : CoreId) (op : StoreOp) (d a : Fin 32) (imm : BitVec 16) (i j : Nat), Executes s.ctl t k i →
    op ≠ .sdp →
    (regionsOf (s.ctl.dataAddr t i ((s.ctl.task t i).reg a + imm.signExtend 32) % 2 ^ 36) (storeCode op).2).all (fun r => r.isMem &&
    memGrant (s.ctl.level t k == 1) (ownCore t i (s.ctl.dataAddr t i ((s.ctl.task t i).reg a + imm.signExtend 32) / 2 ^ 36)) true r) = true →
    s.ctl.reaches t (s.ctl.dataAddr t i ((s.ctl.task t i).reg a + imm.signExtend 32)) = true → j < (storeCode op).2 →
    ∃ u, exec (.store t k op d a imm) s = .next u ∧
    memRead u.mem (s.ctl.dataAddr t i ((s.ctl.task t i).reg a + imm.signExtend 32) + j) =
    BitVec.ofNat 8 (((s.ctl.task t i).reg d).toNat / 256 ^ j)) ∧
  (∀ (s : State) (t : TileId) (k : CoreId) (d a b : Fin 32) (func : Fin 2048) (ecc : Bool) (i x : Nat), Executes s.ctl t k i →
    func.val < 8 →
    (x < s.ctl.dataAddr t i ((s.ctl.task t i).reg a) ∨ s.ctl.dataAddr t i ((s.ctl.task t i).reg a) + 4 ≤ x) →
    ∃ u, exec (.amo t k d a b func ecc) s = .next u ∧ memRead u.mem x = memRead (s.ctl.landed s.mem t) x)

/-- R40, R91: a vector store leaves every byte outside the elements of the active lanes, each at its lane's address in the
tile's DRAM, as it was; with no lane active it leaves all of memory. As it was means with the DMA writes of the tile that were
on their way landed first (assumption 7). -/
def Obligations.VectorStoresWriteTheirLanes : Prop :=
  (∀ (s : State) (t i r p e x : Nat) (addr : Nat → Nat),
    (∀ l < 32, (s.ctl.vecOf t).active p l = true → x < modAddr t (addr l) ∨ modAddr t (addr l) + elemSize e ≤ x) →
    memRead (s.vstored t i r p e addr).mem x = memRead (s.ctl.landed s.mem t) x)

/-- R126: a whole CMD or POST frame that names the block or is for all, of the kind (unicast or broadcast) with the SEQ of the
last one the block accepted neither executes nor counts nor changes anything but the note that no frame was aborted since; for
a unicast CMD the block answers with the stored response. A frame it takes leaves its SEQ as the one remembered for its kind,
and that of the other kind as it was. -/
def Obligations.RepeatedBlockFrames : Prop :=
  (∀ (s : State) (c : Instr) (t : TileId) (r : RingId) (b : BlockId) (fr : RingFrame) (ty cmd : Nat),
    blockFrame c = some (t, r, b, fr, ty, cmd) → t < s.ctl.tiles → (s.ctl.blk t r b).ship = false → Whole fr →
    fr.names ty cmd = true → (fr.broadcast = true ∨ (s.ctl.blk t r b).addr = some (fr.addr.toNat % 1024)) →
    (if fr.broadcast then (s.ctl.blk t r b).lastBc else (s.ctl.blk t r b).lastUni) = some fr.seq.toNat →
    exec c s = .next (s.blkTo t r b (if fr.broadcast ∨ fr.post = true then { s.ctl.blk t r b with aborts := false }
    else { s.ctl.blk t r b with aborts := false, sent := (s.ctl.blk t r b).response }))) ∧
  (∀ (s : State) (t : TileId) (r : RingId) (b : BlockId) (fr : RingFrame), t < s.ctl.tiles → (s.ctl.blk t r b).ship = false →
    Whole fr → fr.names 5 0x0C = true → (fr.broadcast = true ∨ (s.ctl.blk t r b).addr = some (fr.addr.toNat % 1024)) →
    (if fr.broadcast then (s.ctl.blk t r b).lastBc else (s.ctl.blk t r b).lastUni) = some fr.seq.toNat →
    exec (.readStatus t r b fr) s = .next
    (State.blkTo (s.ctlTo { s.ctl with fresh := s.ctl.fresh + 1 }) t r b (if fr.broadcast then
    { s.ctl.blk t r b with aborts := false }
    else { s.ctl.blk t r b with aborts := false, sent := (s.ctl.blk t r b).response }))) ∧
  (∀ (x : Blk) (fr : RingFrame) (ty cmd len : Nat) (f : Blk → BlkResult), x.Takes fr ty cmd len →
    (∀ y, (f y).2.2.lastUni = y.lastUni ∧ (f y).2.2.lastBc = y.lastBc) →
    (x.receive fr ty cmd (fun y => y.command fr len f)).lastBc = (if fr.broadcast then some fr.seq.toNat else x.lastBc) ∧
    (x.receive fr ty cmd (fun y => y.command fr len f)).lastUni = (if fr.broadcast then x.lastUni else some fr.seq.toNat))

/-- R178: the median of a list is one of its values, at most half of the values less one lie below it and more than that many
are not above it, so for an even number it is the lower of the two middle values; the MAD is the median, by the same rule, of
the absolute deviations from the median. -/
def Obligations.LowerMedianAndMad : Prop :=
  (∀ l : List Int, l ≠ [] → median l ∈ l ∧ (l.filter (fun v => decide (v < median l))).length ≤ (l.length - 1) / 2 ∧
    (l.length - 1) / 2 < (l.filter (fun v => decide (v ≤ median l))).length) ∧
  (∀ l : List Int, ((mad l : Nat) : Int) = median (l.map (fun v => ((v - median l).natAbs : Int))))

/-- R241: a BDUTY by a task of an Application core while the mode of the tile is not MANUAL, with a well-formed operand that
names a block of a section the tile serves and a duty in its range, leaves E_STATE in its result register and changes no duty.
-/
def Obligations.ApplicationBalancingNeedsManual : Prop :=
  (∀ (s : State) (t : TileId) (k : CoreId) (d a : Fin 32) (i g : Nat), Executes s.ctl t k i → a.val % 2 = 0 →
    s.ctl.level t k = 0 →
    s.ctl.get t BAL_CTRL_MODE ≠ 2 → bitsOf ((s.ctl.task t i).reg (a.val + 1)).toNat 7 9 = 0 →
    s.ctl.targetTile t ((s.ctl.task t i).reg a).toNat = some g →
    s.ctl.present? g (((s.ctl.task t i).reg a).toNat % 16384 / 512) (((s.ctl.task t i).reg a).toNat % 512) = true →
    ((s.ctl.task t i).reg (a.val + 1)).toNat % 128 ≤ 100 →
    exec (.bduty t k d a) s = .next (s.ctlTo (s.ctl.retireCode t i d eState)))

/-- R445, R446: a confirmation makes EPOCH_MIN the larger of its old value and the epoch of the confirmed image, never
smaller; it marks the other bank EMPTY where its image is of a lower epoch, clears the pending activation and leaves the stage
IDLE. -/
def Obligations.ConfirmationRaisesTheEpoch : Prop :=
  (∀ (c : Ctl) (m : Mem), (c.confirm m).img.boot.epochMin = max c.img.boot.epochMin (mfField m (bankAddr 0 c.inactive) 0x18 2)) ∧
  (∀ (c : Ctl) (m : Mem), ((c.confirm m).img.boot.state c.inactive = .confirmed) ∧
    (mfField m (bankAddr 0 (!c.inactive)) 0x18 2 < (c.confirm m).img.boot.epochMin →
    (c.confirm m).img.boot.state (!c.inactive) = .empty)) ∧
  (∀ (c : Ctl) (m : Mem), (c.confirm m).img.stage = .idle ∧ (c.confirm m).img.boot.pending = false)

/-- R43, R44, R46, R366: a CMD of a role that may not send it is answered OK with an empty result; the violation is counted
and nothing else changes, whatever its arguments (assumption 29 for the roles of the Operator commands). -/
def Obligations.CommandsAboveTheRoleAreSilent : Prop :=
  (∀ (s : State) (d : Datagram) (i : Instr) (code : Nat) (roles : List Role) (q : Req) (c' : Ctl), (i, code, roles) ∈ [
    (.ringEnumerate d, 0x1001, engRoles), (.ringMode d, 0x1002, engRoles),
    (.ringInventoryWrite d, 0x1003, engRoles), (.ringInventoryAdopt d, 0x1003, engRoles),
    (.ringInventoryClear d, 0x1003, engRoles), (.ringTrust d, 0x1004, engRoles),
    (.smpOwTest d, 0x1010, engRoles), (.estAnchorRequest d, 0x2001, engRoles),
    (.estProfile d, 0x2002, engRoles), (.estCellInit d, 0x2003, engRoles), (.lvBackup d, 0x2010, opRoles),
    (.lvRestore d, 0x2011, engRoles), (.balMode d, 0x3001, engRoles), (.balManual d, 0x3002, engRoles),
    (.balWireTest d, 0x3003, engRoles), (.bankSetpoint d, 0x4001, opRoles),
    (.dispMode d, 0x4002, opRoles), (.dispSchedule d, 0x4003, engRoles),
    (.dispPerturb d, 0x4004, engRoles), (.dispPerturbStop d, 0x4004, engRoles),
    (.loopMode d, 0x5001, engRoles), (.berylParamOpen d, 0x6002, [.safety]),
    (.berylParamConfirm d, 0x6002, [.safety]), (.berylParamAbort d, 0x6002, [.safety]),
    (.modeStandby d, 0x1, modeRoles), (.modeChrysalis d, 0x2, engRoles), (.modeRun d, 0x3, modeRoles),
    (.imgBegin d, 0xb001, engRoles), (.imgChunk d, 0xb002, engRoles), (.imgVerify d, 0xb003, engRoles),
    (.imgActivate d, 0xb004, engRoles), (.imgConfirm d, 0xb005, engRoles),
    (.netBulkOpen d, 0x7005, [.engineer, .safety]),
    (.netSupervise d, 0x7006, [.operator, .engineer, .safety]),
    (.netSuperviseRelease d, 0x7006, [.operator, .engineer, .safety])] →
    Delivered s.ctl code d q c' → roles.contains q.role = false → exec i s = .next
    (s.repliedOk d q (c'.violate q.origin 0 true)))

/-- R469: while tile 0 is neither in RUN nor CARRIED, a request of a session is discarded without response: the machine stays
as it is. -/
def Obligations.DeafModuleAnswersNothing : Prop :=
  (∀ (i : Instr) (ty : Nat) (d : Datagram) (s : State), sessionDatagram i = some (ty, d) → s.ctl.live 0 = false →
    exec i s = .next s)

/-- R360: a datagram of a session whose MAC fails is discarded: NET_ERR.AUTH counts it, with the event of R376 at most once
per second, and nothing else of the machine changes. -/
def Obligations.UnauthenticatedDatagramsHaveNoEffect : Prop :=
  (∀ (i : Instr) (ty slot : Nat) (d : Datagram) (s : State), sessionDatagram i = some (ty, d) → s.ctl.arrives ty d = none →
    s.ctl.formatOk d = true → s.ctl.slotOf d.session.toNat = some slot → (s.ctl.session slot).v1 = decide (d.version = 1) →
    d.mac ≠ dgMac d ty (s.ctl.session slot).key → exec i s = .next (s.ctlTo s.ctl.authFailed))

/-- R362: an authentic datagram whose SEQ lies in the window behind the highest one and has been seen changes no memory and no
session state but the address it came from; NET_ERR.DUP counts it, and the stored response, if there is one, is sent again. -/
def Obligations.RepeatedDatagramsAreNotExecuted : Prop :=
  (∀ (i : Instr) (ty slot h : Nat) (d : Datagram) (s : State), sessionDatagram i = some (ty, d) → s.ctl.arrives ty d = none →
    s.ctl.formatOk d = true → s.ctl.slotOf d.session.toNat = some slot → (s.ctl.session slot).v1 = decide (d.version = 1) →
    d.mac = dgMac d ty (s.ctl.session slot).key → (s.ctl.session slot).high = some h → frameDiff d.seq.toNat h ≤ 0 →
    -64 < frameDiff d.seq.toNat h →
    d.seq.toNat ∈ (s.ctl.session slot).seen →
    exec i s = .next
    (s.ctlTo (let c := Ctl.inc (s.ctl.setSession slot { s.ctl.session slot with peers := tabSet (s.ctl.session slot).peers d.path d.src }) 0 NET_ERR_DUP
    match tabFind (s.ctl.session slot).resps d.seq.toNat with
    | some r => c.sendOn (tabSet (s.ctl.session slot).peers d.path d.src) (c.respPaths d.path) r
    | none => c)))

/-- R44, R48, R49: an access above the rights of Casda code counts in TILE_VIOL_COUNT of its tile, saturating; while VALID is
clear it leaves its address and VALID set, and while VALID is set it leaves what was captured. A violation of a host counts in
MOD_HOST_VIOL_COUNT and captures role and session in the same way. -/
def Obligations.FirstViolationIsCaptured : Prop :=
  (∀ (c : Ctl) (t : TileId) (i : TaskId) (a : Nat) (w : Bool),
    (c.violate (.casda t i) a w).get t TILE_VIOL_COUNT_COUNT = min (c.get t TILE_VIOL_COUNT_COUNT + 1) 0xFFFFFFFF) ∧
  (∀ (c : Ctl) (t : TileId) (i : TaskId) (a : Nat) (w : Bool),
    (c.violate (.casda t i) a w).get t TILE_VIOL_INFO_VALID = (if c.flag t TILE_VIOL_INFO_VALID then
    c.get t TILE_VIOL_INFO_VALID else 1) ∧
    (c.violate (.casda t i) a w).get t TILE_VIOL_ADDR_OFFSET_LO = (if c.flag t TILE_VIOL_INFO_VALID then
    c.get t TILE_VIOL_ADDR_OFFSET_LO else a % 2 ^ 32) ∧
    (c.violate (.casda t i) a w).get t TILE_VIOL_INFO_TASK = (if c.flag t TILE_VIOL_INFO_VALID then
    c.get t TILE_VIOL_INFO_TASK else i.val % 64) ∧
    (c.violate (.casda t i) a w).get t TILE_VIOL_INFO_CORE = (if c.flag t TILE_VIOL_INFO_VALID then
    c.get t TILE_VIOL_INFO_CORE else i.val / 64)) ∧
  (∀ (c : Ctl) (r : Role) (n : Nat),
    (c.violate (.host r n) 0 true).get 0 MOD_HOST_VIOL_INFO_ROLE = (if c.flag 0 MOD_HOST_VIOL_INFO_VALID then
    c.get 0 MOD_HOST_VIOL_INFO_ROLE else roleNum r) ∧
    (c.violate (.host r n) 0 true).get 0 MOD_HOST_VIOL_INFO_SESSION = (if c.flag 0 MOD_HOST_VIOL_INFO_VALID then
    c.get 0 MOD_HOST_VIOL_INFO_SESSION else n % 65536))

/-- R80: a post by System to an enabled mailbox with room puts bits [30:0] behind the words that wait, before the trigger of
its task; a full or disabled one answers E_BUSY and changes nothing; a pop by System takes the oldest word, with bit 31 set,
and reads zero from an empty one. -/
def Obligations.MailboxesAreFifos : Prop :=
  (∀ (c : Ctl) (o : Origin) (t m w : Nat), c.isSystem o = true → c.flag t CASDA_MBOX_CFG_EN m = true →
    (c.mailbox t m).length < 16 →
    c.mboxPost o t m w = ((c.setMailbox t m (c.mailbox t m
    ++ [w % 2 ^ 31])).trigger t (c.get t CASDA_MBOX_CFG_TASK m) (0x40 + m), eOk)) ∧
  (∀ (c : Ctl) (o : Origin) (t m w : Nat), c.isSystem o = true →
    (c.flag t CASDA_MBOX_CFG_EN m = false ∨ 16 ≤ (c.mailbox t m).length) →
    c.mboxPost o t m w = (c, eBusy)) ∧
  (∀ (c : Ctl) (t : TileId) (i : TaskId) (m : Nat) (l : List Nat), m < 16 → c.isSystem (.casda t i) = true →
    (((c.setMailbox t m l).mboxPop (.casda t i) t m).2 = (match l with | [] => 0 | w :: _ => 2 ^ 31 + w)) ∧
    (((c.setMailbox t m l).mboxPop (.casda t i) t m).1.mailbox t m = l.tail))
end

