-- ==== Sys2Proof/Laws/Tab.lean ====
section
/-! SUPPORT. Laws/Tab.lean: the laws of tables: reading after setting and erasing, and the canonical form, which every
operation on a table keeps. -/
namespace Sys2Proof.Machine

variable {α β : Type}

/-- The canonical form as strictly rising keys. -/
theorem tabSorted_iff (t : Tab α) : tabSorted t = true ↔ (t.map Prod.fst).Pairwise (· < ·) := by
  induction t with
  | nil => simp [tabSorted]
  | cons e r ih =>
    cases r with
    | nil => simp [tabSorted]
    | cons f r =>
      simp only [tabSorted, Bool.and_eq_true, decide_eq_true_eq, ih]
      constructor
      · rintro ⟨h, hp⟩
        simp only [List.map_cons, List.pairwise_cons] at hp ⊢
        refine ⟨?_, hp⟩
        intro k hk
        rcases List.mem_cons.mp hk with rfl | hk
        · exact h
        · exact lt_trans h (hp.1 k hk)
      · intro hp
        simp only [List.map_cons, List.pairwise_cons] at hp ⊢
        exact ⟨hp.1 _ (by simp), hp.2⟩

@[simp] theorem tabFind_nil (k : Nat) : tabFind ([] : Tab α) k = none := rfl

/-- A read at the key just set gives the value set. -/
@[simp] theorem tabFind_tabSet_same (t : Tab α) (k : Nat) (a : α) : tabFind (tabSet t k a) k = some a := by
  induction t with
  | nil => simp [tabSet, tabFind]
  | cons e r ih =>
    simp only [tabSet]
    split
    · simp [tabFind]
    · split
      · simp [tabFind]
      · rename_i h1 h2
        simp only [tabFind, ih, if_neg (fun h => h2 (Eq.symm h))]

/-- A read at another key is what it was. -/
theorem tabFind_tabSet_ne (t : Tab α) {k j : Nat} (a : α) (h : j ≠ k) : tabFind (tabSet t k a) j = tabFind t j := by
  induction t with
  | nil => simp [tabSet, tabFind, h.symm]
  | cons e r ih =>
    simp only [tabSet]
    split
    · simp [tabFind, h.symm]
    · split
      · rename_i h1 h2
        subst h2
        simp [tabFind, h.symm]
      · simp only [tabFind, ih]

theorem tabFind_tabSet (t : Tab α) (k j : Nat) (a : α) :
    tabFind (tabSet t k a) j = if j = k then some a else tabFind t j := by
  split
  · rename_i h; subst h; simp
  · exact tabFind_tabSet_ne t a ‹_›

@[simp] theorem tabGet_tabSet_same (d : α) (t : Tab α) (k : Nat) (a : α) : tabGet d (tabSet t k a) k = a := by
  simp [tabGet]

theorem tabGet_tabSet_ne (d : α) (t : Tab α) {k j : Nat} (a : α) (h : j ≠ k) :
    tabGet d (tabSet t k a) j = tabGet d t j := by
  simp [tabGet, tabFind_tabSet_ne t a h]

theorem tabGet_tabSet (d : α) (t : Tab α) (k j : Nat) (a : α) :
    tabGet d (tabSet t k a) j = if j = k then a else tabGet d t j := by
  split
  · rename_i h; subst h; simp
  · exact tabGet_tabSet_ne d t a ‹_›

/-- A key set twice holds what was set last. -/
theorem tabSet_tabSet (t : Tab α) (k : Nat) (a b : α) : tabSet (tabSet t k a) k b = tabSet t k b := by
  induction t with
  | nil => simp [tabSet]
  | cons e r ih =>
    obtain ⟨j, x⟩ := e
    simp only [tabSet]
    split
    · simp [tabSet]
    · split
      · simp [tabSet]
      · rename_i h1 h2
        simp only [tabSet, if_neg h1, if_neg h2, ih]

/-- An erased key is not listed. -/
@[simp] theorem tabFind_tabErase_same (t : Tab α) (k : Nat) : tabFind (tabErase t k) k = none := by
  induction t with
  | nil => rfl
  | cons e r ih =>
    by_cases h : e.1 = k
    · simp only [tabErase, List.filter_cons, h, bne_self_eq_false]; exact ih
    · have hb : (e.1 != k) = true := by simpa using h
      simp only [tabErase, List.filter_cons, hb, if_true, tabFind]
      rw [if_neg h]; exact ih

theorem tabFind_tabErase_ne (t : Tab α) {k j : Nat} (h : j ≠ k) : tabFind (tabErase t k) j = tabFind t j := by
  induction t with
  | nil => rfl
  | cons e r ih =>
    by_cases hk : e.1 = k
    · simp only [tabErase, List.filter_cons, hk, bne_self_eq_false, tabFind, if_neg h.symm]; exact ih
    · have hb : (e.1 != k) = true := by simpa using hk
      simp only [tabErase, List.filter_cons, hb, if_true, tabFind]
      split
      · rfl
      · exact ih

@[simp] theorem tabGet_tabErase_same (d : α) (t : Tab α) (k : Nat) : tabGet d (tabErase t k) k = d := by simp [tabGet]

theorem tabGet_tabErase_ne (d : α) (t : Tab α) {k j : Nat} (h : j ≠ k) : tabGet d (tabErase t k) j = tabGet d t j := by
  simp [tabGet, tabFind_tabErase_ne t h]

/-- The entries of a table with a key set come from that key or from the table. -/
theorem mem_tabSet {t : Tab α} {k : Nat} {a : α} {e : Nat × α} (h : e ∈ tabSet t k a) : e = (k, a) ∨ e ∈ t := by
  induction t with
  | nil => simpa [tabSet] using h
  | cons f r ih =>
    simp only [tabSet] at h
    split at h
    · simpa using h
    · split at h
      · rcases List.mem_cons.mp h with h | h
        · exact .inl h
        · exact .inr (List.mem_cons_of_mem _ h)
      · rcases List.mem_cons.mp h with h | h
        · exact .inr (by simp [h])
        · rcases ih h with h | h
          · exact .inl h
          · exact .inr (List.mem_cons_of_mem _ h)

/-- Setting a key keeps the canonical form. -/
theorem tabSorted_tabSet {t : Tab α} (h : tabSorted t = true) (k : Nat) (a : α) : tabSorted (tabSet t k a) = true := by
  rw [tabSorted_iff] at h ⊢
  induction t with
  | nil => simp [tabSet]
  | cons e r ih =>
    simp only [List.map_cons, List.pairwise_cons] at h
    simp only [tabSet]
    split
    · rename_i hk
      simp only [List.map_cons, List.pairwise_cons]
      refine ⟨?_, h⟩
      intro j hj
      rcases List.mem_cons.mp hj with rfl | hj
      · exact hk
      · exact lt_trans hk (h.1 j hj)
    · split
      · rename_i hk
        simp only [List.map_cons, List.pairwise_cons]
        exact ⟨fun j hj => by rw [hk]; exact h.1 j hj, h.2⟩
      · rename_i h1 h2
        simp only [List.map_cons, List.pairwise_cons]
        refine ⟨?_, ih h.2⟩
        intro j hj
        obtain ⟨f, hf, rfl⟩ := List.mem_map.mp hj
        rcases mem_tabSet hf with rfl | hf
        · show e.1 < k
          omega
        · exact h.1 f.1 (List.mem_map_of_mem hf)

/-- Leaving entries out keeps the canonical form. -/
theorem tabSorted_filter {t : Tab α} (h : tabSorted t = true) (p : Nat × α → Bool) : tabSorted (t.filter p) = true := by
  rw [tabSorted_iff] at h ⊢
  exact h.sublist (List.Sublist.map _ (List.filter_sublist))

theorem tabSorted_tabErase {t : Tab α} (h : tabSorted t = true) (k : Nat) : tabSorted (tabErase t k) = true :=
  tabSorted_filter h _

end Sys2Proof.Machine
end

