-- ==== Sys2Proof/Laws/Memory.lean ====
section
/-! SUPPORT. Laws/Memory.lean: the laws of memory: a read after a write, and the canonical form, which every memory
operation keeps. -/
namespace Sys2Proof.Machine

variable {m : Mem}

/-- The memory of reset has the canonical form. -/
theorem memory_wf_nil : Memory.wf [] = true := rfl

/-- A byte read where it was written. -/
@[simp] theorem memRead_memWrite_same (m : Mem) (a : Nat) (b : Byte) : memRead (memWrite m a b) a = b := by
  unfold memRead memWrite
  split
  · rename_i h; simp [h]
  · simp

/-- A write leaves every other byte alone. -/
theorem memRead_memWrite_ne (m : Mem) {a x : Nat} (b : Byte) (h : x ≠ a) : memRead (memWrite m a b) x = memRead m x := by
  unfold memRead memWrite
  split
  · exact tabGet_tabErase_ne 0 m h
  · exact tabGet_tabSet_ne 0 m b h

/-- A store of bytes leaves every byte outside them alone. -/
theorem memRead_memStore_out (l : List Byte) (m : Mem) {a x : Nat} (h : x < a ∨ a + l.length ≤ x) :
    memRead (memStore m a l) x = memRead m x := by
  induction l generalizing m a with
  | nil => rfl
  | cons b r ih =>
    simp only [List.length_cons] at h
    simp only [memStore]
    rw [ih _ (by omega), memRead_memWrite_ne _ _ (by omega)]

/-- A stored byte reads back. -/
theorem memRead_memStore_in (l : List Byte) (m : Mem) {a k : Nat} (h : k < l.length) :
    memRead (memStore m a l) (a + k) = l[k] := by
  induction l generalizing m a k with
  | nil => simp at h
  | cons b r ih =>
    simp only [memStore]
    cases k with
    | zero => rw [memRead_memStore_out _ _ (by omega)]; simp
    | succ k =>
      have := ih (memWrite m a b) (a := a + 1) (k := k) (by simpa using h)
      rw [show a + (k + 1) = a + 1 + k by omega, this]
      simp

@[simp] theorem leBytes_length (n v : Nat) : (leBytes n v).length = n := by
  induction n generalizing v with
  | zero => rfl
  | succ n ih => simp [leBytes, ih]

/-- A number stored leaves every byte outside its bytes alone. -/
theorem memRead_memPut_out (m : Mem) {a n x : Nat} (v : Nat) (h : x < a ∨ a + n ≤ x) :
    memRead (memPut m a n v) x = memRead m x := memRead_memStore_out _ m (by simpa using h)

/-- One byte stored keeps the canonical form. -/
@[simp] theorem memWrite_wf (h : Memory.wf m = true) (a : Nat) (b : Byte) : Memory.wf (memWrite m a b) = true := by
  simp only [Memory.wf, Bool.and_eq_true, List.all_eq_true] at h ⊢
  unfold memWrite
  split
  · exact ⟨tabSorted_tabErase h.1 a, fun e he => h.2 e (List.mem_of_mem_filter he)⟩
  · refine ⟨tabSorted_tabSet h.1 a b, fun e he => ?_⟩
    rcases mem_tabSet he with rfl | he
    · simpa using ‹¬b = 0›
    · exact h.2 e he

@[simp] theorem memStore_wf (l : List Byte) (h : Memory.wf m = true) (a : Nat) : Memory.wf (memStore m a l) = true := by
  induction l generalizing m a with
  | nil => exact h
  | cons b r ih => exact ih (memWrite_wf h a b) (a + 1)

@[simp] theorem memPut_wf (h : Memory.wf m = true) (a n v : Nat) : Memory.wf (memPut m a n v) = true := memStore_wf _ h a

@[simp] theorem memFilter_wf (h : Memory.wf m = true) (p : Host.Cell → Bool) : Memory.wf (m.filter p) = true := by
  simp only [Memory.wf, Bool.and_eq_true, List.all_eq_true] at h ⊢
  exact ⟨tabSorted_filter h.1 p, fun e he => h.2 e (List.mem_of_mem_filter he)⟩

@[simp] theorem memClear_wf (h : Memory.wf m = true) (a n : Nat) : Memory.wf (memClear m a n) = true := memFilter_wf h _

/-- A loop over entries keeps what each turn keeps. -/
theorem foldl_keeps {α β : Type} (P : β → Prop) (f : β → α → β) (hf : ∀ b a, P b → P (f b a)) (l : List α) (b : β)
    (h : P b) : P (l.foldl f b) := by
  induction l generalizing b with
  | nil => exact h
  | cons a r ih => exact ih _ (hf b a h)

/-- A loop over numbers keeps what each turn keeps. -/
theorem forN_keeps {β : Type} (P : β → Prop) (f : Nat → β → β) (hf : ∀ k b, P b → P (f k b)) (n : Nat) (b : β) (h : P b) :
    P (forN n f b) := by
  induction n with
  | zero => exact h
  | succ n ih => exact hf n _ ih

@[simp] theorem memCopy_wf (h : Memory.wf m = true) (src dst n : Nat) : Memory.wf (memCopy m src dst n) = true :=
  foldl_keeps (fun m => Memory.wf m = true) _ (fun _ _ h => memWrite_wf h _ _) _ _ (memClear_wf h dst n)

/-- A loop over numbers, on a memory. -/
theorem memLoop {f : Nat → Mem → Mem} (hf : ∀ k m, Memory.wf m = true → Memory.wf (f k m) = true) (n : Nat)
    (h : Memory.wf m = true) : Memory.wf (forN n f m) = true :=
  forN_keeps (fun m => Memory.wf m = true) f hf n m h

/-- A loop over numbers, on a memory with what goes beside it. -/
theorem pairLoop {γ : Type} {f : Nat → Mem × γ → Mem × γ} (hf : ∀ k z, Memory.wf z.1 = true → Memory.wf (f k z).1 = true)
    (n : Nat) {z : Mem × γ} (h : Memory.wf z.1 = true) : Memory.wf (forN n f z).1 = true :=
  forN_keeps (fun z => Memory.wf z.1 = true) f hf n z h

/-- A loop over a list, on a memory. -/
theorem memFold {α : Type} {f : Mem → α → Mem} (hf : ∀ m a, Memory.wf m = true → Memory.wf (f m a) = true) (l : List α)
    (h : Memory.wf m = true) : Memory.wf (l.foldl f m) = true :=
  foldl_keeps (fun m => Memory.wf m = true) f hf l m h

/-- A loop over a list, on a memory with what goes beside it. -/
theorem pairFold {α γ : Type} {f : Mem × γ → α → Mem × γ}
    (hf : ∀ z a, Memory.wf z.1 = true → Memory.wf (f z a).1 = true) (l : List α) {z : Mem × γ}
    (h : Memory.wf z.1 = true) : Memory.wf (l.foldl f z).1 = true :=
  foldl_keeps (fun z => Memory.wf z.1 = true) f hf l z h

end Sys2Proof.Machine
end

