-- ==== Sys2Proof/Laws/MemoryKept.lean ====
section
/-! SUPPORT. Laws/MemoryKept.lean: every operation that touches the memories keeps their canonical form; the lemma of an
operation `f` is `f_wf`. -/
namespace Sys2Proof.Machine

/-! ## DMA writes on their way and discarded stores -/

@[simp] theorem Ctl.landed_wf {c : Ctl} {m : Mem} {t : Nat} (hm : Memory.wf m = true) :
    Memory.wf (Ctl.landed c m t) = true := by
  unfold Ctl.landed
  try dsimp only
  repeat' first
    | assumption
    | split
    | (apply memLoop; intro _ _ _)
    | (apply pairLoop; intro _ _ _)
    | (apply memFold; intro _ _ _)
    | (apply pairFold; intro _ _ _)
    | (simp_all; done)

@[simp] theorem dmaLand_wf {t : Nat} {x : MC} (hx : Memory.wf x.1 = true) : Memory.wf (dmaLand t x).1 = true := Ctl.landed_wf hx

@[simp] theorem unstore_wf {m : Mem} {l : List (Nat × Byte × Byte)} (hm : Memory.wf m = true) :
    Memory.wf (unstore m l) = true := by
  unfold unstore
  try dsimp only
  repeat' first
    | assumption
    | split
    | (apply memLoop; intro _ _ _)
    | (apply pairLoop; intro _ _ _)
    | (apply memFold; intro _ _ _)
    | (apply pairFold; intro _ _ _)
    | (simp_all; done)

@[simp] theorem vecUndo_wf {m : Mem} {c : Ctl} {t n : Nat} (hm : Memory.wf m = true) :
    Memory.wf (vecUndo m c t n).1 = true := by
  unfold vecUndo
  try dsimp only
  repeat' first
    | assumption
    | split
    | (apply memLoop; intro _ _ _)
    | (apply pairLoop; intro _ _ _)
    | (apply memFold; intro _ _ _)
    | (apply pairFold; intro _ _ _)
    | (simp_all; done)

@[simp] theorem vecDiscard_wf {m : Mem} {c : Ctl} {t i : Nat} (hm : Memory.wf m = true) :
    Memory.wf (vecDiscard m c t i).1 = true := by
  unfold vecDiscard
  try dsimp only
  repeat' first
    | assumption
    | split
    | (apply memLoop; intro _ _ _)
    | (apply pairLoop; intro _ _ _)
    | (apply memFold; intro _ _ _)
    | (apply pairFold; intro _ _ _)
    | (simp_all; done)

/-! ## Vector -/

@[simp] theorem VecArray.stores_wf {v : VecArray} {t r p e : Nat} {addr : Nat → Nat} {m : Mem} (hm : Memory.wf m = true) :
    Memory.wf (VecArray.stores v t r p e addr m) = true := by
  unfold VecArray.stores
  try dsimp only
  repeat' first
    | assumption
    | split
    | (apply memLoop; intro _ _ _)
    | (apply pairLoop; intro _ _ _)
    | (apply memFold; intro _ _ _)
    | (apply pairFold; intro _ _ _)
    | (simp_all; done)

@[simp] theorem veccDiscard_wf {m : Mem} {c : Ctl} {t : Nat} (hm : Memory.wf m = true) :
    Memory.wf (veccDiscard m c t).1 = true := by
  unfold veccDiscard
  try dsimp only
  repeat' first
    | assumption
    | split
    | (apply memLoop; intro _ _ _)
    | (apply pairLoop; intro _ _ _)
    | (apply memFold; intro _ _ _)
    | (apply pairFold; intro _ _ _)
    | (simp_all; done)

/-! ## Recorder -/

@[simp] theorem recordSteps_wf {n a : Nat} {m : Mem} {b : List Byte} (hm : Memory.wf m = true) :
    Memory.wf (recordSteps n m a b) = true := by
  unfold recordSteps
  try dsimp only
  repeat' first
    | assumption
    | split
    | (apply memLoop; intro _ _ _)
    | (apply pairLoop; intro _ _ _)
    | (apply memFold; intro _ _ _)
    | (apply pairFold; intro _ _ _)
    | (simp_all; done)

@[simp] theorem recordOne_wf {m : Mem} {c : Ctl} {t : Nat} {p : Presented} (hm : Memory.wf m = true) :
    Memory.wf (recordOne m c t p).1 = true := by
  unfold recordOne
  try dsimp only
  (repeat' split) <;> simp_all

@[simp] theorem tailWrite_wf {m : Mem} {c : Ctl} {t : Nat} (hm : Memory.wf m = true) :
    Memory.wf (tailWrite m c t).1 = true := by
  unfold tailWrite
  try dsimp only
  repeat' first
    | assumption
    | split
    | (apply memLoop; intro _ _ _)
    | (apply pairLoop; intro _ _ _)
    | (apply memFold; intro _ _ _)
    | (apply pairFold; intro _ _ _)
    | (simp_all; done)

@[simp] theorem tailFlush_wf {m : Mem} {c : Ctl} {t : Nat} (hm : Memory.wf m = true) :
    Memory.wf (tailFlush m c t).1 = true := by
  unfold tailFlush
  try dsimp only
  repeat' first
    | assumption
    | split
    | (apply memLoop; intro _ _ _)
    | (apply pairLoop; intro _ _ _)
    | (apply memFold; intro _ _ _)
    | (apply pairFold; intro _ _ _)
    | (simp_all; done)

@[simp] theorem recordAll_wf {m : Mem} {c : Ctl} {t : Nat} (hm : Memory.wf m = true) :
    Memory.wf (recordAll m c t).1 = true := by
  unfold recordAll
  try dsimp only
  repeat' first
    | assumption
    | split
    | (apply memLoop; intro _ _ _)
    | (apply pairLoop; intro _ _ _)
    | (apply memFold; intro _ _ _)
    | (apply pairFold; intro _ _ _)
    | (simp_all; done)

@[simp] theorem tailTorn_wf {m : Mem} {c : Ctl} {t : Nat} (hm : Memory.wf m = true) :
    Memory.wf (tailTorn m c t).1 = true := by
  unfold tailTorn
  try dsimp only
  repeat' first
    | assumption
    | split
    | (apply memLoop; intro _ _ _)
    | (apply pairLoop; intro _ _ _)
    | (apply memFold; intro _ _ _)
    | (apply pairFold; intro _ _ _)
    | (simp_all; done)

@[simp] theorem settle_wf {t : Nat} {x : MC} (hx : Memory.wf x.1 = true) : Memory.wf (settle t x).1 = true := by
  unfold settle
  simp_all

@[simp] theorem restoreDram_wf {m : Mem} {t : Nat} (hm : Memory.wf m = true) :
    Memory.wf (restoreDram t m) = true := by
  unfold restoreDram
  try dsimp only
  repeat' first
    | assumption
    | split
    | (apply memLoop; intro _ _ _)
    | (apply pairLoop; intro _ _ _)
    | (apply memFold; intro _ _ _)
    | (apply pairFold; intro _ _ _)
    | (simp_all; done)

@[simp] theorem restoreRing_wf {t : Nat} {x : MC} (hx : Memory.wf x.1 = true) : Memory.wf (restoreRing t x).1 = true := restoreDram_wf hx

/-! ## Chp -/

@[simp] theorem Eff.err_wf {m : Mem} {c : Ctl} {code : Nat} (hm : Memory.wf m = true) :
    Memory.wf (Eff.err m c code).mem = true := by
  unfold Eff.err
  try dsimp only
  (repeat' split) <;> simp_all

@[simp] theorem Eff.deny_mem (m : Mem) (c : Ctl) (o : Origin) (a : Nat) (w : Bool) (r : List Byte) :
    (Eff.deny m c o a w r).mem = m := rfl

@[simp] theorem guarded_wf {r : Req} {roles : List Role} {len : Nat} {m : Mem} {c : Ctl} {k : Eff} (hm : Memory.wf m = true) (hk : Memory.wf k.mem = true) :
    Memory.wf (guarded r roles len m c k).mem = true := by
  unfold guarded
  try dsimp only
  repeat' first
    | assumption
    | split
    | (apply memLoop; intro _ _ _)
    | (apply pairLoop; intro _ _ _)
    | (apply memFold; intro _ _ _)
    | (apply pairFold; intro _ _ _)
    | (simp_all; done)

@[simp] theorem Eff.names_mem (e : Eff) (q : Req) (pos : Nat) : (e.names q pos).mem = e.mem := rfl

@[simp] theorem Eff.released_mem (e : Eff) (slot : Nat) : (e.released slot).mem = e.mem := by
  unfold Eff.released; split <;> rfl

@[simp] theorem Eff.answered_wf {e : Eff} {slot : Nat} {seq : Nat} {path : Nat} (he : Memory.wf e.mem = true) :
    Memory.wf (Eff.answered e slot seq path).1 = true := by
  unfold Eff.answered
  try dsimp only
  (repeat' split) <;> simp_all

@[simp] theorem chpRequest_wf {type : Nat} {skip : Nat} {d : Datagram} {tileOk : Bool} {formOk : Bool} {f : Req → Mem → Ctl → Eff} {m : Mem} {c : Ctl} (hf : ∀ q m c, Memory.wf m = true → Memory.wf (f q m c).mem = true) (hm : Memory.wf m = true) :
    Memory.wf (chpRequest type skip d tileOk formOk f m c).1 = true := by
  unfold chpRequest
  try dsimp only
  (repeat' split) <;> simp_all

@[simp] theorem chpCmd_wf {code : Nat} {d : Datagram} {f : Req → Mem → Ctl → Eff} {m : Mem} {c : Ctl} (hf : ∀ q m c, Memory.wf m = true → Memory.wf (f q m c).mem = true) (hm : Memory.wf m = true) :
    Memory.wf (chpCmd code d f m c).1 = true := by
  unfold chpCmd
  try dsimp only
  repeat' first
    | assumption
    | split
    | (apply memLoop; intro _ _ _)
    | (apply pairLoop; intro _ _ _)
    | (apply memFold; intro _ _ _)
    | (apply pairFold; intro _ _ _)
    | (simp_all; done)

/-! ## Network -/

@[simp] theorem notHosts_wf {type : Nat} {d : Datagram} {m : Mem} {c : Ctl} (hm : Memory.wf m = true) :
    Memory.wf (notHosts type d m c).1 = true := by
  unfold notHosts
  try dsimp only
  repeat' first
    | assumption
    | split
    | (apply memLoop; intro _ _ _)
    | (apply pairLoop; intro _ _ _)
    | (apply memFold; intro _ _ _)
    | (apply pairFold; intro _ _ _)
    | (simp_all; done)

@[simp] theorem netSubscribe_wf {r : Req} {m : Mem} {c : Ctl} (hm : Memory.wf m = true) :
    Memory.wf (netSubscribe r m c).mem = true := by
  unfold netSubscribe
  try dsimp only
  (repeat' split) <;> simp_all

@[simp] theorem chpBulk_wf {r : Req} {m : Mem} {c : Ctl} (hm : Memory.wf m = true) :
    Memory.wf (chpBulk r m c).mem = true := by
  unfold chpBulk
  try dsimp only
  (repeat' split) <;> simp_all

@[simp] theorem netSupervise_wf {r : Req} {m : Mem} {c : Ctl} (hm : Memory.wf m = true) :
    Memory.wf (netSupervise r m c).mem = true := by
  unfold netSupervise
  try dsimp only
  (repeat' split) <;> simp_all

/-! ## Ring -/

@[simp] theorem MC.on_wf {x : MC} {f : Ctl → Ctl} (hx : Memory.wf x.1 = true) :
    Memory.wf (MC.on x f).1 = true := by
  unfold MC.on
  try dsimp only
  (repeat' split) <;> simp_all

@[simp] theorem completeTx_wf {x : MC} {tx : Tx} {status : Nat} {counter : Nat} {data : List Byte} (hx : Memory.wf x.1 = true) :
    Memory.wf (completeTx x tx status counter data).1 = true := by
  unfold completeTx
  split
  · exact hx
  · exact memWrite_wf (memWrite_wf (memWrite_wf (memStore_wf _ hx _) _ _) _ _) _ _

@[simp] theorem completeAbsent_wf {x : MC} {l : List Tx} (hx : Memory.wf x.1 = true) :
    Memory.wf (completeAbsent x l).1 = true := by
  unfold completeAbsent
  try dsimp only
  repeat' first
    | assumption
    | split
    | (apply memLoop; intro _ _ _)
    | (apply pairLoop; intro _ _ _)
    | (apply memFold; intro _ _ _)
    | (apply pairFold; intro _ _ _)
    | (simp_all; done)

@[simp] theorem ringState_wf {x : MC} {t : Nat} {r : Nat} {st : Nat} (hx : Memory.wf x.1 = true) :
    Memory.wf (ringState x t r st).1 = true := by
  unfold ringState
  try dsimp only
  (repeat' split) <;> simp_all

@[simp] theorem ringFault_wf {x : MC} {t : Nat} {r : Nat} {cause : Nat} {pos : Nat} (hx : Memory.wf x.1 = true) :
    Memory.wf (ringFault x t r cause pos).1 = true := by
  unfold ringFault
  try dsimp only
  (repeat' split) <;> simp_all

@[simp] theorem enumStart_wf {x : MC} {t r : Nat} (hx : Memory.wf x.1 = true) : Memory.wf (enumStart x t r).1 = true := by
  unfold enumStart
  extract_lets again x1 x2
  have h1 : Memory.wf x1.1 = true := by
    show Memory.wf (ite _ _ _ : MC).1 = true
    split
    · exact completeAbsent_wf hx
    · exact hx
  exact MC.on_wf (ringState_wf h1)

@[simp] theorem ringIdle_wf {x : MC} {t : Nat} {r : Nat} (hx : Memory.wf x.1 = true) :
    Memory.wf (ringIdle x t r).1 = true := by
  unfold ringIdle
  try dsimp only
  (repeat' split) <;> simp_all

@[simp] theorem dropLearn_wf {t r : Nat} {x : MC} (hx : Memory.wf x.1 = true) : Memory.wf (dropLearn t r x).1 = true := by
  unfold dropLearn
  dsimp only
  split
  · exact memPut_wf hx _ _ _
  · exact hx

@[simp] theorem ringMode_wf {x : MC} {t : Nat} {r : Nat} {mode : Nat} (hx : Memory.wf x.1 = true) :
    Memory.wf (ringMode x t r mode).1 = true := by
  unfold ringMode
  extract_lets
  split
  · exact MC.on_wf (dropLearn_wf (ringState_wf hx))
  · split
    · exact ringState_wf hx
    · exact hx

@[simp] theorem enumCounted_wf {x : MC} {t : Nat} {r : Nat} {n : Nat} {k : Option Nat} (hx : Memory.wf x.1 = true) :
    Memory.wf (enumCounted x t r n k).1 = true := by
  unfold enumCounted
  try dsimp only
  (repeat' split) <;> simp_all

@[simp] theorem enumAdvance_wf {x : MC} {t : Nat} {r : Nat} (hx : Memory.wf x.1 = true) :
    Memory.wf (enumAdvance x t r).1 = true := by
  unfold enumAdvance
  try dsimp only
  (repeat' split) <;> simp_all

@[simp] theorem enumIdentity_wf {x : MC} {t : Nat} {r : Nat} {b : Nat} {data : List Byte} (hx : Memory.wf x.1 = true) :
    Memory.wf (enumIdentity x t r b data).1 = true := by
  unfold enumIdentity
  try dsimp only
  repeat' first
    | assumption
    | split
    | (apply memLoop; intro _ _ _)
    | (apply pairLoop; intro _ _ _)
    | (apply memFold; intro _ _ _)
    | (apply pairFold; intro _ _ _)
    | (simp_all; done)

@[simp] theorem controllerDone_wf {x : MC} {t : Nat} {r : Nat} {tx : Tx} {rcode : Nat} {data : List Byte} (hx : Memory.wf x.1 = true) :
    Memory.wf (controllerDone x t r tx rcode data).1 = true := by
  unfold controllerDone
  try dsimp only
  (repeat' split) <;> simp_all

@[simp] theorem txOutcome_wf {x : MC} {t : Nat} {r : Nat} {tx : Tx} {rcode : Nat} {counter : Nat} {data : List Byte} (hx : Memory.wf x.1 = true) :
    Memory.wf (txOutcome x t r tx rcode counter data).1 = true := by
  unfold txOutcome
  extract_lets
  apply enumAdvance_wf
  show Memory.wf (ite _ _ _ : MC).1 = true
  split
  · exact completeTx_wf hx
  · exact controllerDone_wf hx

@[simp] theorem enumerateRings_wf {x : MC} {t : Nat} {mask : Nat} (hx : Memory.wf x.1 = true) :
    Memory.wf (enumerateRings x t mask).1 = true := by
  unfold enumerateRings
  try dsimp only
  repeat' first
    | assumption
    | split
    | (apply memLoop; intro _ _ _)
    | (apply pairLoop; intro _ _ _)
    | (apply memFold; intro _ _ _)
    | (apply pairFold; intro _ _ _)
    | (simp_all; done)

@[simp] theorem ringCtrlWrite_wf {m : Mem} {c : Ctl} {o : Origin} {t : Nat} {r : Nat} {w : Nat} (hm : Memory.wf m = true) :
    Memory.wf (ringCtrlWrite m c o t r w).1.1 = true := by
  unfold ringCtrlWrite
  try dsimp only
  (repeat' split) <;> simp_all

@[simp] theorem accessM_wf {m : Mem} {c : Ctl} {o : Origin} {t : Nat} {blk : Nat} {f : Mem → Ctl → MC × Nat} (hm : Memory.wf m = true) (hf : ∀ m c, Memory.wf m = true → Memory.wf (f m c).1.1 = true) :
    Memory.wf (accessM m c o t blk f).1 = true := by
  unfold accessM
  try dsimp only
  repeat' first
    | assumption
    | split
    | (apply memLoop; intro _ _ _)
    | (apply pairLoop; intro _ _ _)
    | (apply memFold; intro _ _ _)
    | (apply pairFold; intro _ _ _)
    | (simp_all; done)

@[simp] theorem ringInventory_wf {q : Req} {m : Mem} {c : Ctl} (hm : Memory.wf m = true) :
    Memory.wf (ringInventory q m c).mem = true := by
  unfold ringInventory
  try dsimp only
  (repeat' split) <;> simp_all

/-! ## Beryl -/

@[simp] theorem berylParamSession_wf {r : Req} {m : Mem} {c : Ctl} (hm : Memory.wf m = true) :
    Memory.wf (berylParamSession r m c).mem = true := by
  unfold berylParamSession
  try dsimp only
  (repeat' split) <;> simp_all

/-! ## Sampling -/

@[simp] theorem recordPut_wf {r a : Nat} {b : List Byte} {x : MC} (hx : Memory.wf x.1 = true) : Memory.wf (recordPut r a b x).1 = true := by
  unfold recordPut
  extract_lets
  split
  · exact hx
  · exact memStore_wf _ hx _

@[simp] theorem takeRecord_wf {m : Mem} {c : Ctl} {t r b : Nat} {x : Rec} {fresh : Bool} (hm : Memory.wf m = true) : Memory.wf (takeRecord m c t r b x fresh).1 = true := by
  unfold takeRecord
  extract_lets
  exact recordPut_wf hm

@[simp] theorem putMissing_wf {t n r b : Nat} {x : MC} (hx : Memory.wf x.1 = true) : Memory.wf (putMissing t n r b x).1 = true := by
  exact recordPut_wf hx

@[simp] theorem fillRing_wf {x : MC} {t r : Nat} (hx : Memory.wf x.1 = true) : Memory.wf (fillRing x t r).1 = true := by
  unfold fillRing
  extract_lets n got x1
  have h1 : Memory.wf x1.1 = true := by
    refine pairLoop (fun k z h => ?_) 512 hx
    split
    · exact h
    · exact putMissing_wf h
  exact h1

/-! ## CellModel -/

@[simp] theorem putF32_wf {m : Mem} {a : Nat} {x : Rat} (hm : Memory.wf m = true) :
    Memory.wf (putF32 m a x) = true := by
  unfold putF32
  try dsimp only
  repeat' first
    | assumption
    | split
    | (apply memLoop; intro _ _ _)
    | (apply pairLoop; intro _ _ _)
    | (apply memFold; intro _ _ _)
    | (apply pairFold; intro _ _ _)
    | (simp_all; done)

@[simp] theorem Cell.store_wf {c : Cell} {m : Mem} {a : Nat} (hm : Memory.wf m = true) :
    Memory.wf (Cell.store c m a) = true := by
  unfold Cell.store
  try dsimp only
  (repeat' split) <;> simp_all

/-! ## LearnedValues -/

@[simp] theorem lvStore_wf {m : Mem} {c : Ctl} {p : Nat} {h : Nat} {idx : Nat} {gen : Nat} (hm : Memory.wf m = true) :
    Memory.wf (lvStore m c p h idx gen) = true := by
  unfold lvStore
  try dsimp only
  (repeat' split) <;> simp_all

@[simp] theorem lvCommit_wf {m : Mem} {c : Ctl} {t : Nat} {failAt : Option Nat} {reach : Bool} (hm : Memory.wf m = true) :
    Memory.wf (lvCommit m c t failAt reach).1 = true := by
  unfold lvCommit
  extract_lets
  split
  · exact hm
  · extract_lets
    have key : ∀ (l : List Nat) (f : Mem → Nat → Mem), (∀ m a, Memory.wf m = true → Memory.wf (f m a) = true) →
        Memory.wf (l.foldl f m) = true := fun l f hf => memFold hf l hm
    split <;> (apply key; intro m h hm; split; exact hm; exact memFold (fun _ _ h => lvStore_wf h) _ hm)

/-! ## Estimation -/

@[simp] theorem Run.setFlag_wf {x : Run} {m : Mem} {idx : Nat} {k : Nat} {v : Bool} (hm : Memory.wf m = true) :
    Memory.wf (Run.setFlag x m idx k v) = true := by
  unfold Run.setFlag
  try dsimp only
  repeat' first
    | assumption
    | split
    | (apply memLoop; intro _ _ _)
    | (apply pairLoop; intro _ _ _)
    | (apply memFold; intro _ _ _)
    | (apply pairFold; intro _ _ _)
    | (simp_all; done)

@[simp] theorem Run.restStart_wf {x : Run} {m : Mem} {c : Ctl} {r : Nat} {s : Nat} (hm : Memory.wf m = true) :
    Memory.wf (Run.restStart x m c r s).1 = true := by
  unfold Run.restStart
  try dsimp only
  repeat' first
    | assumption
    | split
    | (apply memLoop; intro _ _ _)
    | (apply pairLoop; intro _ _ _)
    | (apply memFold; intro _ _ _)
    | (apply pairFold; intro _ _ _)
    | (simp_all; done)

@[simp] theorem Run.restFree_wf {x : Run} {m : Mem} {c : Ctl} {l : List Nat} (hm : Memory.wf m = true) : Memory.wf (Run.restFree x m c l).1 = true := by
  unfold Run.restFree
  refine memFold (fun m i h => ?_) _ hm
  split
  · exact memPut_wf (Run.setFlag_wf h) _ _ _
  · exact h

@[simp] theorem Run.restEnd_wf {x : Run} {m : Mem} {c : Ctl} {r s : Nat} (hm : Memory.wf m = true) : Memory.wf (Run.restEnd x m c r s).1 = true := by
  exact Run.restFree_wf hm

@[simp] theorem Run.restLeave_wf {x : Run} {m : Mem} {c : Ctl} {r s : Nat} (hm : Memory.wf m = true) : Memory.wf (Run.restLeave x m c r s).1 = true := by
  unfold Run.restLeave
  extract_lets
  split
  · exact hm
  · exact Run.restFree_wf hm

@[simp] theorem Run.restsOver_wf {x : Run} {z : MC} (hz : Memory.wf z.1 = true) : Memory.wf (Run.restsOver x z).1 = true := by
  unfold Run.restsOver
  refine pairFold (fun z e h => ?_) _ hz
  split
  · exact Run.restLeave_wf h
  · exact Run.restEnd_wf h

@[simp] theorem Run.restPoint_wf {x : Run} {m : Mem} {c : Ctl} {r : Nat} {s : Nat} {ms : Nat} (hm : Memory.wf m = true) :
    Memory.wf (Run.restPoint x m c r s ms).1 = true := by
  unfold Run.restPoint
  try dsimp only
  repeat' first
    | assumption
    | split
    | (apply memLoop; intro _ _ _)
    | (apply pairLoop; intro _ _ _)
    | (apply memFold; intro _ _ _)
    | (apply pairFold; intro _ _ _)
    | (simp_all; done)

@[simp] theorem Run.fitCell_wf {x : Run} {r : Nat} {s : Nat} {idx : Nat} {y : MC} (hy : Memory.wf y.1 = true) :
    Memory.wf (Run.fitCell x r s idx y).1 = true := by
  unfold Run.fitCell
  try dsimp only
  (repeat' split) <;> simp_all

@[simp] theorem Run.sessEnd_wf {x : Run} {m : Mem} {c : Ctl} {r : Nat} {s : Nat} (hm : Memory.wf m = true) :
    Memory.wf (Run.sessEnd x m c r s).1 = true := by
  unfold Run.sessEnd
  try dsimp only
  repeat' first
    | assumption
    | split
    | (apply memLoop; intro _ _ _)
    | (apply pairLoop; intro _ _ _)
    | (apply memFold; intro _ _ _)
    | (apply pairFold; intro _ _ _)
    | (simp_all; done)

@[simp] theorem Run.sessOthers_wf {x : Run} {lvl : Nat} {done : List Nat} {r s : Nat} {z : MC} (hz : Memory.wf z.1 = true) :
    Memory.wf (Run.sessOthers x lvl done r s z).1 = true := by
  unfold Run.sessOthers
  extract_lets act dt
  cases act
  case idle => exact hz
  case drop => exact hz
  all_goals exact pairFold (fun _ _ h => Cell.store_wf h) _ hz

@[simp] theorem Run.session_wf {x : Run} {lvl r s : Nat} {z : MC} (hz : Memory.wf z.1 = true) :
    Memory.wf (Run.session x lvl r s z).1 = true := by
  have hm : Memory.wf z.1 = true := hz
  unfold Run.session
  extract_lets
  split
  · exact hz
  · exact hm
  · exact hm
  · exact Run.sessEnd_wf hm
  · exact Run.sessEnd_wf hm

@[simp] theorem Run.string_wf {x : Run} {r : Nat} {s : Nat} {z : MC} (hz : Memory.wf z.1 = true) :
    Memory.wf (Run.string x r s z).1 = true := by
  have hm : Memory.wf z.1 = true := hz
  unfold Run.string
  extract_lets
  split
  · exact Run.restPoint_wf (Run.restStart_wf hm)
  · exact Run.restPoint_wf hm
  · exact Run.restEnd_wf hm
  · exact hm

@[simp] theorem Run.skipped_wf {x : Run} {first last r s : Nat} {z : MC} (hz : Memory.wf z.1 = true) :
    Memory.wf (Run.skipped x first last r s z).1 = true := by
  unfold Run.skipped
  extract_lets z1 c
  have h1 : Memory.wf z1.1 = true := by
    unfold z1
    split
    · exact Run.restEnd_wf hz
    · exact hz
  split
  · split
    · exact Run.sessEnd_wf h1
    · exact h1
  · exact h1

theorem skipFrames_wf {t first last : Nat} {x : MC} (hx : Memory.wf x.1 = true) :
    Memory.wf (skipFrames t first last x).1 = true :=
  pairFold (fun _ _ h => pairFold (fun _ _ h => Run.skipped_wf h) _ h) _ hx

@[simp] theorem Run.restore_wf {x : Run} {r : Nat} {b : Nat} {n : Nat} {z : MC} (hz : Memory.wf z.1 = true) :
    Memory.wf (Run.restore x r b n z).1 = true := by
  have hm : Memory.wf z.1 = true := hz
  unfold Run.restore
  extract_lets
  split
  · exact hz
  · exact Cell.store_wf hm

@[simp] theorem Run.identity_wf {x : Run} {r : Nat} {b : Nat} {z : MC} (hz : Memory.wf z.1 = true) :
    Memory.wf (Run.identity x r b z).1 = true := by
  unfold Run.identity
  extract_lets key kind uid own l y
  split
  · exact hz
  · have hy : Memory.wf y.1 = true := by
      unfold y
      split
      · exact hz
      · refine pairFold (fun z i h => ?_) _ hz
        extract_lets
        split
        · dsimp only
          split
          · exact h
          · exact memClear_wf (memClear_wf h _ _) _ _
        · exact Cell.store_wf h
    exact hy

@[simp] theorem Run.init_wf {x : Run} {r : Nat} {b : Nat} {n : Nat} {z : MC} (hz : Memory.wf z.1 = true) :
    Memory.wf (Run.init x r b n z).1 = true := by
  unfold Run.init
  extract_lets
  split
  · exact hz
  · exact Cell.store_wf hz

@[simp] theorem Run.cell_wf {x : Run} {lvl r b n : Nat} {y : Pass} (h : Memory.wf y.z.1 = true) :
    Memory.wf (Run.cell x lvl r b n y).z.1 = true := by
  unfold Run.cell
  extract_lets
  split
  · exact h
  · exact Cell.store_wf h

@[simp] theorem Run.clearAbsent_wf {x : Run} {m : Mem} {c : Ctl} (hm : Memory.wf m = true) :
    Memory.wf (Run.clearAbsent x m c) = true := by
  unfold Run.clearAbsent
  try dsimp only
  repeat' first
    | assumption
    | split
    | (apply memLoop; intro _ _ _)
    | (apply pairLoop; intro _ _ _)
    | (apply memFold; intro _ _ _)
    | (apply pairFold; intro _ _ _)
    | (simp_all; done)

@[simp] theorem Run.summaries_wf {x : Run} {c : Ctl} {done : List Nat} {m : Mem} (hm : Memory.wf m = true) :
    Memory.wf (Run.summaries x c done m) = true := by
  unfold Run.summaries
  extract_lets
  refine memFold (fun m e h => ?_) _ (memCopy_wf hm _ _ _)
  split
  · exact memStore_wf _ h _
  · exact h

@[simp] theorem Run.mirror_wf {x : Run} {done : List Nat} {z : MC} (hz : Memory.wf z.1 = true) :
    Memory.wf (Run.mirror x done z).1 = true := by
  unfold Run.mirror
  try dsimp only
  repeat' first
    | assumption
    | split
    | (apply memLoop; intro _ _ _)
    | (apply pairLoop; intro _ _ _)
    | (apply memFold; intro _ _ _)
    | (apply pairFold; intro _ _ _)
    | (simp_all; done)

@[simp] theorem Run.pass_wf {x : Run} {lvl : Nat} {z : MC} (hz : Memory.wf z.1 = true) :
    Memory.wf (Run.pass x lvl z).1 = true := by
  unfold Run.pass
  extract_lets bs z1 each z2 z3 z4 z5 y z6 c0 c
  have each_wf : ∀ (f : Nat → Nat → Nat → MC → MC), (∀ r b n z, Memory.wf z.1 = true → Memory.wf (f r b n z).1 = true) →
      ∀ z : MC, Memory.wf z.1 = true → Memory.wf (each f z).1 = true := fun f hf z h =>
    pairFold (fun _ _ h => pairLoop (fun _ _ h => hf _ _ _ _ h) 16 h) bs h
  have h1 : Memory.wf z1.1 = true := Run.clearAbsent_wf hz
  clear_value z1 each
  have h2 : Memory.wf z2.1 = true := each_wf _ (fun _ _ _ _ h => Run.restore_wf h) _ h1
  clear_value z2
  have h3 : Memory.wf z3.1 = true := pairFold (fun _ _ h => Run.identity_wf h) bs h2
  clear_value z3
  have h4 : Memory.wf z4.1 = true := each_wf _ (fun _ _ _ _ h => Run.init_wf h) _ h3
  clear_value z4
  have h5 : Memory.wf z5.1 = true := pairFold (fun _ _ h => Run.string_wf h) _ (Run.restsOver_wf h4)
  clear_value z5
  have hy : Memory.wf y.z.1 = true :=
    foldl_keeps (fun y : Pass => Memory.wf y.z.1 = true) _ (fun _ _ h =>
      foldl_keeps (fun y : Pass => Memory.wf y.z.1 = true) _ (fun _ _ h => Run.cell_wf h) _ _ h) _ _ h5
  clear_value y
  have h6 : Memory.wf z6.1 = true := pairFold (fun _ _ h => Run.session_wf (Run.sessOthers_wf h)) _ hy
  clear_value z6 c0 c
  have hs : Memory.wf (x.summaries c y.done z6.1) = true := Run.summaries_wf h6
  generalize x.summaries c y.done z6.1 = m at hs ⊢
  exact Run.mirror_wf (x := x) (done := y.done) (z := (m, c)) hs

@[simp] theorem lvBackup_wf {q : Req} {m : Mem} {c : Ctl} (hm : Memory.wf m = true) :
    Memory.wf (lvBackup q m c).mem = true := by
  unfold lvBackup
  try dsimp only
  (repeat' split) <;> simp_all

/-! ## Balancing -/

@[simp] theorem tableFlag_wf {m : Mem} {t : Nat} {r : Nat} {b : Nat} {k : Nat} {v : Bool} (hm : Memory.wf m = true) :
    Memory.wf (tableFlag m t r b k v) = true := by
  unfold tableFlag
  try dsimp only
  (repeat' split) <;> simp_all

@[simp] theorem issue_wf {z : MC} {t r b map duty : Nat} (hz : Memory.wf z.1 = true) : Memory.wf (issue z t r b map duty).1 = true := by
  unfold issue
  extract_lets a m0 m1
  have h0 : Memory.wf m0 = true := memPut_wf (memPut_wf (memPut_wf hz _ _ _) _ _ _) _ _ _
  split
  · exact hz
  · show Memory.wf (ite _ _ _) = true
    split
    · exact h0
    · exact tableFlag_wf h0

@[simp] theorem zeroBlock_wf {t : Nat} {e : Nat × Nat} {z : MC} (hz : Memory.wf z.1 = true) :
    Memory.wf (zeroBlock t z e).1 = true := by
  unfold zeroBlock
  split
  · exact hz
  · dsimp only
    split
    · exact tableFlag_wf (issue_wf hz)
    · exact issue_wf hz

@[simp] theorem zeroAll_wf {t : Nat} {z : MC} (hz : Memory.wf z.1 = true) :
    Memory.wf (zeroAll t z).1 = true :=
  pairFold (fun _ _ h => zeroBlock_wf h) _ hz

@[simp] theorem learnDone_wf {t : Nat} {r : Nat} {b : Nat} {z : MC} (hz : Memory.wf z.1 = true) :
    Memory.wf (learnDone t r b z).1 = true := by
  unfold learnDone
  extract_lets
  refine memPut_wf (memFold (fun m w h => ?_) _ hz) _ _ _
  split
  · exact memPut_wf h _ _ _
  · exact h

@[simp] theorem learnResult_wf {t r b : Nat} {z : MC} {e : Nat × Nat} (hz : Memory.wf z.1 = true) :
    Memory.wf (learnResult t r b z e).1 = true := by
  unfold learnResult
  extract_lets n j x seen x1 z1
  split
  · exact learnDone_wf hz
  · exact hz

@[simp] theorem learnRecord_wf {t : Nat} {r : Nat} {n : Nat} {z : MC} (hz : Memory.wf z.1 = true) :
    Memory.wf (learnRecord t r n z).1 = true := by
  unfold learnRecord
  extract_lets
  split
  · exact hz
  · exact pairFold (fun _ _ h => learnResult_wf h) _ hz

@[simp] theorem learnPlan_wf {t : Nat} {r : Nat} {cyc : Nat} {left : Rat} {z : MC} (hz : Memory.wf z.1 = true) :
    Memory.wf (learnPlan t r cyc left z).1.1 = true := by
  unfold learnPlan
  extract_lets x x1 z1
  have h1 : Memory.wf z1.1 = true := hz
  have stop : ∀ b, Memory.wf (if holds z1 t r b then issue z1 t r b 0 0 else z1).1 = true := fun b => by
    split
    · exact issue_wf h1
    · exact h1
  split
  · exact h1
  · split
    · exact h1
    · split
      · exact stop _
      · extract_lets
        split
        · exact stop _
        · exact memPut_wf (issue_wf h1) _ _ _

@[simp] theorem postBleed_wf {p : Nat} {t : Nat} {r : Nat} {b : Nat} {n : Nat} {z : MC} (hz : Memory.wf z.1 = true) :
    Memory.wf (postBleed p t r b n z).1 = true := by
  unfold postBleed
  try dsimp only
  repeat' first
    | assumption
    | split
    | (apply memLoop; intro _ _ _)
    | (apply pairLoop; intro _ _ _)
    | (apply memFold; intro _ _ _)
    | (apply pairFold; intro _ _ _)
    | (simp_all; done)

@[simp] theorem markWithheld_wf {t : Nat} {n : Nat} {manual : Bool} {z : MC} {e : Nat × Nat} (hz : Memory.wf z.1 = true) :
    Memory.wf (markWithheld t n manual z e).1 = true := by
  unfold markWithheld
  extract_lets r b off hard any act a m z1
  have hm : Memory.wf m = true := by
    show Memory.wf (ite _ _ _) = true
    split
    · exact hz
    · exact memPut_wf hz _ _ _
  have h : Memory.wf z1.1 = true := tableFlag_wf (tableFlag_wf hm)
  clear_value z1
  split
  · exact tableFlag_wf (issue_wf h)
  · exact h

@[simp] theorem issueAll_wf {t : Nat} {l : List (Planned × Nat)} {z : MC} (hz : Memory.wf z.1 = true) :
    Memory.wf (issueAll t l z).1 = true := by
  unfold issueAll
  try dsimp only
  repeat' first
    | assumption
    | split
    | (apply memLoop; intro _ _ _)
    | (apply pairLoop; intro _ _ _)
    | (apply memFold; intro _ _ _)
    | (apply pairFold; intro _ _ _)
    | (simp_all; done)

@[simp] theorem planContainer_wf {t : Nat} {n : Nat} {k : Nat} {z : MC} (hz : Memory.wf z.1 = true) :
    Memory.wf (planContainer t n k z).1.1 = true := by
  unfold planContainer
  extract_lets c cyc a rings budget y z1 c1 mode l z2 c2 sum
  have hy : Memory.wf y.1.1 = true :=
    foldl_keeps (fun y : MC × Rat => Memory.wf y.1.1 = true) _ (fun _ _ h => learnPlan_wf h) _ _ hz
  exact issueAll_wf hy

@[simp] theorem stopUnplanned_wf {t : Nat} {l : List (Planned × Nat)} {z : MC} (hz : Memory.wf z.1 = true) :
    Memory.wf (stopUnplanned t l z).1 = true := by
  unfold stopUnplanned
  refine pairFold (fun z e h => ?_) _ hz
  split
  · exact h
  · split
    · exact issue_wf h
    · exact h

@[simp] theorem plannerRun_wf {t : Nat} {n : Nat} {z : MC} (hz : Memory.wf z.1 = true) :
    Memory.wf (plannerRun t n z).1 = true := by
  unfold plannerRun
  extract_lets z1 z2 z3 z4 manual z5 y z6
  have h1 : Memory.wf z1.1 = true := MC.on_wf hz
  have h2 : Memory.wf z2.1 = true := pairFold (fun _ _ h => postBleed_wf h) _ h1
  have h3 : Memory.wf z3.1 = true := MC.on_wf h2
  have h4 : Memory.wf z4.1 = true := pairFold (fun _ _ h => learnRecord_wf h) _ h3
  have h5 : Memory.wf z5.1 = true := pairFold (fun _ _ h => markWithheld_wf h) _ h4
  clear_value z5
  have hy : Memory.wf y.1.1 = true := by
    refine foldl_keeps (fun y : MC × List (Planned × Nat) => Memory.wf y.1.1 = true) _ (fun b a h => ?_) _ _ h5
    show Memory.wf (planContainer t n a b.1).1.1 = true
    exact planContainer_wf h
  clear_value y
  have h6 : Memory.wf z6.1 = true := stopUnplanned_wf hy
  exact MC.on_wf h6

@[simp] theorem carriedBleed_wf {p : Nat} {n : Nat} {z : MC} (hz : Memory.wf z.1 = true) :
    Memory.wf (carriedBleed p n z).1 = true := by
  unfold carriedBleed
  extract_lets
  split
  · exact pairFold (fun _ _ h => postBleed_wf h) _ hz
  · exact hz

@[simp] theorem balMode_wf {t : Nat} {mode : Nat} {z : MC} (hz : Memory.wf z.1 = true) :
    Memory.wf (balMode t mode z).1 = true := by
  unfold balMode
  extract_lets old src c c1 m z1
  have hm : Memory.wf m = true := by
    show Memory.wf (ite _ _ _) = true
    split
    · refine memLoop (fun k m h => ?_) _ hz
      split
      · exact tableFlag_wf h
      · exact h
    · exact hz
  have h1 : Memory.wf z1.1 = true := by
    unfold z1
    split
    · exact pairLoop (fun _ _ h => dropLearn_wf h) 32 hm
    · exact hm
  split
  · exact hz
  · split
    · exact h1
    · exact zeroAll_wf h1

@[simp] theorem balRingCfgWrite_wf {m : Mem} {c : Ctl} {t : Nat} {r : Nat} {w : Nat} (hm : Memory.wf m = true) :
    Memory.wf (balRingCfgWrite m c t r w).1.1 = true := by
  unfold balRingCfgWrite
  extract_lets rb bad old c1 z m1 c2 c3
  split
  · exact hm
  · show Memory.wf (ite _ _ _ : MC).1 = true
    split
    · exact dropLearn_wf hm
    · exact hm

/-! ## Loop -/

@[simp] theorem traceSample_wf {z : MC} {t : Nat} {u : Nat} {ch : Nat} {changed : Bool} {failed : Bool} (hz : Memory.wf z.1 = true) :
    Memory.wf (traceSample z t u ch changed failed).1 = true := by
  unfold traceSample
  try dsimp only
  (repeat' split) <;> simp_all

@[simp] theorem boundary_wf {z : MC} {t : Nat} {ch : Nat} {exceeded : Bool} (hz : Memory.wf z.1 = true) :
    Memory.wf (boundary z t ch exceeded).1 = true := by
  unfold boundary
  extract_lets c was old failed x c1 pend why c2 leaves c3 c4 c5 now c6 z1
  have h1 : Memory.wf z1.1 = true := by
    show Memory.wf (ite _ _ _ : MC).1 = true
    split
    · exact hz
    · exact pairLoop (fun _ _ h => traceSample_wf h) _ hz
  split
  · exact hz
  · exact h1

/-! ## BankDispatch -/

@[simp] theorem bankSetpoint_wf {q : Req} {m : Mem} {c : Ctl} (hm : Memory.wf m = true) :
    Memory.wf (bankSetpoint q m c).mem = true := by
  unfold bankSetpoint
  try dsimp only
  (repeat' split) <;> simp_all

@[simp] theorem dispModeCmd_wf {q : Req} {m : Mem} {c : Ctl} (hm : Memory.wf m = true) :
    Memory.wf (dispModeCmd q m c).mem = true := by
  unfold dispModeCmd
  try dsimp only
  (repeat' split) <;> simp_all

@[simp] theorem dispPerturb_wf {q : Req} {m : Mem} {c : Ctl} (hm : Memory.wf m = true) :
    Memory.wf (dispPerturb q m c).mem = true := by
  unfold dispPerturb
  try dsimp only
  (repeat' split) <;> simp_all

@[simp] theorem smapCommit_wf {m : Mem} {c : Ctl} {o : Origin} {t : Nat} {r : Nat} (hm : Memory.wf m = true) :
    Memory.wf (smapCommit m c o t r).1.1 = true := by
  unfold smapCommit
  try dsimp only
  (repeat' split) <;> simp_all

/-! ## Dma -/

@[simp] theorem burstMove_wf {m : Mem} {c : Ctl} {t : Nat} {j : Job} {b : Burst256} (hm : Memory.wf m = true) :
    Memory.wf (burstMove m c t j b).1 = true := by
  unfold burstMove
  refine memFold (fun m e h => ?_) _ hm
  split
  · exact memWrite_wf h _ _
  · exact h

@[simp] theorem dmaBurst_wf {t : Nat} {x : MC} (hx : Memory.wf x.1 = true) : Memory.wf (dmaBurst t x).1 = true := by
  unfold dmaBurst
  extract_lets c
  split
  · exact hx
  · extract_lets y
    split
    · exact hx
    · exact burstMove_wf hx

@[simp] theorem dmaBursts_wf {t n : Nat} {x : MC} (hx : Memory.wf x.1 = true) : Memory.wf (dmaBursts t n x).1 = true := by
  induction n generalizing x with
  | zero => exact hx
  | succ n ih => exact ih (dmaBurst_wf hx)

@[simp] theorem dmaServe_wf {t ch n : Nat} {x : MC} (hx : Memory.wf x.1 = true) : Memory.wf (dmaServe t ch n x).1 = true := by
  induction n generalizing x with
  | zero => exact hx
  | succ n ih =>
    unfold dmaServe
    split
    · exact ih (dmaBurst_wf hx)
    · exact hx

@[simp] theorem dmaSome_wf {t : Nat} {x : MC} (hx : Memory.wf x.1 = true) : Memory.wf (dmaSome t x).1 = true :=
  dmaBursts_wf (x := (x.1, _)) hx

@[simp] theorem lastOnWay_wf {t : Nat} {j : Job} {m0 : Mem} {x : MC} (hx : Memory.wf x.1 = true) :
    Memory.wf (lastOnWay t j m0 x).1 = true := by
  unfold lastOnWay
  split
  · exact hx
  · exact memFold (fun _ _ h => memWrite_wf h _ _) _ hx

@[simp] theorem recordsResume_wf {t ch : Nat} {x : MC} (hx : Memory.wf x.1 = true) :
    Memory.wf (recordsResume t ch x).1 = true :=
  pairFold (fun _ _ h => memStore_wf _ h _) _ (MC.on_wf hx)

@[simp] theorem dmaDisable_wf {t ch : Nat} {x : MC} (hx : Memory.wf x.1 = true) : Memory.wf (dmaDisable t ch x).1 = true := by
  unfold dmaDisable
  extract_lets code y c1
  have h : Memory.wf y.1 = true := dmaSome_wf (dmaLand_wf hx)
  exact h

@[simp] theorem dmaCtrlWrite_wf {m : Mem} {c : Ctl} {o : Origin} {t : Nat} {w : Nat} (hm : Memory.wf m = true) :
    Memory.wf (dmaCtrlWrite m c o t w).1.1 = true := by
  unfold dmaCtrlWrite
  try dsimp only
  repeat' first
    | assumption
    | split
    | (apply memLoop; intro _ _ _)
    | (apply pairLoop; intro _ _ _)
    | (apply memFold; intro _ _ _)
    | (apply pairFold; intro _ _ _)
    | (simp_all; done)

@[simp] theorem dmaChWrite_wf {m : Mem} {c : Ctl} {o : Origin} {t : Nat} {ch : Nat} {w : Nat} (hm : Memory.wf m = true) :
    Memory.wf (dmaChWrite m c o t ch w).1.1 = true := by
  unfold dmaChWrite
  extract_lets
  split
  · exact hm
  · split
    · exact hm
    · split
      · exact dmaDisable_wf hm
      · split <;> exact hm

/-! ## Startup -/

@[simp] theorem ImgSec.put_wf {x : ImgSec} {t : Nat} {m : Mem} (hm : Memory.wf m = true) :
    Memory.wf (ImgSec.put x t m) = true := by
  unfold ImgSec.put
  try dsimp only
  repeat' first
    | assumption
    | split
    | (apply memLoop; intro _ _ _)
    | (apply pairLoop; intro _ _ _)
    | (apply memFold; intro _ _ _)
    | (apply pairFold; intro _ _ _)
    | (simp_all; done)

@[simp] theorem loadImage_wf {t : Nat} {b : Bool} {x : MC} (hx : Memory.wf x.1 = true) :
    Memory.wf (loadImage t b x).1 = true := by
  unfold loadImage
  extract_lets
  exact memFold (fun _ _ h => ImgSec.put_wf h) _ (memFold (fun _ _ h => ImgSec.put_wf h) _ hx)

@[simp] theorem legacyCopy_wf {t : Nat} {m : Mem} (hm : Memory.wf m = true) :
    Memory.wf (legacyCopy t m) = true := by
  unfold legacyCopy
  refine memFold (fun m i h => ?_) _ hm
  split
  · exact memCopy_wf h _ _ _
  · exact h

@[simp] theorem mirrorProfiles_wf {t : Nat} {m : Mem} {c : Ctl} (hm : Memory.wf m = true) :
    Memory.wf (mirrorProfiles t m c) = true := by
  unfold mirrorProfiles
  try dsimp only
  repeat' first
    | assumption
    | split
    | (apply memLoop; intro _ _ _)
    | (apply pairLoop; intro _ _ _)
    | (apply memFold; intro _ _ _)
    | (apply pairFold; intro _ _ _)
    | (simp_all; done)

@[simp] theorem startRings_wf {t : Nat} {x : MC} (hx : Memory.wf x.1 = true) :
    Memory.wf (startRings t x).1 = true := by
  unfold startRings
  refine pairFold (fun x r h => ?_) _ hx
  extract_lets
  split
  · exact h
  · exact enumStart_wf (ringMode_wf h)

@[simp] theorem resetAll_wf {kind : ResetKind} {st : Nat} {x : MC} (hx : Memory.wf x.1 = true) :
    Memory.wf (resetAll kind st x).1 = true := by
  unfold resetAll
  extract_lets x1 x2
  have h1 : Memory.wf x1.1 = true := MC.on_wf hx
  have h2 : Memory.wf x2.1 = true := pairFold (fun _ _ h => settle_wf h) _ h1
  exact MC.on_wf h2

@[simp] theorem startTimeline_wf {F : List Field} {x : MC} (hx : Memory.wf x.1 = true) :
    Memory.wf (startTimeline F x).1 = true :=
  MC.on_wf (pairFold (fun _ _ h => restoreRing_wf (settle_wf h)) _ hx)

@[simp] theorem moduleReset_wf {x : MC} (hx : Memory.wf x.1 = true) :
    Memory.wf (moduleReset x).1 = true := by
  unfold moduleReset
  exact startTimeline_wf (resetAll_wf hx)

@[simp] theorem standbyExit_wf {cause : Nat} {x : MC} (hx : Memory.wf x.1 = true) :
    Memory.wf (standbyExit cause x).1 = true := by
  unfold standbyExit
  split
  · exact hx
  · extract_lets x1
    exact startTimeline_wf (resetAll_wf (x := x.on _) hx)

@[simp] theorem powerLost_wf {x : MC} (hx : Memory.wf x.1 = true) :
    Memory.wf (powerLost x).1 = true :=
  MC.on_wf (pairFold (fun _ _ h => tailTorn_wf h) _ hx)

@[simp] theorem powerUp_wf {x : MC} (hx : Memory.wf x.1 = true) :
    Memory.wf (powerUp x).1 = true :=
  startTimeline_wf (MC.on_wf (powerLost_wf hx))

@[simp] theorem enterRun_wf {t : Nat} {x : MC} (hx : Memory.wf x.1 = true) :
    Memory.wf (enterRun t x).1 = true := by
  unfold enterRun
  extract_lets x0 c st x1 x2 x3
  have h1 : Memory.wf x1.1 = true := restoreDram_wf (settle_wf hx)
  have h2 : Memory.wf x2.1 = true := by
    show Memory.wf (ite _ _ _ : MC).1 = true
    split
    · exact h1
    · exact loadImage_wf h1
  have h3 : Memory.wf x3.1 = true := mirrorProfiles_wf h2
  split
  · exact h3
  · exact startRings_wf (x := x3.on _) h3

/-! ## PowerModes -/

@[simp] theorem tileCtrlDown_wf {t : Nat} {hold : Bool} {x : MC} (hx : Memory.wf x.1 = true) :
    Memory.wf (tileCtrlDown t hold x).1 = true := by
  unfold tileCtrlDown
  try dsimp only
  (repeat' split) <;> simp_all

@[simp] theorem tileCtrlWrite_wf {m : Mem} {c : Ctl} {o : Origin} {w : Nat} (hm : Memory.wf m = true) :
    Memory.wf (tileCtrlWrite m c o w).1.1 = true := by
  unfold tileCtrlWrite
  try dsimp only
  repeat' first
    | assumption
    | split
    | (apply memLoop; intro _ _ _)
    | (apply pairLoop; intro _ _ _)
    | (apply memFold; intro _ _ _)
    | (apply pairFold; intro _ _ _)
    | (simp_all; done)

@[simp] theorem shutdownStart_wf {cause : Nat} {why : Leaving} {x : MC} (hx : Memory.wf x.1 = true) :
    Memory.wf (shutdownStart cause why x).1 = true := by
  unfold shutdownStart
  extract_lets x0 x1 x2
  have h0 : Memory.wf x0.1 = true := pairFold (fun _ _ h => settle_wf h) _ hx
  have h2 : Memory.wf x2.1 = true := pairFold (fun _ _ h => zeroAll_wf (MC.on_wf h)) _ (MC.on_wf h0)
  exact MC.on_wf h2

@[simp] theorem modeStandby_wf {q : Req} {m : Mem} {c : Ctl} (hm : Memory.wf m = true) :
    Memory.wf (modeStandby q m c).mem = true := by
  unfold modeStandby
  try dsimp only
  (repeat' split) <;> simp_all

@[simp] theorem modeRun_wf {q : Req} {m : Mem} {c : Ctl} (hm : Memory.wf m = true) :
    Memory.wf (modeRun q m c).mem = true := by
  unfold modeRun
  try dsimp only
  (repeat' split) <;> simp_all

@[simp] theorem chrysalisStep_wf {x : MC} (hx : Memory.wf x.1 = true) :
    Memory.wf (chrysalisStep x).1 = true := by
  unfold chrysalisStep
  try dsimp only
  (repeat' split) <;> simp_all

@[simp] theorem warnStep_wf {x : MC} (hx : Memory.wf x.1 = true) :
    Memory.wf (warnStep x).1 = true := by
  unfold warnStep
  try dsimp only
  repeat' first
    | assumption
    | split
    | (apply memLoop; intro _ _ _)
    | (apply pairLoop; intro _ _ _)
    | (apply memFold; intro _ _ _)
    | (apply pairFold; intro _ _ _)
    | (simp_all; done)

/-! ## Image -/

@[simp] theorem Eff.imaged_wf {e : Eff} (he : Memory.wf e.mem = true) :
    Memory.wf (Eff.imaged e).mem = true := by
  unfold Eff.imaged
  try dsimp only
  repeat' first
    | assumption
    | split
    | (apply memLoop; intro _ _ _)
    | (apply pairLoop; intro _ _ _)
    | (apply memFold; intro _ _ _)
    | (apply pairFold; intro _ _ _)
    | (simp_all; done)

@[simp] theorem imageRestart_wf {t : Nat} {b : Bool} {x : MC} (hx : Memory.wf x.1 = true) :
    Memory.wf (imageRestart t b x).1 = true := by
  unfold imageRestart
  try dsimp only
  (repeat' split) <;> simp_all

@[simp] theorem pauseEnd_wf {x : MC} (hx : Memory.wf x.1 = true) :
    Memory.wf (pauseEnd x).1 = true := by
  unfold pauseEnd
  try dsimp only
  repeat' first
    | assumption
    | split
    | (apply memLoop; intro _ _ _)
    | (apply pairLoop; intro _ _ _)
    | (apply memFold; intro _ _ _)
    | (apply pairFold; intro _ _ _)
    | (simp_all; done)

@[simp] theorem stepRestarted_wf {x : MC} (hx : Memory.wf x.1 = true) : Memory.wf (stepRestarted x).1 = true := by
  unfold stepRestarted
  try dsimp only
  (repeat' split) <;> simp_all

@[simp] theorem imgCtrlWrite_wf {m : Mem} {c : Ctl} {o : Origin} {w : Nat} (hm : Memory.wf m = true) :
    Memory.wf (imgCtrlWrite m c o w).1.1 = true := by
  unfold imgCtrlWrite
  try dsimp only
  repeat' first
    | assumption
    | split
    | (apply memLoop; intro _ _ _)
    | (apply pairLoop; intro _ _ _)
    | (apply memFold; intro _ _ _)
    | (apply pairFold; intro _ _ _)
    | (simp_all; done)

@[simp] theorem selfcheckWrite_wf {m : Mem} {c : Ctl} {o : Origin} {t : Nat} {w : Nat} (hm : Memory.wf m = true) :
    Memory.wf (selfcheckWrite m c o t w).1.1 = true := by
  unfold selfcheckWrite
  try dsimp only
  (repeat' split) <;> simp_all

/-! ## TwoWire -/

@[simp] theorem sbIp4_wf {q : Req} {m : Mem} {c : Ctl} (hm : Memory.wf m = true) :
    Memory.wf (sbIp4 q m c).mem = true := by
  unfold sbIp4
  try dsimp only
  (repeat' split) <;> simp_all

@[simp] theorem sbModuleReset_wf {q : Req} {m : Mem} {c : Ctl} (hm : Memory.wf m = true) :
    Memory.wf (sbModuleReset q m c).mem = true := by
  unfold sbModuleReset
  try dsimp only
  (repeat' split) <;> simp_all

theorem sideOwn_wf {code : Nat} {q : Req} {m : Mem} {c : Ctl} {e : Eff} (hm : Memory.wf m = true)
    (he : sideOwn code q m c = some e) : Memory.wf e.mem = true := by
  unfold sideOwn at he
  revert he
  (repeat' split) <;> simp_all
  all_goals (rintro rfl; simp_all)

@[simp] theorem sideEffect_wf {code : Nat} {q : Req} {m : Mem} {c : Ctl} (hm : Memory.wf m = true) :
    Memory.wf (sideEffect code q m c).mem = true := by
  have ho := fun e => sideOwn_wf (code := code) (q := q) (c := c) (e := e) hm
  unfold sideEffect
  try dsimp only
  (repeat' split) <;> simp_all

@[simp] theorem sideGo_wf {m : Mem} {c : Ctl} (hm : Memory.wf m = true) :
    Memory.wf (sideGo m c).1 = true := by
  unfold sideGo
  try dsimp only
  (repeat' split) <;> simp_all

@[simp] theorem sideRequest_wf {m : Mem} {c : Ctl} {base : Nat} {l : Tab Byte} (hm : Memory.wf m = true) :
    Memory.wf (sideRequest m c base l).1.1 = true := by
  unfold sideRequest
  try dsimp only
  (repeat' split) <;> simp_all

@[simp] theorem sideTileCtrl_wf {m : Mem} {c : Ctl} {l : Tab Byte} (hm : Memory.wf m = true) :
    Memory.wf (sideTileCtrl m c l).1.1 = true := by
  unfold sideTileCtrl
  try dsimp only
  (repeat' split) <;> simp_all

@[simp] theorem sideApply_wf {m : Mem} {c : Ctl} {page : Nat} {l : Tab Byte} (hm : Memory.wf m = true) :
    Memory.wf (sideApply m c page l).1.1 = true := by
  unfold sideApply
  try dsimp only
  (repeat' split) <;> simp_all

@[simp] theorem targetWrite_wf {bytes : List Byte} {stop : Bool} {m : Mem} {c : Ctl} (hm : Memory.wf m = true) :
    Memory.wf (targetWrite bytes stop m c).1 = true := by
  unfold targetWrite
  try dsimp only
  (repeat' split) <;> simp_all

@[simp] theorem sideCommand_wf {code : Nat} {args : List Byte} {m : Mem} {c : Ctl} (hm : Memory.wf m = true) :
    Memory.wf (sideCommand code args m c).1 = true := by
  unfold sideCommand
  try dsimp only
  (repeat' split) <;> simp_all

/-! ## Frames -/

@[simp] theorem afterEnum_wf {t : Nat} {r : Nat} {x : MC} (hx : Memory.wf x.1 = true) :
    Memory.wf (afterEnum t r x).1 = true := by
  unfold afterEnum
  dsimp only
  exact memFold (fun _ _ h => memPut_wf (memStore_wf _ h _) _ _ _) _ (dropLearn_wf hx)

@[simp] theorem ringEnters_wf {t : Nat} {r : Nat} {x : MC} (hx : Memory.wf x.1 = true) :
    Memory.wf (ringEnters t r x).1 = true := by
  unfold ringEnters
  extract_lets g st ready target x1 x2
  have h1 : Memory.wf x1.1 = true := ringState_wf hx
  have h2 : Memory.wf x2.1 = true := h1
  split
  · exact hx
  · split
    · exact afterEnum_wf h2
    · exact h2

@[simp] theorem sectionFrame_wf {t : Nat} {n : Nat} {x : MC} (hx : Memory.wf x.1 = true) :
    Memory.wf (sectionFrame t n x).1 = true := by
  unfold sectionFrame
  extract_lets m src c c1 x1
  have hm : Memory.wf m = true := by
    refine memFold (fun m k h => ?_) _ hx
    split
    · exact memStore_wf _ h _
    · exact h
  have h1 : Memory.wf x1.1 = true := pairFold (fun _ _ h => ringEnters_wf h) _ hm
  exact MC.on_wf h1

@[simp] theorem reverseRing_wf {t : Nat} {x : MC} {r : Nat} (hx : Memory.wf x.1 = true) :
    Memory.wf (reverseRing t x r).1 = true := by
  unfold reverseRing
  split
  · exact hx
  · extract_lets st x1
    have h1 : Memory.wf x1.1 = true := hx
    split
    · exact enumStart_wf (ringMode_wf h1)
    · split
      · exact enumStart_wf h1
      · split
        · exact h1
        · exact h1

@[simp] theorem handOver_wf {t : Nat} {n : Nat} {cause : Nat} {x : MC} (hx : Memory.wf x.1 = true) :
    Memory.wf (handOver t n cause x).1 = true := by
  unfold handOver
  extract_lets
  exact pairFold (fun _ _ h => reverseRing_wf h) _ hx

@[simp] theorem normalRing_wf {t : Nat} {x : MC} {r : Nat} (hx : Memory.wf x.1 = true) :
    Memory.wf (normalRing t x r).1 = true := by
  unfold normalRing
  try dsimp only
  (repeat' split) <;> simp_all

@[simp] theorem handBack_wf {t : Nat} {n : Nat} {x : MC} (hx : Memory.wf x.1 = true) :
    Memory.wf (handBack t n x).1 = true := by
  unfold handBack
  extract_lets p m c c1 c2 src c3 c4 c5 x1
  have hm : Memory.wf m = true := memCopy_wf hx _ _ _
  have h1 : Memory.wf x1.1 = true := pairFold (fun _ _ h => normalRing_wf h) _ hm
  exact MC.on_wf h1

@[simp] theorem reserveStart_wf {t : Nat} {x : MC} (hx : Memory.wf x.1 = true) :
    Memory.wf (reserveStart t x).1 = true := by
  unfold reserveStart
  try dsimp only
  (repeat' split) <;> simp_all

@[simp] theorem carryInstant_wf {t : Nat} {n : Nat} {x : MC} (hx : Memory.wf x.1 = true) :
    Memory.wf (carryInstant t n x).1 = true := by
  unfold carryInstant
  try dsimp only
  (repeat' split) <;> simp_all

@[simp] theorem statsWrite_wf {m : Mem} {c : Ctl} {h : Nat} {n : Nat} (hm : Memory.wf m = true) :
    Memory.wf (statsWrite m c h n) = true := by
  unfold statsWrite
  extract_lets
  exact memFold (fun _ _ h => memStore_wf _ h _) _ (memFold (fun _ _ h => memStore_wf _ h _) _
    (memFold (fun _ _ h => memStore_wf _ h _) _ hm))

@[simp] theorem sectionComplete_wf {p : Nat} {h : Nat} {n : Nat} {x : MC} (hx : Memory.wf x.1 = true) :
    Memory.wf (sectionComplete p h n x).1 = true := by
  unfold sectionComplete
  extract_lets x1 late x2 m
  have h1 : Memory.wf x1.1 = true := by
    refine pairFold (fun x r h => ?_) _ hx
    split
    · exact h
    · exact fillRing_wf h
  have h2 : Memory.wf x2.1 = true := MC.on_wf h1
  have hm : Memory.wf m = true := statsWrite_wf h2
  clear_value m
  exact hm

/-! ## RegWrite -/

@[simp] theorem writeRing_wf {m : Mem} {c : Ctl} {o : Origin} {t : Nat} {off : Nat} {w : Nat} (hm : Memory.wf m = true) :
    Memory.wf (writeRing m c o t off w).1.1 = true := by
  unfold writeRing
  try dsimp only
  (repeat' split) <;> simp_all

@[simp] theorem writeBal_wf {m : Mem} {c : Ctl} {o : Origin} {t : Nat} {off : Nat} {w : Nat} (hm : Memory.wf m = true) :
    Memory.wf (writeBal m c o t off w).1.1 = true := by
  unfold writeBal
  try dsimp only
  (repeat' split) <;> simp_all

@[simp] theorem writeDma_wf {m : Mem} {c : Ctl} {o : Origin} {t : Nat} {off : Nat} {w : Nat} (hm : Memory.wf m = true) :
    Memory.wf (writeDma m c o t off w).1.1 = true := by
  unfold writeDma
  try dsimp only
  repeat' first
    | assumption
    | split
    | (apply memLoop; intro _ _ _)
    | (apply pairLoop; intro _ _ _)
    | (apply memFold; intro _ _ _)
    | (apply pairFold; intro _ _ _)
    | (simp_all; done)

@[simp] theorem writeImg_wf {m : Mem} {c : Ctl} {o : Origin} {t : Nat} {off : Nat} {w : Nat} (hm : Memory.wf m = true) :
    Memory.wf (writeImg m c o t off w).1.1 = true := by
  unfold writeImg
  split
  · exact selfcheckWrite_wf hm
  · split
    · exact imgCtrlWrite_wf hm
    · split <;> exact hm

@[simp] theorem taskCmdM_wf {m : Mem} {c : Ctl} {o : Origin} {t cmd i : Nat} (hm : Memory.wf m = true) :
    Memory.wf (taskCmdM m c o t cmd i).1.1 = true := by
  unfold taskCmdM
  try dsimp only
  (repeat' split) <;> simp_all

@[simp] theorem blockWrite_wf {m : Mem} {c : Ctl} {o : Origin} {t : Nat} {k : Nat} {off : Nat} {w : Nat} (hm : Memory.wf m = true) :
    Memory.wf (blockWrite m c o t k off w).1.1 = true := by
  unfold blockWrite
  extract_lets only
  have ho : ∀ x, Memory.wf (only x).1.1 = true := fun _ => hm
  clear_value only
  (repeat' split) <;> first
    | exact ho _
    | simp_all

@[simp] theorem regWrite_wf {m : Mem} {c : Ctl} {o : Origin} {t : Nat} {k : Nat} {off : Nat} {w : Nat} (hm : Memory.wf m = true) :
    Memory.wf (regWrite m c o t k off w).1.1 = true := by
  unfold regWrite
  try dsimp only
  (repeat' split) <;> simp_all

/-! ## Memory -/

@[simp] theorem storeAt_wf {m : Mem} {u : Nat} {off : Nat} {y0 : List Byte} (hm : Memory.wf m = true) :
    Memory.wf (storeAt m u off y0) = true := by
  induction y0 generalizing m off with
  | nil => exact hm
  | cons b bs ih =>
    unfold storeAt
    apply ih
    split
    · exact memWrite_wf hm _ _
    · exact hm

@[simp] theorem accessWrite_wf {m : Mem} {c : Ctl} {o : Origin} {u k off v : Nat} (hm : Memory.wf m = true) :
    Memory.wf (accessM m c o u k fun m c => regWrite m c o u k off v).1 = true :=
  accessM_wf (f := fun m c => regWrite m c o u k off v) hm (fun _ _ h => regWrite_wf h)

@[simp] theorem casdaStore_wf {m : Mem} {c : Ctl} {t : TileId} {i : Nat} {a : Nat} {n : Nat} {v : Nat} (hm : Memory.wf m = true) :
    Memory.wf (casdaStore m c t i a n v).1 = true := by
  unfold casdaStore
  extract_lets o u off rs k sys w
  clear_value o rs sys u off k w
  split
  · split
    · exact hm
    · split
      · exact hm
      · exact accessWrite_wf hm
  · split
    · exact hm
    · split
      · exact hm
      · exact storeAt_wf hm

@[simp] theorem casdaAmo_wf {m : Mem} {c : Ctl} {t : TileId} {i : Nat} {a : Nat} {f : Word → Word} (hm : Memory.wf m = true) :
    Memory.wf (casdaAmo m c t i a f).1 = true := by
  unfold casdaAmo
  extract_lets
  (repeat' split) <;> first | exact hm | exact storeAt_wf hm

@[simp] theorem instrM_wf {m : Mem} {c : Ctl} {t : Nat} {k : Nat} {word : Nat} {illegal : Bool} {f : Nat → Ctl → MC} (hm : Memory.wf m = true) (hf : ∀ i c, Memory.wf (f i c).1 = true) :
    Memory.wf (instrM m c t k word illegal f).1 = true := by
  unfold instrM
  try dsimp only
  repeat' first
    | assumption
    | split
    | (apply memLoop; intro _ _ _)
    | (apply pairLoop; intro _ _ _)
    | (apply memFold; intro _ _ _)
    | (apply pairFold; intro _ _ _)
    | (simp_all; done)

@[simp] theorem vstore_wf {m : Mem} {c : Ctl} {t : TileId} {k word vd p e : Nat} {illegal : Bool} {addr : Ctl → Nat → Nat → Nat}
    (hm : Memory.wf m = true) : Memory.wf (vstore m c t k word illegal vd p e addr).1 = true := by
  unfold vstore
  refine instrM_wf hm (fun i c => ?_)
  dsimp only
  split
  · exact hm
  · split
    · exact hm
    · split
      · exact hm
      · exact VecArray.stores_wf (dmaLand_wf hm)

@[simp] theorem hostRead_wf {q : Req} {m : Mem} {c : Ctl} (hm : Memory.wf m = true) :
    Memory.wf (hostRead q m c).mem = true := by
  unfold hostRead
  try dsimp only
  (repeat' split) <;> simp_all

@[simp] theorem writeWords_wf {o : Origin} {u : Nat} {y0 : List (Nat × Nat)} {y1 : MC × Nat} (hy1 : Memory.wf y1.1.1 = true) :
    Memory.wf (writeWords o u y0 y1).1.1 = true := by
  induction y0 generalizing y1 with
  | nil => exact hy1
  | cons e l ih =>
    obtain ⟨off, w⟩ := e
    unfold writeWords
    split
    · exact hy1
    · exact ih (regWrite_wf hy1)

@[simp] theorem hostWrite_wf {q : Req} {m : Mem} {c : Ctl} (hm : Memory.wf m = true) :
    Memory.wf (hostWrite q m c).mem = true := by
  unfold hostWrite
  try dsimp only
  (repeat' split) <;> simp_all
@[simp] theorem presentNow_wf {m : Mem} {c : Ctl} {t : Nat} {r : Presented} (hm : Memory.wf m = true) :
    Memory.wf (presentNow m c t r).1 = true := by
  unfold presentNow
  dsimp only
  split
  · exact recordOne_wf (recordAll_wf hm)
  · exact recordAll_wf hm

@[simp] theorem emitAt_wf {m : Mem} {c : Ctl} {t k i : Nat} {d : Fin 32} {p : Nat} {b : List Byte} (hm : Memory.wf m = true) :
    Memory.wf (emitAt m c t k i d p b).1 = true := by
  unfold emitAt
  dsimp only
  (repeat' split) <;> first | exact hm | exact presentNow_wf hm

@[simp] theorem estimatorRun_wf {t f last : Nat} {x : MC} (hx : Memory.wf x.1 = true) :
    Memory.wf (estimatorRun t f last x).1 = true := by
  unfold estimatorRun
  extract_lets c lvl e c1 z own z1
  exact pairFold (fun _ _ h => Run.pass_wf h) _ hx

@[simp] theorem frameBegin_wf {n : Nat} {x : MC} (hx : Memory.wf x.1 = true) : Memory.wf (frameBegin n x).1 = true := by
  unfold frameBegin
  refine MC.on_wf (pairFold (fun x t h => ?_) _ (MC.on_wf (pairFold (fun _ _ h => carryInstant_wf h) _ hx)))
  split
  · exact sectionFrame_wf h
  · exact h

@[simp] theorem frameEnd_wf {t n : Nat} {x : MC} (hx : Memory.wf x.1 = true) : Memory.wf (frameEnd t n x).1 = true := by
  unfold frameEnd
  refine MC.on_wf (pairFold (fun x h hh => ?_) _ hx)
  split
  · exact sectionComplete_wf hh
  · exact hh

end Sys2Proof.Machine
end

