-- ==== Sys2Proof/Laws/State.lean ====
section
/-! SUPPORT. Laws/State.lean: what the updates of the state leave alone, field by field, and what the register file, the task
slots and the vector arrays read as after a write. -/
namespace Sys2Proof.Machine

@[simp] theorem ctlTo_ctl (s : State) (c : Ctl) : (s.ctlTo c).ctl = c := rfl
@[simp] theorem ctlTo_mem (s : State) (c : Ctl) : (s.ctlTo c).mem = s.mem := rfl
@[simp] theorem ctlTo_pending (s : State) (c : Ctl) : (s.ctlTo c).pending = s.pending := rfl
@[simp] theorem allTo_ctl (s : State) (x : Mem × Ctl) : (s.allTo x).ctl = x.2 := rfl
@[simp] theorem allTo_mem (s : State) (x : Mem × Ctl) : (s.allTo x).mem = x.1 := rfl
@[simp] theorem allTo_pending (s : State) (x : Mem × Ctl) : (s.allTo x).pending = s.pending := rfl

namespace Ctl

@[simp] theorem put_unit (c : Ctl) (t : Nat) (F : Field) (v i j : Nat) : (c.put t F v i j).unit = c.unit := rfl
@[simp] theorem put_fresh (c : Ctl) (t : Nat) (F : Field) (v i j : Nat) : (c.put t F v i j).fresh = c.fresh := rfl
@[simp] theorem put_status (c : Ctl) (t : Nat) (F : Field) (v i j : Nat) : (c.put t F v i j).status = c.status := rfl
@[simp] theorem put_data (c : Ctl) (t : Nat) (F : Field) (v i j : Nat) : (c.put t F v i j).data = c.data := rfl
@[simp] theorem put_store (c : Ctl) (t : Nat) (F : Field) (v i j : Nat) : (c.put t F v i j).store = c.store := rfl
@[simp] theorem put_tasks (c : Ctl) (t : Nat) (F : Field) (v i j : Nat) : (c.put t F v i j).tasks = c.tasks := rfl
@[simp] theorem put_stamp (c : Ctl) (t : Nat) (F : Field) (v i j : Nat) : (c.put t F v i j).stamp = c.stamp := rfl
@[simp] theorem put_traps (c : Ctl) (t : Nat) (F : Field) (v i j : Nat) : (c.put t F v i j).traps = c.traps := rfl
@[simp] theorem put_curTrap (c : Ctl) (t : Nat) (F : Field) (v i j : Nat) : (c.put t F v i j).curTrap = c.curTrap := rfl
@[simp] theorem put_mbox (c : Ctl) (t : Nat) (F : Field) (v i j : Nat) : (c.put t F v i j).mbox = c.mbox := rfl
@[simp] theorem put_vec (c : Ctl) (t : Nat) (F : Field) (v i j : Nat) : (c.put t F v i j).vec = c.vec := rfl
@[simp] theorem put_presented (c : Ctl) (t : Nat) (F : Field) (v i j : Nat) : (c.put t F v i j).presented = c.presented := rfl
@[simp] theorem put_tokens (c : Ctl) (t : Nat) (F : Field) (v i j : Nat) : (c.put t F v i j).tokens = c.tokens := rfl
@[simp] theorem put_withheld (c : Ctl) (t : Nat) (F : Field) (v i j : Nat) : (c.put t F v i j).withheld = c.withheld := rfl
@[simp] theorem put_tailQueue (c : Ctl) (t : Nat) (F : Field) (v i j : Nat) : (c.put t F v i j).tailQueue = c.tailQueue := rfl
@[simp] theorem put_tailLost (c : Ctl) (t : Nat) (F : Field) (v i j : Nat) : (c.put t F v i j).tailLost = c.tailLost := rfl
@[simp] theorem put_marked (c : Ctl) (t : Nat) (F : Field) (v i j : Nat) : (c.put t F v i j).marked = c.marked := rfl
@[simp] theorem put_estGated (c : Ctl) (t : Nat) (F : Field) (v i j : Nat) : (c.put t F v i j).estGated = c.estGated := rfl
@[simp] theorem put_cleanFrames (c : Ctl) (t : Nat) (F : Field) (v i j : Nat) : (c.put t F v i j).cleanFrames = c.cleanFrames := rfl
@[simp] theorem put_ticks (c : Ctl) (t : Nat) (F : Field) (v i j : Nat) : (c.put t F v i j).ticks = c.ticks := rfl
@[simp] theorem put_energy (c : Ctl) (t : Nat) (F : Field) (v i j : Nat) : (c.put t F v i j).energy = c.energy := rfl
@[simp] theorem put_bucketHalf (c : Ctl) (t : Nat) (F : Field) (v i j : Nat) : (c.put t F v i j).bucketHalf = c.bucketHalf := rfl
@[simp] theorem put_phase (c : Ctl) (t : Nat) (F : Field) (v i j : Nat) : (c.put t F v i j).phase = c.phase := rfl
@[simp] theorem put_frameNum (c : Ctl) (t : Nat) (F : Field) (v i j : Nat) : (c.put t F v i j).frameNum = c.frameNum := rfl
@[simp] theorem put_stnNs (c : Ctl) (t : Nat) (F : Field) (v i j : Nat) : (c.put t F v i j).stnNs = c.stnNs := rfl
@[simp] theorem put_stnSec (c : Ctl) (t : Nat) (F : Field) (v i j : Nat) : (c.put t F v i j).stnSec = c.stnSec := rfl
@[simp] theorem put_optime (c : Ctl) (t : Nat) (F : Field) (v i j : Nat) : (c.put t F v i j).optime = c.optime := rfl
@[simp] theorem put_img (c : Ctl) (t : Nat) (F : Field) (v i j : Nat) : (c.put t F v i j).img = c.img := rfl
@[simp] theorem put_faultTimes (c : Ctl) (t : Nat) (F : Field) (v i j : Nat) : (c.put t F v i j).faultTimes = c.faultTimes := rfl
@[simp] theorem put_stuck (c : Ctl) (t : Nat) (F : Field) (v i j : Nat) : (c.put t F v i j).stuck = c.stuck := rfl
@[simp] theorem put_carryIn (c : Ctl) (t : Nat) (F : Field) (v i j : Nat) : (c.put t F v i j).carryIn = c.carryIn := rfl
@[simp] theorem put_reserving (c : Ctl) (t : Nat) (F : Field) (v i j : Nat) : (c.put t F v i j).reserving = c.reserving := rfl
@[simp] theorem put_readySet (c : Ctl) (t : Nat) (F : Field) (v i j : Nat) : (c.put t F v i j).readySet = c.readySet := rfl
@[simp] theorem put_net (c : Ctl) (t : Nat) (F : Field) (v i j : Nat) : (c.put t F v i j).net = c.net := rfl
@[simp] theorem put_ptp (c : Ctl) (t : Nat) (F : Field) (v i j : Nat) : (c.put t F v i j).ptp = c.ptp := rfl
@[simp] theorem put_syncRef (c : Ctl) (t : Nat) (F : Field) (v i j : Nat) : (c.put t F v i j).syncRef = c.syncRef := rfl
@[simp] theorem put_followed (c : Ctl) (t : Nat) (F : Field) (v i j : Nat) : (c.put t F v i j).followed = c.followed := rfl
@[simp] theorem put_blks (c : Ctl) (t : Nat) (F : Field) (v i j : Nat) : (c.put t F v i j).blks = c.blks := rfl
@[simp] theorem put_rings (c : Ctl) (t : Nat) (F : Field) (v i j : Nat) : (c.put t F v i j).rings = c.rings := rfl
@[simp] theorem put_found (c : Ctl) (t : Nat) (F : Field) (v i j : Nat) : (c.put t F v i j).found = c.found := rfl
@[simp] theorem put_inventory (c : Ctl) (t : Nat) (F : Field) (v i j : Nat) : (c.put t F v i j).inventory = c.inventory := rfl
@[simp] theorem put_identity (c : Ctl) (t : Nat) (F : Field) (v i j : Nat) : (c.put t F v i j).identity = c.identity := rfl
@[simp] theorem put_ow (c : Ctl) (t : Nat) (F : Field) (v i j : Nat) : (c.put t F v i j).ow = c.ow := rfl
@[simp] theorem put_beryl (c : Ctl) (t : Nat) (F : Field) (v i j : Nat) : (c.put t F v i j).beryl = c.beryl := rfl
@[simp] theorem put_berylStore (c : Ctl) (t : Nat) (F : Field) (v i j : Nat) : (c.put t F v i j).berylStore = c.berylStore := rfl
@[simp] theorem put_berylStore2 (c : Ctl) (t : Nat) (F : Field) (v i j : Nat) : (c.put t F v i j).berylStore2 = c.berylStore2 := rfl
@[simp] theorem put_berylCrc (c : Ctl) (t : Nat) (F : Field) (v i j : Nat) : (c.put t F v i j).berylCrc = c.berylCrc := rfl
@[simp] theorem put_lims (c : Ctl) (t : Nat) (F : Field) (v i j : Nat) : (c.put t F v i j).lims = c.lims := rfl
@[simp] theorem put_limCommit (c : Ctl) (t : Nat) (F : Field) (v i j : Nat) : (c.put t F v i j).limCommit = c.limCommit := rfl
@[simp] theorem put_selAct (c : Ctl) (t : Nat) (F : Field) (v i j : Nat) : (c.put t F v i j).selAct = c.selAct := rfl
@[simp] theorem put_raw (c : Ctl) (t : Nat) (F : Field) (v i j : Nat) : (c.put t F v i j).raw = c.raw := rfl
@[simp] theorem put_bursts (c : Ctl) (t : Nat) (F : Field) (v i j : Nat) : (c.put t F v i j).bursts = c.bursts := rfl
@[simp] theorem put_outliers (c : Ctl) (t : Nat) (F : Field) (v i j : Nat) : (c.put t F v i j).outliers = c.outliers := rfl
@[simp] theorem put_frameOpen (c : Ctl) (t : Nat) (F : Field) (v i j : Nat) : (c.put t F v i j).frameOpen = c.frameOpen := rfl
@[simp] theorem put_cellx (c : Ctl) (t : Nat) (F : Field) (v i j : Nat) : (c.put t F v i j).cellx = c.cellx := rfl
@[simp] theorem put_strx (c : Ctl) (t : Nat) (F : Field) (v i j : Nat) : (c.put t F v i j).strx = c.strx := rfl
@[simp] theorem put_est (c : Ctl) (t : Nat) (F : Field) (v i j : Nat) : (c.put t F v i j).est = c.est := rfl
@[simp] theorem put_headFrom (c : Ctl) (t : Nat) (F : Field) (v i j : Nat) : (c.put t F v i j).headFrom = c.headFrom := rfl
@[simp] theorem put_oldMaps (c : Ctl) (t : Nat) (F : Field) (v i j : Nat) : (c.put t F v i j).oldMaps = c.oldMaps := rfl
@[simp] theorem put_cellUid (c : Ctl) (t : Nat) (F : Field) (v i j : Nat) : (c.put t F v i j).cellUid = c.cellUid := rfl
@[simp] theorem put_profiles (c : Ctl) (t : Nat) (F : Field) (v i j : Nat) : (c.put t F v i j).profiles = c.profiles := rfl
@[simp] theorem put_profDue (c : Ctl) (t : Nat) (F : Field) (v i j : Nat) : (c.put t F v i j).profDue = c.profDue := rfl
@[simp] theorem put_switches (c : Ctl) (t : Nat) (F : Field) (v i j : Nat) : (c.put t F v i j).switches = c.switches := rfl
@[simp] theorem put_secFrom (c : Ctl) (t : Nat) (F : Field) (v i j : Nat) : (c.put t F v i j).secFrom = c.secFrom := rfl
@[simp] theorem put_staleDue (c : Ctl) (t : Nat) (F : Field) (v i j : Nat) : (c.put t F v i j).staleDue = c.staleDue := rfl
@[simp] theorem put_lvGen (c : Ctl) (t : Nat) (F : Field) (v i j : Nat) : (c.put t F v i j).lvGen = c.lvGen := rfl
@[simp] theorem put_backups (c : Ctl) (t : Nat) (F : Field) (v i j : Nat) : (c.put t F v i j).backups = c.backups := rfl
@[simp] theorem put_manual (c : Ctl) (t : Nat) (F : Field) (v i j : Nat) : (c.put t F v i j).manual = c.manual := rfl
@[simp] theorem put_cycles (c : Ctl) (t : Nat) (F : Field) (v i j : Nat) : (c.put t F v i j).cycles = c.cycles := rfl
@[simp] theorem put_learns (c : Ctl) (t : Nat) (F : Field) (v i j : Nat) : (c.put t F v i j).learns = c.learns := rfl
@[simp] theorem put_balBefore (c : Ctl) (t : Nat) (F : Field) (v i j : Nat) : (c.put t F v i j).balBefore = c.balBefore := rfl
@[simp] theorem put_heatEp (c : Ctl) (t : Nat) (F : Field) (v i j : Nat) : (c.put t F v i j).heatEp = c.heatEp := rfl
@[simp] theorem put_balReduced (c : Ctl) (t : Nat) (F : Field) (v i j : Nat) : (c.put t F v i j).balReduced = c.balReduced := rfl
@[simp] theorem put_planDue (c : Ctl) (t : Nat) (F : Field) (v i j : Nat) : (c.put t F v i j).planDue = c.planDue := rfl
@[simp] theorem put_canTry (c : Ctl) (t : Nat) (F : Field) (v i j : Nat) : (c.put t F v i j).canTry = c.canTry := rfl
@[simp] theorem put_canFifo (c : Ctl) (t : Nat) (F : Field) (v i j : Nat) : (c.put t F v i j).canFifo = c.canFifo := rfl
@[simp] theorem put_canOvf (c : Ctl) (t : Nat) (F : Field) (v i j : Nat) : (c.put t F v i j).canOvf = c.canOvf := rfl
@[simp] theorem put_canDet (c : Ctl) (t : Nat) (F : Field) (v i j : Nat) : (c.put t F v i j).canDet = c.canDet := rfl
@[simp] theorem put_canStop (c : Ctl) (t : Nat) (F : Field) (v i j : Nat) : (c.put t F v i j).canStop = c.canStop := rfl
@[simp] theorem put_chans (c : Ctl) (t : Nat) (F : Field) (v i j : Nat) : (c.put t F v i j).chans = c.chans := rfl
@[simp] theorem put_loopWait (c : Ctl) (t : Nat) (F : Field) (v i j : Nat) : (c.put t F v i j).loopWait = c.loopWait := rfl
@[simp] theorem put_traces (c : Ctl) (t : Nat) (F : Field) (v i j : Nat) : (c.put t F v i j).traces = c.traces := rfl
@[simp] theorem put_bank (c : Ctl) (t : Nat) (F : Field) (v i j : Nat) : (c.put t F v i j).bank = c.bank := rfl
@[simp] theorem put_slots (c : Ctl) (t : Nat) (F : Field) (v i j : Nat) : (c.put t F v i j).slots = c.slots := rfl
@[simp] theorem put_perts (c : Ctl) (t : Nat) (F : Field) (v i j : Nat) : (c.put t F v i j).perts = c.perts := rfl
@[simp] theorem put_lone (c : Ctl) (t : Nat) (F : Field) (v i j : Nat) : (c.put t F v i j).lone = c.lone := rfl
@[simp] theorem put_rests (c : Ctl) (t : Nat) (F : Field) (v i j : Nat) : (c.put t F v i j).rests = c.rests := rfl
@[simp] theorem put_restLast (c : Ctl) (t : Nat) (F : Field) (v i j : Nat) : (c.put t F v i j).restLast = c.restLast := rfl
@[simp] theorem put_latch (c : Ctl) (t : Nat) (F : Field) (v i j : Nat) : (c.put t F v i j).latch = c.latch := rfl
@[simp] theorem put_setPts (c : Ctl) (t : Nat) (F : Field) (v i j : Nat) : (c.put t F v i j).setPts = c.setPts := rfl
@[simp] theorem put_schedule (c : Ctl) (t : Nat) (F : Field) (v i j : Nat) : (c.put t F v i j).schedule = c.schedule := rfl
@[simp] theorem put_inFlight (c : Ctl) (t : Nat) (F : Field) (v i j : Nat) : (c.put t F v i j).inFlight = c.inFlight := rfl
@[simp] theorem put_dma (c : Ctl) (t : Nat) (F : Field) (v i j : Nat) : (c.put t F v i j).dma = c.dma := rfl
@[simp] theorem put_dmaTurn (c : Ctl) (t : Nat) (F : Field) (v i j : Nat) : (c.put t F v i j).dmaTurn = c.dmaTurn := rfl
@[simp] theorem put_dmaHalts (c : Ctl) (t : Nat) (F : Field) (v i j : Nat) : (c.put t F v i j).dmaHalts = c.dmaHalts := rfl
@[simp] theorem put_twb (c : Ctl) (t : Nat) (F : Field) (v i j : Nat) : (c.put t F v i j).twb = c.twb := rfl
@[simp] theorem put_pw (c : Ctl) (t : Nat) (F : Field) (v i j : Nat) : (c.put t F v i j).pw = c.pw := rfl
@[simp] theorem put_handed (c : Ctl) (t : Nat) (F : Field) (v i j : Nat) : (c.put t F v i j).handed = c.handed := rfl

@[simp] theorem setTask_unit (c : Ctl) (t i : Nat) (k : Task) : (c.setTask t i k).unit = c.unit := rfl
@[simp] theorem setTask_fresh (c : Ctl) (t i : Nat) (k : Task) : (c.setTask t i k).fresh = c.fresh := rfl
@[simp] theorem setTask_status (c : Ctl) (t i : Nat) (k : Task) : (c.setTask t i k).status = c.status := rfl
@[simp] theorem setTask_data (c : Ctl) (t i : Nat) (k : Task) : (c.setTask t i k).data = c.data := rfl
@[simp] theorem setTask_regs (c : Ctl) (t i : Nat) (k : Task) : (c.setTask t i k).regs = c.regs := rfl
@[simp] theorem setTask_store (c : Ctl) (t i : Nat) (k : Task) : (c.setTask t i k).store = c.store := rfl
@[simp] theorem setTask_stamp (c : Ctl) (t i : Nat) (k : Task) : (c.setTask t i k).stamp = c.stamp := rfl
@[simp] theorem setTask_traps (c : Ctl) (t i : Nat) (k : Task) : (c.setTask t i k).traps = c.traps := rfl
@[simp] theorem setTask_curTrap (c : Ctl) (t i : Nat) (k : Task) : (c.setTask t i k).curTrap = c.curTrap := rfl
@[simp] theorem setTask_mbox (c : Ctl) (t i : Nat) (k : Task) : (c.setTask t i k).mbox = c.mbox := rfl
@[simp] theorem setTask_vec (c : Ctl) (t i : Nat) (k : Task) : (c.setTask t i k).vec = c.vec := rfl
@[simp] theorem setTask_presented (c : Ctl) (t i : Nat) (k : Task) : (c.setTask t i k).presented = c.presented := rfl
@[simp] theorem setTask_tokens (c : Ctl) (t i : Nat) (k : Task) : (c.setTask t i k).tokens = c.tokens := rfl
@[simp] theorem setTask_withheld (c : Ctl) (t i : Nat) (k : Task) : (c.setTask t i k).withheld = c.withheld := rfl
@[simp] theorem setTask_tailQueue (c : Ctl) (t i : Nat) (k : Task) : (c.setTask t i k).tailQueue = c.tailQueue := rfl
@[simp] theorem setTask_tailLost (c : Ctl) (t i : Nat) (k : Task) : (c.setTask t i k).tailLost = c.tailLost := rfl
@[simp] theorem setTask_marked (c : Ctl) (t i : Nat) (k : Task) : (c.setTask t i k).marked = c.marked := rfl
@[simp] theorem setTask_estGated (c : Ctl) (t i : Nat) (k : Task) : (c.setTask t i k).estGated = c.estGated := rfl
@[simp] theorem setTask_cleanFrames (c : Ctl) (t i : Nat) (k : Task) : (c.setTask t i k).cleanFrames = c.cleanFrames := rfl
@[simp] theorem setTask_ticks (c : Ctl) (t i : Nat) (k : Task) : (c.setTask t i k).ticks = c.ticks := rfl
@[simp] theorem setTask_energy (c : Ctl) (t i : Nat) (k : Task) : (c.setTask t i k).energy = c.energy := rfl
@[simp] theorem setTask_bucketHalf (c : Ctl) (t i : Nat) (k : Task) : (c.setTask t i k).bucketHalf = c.bucketHalf := rfl
@[simp] theorem setTask_phase (c : Ctl) (t i : Nat) (k : Task) : (c.setTask t i k).phase = c.phase := rfl
@[simp] theorem setTask_frameNum (c : Ctl) (t i : Nat) (k : Task) : (c.setTask t i k).frameNum = c.frameNum := rfl
@[simp] theorem setTask_stnNs (c : Ctl) (t i : Nat) (k : Task) : (c.setTask t i k).stnNs = c.stnNs := rfl
@[simp] theorem setTask_stnSec (c : Ctl) (t i : Nat) (k : Task) : (c.setTask t i k).stnSec = c.stnSec := rfl
@[simp] theorem setTask_optime (c : Ctl) (t i : Nat) (k : Task) : (c.setTask t i k).optime = c.optime := rfl
@[simp] theorem setTask_img (c : Ctl) (t i : Nat) (k : Task) : (c.setTask t i k).img = c.img := rfl
@[simp] theorem setTask_faultTimes (c : Ctl) (t i : Nat) (k : Task) : (c.setTask t i k).faultTimes = c.faultTimes := rfl
@[simp] theorem setTask_stuck (c : Ctl) (t i : Nat) (k : Task) : (c.setTask t i k).stuck = c.stuck := rfl
@[simp] theorem setTask_carryIn (c : Ctl) (t i : Nat) (k : Task) : (c.setTask t i k).carryIn = c.carryIn := rfl
@[simp] theorem setTask_reserving (c : Ctl) (t i : Nat) (k : Task) : (c.setTask t i k).reserving = c.reserving := rfl
@[simp] theorem setTask_readySet (c : Ctl) (t i : Nat) (k : Task) : (c.setTask t i k).readySet = c.readySet := rfl
@[simp] theorem setTask_net (c : Ctl) (t i : Nat) (k : Task) : (c.setTask t i k).net = c.net := rfl
@[simp] theorem setTask_ptp (c : Ctl) (t i : Nat) (k : Task) : (c.setTask t i k).ptp = c.ptp := rfl
@[simp] theorem setTask_syncRef (c : Ctl) (t i : Nat) (k : Task) : (c.setTask t i k).syncRef = c.syncRef := rfl
@[simp] theorem setTask_followed (c : Ctl) (t i : Nat) (k : Task) : (c.setTask t i k).followed = c.followed := rfl
@[simp] theorem setTask_blks (c : Ctl) (t i : Nat) (k : Task) : (c.setTask t i k).blks = c.blks := rfl
@[simp] theorem setTask_rings (c : Ctl) (t i : Nat) (k : Task) : (c.setTask t i k).rings = c.rings := rfl
@[simp] theorem setTask_found (c : Ctl) (t i : Nat) (k : Task) : (c.setTask t i k).found = c.found := rfl
@[simp] theorem setTask_inventory (c : Ctl) (t i : Nat) (k : Task) : (c.setTask t i k).inventory = c.inventory := rfl
@[simp] theorem setTask_identity (c : Ctl) (t i : Nat) (k : Task) : (c.setTask t i k).identity = c.identity := rfl
@[simp] theorem setTask_ow (c : Ctl) (t i : Nat) (k : Task) : (c.setTask t i k).ow = c.ow := rfl
@[simp] theorem setTask_beryl (c : Ctl) (t i : Nat) (k : Task) : (c.setTask t i k).beryl = c.beryl := rfl
@[simp] theorem setTask_berylStore (c : Ctl) (t i : Nat) (k : Task) : (c.setTask t i k).berylStore = c.berylStore := rfl
@[simp] theorem setTask_berylStore2 (c : Ctl) (t i : Nat) (k : Task) : (c.setTask t i k).berylStore2 = c.berylStore2 := rfl
@[simp] theorem setTask_berylCrc (c : Ctl) (t i : Nat) (k : Task) : (c.setTask t i k).berylCrc = c.berylCrc := rfl
@[simp] theorem setTask_lims (c : Ctl) (t i : Nat) (k : Task) : (c.setTask t i k).lims = c.lims := rfl
@[simp] theorem setTask_limCommit (c : Ctl) (t i : Nat) (k : Task) : (c.setTask t i k).limCommit = c.limCommit := rfl
@[simp] theorem setTask_selAct (c : Ctl) (t i : Nat) (k : Task) : (c.setTask t i k).selAct = c.selAct := rfl
@[simp] theorem setTask_raw (c : Ctl) (t i : Nat) (k : Task) : (c.setTask t i k).raw = c.raw := rfl
@[simp] theorem setTask_bursts (c : Ctl) (t i : Nat) (k : Task) : (c.setTask t i k).bursts = c.bursts := rfl
@[simp] theorem setTask_outliers (c : Ctl) (t i : Nat) (k : Task) : (c.setTask t i k).outliers = c.outliers := rfl
@[simp] theorem setTask_frameOpen (c : Ctl) (t i : Nat) (k : Task) : (c.setTask t i k).frameOpen = c.frameOpen := rfl
@[simp] theorem setTask_cellx (c : Ctl) (t i : Nat) (k : Task) : (c.setTask t i k).cellx = c.cellx := rfl
@[simp] theorem setTask_strx (c : Ctl) (t i : Nat) (k : Task) : (c.setTask t i k).strx = c.strx := rfl
@[simp] theorem setTask_est (c : Ctl) (t i : Nat) (k : Task) : (c.setTask t i k).est = c.est := rfl
@[simp] theorem setTask_headFrom (c : Ctl) (t i : Nat) (k : Task) : (c.setTask t i k).headFrom = c.headFrom := rfl
@[simp] theorem setTask_oldMaps (c : Ctl) (t i : Nat) (k : Task) : (c.setTask t i k).oldMaps = c.oldMaps := rfl
@[simp] theorem setTask_cellUid (c : Ctl) (t i : Nat) (k : Task) : (c.setTask t i k).cellUid = c.cellUid := rfl
@[simp] theorem setTask_profiles (c : Ctl) (t i : Nat) (k : Task) : (c.setTask t i k).profiles = c.profiles := rfl
@[simp] theorem setTask_profDue (c : Ctl) (t i : Nat) (k : Task) : (c.setTask t i k).profDue = c.profDue := rfl
@[simp] theorem setTask_switches (c : Ctl) (t i : Nat) (k : Task) : (c.setTask t i k).switches = c.switches := rfl
@[simp] theorem setTask_secFrom (c : Ctl) (t i : Nat) (k : Task) : (c.setTask t i k).secFrom = c.secFrom := rfl
@[simp] theorem setTask_staleDue (c : Ctl) (t i : Nat) (k : Task) : (c.setTask t i k).staleDue = c.staleDue := rfl
@[simp] theorem setTask_lvGen (c : Ctl) (t i : Nat) (k : Task) : (c.setTask t i k).lvGen = c.lvGen := rfl
@[simp] theorem setTask_backups (c : Ctl) (t i : Nat) (k : Task) : (c.setTask t i k).backups = c.backups := rfl
@[simp] theorem setTask_manual (c : Ctl) (t i : Nat) (k : Task) : (c.setTask t i k).manual = c.manual := rfl
@[simp] theorem setTask_cycles (c : Ctl) (t i : Nat) (k : Task) : (c.setTask t i k).cycles = c.cycles := rfl
@[simp] theorem setTask_learns (c : Ctl) (t i : Nat) (k : Task) : (c.setTask t i k).learns = c.learns := rfl
@[simp] theorem setTask_balBefore (c : Ctl) (t i : Nat) (k : Task) : (c.setTask t i k).balBefore = c.balBefore := rfl
@[simp] theorem setTask_heatEp (c : Ctl) (t i : Nat) (k : Task) : (c.setTask t i k).heatEp = c.heatEp := rfl
@[simp] theorem setTask_balReduced (c : Ctl) (t i : Nat) (k : Task) : (c.setTask t i k).balReduced = c.balReduced := rfl
@[simp] theorem setTask_planDue (c : Ctl) (t i : Nat) (k : Task) : (c.setTask t i k).planDue = c.planDue := rfl
@[simp] theorem setTask_canTry (c : Ctl) (t i : Nat) (k : Task) : (c.setTask t i k).canTry = c.canTry := rfl
@[simp] theorem setTask_canFifo (c : Ctl) (t i : Nat) (k : Task) : (c.setTask t i k).canFifo = c.canFifo := rfl
@[simp] theorem setTask_canOvf (c : Ctl) (t i : Nat) (k : Task) : (c.setTask t i k).canOvf = c.canOvf := rfl
@[simp] theorem setTask_canDet (c : Ctl) (t i : Nat) (k : Task) : (c.setTask t i k).canDet = c.canDet := rfl
@[simp] theorem setTask_canStop (c : Ctl) (t i : Nat) (k : Task) : (c.setTask t i k).canStop = c.canStop := rfl
@[simp] theorem setTask_chans (c : Ctl) (t i : Nat) (k : Task) : (c.setTask t i k).chans = c.chans := rfl
@[simp] theorem setTask_loopWait (c : Ctl) (t i : Nat) (k : Task) : (c.setTask t i k).loopWait = c.loopWait := rfl
@[simp] theorem setTask_traces (c : Ctl) (t i : Nat) (k : Task) : (c.setTask t i k).traces = c.traces := rfl
@[simp] theorem setTask_bank (c : Ctl) (t i : Nat) (k : Task) : (c.setTask t i k).bank = c.bank := rfl
@[simp] theorem setTask_slots (c : Ctl) (t i : Nat) (k : Task) : (c.setTask t i k).slots = c.slots := rfl
@[simp] theorem setTask_perts (c : Ctl) (t i : Nat) (k : Task) : (c.setTask t i k).perts = c.perts := rfl
@[simp] theorem setTask_lone (c : Ctl) (t i : Nat) (k : Task) : (c.setTask t i k).lone = c.lone := rfl
@[simp] theorem setTask_rests (c : Ctl) (t i : Nat) (k : Task) : (c.setTask t i k).rests = c.rests := rfl
@[simp] theorem setTask_restLast (c : Ctl) (t i : Nat) (k : Task) : (c.setTask t i k).restLast = c.restLast := rfl
@[simp] theorem setTask_latch (c : Ctl) (t i : Nat) (k : Task) : (c.setTask t i k).latch = c.latch := rfl
@[simp] theorem setTask_setPts (c : Ctl) (t i : Nat) (k : Task) : (c.setTask t i k).setPts = c.setPts := rfl
@[simp] theorem setTask_schedule (c : Ctl) (t i : Nat) (k : Task) : (c.setTask t i k).schedule = c.schedule := rfl
@[simp] theorem setTask_inFlight (c : Ctl) (t i : Nat) (k : Task) : (c.setTask t i k).inFlight = c.inFlight := rfl
@[simp] theorem setTask_dma (c : Ctl) (t i : Nat) (k : Task) : (c.setTask t i k).dma = c.dma := rfl
@[simp] theorem setTask_dmaTurn (c : Ctl) (t i : Nat) (k : Task) : (c.setTask t i k).dmaTurn = c.dmaTurn := rfl
@[simp] theorem setTask_dmaHalts (c : Ctl) (t i : Nat) (k : Task) : (c.setTask t i k).dmaHalts = c.dmaHalts := rfl
@[simp] theorem setTask_twb (c : Ctl) (t i : Nat) (k : Task) : (c.setTask t i k).twb = c.twb := rfl
@[simp] theorem setTask_pw (c : Ctl) (t i : Nat) (k : Task) : (c.setTask t i k).pw = c.pw := rfl
@[simp] theorem setTask_handed (c : Ctl) (t i : Nat) (k : Task) : (c.setTask t i k).handed = c.handed := rfl

@[simp] theorem setVec_unit (c : Ctl) (t : Nat) (v : VecArray) : (c.setVec t v).unit = c.unit := rfl
@[simp] theorem setVec_fresh (c : Ctl) (t : Nat) (v : VecArray) : (c.setVec t v).fresh = c.fresh := rfl
@[simp] theorem setVec_status (c : Ctl) (t : Nat) (v : VecArray) : (c.setVec t v).status = c.status := rfl
@[simp] theorem setVec_data (c : Ctl) (t : Nat) (v : VecArray) : (c.setVec t v).data = c.data := rfl
@[simp] theorem setVec_regs (c : Ctl) (t : Nat) (v : VecArray) : (c.setVec t v).regs = c.regs := rfl
@[simp] theorem setVec_store (c : Ctl) (t : Nat) (v : VecArray) : (c.setVec t v).store = c.store := rfl
@[simp] theorem setVec_tasks (c : Ctl) (t : Nat) (v : VecArray) : (c.setVec t v).tasks = c.tasks := rfl
@[simp] theorem setVec_stamp (c : Ctl) (t : Nat) (v : VecArray) : (c.setVec t v).stamp = c.stamp := rfl
@[simp] theorem setVec_traps (c : Ctl) (t : Nat) (v : VecArray) : (c.setVec t v).traps = c.traps := rfl
@[simp] theorem setVec_curTrap (c : Ctl) (t : Nat) (v : VecArray) : (c.setVec t v).curTrap = c.curTrap := rfl
@[simp] theorem setVec_mbox (c : Ctl) (t : Nat) (v : VecArray) : (c.setVec t v).mbox = c.mbox := rfl
@[simp] theorem setVec_presented (c : Ctl) (t : Nat) (v : VecArray) : (c.setVec t v).presented = c.presented := rfl
@[simp] theorem setVec_tokens (c : Ctl) (t : Nat) (v : VecArray) : (c.setVec t v).tokens = c.tokens := rfl
@[simp] theorem setVec_withheld (c : Ctl) (t : Nat) (v : VecArray) : (c.setVec t v).withheld = c.withheld := rfl
@[simp] theorem setVec_tailQueue (c : Ctl) (t : Nat) (v : VecArray) : (c.setVec t v).tailQueue = c.tailQueue := rfl
@[simp] theorem setVec_tailLost (c : Ctl) (t : Nat) (v : VecArray) : (c.setVec t v).tailLost = c.tailLost := rfl
@[simp] theorem setVec_marked (c : Ctl) (t : Nat) (v : VecArray) : (c.setVec t v).marked = c.marked := rfl
@[simp] theorem setVec_estGated (c : Ctl) (t : Nat) (v : VecArray) : (c.setVec t v).estGated = c.estGated := rfl
@[simp] theorem setVec_cleanFrames (c : Ctl) (t : Nat) (v : VecArray) : (c.setVec t v).cleanFrames = c.cleanFrames := rfl
@[simp] theorem setVec_ticks (c : Ctl) (t : Nat) (v : VecArray) : (c.setVec t v).ticks = c.ticks := rfl
@[simp] theorem setVec_energy (c : Ctl) (t : Nat) (v : VecArray) : (c.setVec t v).energy = c.energy := rfl
@[simp] theorem setVec_bucketHalf (c : Ctl) (t : Nat) (v : VecArray) : (c.setVec t v).bucketHalf = c.bucketHalf := rfl
@[simp] theorem setVec_phase (c : Ctl) (t : Nat) (v : VecArray) : (c.setVec t v).phase = c.phase := rfl
@[simp] theorem setVec_frameNum (c : Ctl) (t : Nat) (v : VecArray) : (c.setVec t v).frameNum = c.frameNum := rfl
@[simp] theorem setVec_stnNs (c : Ctl) (t : Nat) (v : VecArray) : (c.setVec t v).stnNs = c.stnNs := rfl
@[simp] theorem setVec_stnSec (c : Ctl) (t : Nat) (v : VecArray) : (c.setVec t v).stnSec = c.stnSec := rfl
@[simp] theorem setVec_optime (c : Ctl) (t : Nat) (v : VecArray) : (c.setVec t v).optime = c.optime := rfl
@[simp] theorem setVec_img (c : Ctl) (t : Nat) (v : VecArray) : (c.setVec t v).img = c.img := rfl
@[simp] theorem setVec_faultTimes (c : Ctl) (t : Nat) (v : VecArray) : (c.setVec t v).faultTimes = c.faultTimes := rfl
@[simp] theorem setVec_stuck (c : Ctl) (t : Nat) (v : VecArray) : (c.setVec t v).stuck = c.stuck := rfl
@[simp] theorem setVec_carryIn (c : Ctl) (t : Nat) (v : VecArray) : (c.setVec t v).carryIn = c.carryIn := rfl
@[simp] theorem setVec_reserving (c : Ctl) (t : Nat) (v : VecArray) : (c.setVec t v).reserving = c.reserving := rfl
@[simp] theorem setVec_readySet (c : Ctl) (t : Nat) (v : VecArray) : (c.setVec t v).readySet = c.readySet := rfl
@[simp] theorem setVec_net (c : Ctl) (t : Nat) (v : VecArray) : (c.setVec t v).net = c.net := rfl
@[simp] theorem setVec_ptp (c : Ctl) (t : Nat) (v : VecArray) : (c.setVec t v).ptp = c.ptp := rfl
@[simp] theorem setVec_syncRef (c : Ctl) (t : Nat) (v : VecArray) : (c.setVec t v).syncRef = c.syncRef := rfl
@[simp] theorem setVec_followed (c : Ctl) (t : Nat) (v : VecArray) : (c.setVec t v).followed = c.followed := rfl
@[simp] theorem setVec_blks (c : Ctl) (t : Nat) (v : VecArray) : (c.setVec t v).blks = c.blks := rfl
@[simp] theorem setVec_rings (c : Ctl) (t : Nat) (v : VecArray) : (c.setVec t v).rings = c.rings := rfl
@[simp] theorem setVec_found (c : Ctl) (t : Nat) (v : VecArray) : (c.setVec t v).found = c.found := rfl
@[simp] theorem setVec_inventory (c : Ctl) (t : Nat) (v : VecArray) : (c.setVec t v).inventory = c.inventory := rfl
@[simp] theorem setVec_identity (c : Ctl) (t : Nat) (v : VecArray) : (c.setVec t v).identity = c.identity := rfl
@[simp] theorem setVec_ow (c : Ctl) (t : Nat) (v : VecArray) : (c.setVec t v).ow = c.ow := rfl
@[simp] theorem setVec_beryl (c : Ctl) (t : Nat) (v : VecArray) : (c.setVec t v).beryl = c.beryl := rfl
@[simp] theorem setVec_berylStore (c : Ctl) (t : Nat) (v : VecArray) : (c.setVec t v).berylStore = c.berylStore := rfl
@[simp] theorem setVec_berylStore2 (c : Ctl) (t : Nat) (v : VecArray) : (c.setVec t v).berylStore2 = c.berylStore2 := rfl
@[simp] theorem setVec_berylCrc (c : Ctl) (t : Nat) (v : VecArray) : (c.setVec t v).berylCrc = c.berylCrc := rfl
@[simp] theorem setVec_lims (c : Ctl) (t : Nat) (v : VecArray) : (c.setVec t v).lims = c.lims := rfl
@[simp] theorem setVec_limCommit (c : Ctl) (t : Nat) (v : VecArray) : (c.setVec t v).limCommit = c.limCommit := rfl
@[simp] theorem setVec_selAct (c : Ctl) (t : Nat) (v : VecArray) : (c.setVec t v).selAct = c.selAct := rfl
@[simp] theorem setVec_raw (c : Ctl) (t : Nat) (v : VecArray) : (c.setVec t v).raw = c.raw := rfl
@[simp] theorem setVec_bursts (c : Ctl) (t : Nat) (v : VecArray) : (c.setVec t v).bursts = c.bursts := rfl
@[simp] theorem setVec_outliers (c : Ctl) (t : Nat) (v : VecArray) : (c.setVec t v).outliers = c.outliers := rfl
@[simp] theorem setVec_frameOpen (c : Ctl) (t : Nat) (v : VecArray) : (c.setVec t v).frameOpen = c.frameOpen := rfl
@[simp] theorem setVec_cellx (c : Ctl) (t : Nat) (v : VecArray) : (c.setVec t v).cellx = c.cellx := rfl
@[simp] theorem setVec_strx (c : Ctl) (t : Nat) (v : VecArray) : (c.setVec t v).strx = c.strx := rfl
@[simp] theorem setVec_est (c : Ctl) (t : Nat) (v : VecArray) : (c.setVec t v).est = c.est := rfl
@[simp] theorem setVec_headFrom (c : Ctl) (t : Nat) (v : VecArray) : (c.setVec t v).headFrom = c.headFrom := rfl
@[simp] theorem setVec_oldMaps (c : Ctl) (t : Nat) (v : VecArray) : (c.setVec t v).oldMaps = c.oldMaps := rfl
@[simp] theorem setVec_cellUid (c : Ctl) (t : Nat) (v : VecArray) : (c.setVec t v).cellUid = c.cellUid := rfl
@[simp] theorem setVec_profiles (c : Ctl) (t : Nat) (v : VecArray) : (c.setVec t v).profiles = c.profiles := rfl
@[simp] theorem setVec_profDue (c : Ctl) (t : Nat) (v : VecArray) : (c.setVec t v).profDue = c.profDue := rfl
@[simp] theorem setVec_switches (c : Ctl) (t : Nat) (v : VecArray) : (c.setVec t v).switches = c.switches := rfl
@[simp] theorem setVec_secFrom (c : Ctl) (t : Nat) (v : VecArray) : (c.setVec t v).secFrom = c.secFrom := rfl
@[simp] theorem setVec_staleDue (c : Ctl) (t : Nat) (v : VecArray) : (c.setVec t v).staleDue = c.staleDue := rfl
@[simp] theorem setVec_lvGen (c : Ctl) (t : Nat) (v : VecArray) : (c.setVec t v).lvGen = c.lvGen := rfl
@[simp] theorem setVec_backups (c : Ctl) (t : Nat) (v : VecArray) : (c.setVec t v).backups = c.backups := rfl
@[simp] theorem setVec_manual (c : Ctl) (t : Nat) (v : VecArray) : (c.setVec t v).manual = c.manual := rfl
@[simp] theorem setVec_cycles (c : Ctl) (t : Nat) (v : VecArray) : (c.setVec t v).cycles = c.cycles := rfl
@[simp] theorem setVec_learns (c : Ctl) (t : Nat) (v : VecArray) : (c.setVec t v).learns = c.learns := rfl
@[simp] theorem setVec_balBefore (c : Ctl) (t : Nat) (v : VecArray) : (c.setVec t v).balBefore = c.balBefore := rfl
@[simp] theorem setVec_heatEp (c : Ctl) (t : Nat) (v : VecArray) : (c.setVec t v).heatEp = c.heatEp := rfl
@[simp] theorem setVec_balReduced (c : Ctl) (t : Nat) (v : VecArray) : (c.setVec t v).balReduced = c.balReduced := rfl
@[simp] theorem setVec_planDue (c : Ctl) (t : Nat) (v : VecArray) : (c.setVec t v).planDue = c.planDue := rfl
@[simp] theorem setVec_canTry (c : Ctl) (t : Nat) (v : VecArray) : (c.setVec t v).canTry = c.canTry := rfl
@[simp] theorem setVec_canFifo (c : Ctl) (t : Nat) (v : VecArray) : (c.setVec t v).canFifo = c.canFifo := rfl
@[simp] theorem setVec_canOvf (c : Ctl) (t : Nat) (v : VecArray) : (c.setVec t v).canOvf = c.canOvf := rfl
@[simp] theorem setVec_canDet (c : Ctl) (t : Nat) (v : VecArray) : (c.setVec t v).canDet = c.canDet := rfl
@[simp] theorem setVec_canStop (c : Ctl) (t : Nat) (v : VecArray) : (c.setVec t v).canStop = c.canStop := rfl
@[simp] theorem setVec_chans (c : Ctl) (t : Nat) (v : VecArray) : (c.setVec t v).chans = c.chans := rfl
@[simp] theorem setVec_loopWait (c : Ctl) (t : Nat) (v : VecArray) : (c.setVec t v).loopWait = c.loopWait := rfl
@[simp] theorem setVec_traces (c : Ctl) (t : Nat) (v : VecArray) : (c.setVec t v).traces = c.traces := rfl
@[simp] theorem setVec_bank (c : Ctl) (t : Nat) (v : VecArray) : (c.setVec t v).bank = c.bank := rfl
@[simp] theorem setVec_slots (c : Ctl) (t : Nat) (v : VecArray) : (c.setVec t v).slots = c.slots := rfl
@[simp] theorem setVec_perts (c : Ctl) (t : Nat) (v : VecArray) : (c.setVec t v).perts = c.perts := rfl
@[simp] theorem setVec_lone (c : Ctl) (t : Nat) (v : VecArray) : (c.setVec t v).lone = c.lone := rfl
@[simp] theorem setVec_rests (c : Ctl) (t : Nat) (v : VecArray) : (c.setVec t v).rests = c.rests := rfl
@[simp] theorem setVec_restLast (c : Ctl) (t : Nat) (v : VecArray) : (c.setVec t v).restLast = c.restLast := rfl
@[simp] theorem setVec_latch (c : Ctl) (t : Nat) (v : VecArray) : (c.setVec t v).latch = c.latch := rfl
@[simp] theorem setVec_setPts (c : Ctl) (t : Nat) (v : VecArray) : (c.setVec t v).setPts = c.setPts := rfl
@[simp] theorem setVec_schedule (c : Ctl) (t : Nat) (v : VecArray) : (c.setVec t v).schedule = c.schedule := rfl
@[simp] theorem setVec_inFlight (c : Ctl) (t : Nat) (v : VecArray) : (c.setVec t v).inFlight = c.inFlight := rfl
@[simp] theorem setVec_dma (c : Ctl) (t : Nat) (v : VecArray) : (c.setVec t v).dma = c.dma := rfl
@[simp] theorem setVec_dmaTurn (c : Ctl) (t : Nat) (v : VecArray) : (c.setVec t v).dmaTurn = c.dmaTurn := rfl
@[simp] theorem setVec_dmaHalts (c : Ctl) (t : Nat) (v : VecArray) : (c.setVec t v).dmaHalts = c.dmaHalts := rfl
@[simp] theorem setVec_twb (c : Ctl) (t : Nat) (v : VecArray) : (c.setVec t v).twb = c.twb := rfl
@[simp] theorem setVec_pw (c : Ctl) (t : Nat) (v : VecArray) : (c.setVec t v).pw = c.pw := rfl
@[simp] theorem setVec_handed (c : Ctl) (t : Nat) (v : VecArray) : (c.setVec t v).handed = c.handed := rfl

@[simp] theorem setBlk_unit (c : Ctl) (t r b : Nat) (x : Blk) : (c.setBlk t r b x).unit = c.unit := rfl
@[simp] theorem setBlk_fresh (c : Ctl) (t r b : Nat) (x : Blk) : (c.setBlk t r b x).fresh = c.fresh := rfl
@[simp] theorem setBlk_status (c : Ctl) (t r b : Nat) (x : Blk) : (c.setBlk t r b x).status = c.status := rfl
@[simp] theorem setBlk_data (c : Ctl) (t r b : Nat) (x : Blk) : (c.setBlk t r b x).data = c.data := rfl
@[simp] theorem setBlk_regs (c : Ctl) (t r b : Nat) (x : Blk) : (c.setBlk t r b x).regs = c.regs := rfl
@[simp] theorem setBlk_store (c : Ctl) (t r b : Nat) (x : Blk) : (c.setBlk t r b x).store = c.store := rfl
@[simp] theorem setBlk_tasks (c : Ctl) (t r b : Nat) (x : Blk) : (c.setBlk t r b x).tasks = c.tasks := rfl
@[simp] theorem setBlk_stamp (c : Ctl) (t r b : Nat) (x : Blk) : (c.setBlk t r b x).stamp = c.stamp := rfl
@[simp] theorem setBlk_traps (c : Ctl) (t r b : Nat) (x : Blk) : (c.setBlk t r b x).traps = c.traps := rfl
@[simp] theorem setBlk_curTrap (c : Ctl) (t r b : Nat) (x : Blk) : (c.setBlk t r b x).curTrap = c.curTrap := rfl
@[simp] theorem setBlk_mbox (c : Ctl) (t r b : Nat) (x : Blk) : (c.setBlk t r b x).mbox = c.mbox := rfl
@[simp] theorem setBlk_vec (c : Ctl) (t r b : Nat) (x : Blk) : (c.setBlk t r b x).vec = c.vec := rfl
@[simp] theorem setBlk_presented (c : Ctl) (t r b : Nat) (x : Blk) : (c.setBlk t r b x).presented = c.presented := rfl
@[simp] theorem setBlk_tokens (c : Ctl) (t r b : Nat) (x : Blk) : (c.setBlk t r b x).tokens = c.tokens := rfl
@[simp] theorem setBlk_withheld (c : Ctl) (t r b : Nat) (x : Blk) : (c.setBlk t r b x).withheld = c.withheld := rfl
@[simp] theorem setBlk_tailQueue (c : Ctl) (t r b : Nat) (x : Blk) : (c.setBlk t r b x).tailQueue = c.tailQueue := rfl
@[simp] theorem setBlk_tailLost (c : Ctl) (t r b : Nat) (x : Blk) : (c.setBlk t r b x).tailLost = c.tailLost := rfl
@[simp] theorem setBlk_marked (c : Ctl) (t r b : Nat) (x : Blk) : (c.setBlk t r b x).marked = c.marked := rfl
@[simp] theorem setBlk_estGated (c : Ctl) (t r b : Nat) (x : Blk) : (c.setBlk t r b x).estGated = c.estGated := rfl
@[simp] theorem setBlk_cleanFrames (c : Ctl) (t r b : Nat) (x : Blk) : (c.setBlk t r b x).cleanFrames = c.cleanFrames := rfl
@[simp] theorem setBlk_ticks (c : Ctl) (t r b : Nat) (x : Blk) : (c.setBlk t r b x).ticks = c.ticks := rfl
@[simp] theorem setBlk_energy (c : Ctl) (t r b : Nat) (x : Blk) : (c.setBlk t r b x).energy = c.energy := rfl
@[simp] theorem setBlk_bucketHalf (c : Ctl) (t r b : Nat) (x : Blk) : (c.setBlk t r b x).bucketHalf = c.bucketHalf := rfl
@[simp] theorem setBlk_phase (c : Ctl) (t r b : Nat) (x : Blk) : (c.setBlk t r b x).phase = c.phase := rfl
@[simp] theorem setBlk_frameNum (c : Ctl) (t r b : Nat) (x : Blk) : (c.setBlk t r b x).frameNum = c.frameNum := rfl
@[simp] theorem setBlk_stnNs (c : Ctl) (t r b : Nat) (x : Blk) : (c.setBlk t r b x).stnNs = c.stnNs := rfl
@[simp] theorem setBlk_stnSec (c : Ctl) (t r b : Nat) (x : Blk) : (c.setBlk t r b x).stnSec = c.stnSec := rfl
@[simp] theorem setBlk_optime (c : Ctl) (t r b : Nat) (x : Blk) : (c.setBlk t r b x).optime = c.optime := rfl
@[simp] theorem setBlk_img (c : Ctl) (t r b : Nat) (x : Blk) : (c.setBlk t r b x).img = c.img := rfl
@[simp] theorem setBlk_faultTimes (c : Ctl) (t r b : Nat) (x : Blk) : (c.setBlk t r b x).faultTimes = c.faultTimes := rfl
@[simp] theorem setBlk_stuck (c : Ctl) (t r b : Nat) (x : Blk) : (c.setBlk t r b x).stuck = c.stuck := rfl
@[simp] theorem setBlk_carryIn (c : Ctl) (t r b : Nat) (x : Blk) : (c.setBlk t r b x).carryIn = c.carryIn := rfl
@[simp] theorem setBlk_reserving (c : Ctl) (t r b : Nat) (x : Blk) : (c.setBlk t r b x).reserving = c.reserving := rfl
@[simp] theorem setBlk_readySet (c : Ctl) (t r b : Nat) (x : Blk) : (c.setBlk t r b x).readySet = c.readySet := rfl
@[simp] theorem setBlk_net (c : Ctl) (t r b : Nat) (x : Blk) : (c.setBlk t r b x).net = c.net := rfl
@[simp] theorem setBlk_ptp (c : Ctl) (t r b : Nat) (x : Blk) : (c.setBlk t r b x).ptp = c.ptp := rfl
@[simp] theorem setBlk_syncRef (c : Ctl) (t r b : Nat) (x : Blk) : (c.setBlk t r b x).syncRef = c.syncRef := rfl
@[simp] theorem setBlk_followed (c : Ctl) (t r b : Nat) (x : Blk) : (c.setBlk t r b x).followed = c.followed := rfl
@[simp] theorem setBlk_rings (c : Ctl) (t r b : Nat) (x : Blk) : (c.setBlk t r b x).rings = c.rings := rfl
@[simp] theorem setBlk_found (c : Ctl) (t r b : Nat) (x : Blk) : (c.setBlk t r b x).found = c.found := rfl
@[simp] theorem setBlk_inventory (c : Ctl) (t r b : Nat) (x : Blk) : (c.setBlk t r b x).inventory = c.inventory := rfl
@[simp] theorem setBlk_identity (c : Ctl) (t r b : Nat) (x : Blk) : (c.setBlk t r b x).identity = c.identity := rfl
@[simp] theorem setBlk_ow (c : Ctl) (t r b : Nat) (x : Blk) : (c.setBlk t r b x).ow = c.ow := rfl
@[simp] theorem setBlk_beryl (c : Ctl) (t r b : Nat) (x : Blk) : (c.setBlk t r b x).beryl = c.beryl := rfl
@[simp] theorem setBlk_berylStore (c : Ctl) (t r b : Nat) (x : Blk) : (c.setBlk t r b x).berylStore = c.berylStore := rfl
@[simp] theorem setBlk_berylStore2 (c : Ctl) (t r b : Nat) (x : Blk) : (c.setBlk t r b x).berylStore2 = c.berylStore2 := rfl
@[simp] theorem setBlk_berylCrc (c : Ctl) (t r b : Nat) (x : Blk) : (c.setBlk t r b x).berylCrc = c.berylCrc := rfl
@[simp] theorem setBlk_lims (c : Ctl) (t r b : Nat) (x : Blk) : (c.setBlk t r b x).lims = c.lims := rfl
@[simp] theorem setBlk_limCommit (c : Ctl) (t r b : Nat) (x : Blk) : (c.setBlk t r b x).limCommit = c.limCommit := rfl
@[simp] theorem setBlk_selAct (c : Ctl) (t r b : Nat) (x : Blk) : (c.setBlk t r b x).selAct = c.selAct := rfl
@[simp] theorem setBlk_raw (c : Ctl) (t r b : Nat) (x : Blk) : (c.setBlk t r b x).raw = c.raw := rfl
@[simp] theorem setBlk_bursts (c : Ctl) (t r b : Nat) (x : Blk) : (c.setBlk t r b x).bursts = c.bursts := rfl
@[simp] theorem setBlk_outliers (c : Ctl) (t r b : Nat) (x : Blk) : (c.setBlk t r b x).outliers = c.outliers := rfl
@[simp] theorem setBlk_frameOpen (c : Ctl) (t r b : Nat) (x : Blk) : (c.setBlk t r b x).frameOpen = c.frameOpen := rfl
@[simp] theorem setBlk_cellx (c : Ctl) (t r b : Nat) (x : Blk) : (c.setBlk t r b x).cellx = c.cellx := rfl
@[simp] theorem setBlk_strx (c : Ctl) (t r b : Nat) (x : Blk) : (c.setBlk t r b x).strx = c.strx := rfl
@[simp] theorem setBlk_est (c : Ctl) (t r b : Nat) (x : Blk) : (c.setBlk t r b x).est = c.est := rfl
@[simp] theorem setBlk_headFrom (c : Ctl) (t r b : Nat) (x : Blk) : (c.setBlk t r b x).headFrom = c.headFrom := rfl
@[simp] theorem setBlk_oldMaps (c : Ctl) (t r b : Nat) (x : Blk) : (c.setBlk t r b x).oldMaps = c.oldMaps := rfl
@[simp] theorem setBlk_cellUid (c : Ctl) (t r b : Nat) (x : Blk) : (c.setBlk t r b x).cellUid = c.cellUid := rfl
@[simp] theorem setBlk_profiles (c : Ctl) (t r b : Nat) (x : Blk) : (c.setBlk t r b x).profiles = c.profiles := rfl
@[simp] theorem setBlk_profDue (c : Ctl) (t r b : Nat) (x : Blk) : (c.setBlk t r b x).profDue = c.profDue := rfl
@[simp] theorem setBlk_switches (c : Ctl) (t r b : Nat) (x : Blk) : (c.setBlk t r b x).switches = c.switches := rfl
@[simp] theorem setBlk_secFrom (c : Ctl) (t r b : Nat) (x : Blk) : (c.setBlk t r b x).secFrom = c.secFrom := rfl
@[simp] theorem setBlk_staleDue (c : Ctl) (t r b : Nat) (x : Blk) : (c.setBlk t r b x).staleDue = c.staleDue := rfl
@[simp] theorem setBlk_lvGen (c : Ctl) (t r b : Nat) (x : Blk) : (c.setBlk t r b x).lvGen = c.lvGen := rfl
@[simp] theorem setBlk_backups (c : Ctl) (t r b : Nat) (x : Blk) : (c.setBlk t r b x).backups = c.backups := rfl
@[simp] theorem setBlk_manual (c : Ctl) (t r b : Nat) (x : Blk) : (c.setBlk t r b x).manual = c.manual := rfl
@[simp] theorem setBlk_cycles (c : Ctl) (t r b : Nat) (x : Blk) : (c.setBlk t r b x).cycles = c.cycles := rfl
@[simp] theorem setBlk_learns (c : Ctl) (t r b : Nat) (x : Blk) : (c.setBlk t r b x).learns = c.learns := rfl
@[simp] theorem setBlk_balBefore (c : Ctl) (t r b : Nat) (x : Blk) : (c.setBlk t r b x).balBefore = c.balBefore := rfl
@[simp] theorem setBlk_heatEp (c : Ctl) (t r b : Nat) (x : Blk) : (c.setBlk t r b x).heatEp = c.heatEp := rfl
@[simp] theorem setBlk_balReduced (c : Ctl) (t r b : Nat) (x : Blk) : (c.setBlk t r b x).balReduced = c.balReduced := rfl
@[simp] theorem setBlk_planDue (c : Ctl) (t r b : Nat) (x : Blk) : (c.setBlk t r b x).planDue = c.planDue := rfl
@[simp] theorem setBlk_canTry (c : Ctl) (t r b : Nat) (x : Blk) : (c.setBlk t r b x).canTry = c.canTry := rfl
@[simp] theorem setBlk_canFifo (c : Ctl) (t r b : Nat) (x : Blk) : (c.setBlk t r b x).canFifo = c.canFifo := rfl
@[simp] theorem setBlk_canOvf (c : Ctl) (t r b : Nat) (x : Blk) : (c.setBlk t r b x).canOvf = c.canOvf := rfl
@[simp] theorem setBlk_canDet (c : Ctl) (t r b : Nat) (x : Blk) : (c.setBlk t r b x).canDet = c.canDet := rfl
@[simp] theorem setBlk_canStop (c : Ctl) (t r b : Nat) (x : Blk) : (c.setBlk t r b x).canStop = c.canStop := rfl
@[simp] theorem setBlk_chans (c : Ctl) (t r b : Nat) (x : Blk) : (c.setBlk t r b x).chans = c.chans := rfl
@[simp] theorem setBlk_loopWait (c : Ctl) (t r b : Nat) (x : Blk) : (c.setBlk t r b x).loopWait = c.loopWait := rfl
@[simp] theorem setBlk_traces (c : Ctl) (t r b : Nat) (x : Blk) : (c.setBlk t r b x).traces = c.traces := rfl
@[simp] theorem setBlk_bank (c : Ctl) (t r b : Nat) (x : Blk) : (c.setBlk t r b x).bank = c.bank := rfl
@[simp] theorem setBlk_slots (c : Ctl) (t r b : Nat) (x : Blk) : (c.setBlk t r b x).slots = c.slots := rfl
@[simp] theorem setBlk_perts (c : Ctl) (t r b : Nat) (x : Blk) : (c.setBlk t r b x).perts = c.perts := rfl
@[simp] theorem setBlk_lone (c : Ctl) (t r b : Nat) (x : Blk) : (c.setBlk t r b x).lone = c.lone := rfl
@[simp] theorem setBlk_rests (c : Ctl) (t r b : Nat) (x : Blk) : (c.setBlk t r b x).rests = c.rests := rfl
@[simp] theorem setBlk_restLast (c : Ctl) (t r b : Nat) (x : Blk) : (c.setBlk t r b x).restLast = c.restLast := rfl
@[simp] theorem setBlk_latch (c : Ctl) (t r b : Nat) (x : Blk) : (c.setBlk t r b x).latch = c.latch := rfl
@[simp] theorem setBlk_setPts (c : Ctl) (t r b : Nat) (x : Blk) : (c.setBlk t r b x).setPts = c.setPts := rfl
@[simp] theorem setBlk_schedule (c : Ctl) (t r b : Nat) (x : Blk) : (c.setBlk t r b x).schedule = c.schedule := rfl
@[simp] theorem setBlk_inFlight (c : Ctl) (t r b : Nat) (x : Blk) : (c.setBlk t r b x).inFlight = c.inFlight := rfl
@[simp] theorem setBlk_dma (c : Ctl) (t r b : Nat) (x : Blk) : (c.setBlk t r b x).dma = c.dma := rfl
@[simp] theorem setBlk_dmaTurn (c : Ctl) (t r b : Nat) (x : Blk) : (c.setBlk t r b x).dmaTurn = c.dmaTurn := rfl
@[simp] theorem setBlk_dmaHalts (c : Ctl) (t r b : Nat) (x : Blk) : (c.setBlk t r b x).dmaHalts = c.dmaHalts := rfl
@[simp] theorem setBlk_twb (c : Ctl) (t r b : Nat) (x : Blk) : (c.setBlk t r b x).twb = c.twb := rfl
@[simp] theorem setBlk_pw (c : Ctl) (t r b : Nat) (x : Blk) : (c.setBlk t r b x).pw = c.pw := rfl
@[simp] theorem setBlk_handed (c : Ctl) (t r b : Nat) (x : Blk) : (c.setBlk t r b x).handed = c.handed := rfl

@[simp] theorem setRng_unit (c : Ctl) (t r : Nat) (x : Rng) : (c.setRng t r x).unit = c.unit := rfl
@[simp] theorem setRng_fresh (c : Ctl) (t r : Nat) (x : Rng) : (c.setRng t r x).fresh = c.fresh := rfl
@[simp] theorem setRng_status (c : Ctl) (t r : Nat) (x : Rng) : (c.setRng t r x).status = c.status := rfl
@[simp] theorem setRng_data (c : Ctl) (t r : Nat) (x : Rng) : (c.setRng t r x).data = c.data := rfl
@[simp] theorem setRng_regs (c : Ctl) (t r : Nat) (x : Rng) : (c.setRng t r x).regs = c.regs := rfl
@[simp] theorem setRng_store (c : Ctl) (t r : Nat) (x : Rng) : (c.setRng t r x).store = c.store := rfl
@[simp] theorem setRng_tasks (c : Ctl) (t r : Nat) (x : Rng) : (c.setRng t r x).tasks = c.tasks := rfl
@[simp] theorem setRng_stamp (c : Ctl) (t r : Nat) (x : Rng) : (c.setRng t r x).stamp = c.stamp := rfl
@[simp] theorem setRng_traps (c : Ctl) (t r : Nat) (x : Rng) : (c.setRng t r x).traps = c.traps := rfl
@[simp] theorem setRng_curTrap (c : Ctl) (t r : Nat) (x : Rng) : (c.setRng t r x).curTrap = c.curTrap := rfl
@[simp] theorem setRng_mbox (c : Ctl) (t r : Nat) (x : Rng) : (c.setRng t r x).mbox = c.mbox := rfl
@[simp] theorem setRng_vec (c : Ctl) (t r : Nat) (x : Rng) : (c.setRng t r x).vec = c.vec := rfl
@[simp] theorem setRng_presented (c : Ctl) (t r : Nat) (x : Rng) : (c.setRng t r x).presented = c.presented := rfl
@[simp] theorem setRng_tokens (c : Ctl) (t r : Nat) (x : Rng) : (c.setRng t r x).tokens = c.tokens := rfl
@[simp] theorem setRng_withheld (c : Ctl) (t r : Nat) (x : Rng) : (c.setRng t r x).withheld = c.withheld := rfl
@[simp] theorem setRng_tailQueue (c : Ctl) (t r : Nat) (x : Rng) : (c.setRng t r x).tailQueue = c.tailQueue := rfl
@[simp] theorem setRng_tailLost (c : Ctl) (t r : Nat) (x : Rng) : (c.setRng t r x).tailLost = c.tailLost := rfl
@[simp] theorem setRng_marked (c : Ctl) (t r : Nat) (x : Rng) : (c.setRng t r x).marked = c.marked := rfl
@[simp] theorem setRng_estGated (c : Ctl) (t r : Nat) (x : Rng) : (c.setRng t r x).estGated = c.estGated := rfl
@[simp] theorem setRng_cleanFrames (c : Ctl) (t r : Nat) (x : Rng) : (c.setRng t r x).cleanFrames = c.cleanFrames := rfl
@[simp] theorem setRng_ticks (c : Ctl) (t r : Nat) (x : Rng) : (c.setRng t r x).ticks = c.ticks := rfl
@[simp] theorem setRng_energy (c : Ctl) (t r : Nat) (x : Rng) : (c.setRng t r x).energy = c.energy := rfl
@[simp] theorem setRng_bucketHalf (c : Ctl) (t r : Nat) (x : Rng) : (c.setRng t r x).bucketHalf = c.bucketHalf := rfl
@[simp] theorem setRng_phase (c : Ctl) (t r : Nat) (x : Rng) : (c.setRng t r x).phase = c.phase := rfl
@[simp] theorem setRng_frameNum (c : Ctl) (t r : Nat) (x : Rng) : (c.setRng t r x).frameNum = c.frameNum := rfl
@[simp] theorem setRng_stnNs (c : Ctl) (t r : Nat) (x : Rng) : (c.setRng t r x).stnNs = c.stnNs := rfl
@[simp] theorem setRng_stnSec (c : Ctl) (t r : Nat) (x : Rng) : (c.setRng t r x).stnSec = c.stnSec := rfl
@[simp] theorem setRng_optime (c : Ctl) (t r : Nat) (x : Rng) : (c.setRng t r x).optime = c.optime := rfl
@[simp] theorem setRng_img (c : Ctl) (t r : Nat) (x : Rng) : (c.setRng t r x).img = c.img := rfl
@[simp] theorem setRng_faultTimes (c : Ctl) (t r : Nat) (x : Rng) : (c.setRng t r x).faultTimes = c.faultTimes := rfl
@[simp] theorem setRng_stuck (c : Ctl) (t r : Nat) (x : Rng) : (c.setRng t r x).stuck = c.stuck := rfl
@[simp] theorem setRng_carryIn (c : Ctl) (t r : Nat) (x : Rng) : (c.setRng t r x).carryIn = c.carryIn := rfl
@[simp] theorem setRng_reserving (c : Ctl) (t r : Nat) (x : Rng) : (c.setRng t r x).reserving = c.reserving := rfl
@[simp] theorem setRng_readySet (c : Ctl) (t r : Nat) (x : Rng) : (c.setRng t r x).readySet = c.readySet := rfl
@[simp] theorem setRng_net (c : Ctl) (t r : Nat) (x : Rng) : (c.setRng t r x).net = c.net := rfl
@[simp] theorem setRng_ptp (c : Ctl) (t r : Nat) (x : Rng) : (c.setRng t r x).ptp = c.ptp := rfl
@[simp] theorem setRng_syncRef (c : Ctl) (t r : Nat) (x : Rng) : (c.setRng t r x).syncRef = c.syncRef := rfl
@[simp] theorem setRng_followed (c : Ctl) (t r : Nat) (x : Rng) : (c.setRng t r x).followed = c.followed := rfl
@[simp] theorem setRng_blks (c : Ctl) (t r : Nat) (x : Rng) : (c.setRng t r x).blks = c.blks := rfl
@[simp] theorem setRng_found (c : Ctl) (t r : Nat) (x : Rng) : (c.setRng t r x).found = c.found := rfl
@[simp] theorem setRng_inventory (c : Ctl) (t r : Nat) (x : Rng) : (c.setRng t r x).inventory = c.inventory := rfl
@[simp] theorem setRng_identity (c : Ctl) (t r : Nat) (x : Rng) : (c.setRng t r x).identity = c.identity := rfl
@[simp] theorem setRng_ow (c : Ctl) (t r : Nat) (x : Rng) : (c.setRng t r x).ow = c.ow := rfl
@[simp] theorem setRng_beryl (c : Ctl) (t r : Nat) (x : Rng) : (c.setRng t r x).beryl = c.beryl := rfl
@[simp] theorem setRng_berylStore (c : Ctl) (t r : Nat) (x : Rng) : (c.setRng t r x).berylStore = c.berylStore := rfl
@[simp] theorem setRng_berylStore2 (c : Ctl) (t r : Nat) (x : Rng) : (c.setRng t r x).berylStore2 = c.berylStore2 := rfl
@[simp] theorem setRng_berylCrc (c : Ctl) (t r : Nat) (x : Rng) : (c.setRng t r x).berylCrc = c.berylCrc := rfl
@[simp] theorem setRng_lims (c : Ctl) (t r : Nat) (x : Rng) : (c.setRng t r x).lims = c.lims := rfl
@[simp] theorem setRng_limCommit (c : Ctl) (t r : Nat) (x : Rng) : (c.setRng t r x).limCommit = c.limCommit := rfl
@[simp] theorem setRng_selAct (c : Ctl) (t r : Nat) (x : Rng) : (c.setRng t r x).selAct = c.selAct := rfl
@[simp] theorem setRng_raw (c : Ctl) (t r : Nat) (x : Rng) : (c.setRng t r x).raw = c.raw := rfl
@[simp] theorem setRng_bursts (c : Ctl) (t r : Nat) (x : Rng) : (c.setRng t r x).bursts = c.bursts := rfl
@[simp] theorem setRng_outliers (c : Ctl) (t r : Nat) (x : Rng) : (c.setRng t r x).outliers = c.outliers := rfl
@[simp] theorem setRng_frameOpen (c : Ctl) (t r : Nat) (x : Rng) : (c.setRng t r x).frameOpen = c.frameOpen := rfl
@[simp] theorem setRng_cellx (c : Ctl) (t r : Nat) (x : Rng) : (c.setRng t r x).cellx = c.cellx := rfl
@[simp] theorem setRng_strx (c : Ctl) (t r : Nat) (x : Rng) : (c.setRng t r x).strx = c.strx := rfl
@[simp] theorem setRng_est (c : Ctl) (t r : Nat) (x : Rng) : (c.setRng t r x).est = c.est := rfl
@[simp] theorem setRng_headFrom (c : Ctl) (t r : Nat) (x : Rng) : (c.setRng t r x).headFrom = c.headFrom := rfl
@[simp] theorem setRng_oldMaps (c : Ctl) (t r : Nat) (x : Rng) : (c.setRng t r x).oldMaps = c.oldMaps := rfl
@[simp] theorem setRng_cellUid (c : Ctl) (t r : Nat) (x : Rng) : (c.setRng t r x).cellUid = c.cellUid := rfl
@[simp] theorem setRng_profiles (c : Ctl) (t r : Nat) (x : Rng) : (c.setRng t r x).profiles = c.profiles := rfl
@[simp] theorem setRng_profDue (c : Ctl) (t r : Nat) (x : Rng) : (c.setRng t r x).profDue = c.profDue := rfl
@[simp] theorem setRng_switches (c : Ctl) (t r : Nat) (x : Rng) : (c.setRng t r x).switches = c.switches := rfl
@[simp] theorem setRng_secFrom (c : Ctl) (t r : Nat) (x : Rng) : (c.setRng t r x).secFrom = c.secFrom := rfl
@[simp] theorem setRng_staleDue (c : Ctl) (t r : Nat) (x : Rng) : (c.setRng t r x).staleDue = c.staleDue := rfl
@[simp] theorem setRng_lvGen (c : Ctl) (t r : Nat) (x : Rng) : (c.setRng t r x).lvGen = c.lvGen := rfl
@[simp] theorem setRng_backups (c : Ctl) (t r : Nat) (x : Rng) : (c.setRng t r x).backups = c.backups := rfl
@[simp] theorem setRng_manual (c : Ctl) (t r : Nat) (x : Rng) : (c.setRng t r x).manual = c.manual := rfl
@[simp] theorem setRng_cycles (c : Ctl) (t r : Nat) (x : Rng) : (c.setRng t r x).cycles = c.cycles := rfl
@[simp] theorem setRng_learns (c : Ctl) (t r : Nat) (x : Rng) : (c.setRng t r x).learns = c.learns := rfl
@[simp] theorem setRng_balBefore (c : Ctl) (t r : Nat) (x : Rng) : (c.setRng t r x).balBefore = c.balBefore := rfl
@[simp] theorem setRng_heatEp (c : Ctl) (t r : Nat) (x : Rng) : (c.setRng t r x).heatEp = c.heatEp := rfl
@[simp] theorem setRng_balReduced (c : Ctl) (t r : Nat) (x : Rng) : (c.setRng t r x).balReduced = c.balReduced := rfl
@[simp] theorem setRng_planDue (c : Ctl) (t r : Nat) (x : Rng) : (c.setRng t r x).planDue = c.planDue := rfl
@[simp] theorem setRng_canTry (c : Ctl) (t r : Nat) (x : Rng) : (c.setRng t r x).canTry = c.canTry := rfl
@[simp] theorem setRng_canFifo (c : Ctl) (t r : Nat) (x : Rng) : (c.setRng t r x).canFifo = c.canFifo := rfl
@[simp] theorem setRng_canOvf (c : Ctl) (t r : Nat) (x : Rng) : (c.setRng t r x).canOvf = c.canOvf := rfl
@[simp] theorem setRng_canDet (c : Ctl) (t r : Nat) (x : Rng) : (c.setRng t r x).canDet = c.canDet := rfl
@[simp] theorem setRng_canStop (c : Ctl) (t r : Nat) (x : Rng) : (c.setRng t r x).canStop = c.canStop := rfl
@[simp] theorem setRng_chans (c : Ctl) (t r : Nat) (x : Rng) : (c.setRng t r x).chans = c.chans := rfl
@[simp] theorem setRng_loopWait (c : Ctl) (t r : Nat) (x : Rng) : (c.setRng t r x).loopWait = c.loopWait := rfl
@[simp] theorem setRng_traces (c : Ctl) (t r : Nat) (x : Rng) : (c.setRng t r x).traces = c.traces := rfl
@[simp] theorem setRng_bank (c : Ctl) (t r : Nat) (x : Rng) : (c.setRng t r x).bank = c.bank := rfl
@[simp] theorem setRng_slots (c : Ctl) (t r : Nat) (x : Rng) : (c.setRng t r x).slots = c.slots := rfl
@[simp] theorem setRng_perts (c : Ctl) (t r : Nat) (x : Rng) : (c.setRng t r x).perts = c.perts := rfl
@[simp] theorem setRng_lone (c : Ctl) (t r : Nat) (x : Rng) : (c.setRng t r x).lone = c.lone := rfl
@[simp] theorem setRng_rests (c : Ctl) (t r : Nat) (x : Rng) : (c.setRng t r x).rests = c.rests := rfl
@[simp] theorem setRng_restLast (c : Ctl) (t r : Nat) (x : Rng) : (c.setRng t r x).restLast = c.restLast := rfl
@[simp] theorem setRng_latch (c : Ctl) (t r : Nat) (x : Rng) : (c.setRng t r x).latch = c.latch := rfl
@[simp] theorem setRng_setPts (c : Ctl) (t r : Nat) (x : Rng) : (c.setRng t r x).setPts = c.setPts := rfl
@[simp] theorem setRng_schedule (c : Ctl) (t r : Nat) (x : Rng) : (c.setRng t r x).schedule = c.schedule := rfl
@[simp] theorem setRng_inFlight (c : Ctl) (t r : Nat) (x : Rng) : (c.setRng t r x).inFlight = c.inFlight := rfl
@[simp] theorem setRng_dma (c : Ctl) (t r : Nat) (x : Rng) : (c.setRng t r x).dma = c.dma := rfl
@[simp] theorem setRng_dmaTurn (c : Ctl) (t r : Nat) (x : Rng) : (c.setRng t r x).dmaTurn = c.dmaTurn := rfl
@[simp] theorem setRng_dmaHalts (c : Ctl) (t r : Nat) (x : Rng) : (c.setRng t r x).dmaHalts = c.dmaHalts := rfl
@[simp] theorem setRng_twb (c : Ctl) (t r : Nat) (x : Rng) : (c.setRng t r x).twb = c.twb := rfl
@[simp] theorem setRng_pw (c : Ctl) (t r : Nat) (x : Rng) : (c.setRng t r x).pw = c.pw := rfl
@[simp] theorem setRng_handed (c : Ctl) (t r : Nat) (x : Rng) : (c.setRng t r x).handed = c.handed := rfl

@[simp] theorem setSession_unit (c : Ctl) (slot : Nat) (x : Session) : (c.setSession slot x).unit = c.unit := rfl
@[simp] theorem setSession_fresh (c : Ctl) (slot : Nat) (x : Session) : (c.setSession slot x).fresh = c.fresh := rfl
@[simp] theorem setSession_status (c : Ctl) (slot : Nat) (x : Session) : (c.setSession slot x).status = c.status := rfl
@[simp] theorem setSession_data (c : Ctl) (slot : Nat) (x : Session) : (c.setSession slot x).data = c.data := rfl
@[simp] theorem setSession_regs (c : Ctl) (slot : Nat) (x : Session) : (c.setSession slot x).regs = c.regs := rfl
@[simp] theorem setSession_store (c : Ctl) (slot : Nat) (x : Session) : (c.setSession slot x).store = c.store := rfl
@[simp] theorem setSession_tasks (c : Ctl) (slot : Nat) (x : Session) : (c.setSession slot x).tasks = c.tasks := rfl
@[simp] theorem setSession_stamp (c : Ctl) (slot : Nat) (x : Session) : (c.setSession slot x).stamp = c.stamp := rfl
@[simp] theorem setSession_traps (c : Ctl) (slot : Nat) (x : Session) : (c.setSession slot x).traps = c.traps := rfl
@[simp] theorem setSession_curTrap (c : Ctl) (slot : Nat) (x : Session) : (c.setSession slot x).curTrap = c.curTrap := rfl
@[simp] theorem setSession_mbox (c : Ctl) (slot : Nat) (x : Session) : (c.setSession slot x).mbox = c.mbox := rfl
@[simp] theorem setSession_vec (c : Ctl) (slot : Nat) (x : Session) : (c.setSession slot x).vec = c.vec := rfl
@[simp] theorem setSession_presented (c : Ctl) (slot : Nat) (x : Session) : (c.setSession slot x).presented = c.presented := rfl
@[simp] theorem setSession_tokens (c : Ctl) (slot : Nat) (x : Session) : (c.setSession slot x).tokens = c.tokens := rfl
@[simp] theorem setSession_withheld (c : Ctl) (slot : Nat) (x : Session) : (c.setSession slot x).withheld = c.withheld := rfl
@[simp] theorem setSession_tailQueue (c : Ctl) (slot : Nat) (x : Session) : (c.setSession slot x).tailQueue = c.tailQueue := rfl
@[simp] theorem setSession_tailLost (c : Ctl) (slot : Nat) (x : Session) : (c.setSession slot x).tailLost = c.tailLost := rfl
@[simp] theorem setSession_marked (c : Ctl) (slot : Nat) (x : Session) : (c.setSession slot x).marked = c.marked := rfl
@[simp] theorem setSession_estGated (c : Ctl) (slot : Nat) (x : Session) : (c.setSession slot x).estGated = c.estGated := rfl
@[simp] theorem setSession_cleanFrames (c : Ctl) (slot : Nat) (x : Session) : (c.setSession slot x).cleanFrames = c.cleanFrames := rfl
@[simp] theorem setSession_ticks (c : Ctl) (slot : Nat) (x : Session) : (c.setSession slot x).ticks = c.ticks := rfl
@[simp] theorem setSession_energy (c : Ctl) (slot : Nat) (x : Session) : (c.setSession slot x).energy = c.energy := rfl
@[simp] theorem setSession_bucketHalf (c : Ctl) (slot : Nat) (x : Session) : (c.setSession slot x).bucketHalf = c.bucketHalf := rfl
@[simp] theorem setSession_phase (c : Ctl) (slot : Nat) (x : Session) : (c.setSession slot x).phase = c.phase := rfl
@[simp] theorem setSession_frameNum (c : Ctl) (slot : Nat) (x : Session) : (c.setSession slot x).frameNum = c.frameNum := rfl
@[simp] theorem setSession_stnNs (c : Ctl) (slot : Nat) (x : Session) : (c.setSession slot x).stnNs = c.stnNs := rfl
@[simp] theorem setSession_stnSec (c : Ctl) (slot : Nat) (x : Session) : (c.setSession slot x).stnSec = c.stnSec := rfl
@[simp] theorem setSession_optime (c : Ctl) (slot : Nat) (x : Session) : (c.setSession slot x).optime = c.optime := rfl
@[simp] theorem setSession_img (c : Ctl) (slot : Nat) (x : Session) : (c.setSession slot x).img = c.img := rfl
@[simp] theorem setSession_faultTimes (c : Ctl) (slot : Nat) (x : Session) : (c.setSession slot x).faultTimes = c.faultTimes := rfl
@[simp] theorem setSession_stuck (c : Ctl) (slot : Nat) (x : Session) : (c.setSession slot x).stuck = c.stuck := rfl
@[simp] theorem setSession_carryIn (c : Ctl) (slot : Nat) (x : Session) : (c.setSession slot x).carryIn = c.carryIn := rfl
@[simp] theorem setSession_reserving (c : Ctl) (slot : Nat) (x : Session) : (c.setSession slot x).reserving = c.reserving := rfl
@[simp] theorem setSession_readySet (c : Ctl) (slot : Nat) (x : Session) : (c.setSession slot x).readySet = c.readySet := rfl
@[simp] theorem setSession_ptp (c : Ctl) (slot : Nat) (x : Session) : (c.setSession slot x).ptp = c.ptp := rfl
@[simp] theorem setSession_syncRef (c : Ctl) (slot : Nat) (x : Session) : (c.setSession slot x).syncRef = c.syncRef := rfl
@[simp] theorem setSession_followed (c : Ctl) (slot : Nat) (x : Session) : (c.setSession slot x).followed = c.followed := rfl
@[simp] theorem setSession_blks (c : Ctl) (slot : Nat) (x : Session) : (c.setSession slot x).blks = c.blks := rfl
@[simp] theorem setSession_rings (c : Ctl) (slot : Nat) (x : Session) : (c.setSession slot x).rings = c.rings := rfl
@[simp] theorem setSession_found (c : Ctl) (slot : Nat) (x : Session) : (c.setSession slot x).found = c.found := rfl
@[simp] theorem setSession_inventory (c : Ctl) (slot : Nat) (x : Session) : (c.setSession slot x).inventory = c.inventory := rfl
@[simp] theorem setSession_identity (c : Ctl) (slot : Nat) (x : Session) : (c.setSession slot x).identity = c.identity := rfl
@[simp] theorem setSession_ow (c : Ctl) (slot : Nat) (x : Session) : (c.setSession slot x).ow = c.ow := rfl
@[simp] theorem setSession_beryl (c : Ctl) (slot : Nat) (x : Session) : (c.setSession slot x).beryl = c.beryl := rfl
@[simp] theorem setSession_berylStore (c : Ctl) (slot : Nat) (x : Session) : (c.setSession slot x).berylStore = c.berylStore := rfl
@[simp] theorem setSession_berylStore2 (c : Ctl) (slot : Nat) (x : Session) : (c.setSession slot x).berylStore2 = c.berylStore2 := rfl
@[simp] theorem setSession_berylCrc (c : Ctl) (slot : Nat) (x : Session) : (c.setSession slot x).berylCrc = c.berylCrc := rfl
@[simp] theorem setSession_lims (c : Ctl) (slot : Nat) (x : Session) : (c.setSession slot x).lims = c.lims := rfl
@[simp] theorem setSession_limCommit (c : Ctl) (slot : Nat) (x : Session) : (c.setSession slot x).limCommit = c.limCommit := rfl
@[simp] theorem setSession_selAct (c : Ctl) (slot : Nat) (x : Session) : (c.setSession slot x).selAct = c.selAct := rfl
@[simp] theorem setSession_raw (c : Ctl) (slot : Nat) (x : Session) : (c.setSession slot x).raw = c.raw := rfl
@[simp] theorem setSession_bursts (c : Ctl) (slot : Nat) (x : Session) : (c.setSession slot x).bursts = c.bursts := rfl
@[simp] theorem setSession_outliers (c : Ctl) (slot : Nat) (x : Session) : (c.setSession slot x).outliers = c.outliers := rfl
@[simp] theorem setSession_frameOpen (c : Ctl) (slot : Nat) (x : Session) : (c.setSession slot x).frameOpen = c.frameOpen := rfl
@[simp] theorem setSession_cellx (c : Ctl) (slot : Nat) (x : Session) : (c.setSession slot x).cellx = c.cellx := rfl
@[simp] theorem setSession_strx (c : Ctl) (slot : Nat) (x : Session) : (c.setSession slot x).strx = c.strx := rfl
@[simp] theorem setSession_est (c : Ctl) (slot : Nat) (x : Session) : (c.setSession slot x).est = c.est := rfl
@[simp] theorem setSession_headFrom (c : Ctl) (slot : Nat) (x : Session) : (c.setSession slot x).headFrom = c.headFrom := rfl
@[simp] theorem setSession_oldMaps (c : Ctl) (slot : Nat) (x : Session) : (c.setSession slot x).oldMaps = c.oldMaps := rfl
@[simp] theorem setSession_cellUid (c : Ctl) (slot : Nat) (x : Session) : (c.setSession slot x).cellUid = c.cellUid := rfl
@[simp] theorem setSession_profiles (c : Ctl) (slot : Nat) (x : Session) : (c.setSession slot x).profiles = c.profiles := rfl
@[simp] theorem setSession_profDue (c : Ctl) (slot : Nat) (x : Session) : (c.setSession slot x).profDue = c.profDue := rfl
@[simp] theorem setSession_switches (c : Ctl) (slot : Nat) (x : Session) : (c.setSession slot x).switches = c.switches := rfl
@[simp] theorem setSession_secFrom (c : Ctl) (slot : Nat) (x : Session) : (c.setSession slot x).secFrom = c.secFrom := rfl
@[simp] theorem setSession_staleDue (c : Ctl) (slot : Nat) (x : Session) : (c.setSession slot x).staleDue = c.staleDue := rfl
@[simp] theorem setSession_lvGen (c : Ctl) (slot : Nat) (x : Session) : (c.setSession slot x).lvGen = c.lvGen := rfl
@[simp] theorem setSession_backups (c : Ctl) (slot : Nat) (x : Session) : (c.setSession slot x).backups = c.backups := rfl
@[simp] theorem setSession_manual (c : Ctl) (slot : Nat) (x : Session) : (c.setSession slot x).manual = c.manual := rfl
@[simp] theorem setSession_cycles (c : Ctl) (slot : Nat) (x : Session) : (c.setSession slot x).cycles = c.cycles := rfl
@[simp] theorem setSession_learns (c : Ctl) (slot : Nat) (x : Session) : (c.setSession slot x).learns = c.learns := rfl
@[simp] theorem setSession_balBefore (c : Ctl) (slot : Nat) (x : Session) : (c.setSession slot x).balBefore = c.balBefore := rfl
@[simp] theorem setSession_heatEp (c : Ctl) (slot : Nat) (x : Session) : (c.setSession slot x).heatEp = c.heatEp := rfl
@[simp] theorem setSession_balReduced (c : Ctl) (slot : Nat) (x : Session) : (c.setSession slot x).balReduced = c.balReduced := rfl
@[simp] theorem setSession_planDue (c : Ctl) (slot : Nat) (x : Session) : (c.setSession slot x).planDue = c.planDue := rfl
@[simp] theorem setSession_canTry (c : Ctl) (slot : Nat) (x : Session) : (c.setSession slot x).canTry = c.canTry := rfl
@[simp] theorem setSession_canFifo (c : Ctl) (slot : Nat) (x : Session) : (c.setSession slot x).canFifo = c.canFifo := rfl
@[simp] theorem setSession_canOvf (c : Ctl) (slot : Nat) (x : Session) : (c.setSession slot x).canOvf = c.canOvf := rfl
@[simp] theorem setSession_canDet (c : Ctl) (slot : Nat) (x : Session) : (c.setSession slot x).canDet = c.canDet := rfl
@[simp] theorem setSession_canStop (c : Ctl) (slot : Nat) (x : Session) : (c.setSession slot x).canStop = c.canStop := rfl
@[simp] theorem setSession_chans (c : Ctl) (slot : Nat) (x : Session) : (c.setSession slot x).chans = c.chans := rfl
@[simp] theorem setSession_loopWait (c : Ctl) (slot : Nat) (x : Session) : (c.setSession slot x).loopWait = c.loopWait := rfl
@[simp] theorem setSession_traces (c : Ctl) (slot : Nat) (x : Session) : (c.setSession slot x).traces = c.traces := rfl
@[simp] theorem setSession_bank (c : Ctl) (slot : Nat) (x : Session) : (c.setSession slot x).bank = c.bank := rfl
@[simp] theorem setSession_slots (c : Ctl) (slot : Nat) (x : Session) : (c.setSession slot x).slots = c.slots := rfl
@[simp] theorem setSession_perts (c : Ctl) (slot : Nat) (x : Session) : (c.setSession slot x).perts = c.perts := rfl
@[simp] theorem setSession_lone (c : Ctl) (slot : Nat) (x : Session) : (c.setSession slot x).lone = c.lone := rfl
@[simp] theorem setSession_rests (c : Ctl) (slot : Nat) (x : Session) : (c.setSession slot x).rests = c.rests := rfl
@[simp] theorem setSession_restLast (c : Ctl) (slot : Nat) (x : Session) : (c.setSession slot x).restLast = c.restLast := rfl
@[simp] theorem setSession_latch (c : Ctl) (slot : Nat) (x : Session) : (c.setSession slot x).latch = c.latch := rfl
@[simp] theorem setSession_setPts (c : Ctl) (slot : Nat) (x : Session) : (c.setSession slot x).setPts = c.setPts := rfl
@[simp] theorem setSession_schedule (c : Ctl) (slot : Nat) (x : Session) : (c.setSession slot x).schedule = c.schedule := rfl
@[simp] theorem setSession_inFlight (c : Ctl) (slot : Nat) (x : Session) : (c.setSession slot x).inFlight = c.inFlight := rfl
@[simp] theorem setSession_dma (c : Ctl) (slot : Nat) (x : Session) : (c.setSession slot x).dma = c.dma := rfl
@[simp] theorem setSession_dmaTurn (c : Ctl) (slot : Nat) (x : Session) : (c.setSession slot x).dmaTurn = c.dmaTurn := rfl
@[simp] theorem setSession_dmaHalts (c : Ctl) (slot : Nat) (x : Session) : (c.setSession slot x).dmaHalts = c.dmaHalts := rfl
@[simp] theorem setSession_twb (c : Ctl) (slot : Nat) (x : Session) : (c.setSession slot x).twb = c.twb := rfl
@[simp] theorem setSession_pw (c : Ctl) (slot : Nat) (x : Session) : (c.setSession slot x).pw = c.pw := rfl
@[simp] theorem setSession_handed (c : Ctl) (slot : Nat) (x : Session) : (c.setSession slot x).handed = c.handed := rfl

end Ctl

/-! ## Reading after a write -/

/-- A field reads as what was written, cut to its width. -/
@[simp] theorem get_put_same (c : Ctl) (t : Nat) (F : Field) (v i j : Nat) :
    (c.put t F v i j).get t F i j = v % 2 ^ F.width := by simp [Ctl.get, Ctl.put]

/-- A task slot written twice holds what was written last. -/
theorem setTask_setTask (c : Ctl) (t i : Nat) (k l : Task) : (c.setTask t i k).setTask t i l = c.setTask t i l := by
  simp [Ctl.setTask, tabSet_tabSet]

/-- A field at another key is left alone. -/
theorem get_put_ne (c : Ctl) (t u : Nat) (F G : Field) (v i j p q : Nat) (h : G.key u p q ≠ F.key t i j) :
    (c.put t F v i j).get u G p q = c.get u G p q := by simp [Ctl.get, Ctl.put, tabGet_tabSet_ne _ _ _ h]

/-- Reads of the register file see nothing else of the state. -/
theorem get_congr {c d : Ctl} (h : d.regs = c.regs) (t : Nat) (F : Field) (i j : Nat) : d.get t F i j = c.get t F i j := by
  simp [Ctl.get, h]

@[simp] theorem get_setTask (c : Ctl) (t i : Nat) (k : Task) (u : Nat) (F : Field) (p q : Nat) :
    (c.setTask t i k).get u F p q = c.get u F p q := rfl
@[simp] theorem get_setVec (c : Ctl) (t : Nat) (v : VecArray) (u : Nat) (F : Field) (p q : Nat) :
    (c.setVec t v).get u F p q = c.get u F p q := rfl

@[simp] theorem task_setTask_same (c : Ctl) (t i : Nat) (k : Task) : (c.setTask t i k).task t i = k := by
  simp [Ctl.task, Ctl.setTask]
theorem task_setTask_ne (c : Ctl) (t i u j : Nat) (k : Task) (h : u * 256 + j ≠ t * 256 + i) :
    (c.setTask t i k).task u j = c.task u j := by simp [Ctl.task, Ctl.setTask, tabGet_tabSet_ne _ _ _ h]
@[simp] theorem task_put (c : Ctl) (t : Nat) (F : Field) (v i j u n : Nat) : (c.put t F v i j).task u n = c.task u n := rfl
@[simp] theorem grants_setTask (c : Ctl) (t i : Nat) (k : Task) (u p n : Nat) :
    (c.setTask t i k).grants u p n = c.grants u p n := rfl
@[simp] theorem getInt_setTask (c : Ctl) (t i : Nat) (k : Task) (u : Nat) (F : Field) (p q : Nat) :
    (c.setTask t i k).getInt u F p q = c.getInt u F p q := rfl
@[simp] theorem vecOf_setVec_same (c : Ctl) (t : Nat) (v : VecArray) : (c.setVec t v).vecOf t = v := by
  simp [Ctl.vecOf, Ctl.setVec]
@[simp] theorem tiles_put (c : Ctl) (t : Nat) (F : Field) (v i j : Nat) : (c.put t F v i j).tiles = c.tiles := rfl
@[simp] theorem tiles_setTask (c : Ctl) (t i : Nat) (k : Task) : (c.setTask t i k).tiles = c.tiles := rfl

/-- s0 reads as zero and discards what is written (R52). -/
@[simp] theorem reg_zero (k : Task) : k.reg 0 = 0 := rfl
@[simp] theorem setReg_zero (k : Task) (v : Word) : k.setReg 0 v = k := rfl

@[simp] theorem setReg_pc (k : Task) (n : Nat) (v : Word) : (k.setReg n v).pc = k.pc := by unfold Task.setReg; split <;> rfl
@[simp] theorem setReg_addrExt (k : Task) (n : Nat) (v : Word) : (k.setReg n v).addrExt = k.addrExt := by unfold Task.setReg; split <;> rfl
@[simp] theorem setReg_cost (k : Task) (n : Nat) (v : Word) : (k.setReg n v).cost = k.cost := by unfold Task.setReg; split <;> rfl
@[simp] theorem setReg_entryTime (k : Task) (n : Nat) (v : Word) : (k.setReg n v).entryTime = k.entryTime := by unfold Task.setReg; split <;> rfl
@[simp] theorem setReg_entrySrc (k : Task) (n : Nat) (v : Word) : (k.setReg n v).entrySrc = k.entrySrc := by unfold Task.setReg; split <;> rfl
@[simp] theorem setReg_late (k : Task) (n : Nat) (v : Word) : (k.setReg n v).late = k.late := by unfold Task.setReg; split <;> rfl
@[simp] theorem setReg_cycles (k : Task) (n : Nat) (v : Word) : (k.setReg n v).cycles = k.cycles := by unfold Task.setReg; split <;> rfl
@[simp] theorem setReg_granted (k : Task) (n : Nat) (v : Word) : (k.setReg n v).granted = k.granted := by unfold Task.setReg; split <;> rfl
@[simp] theorem setReg_paid (k : Task) (n : Nat) (v : Word) : (k.setReg n v).paid = k.paid := by unfold Task.setReg; split <;> rfl
@[simp] theorem setReg_entered (k : Task) (n : Nat) (v : Word) : (k.setReg n v).entered = k.entered := by unfold Task.setReg; split <;> rfl
@[simp] theorem setReg_pendSrc (k : Task) (n : Nat) (v : Word) : (k.setReg n v).pendSrc = k.pendSrc := by unfold Task.setReg; split <;> rfl
@[simp] theorem setReg_stamp (k : Task) (n : Nat) (v : Word) : (k.setReg n v).stamp = k.stamp := by unfold Task.setReg; split <;> rfl
@[simp] theorem setReg_wait (k : Task) (n : Nat) (v : Word) : (k.setReg n v).wait = k.wait := by unfold Task.setReg; split <;> rfl
@[simp] theorem setReg_dest (k : Task) (n : Nat) (v : Word) : (k.setReg n v).dest = k.dest := by unfold Task.setReg; split <;> rfl
@[simp] theorem setReg_stopReq (k : Task) (n : Nat) (v : Word) : (k.setReg n v).stopReq = k.stopReq := by unfold Task.setReg; split <;> rfl
@[simp] theorem setReg_overruns (k : Task) (n : Nat) (v : Word) : (k.setReg n v).overruns = k.overruns := by unfold Task.setReg; split <;> rfl

/-- A scalar register reads as what was written. -/
theorem reg_setReg_same (k : Task) {n : Nat} (v : Word) (h : n ≠ 0) : (k.setReg n v).reg n = v := by
  simp [Task.reg, Task.setReg, h]

/-- The other scalar registers are left alone. -/
theorem reg_setReg_ne (k : Task) {n m : Nat} (v : Word) (h : m ≠ n) : (k.setReg n v).reg m = k.reg m := by
  unfold Task.reg Task.setReg
  split
  · rfl
  · split
    · rfl
    · exact tabGet_tabSet_ne _ _ _ h

end Sys2Proof.Machine
end

