-- ==== Sys2Proof/Laws/Outcome.lean ====
section
/-! SUPPORT. Laws/Outcome.lean: what the shared operations of the meanings can answer, each said once: the tile a command stands on,
the accessor of an access, an instruction of a task, a request of a session. -/
namespace Sys2Proof.Machine

/-- A command of a fitted tile answers. -/
theorem onTile_fitted {s : State} {t : Nat} (h : t < s.ctl.tiles) (f : Ctl → Ctl) :
    s.onTile t f = .next (s.ctlTo (f s.ctl)) := if_pos h
theorem onTileR_fitted {s : State} {t : Nat} (h : t < s.ctl.tiles) (f : Mem → Ctl → Ctl) :
    s.onTileR t f = .next (s.ctlTo (f s.mem s.ctl)) := if_pos h
theorem onTileM_fitted {s : State} {t : Nat} (h : t < s.ctl.tiles) (f : Mem → Ctl → Mem × Ctl) :
    s.onTileM t f = .next (s.allTo (f s.mem s.ctl)) := if_pos h

/-- A command of a tile that is not fitted stops. -/
theorem onTile_absent {s : State} {t : Nat} (h : ¬ t < s.ctl.tiles) (f : Ctl → Ctl) :
    s.onTile t f = .fault .absentTile := if_neg h
theorem onTileR_absent {s : State} {t : Nat} (h : ¬ t < s.ctl.tiles) (f : Mem → Ctl → Ctl) :
    s.onTileR t f = .fault .absentTile := if_neg h
theorem onTileM_absent {s : State} {t : Nat} (h : ¬ t < s.ctl.tiles) (f : Mem → Ctl → Mem × Ctl) :
    s.onTileM t f = .fault .absentTile := if_neg h

/-- A command of the module answers. -/
theorem onModule_next (s : State) (f : Ctl → Ctl) : s.onModule f = .next (s.ctlTo (f s.ctl)) := rfl
theorem onModuleR_next (s : State) (f : Mem → Ctl → Ctl) : s.onModuleR f = .next (s.ctlTo (f s.mem s.ctl)) := rfl
theorem onModuleM_next (s : State) (f : Mem → Ctl → Mem × Ctl) : s.onModuleM f = .next (s.allTo (f s.mem s.ctl)) := rfl

/-- An access answers when its accessor is a host or code of a fitted tile. -/
theorem onAccess_fitted {s : State} {o : Origin} (h : accessorFitted s.ctl o = true) (f : Ctl → Ctl) :
    s.onAccess o f = .next (s.ctlTo (f s.ctl)) := by
  cases o with
  | casda u i => exact if_pos (by simpa [accessorFitted, originTile] using h)
  | host r q => rfl
theorem onAccessM_fitted {s : State} {o : Origin} (h : accessorFitted s.ctl o = true)
    (f : Mem → Ctl → Mem × Ctl) : s.onAccessM o f = .next (s.allTo (f s.mem s.ctl)) := by
  cases o with
  | casda u i => exact if_pos (by simpa [accessorFitted, originTile] using h)
  | host r q => rfl

/-- An access to a tile the accessor reaches has the effect of its register, answered with its code. -/
theorem access_reached {c : Ctl} {o : Origin} {t : Nat} (h : c.reachedBy o t = true) (blk : Nat) (f : Ctl → Ctl × Nat) :
    c.access o t blk f = (f c).1.answer o blk (f c).2 := by simp [Ctl.access, h]

theorem accessM_reached {m : Mem} {c : Ctl} {o : Origin} {t : Nat} (h : c.reachedBy o t = true) (blk : Nat)
    (f : Mem → Ctl → MC × Nat) : accessM m c o t blk f = ((f m c).1.1, (f m c).1.2.answer o blk (f m c).2) := by
  simp [accessM, h]

/-- A command a block accepts has its effect, remembered and answered. -/
theorem command_takes {x : Blk} {fr : RingFrame} {len : Nat} (hb : fr.broadcast = true ∨ x.addr = some (fr.addr.toNat % 1024))
    (hq : (if fr.broadcast then x.lastBc else x.lastUni) ≠ some fr.seq.toNat) (hl : fr.req.length = len)
    (f : Blk → BlkResult) : x.command fr len f = (f x).2.2.answers fr (f x).1 (f x).2.1 := by
  unfold Blk.command Blk.answers
  simp only [hl, if_true]
  generalize f x = z
  cases h : fr.broadcast
  · simp only [h, Bool.false_eq_true, false_or, if_false] at hb hq
    simp [hb, hq]
    split_ifs <;> rfl
  · simp only [h, if_true] at hq
    simp [hq]
    split_ifs <;> rfl

/-- A frame that a block takes has its command's effect. -/
theorem receive_takes {x : Blk} {fr : RingFrame} {type cmd len : Nat} (h : x.Takes fr type cmd len) (f : Blk → BlkResult)
    (hf : ∀ y : Blk, (f y).2.2.aborts = y.aborts) :
    x.receive fr type cmd (fun y => y.command fr len f)
      = (f { x with aborts := false }).2.2.took fr (f { x with aborts := false }).1 (f { x with aborts := false }).2.1 := by
  obtain ⟨hs, ⟨ha, hc⟩, hn, hb, hq, hl⟩ := h
  have hx : x.receive fr type cmd (fun y => y.command fr len f) = Blk.command { x with aborts := false } fr len f := by
    simp [Blk.receive, hs, ha, hc, hn]
  have hz := hf { x with aborts := false }
  rw [hx, command_takes (x := { x with aborts := false }) hb hq hl]
  generalize f { x with aborts := false } = z at hz ⊢
  have : { z.2.2 with aborts := false } = z.2.2 := by
    obtain ⟨e, d, y⟩ := z
    cases y
    cases hz
    rfl
  rw [Blk.took, this]

/-- Such a frame changes nothing but the block. -/
theorem frameAt_whole {c : Ctl} {fr : RingFrame} (h : Whole fr) (t r b type cmd : Nat) (f : Blk → Blk) :
    c.frameAt t r b fr type cmd f = c.setBlk t r b ((c.blk t r b).receive fr type cmd f) := by
  simp [Ctl.frameAt, h.1, h.2]

/-- The order of a task's accesses changes only the issue queue of its array (R95). -/
@[simp] theorem memOrder_task (c : Ctl) (t i u j : Nat) : (c.memOrder t i).task u j = c.task u j := by
  unfold Ctl.memOrder; split <;> rfl
@[simp] theorem memOrder_dataAddr (c : Ctl) (t i u j : Nat) (x : Word) : (c.memOrder t i).dataAddr u j x = c.dataAddr u j x := by
  unfold Ctl.memOrder; split <;> rfl
@[simp] theorem memOrder_eccHits (c : Ctl) (t i u j a n : Nat) : (c.memOrder t i).eccHits u j a n = c.eccHits u j a n := by
  unfold Ctl.memOrder; split <;> rfl
@[simp] theorem memOrder_landed (c : Ctl) (t i u : Nat) (m : Mem) : (c.memOrder t i).landed m u = c.landed m u := by
  unfold Ctl.memOrder; split <;> rfl
@[simp] theorem memOrder_tiles (c : Ctl) (t i : Nat) : (c.memOrder t i).tiles = c.tiles := by
  unfold Ctl.memOrder; split <;> rfl

/-- An instruction that is not illegal, of the task a core executes, has its effect on that task. -/
theorem instr_executes {c : Ctl} {t k i : Nat} (h : Executes c t k i) (word : Nat) (f : Nat → Ctl → Ctl) :
    c.instr t k word false f = f i c := by
  obtain ⟨_, hr, hh, hw, hp⟩ := h
  simp [Ctl.instr, hr, hh, hw, Nat.not_le.mpr hp]

/-- An illegal one traps before any effect. -/
theorem instr_illegal {c : Ctl} {t k i : Nat} (h : Executes c t k i) (word : Nat) (f : Nat → Ctl → Ctl) :
    c.instr t k word true f = c.takeTrap t i 0x01 word := by
  obtain ⟨_, hr, hh, hw, hp⟩ := h
  simp [Ctl.instr, hr, hh, hw, Nat.not_le.mpr hp]

/-- One that may write memory, likewise. -/
theorem instrM_executes {c : Ctl} {t k i : Nat} (h : Executes c t k i) (m : Mem) (word : Nat) (f : Nat → Ctl → Mem × Ctl) :
    instrM m c t k word false f = f i c := by
  obtain ⟨_, hr, hh, hw, hp⟩ := h
  simp [instrM, hr, hh, hw, Nat.not_le.mpr hp]

/-- A request accepted in its session, of its own type and with STATUS, TILE and form right, fewer than 32 waiting, has its
effect, unless it lies above the role's rights with its handle released, and the effect is answered. -/
theorem chpRequest_accepted {c c' : Ctl} {type skip slot : Nat} {d : Datagram} {q : Req} {tileOk formOk : Bool}
    (f : Req → Mem → Ctl → Eff) (m : Mem) (ha : c.receive type d = .accepted slot c')
    (hq : q = { role := (c'.session slot).role, id := (c'.session slot).id, slot := slot, seq := d.seq.toNat
                v1 := (c'.session slot).v1, args := d.payload.drop skip })
    (ho : d.asType = none) (hs : d.status = 0) (ht : tileOk = true) (hf : formOk = true)
    (hr : (c'.session slot).waiting.length < 32) :
    chpRequest type skip d tileOk formOk f m c
      = (if (f q m c').denied = true then f q m c' else (f q m c').released slot).answered slot d.seq.toNat d.path := by
  simp [chpRequest, ha, hs, ht, hf, ho, Nat.not_le.mpr hr, ← hq]

/-- A CMD that is delivered has its effect, unless it lies above the role's rights with its handle released, and the effect is
answered. -/
theorem chpCmd_delivered {c c' : Ctl} {code : Nat} {d : Datagram} {q : Req} (h : Delivered c code d q c')
    (f : Req → Mem → Ctl → Eff) (m : Mem) :
    chpCmd code d f m c = (if (f q m c').denied = true then f q m c' else (f q m c').released q.slot).answered
      q.slot d.seq.toNat d.path :=
  chpRequest_accepted f m h.accepted h.request h.ownType h.status (by simp [h.tile])
    (by simp [h.long, h.code]) h.room

/-- A command that names no handle releases none. -/
theorem released_none {e : Eff} {slot : Nat} (h : e.handle = none) : e.released slot = e := by
  simp [Eff.released, h]

/-- A command whose handle stands no more releases nothing further. -/
theorem released_gone {e : Eff} {slot h : Nat} (hh : e.handle = some h) (hg : tabFind e.ctl.net.bulks h = none) :
    e.released slot = e := by
  obtain ⟨m, c, o, r, l, n⟩ := e
  simp only at hh hg
  subst hh
  simp [Eff.released, Ctl.releaseBulk, hg]

/-- A bulk handle that a command has taken stands no more. -/
theorem takeBulk_gone {c c1 : Ctl} {q : Req} {h : Nat} {b : List Byte} (ht : c.takeBulk q h = (eOk, b, c1)) :
    tabFind c1.net.bulks h = none := by
  unfold Ctl.takeBulk at ht
  split at ht
  · cases ht
  · split at ht
    · cases ht
    · split at ht
      · cases ht
      · split at ht
        · cases ht
        · cases ht
          simp

/-- A delivered CMD that is not above its role's rights, and whose handle its effect has released, is answered with that
effect. -/
theorem cmd_answered {s : State} {c' : Ctl} {code : Nat} {d : Datagram} {q : Req} {f : Req → Mem → Ctl → Eff} {e : Eff}
    (h : Delivered s.ctl code d q c') (he : f q s.mem c' = e) (hd : e.denied = false) (hr : e.released q.slot = e) :
    s.cmd code d f = .next (s.replied d q e) := by
  unfold State.cmd
  rw [onModuleM_next, chpCmd_delivered h, he, hd, hr]
  rfl

/-- A READ or WRITE that is accepted, whose effect is not above its role's rights and names no handle, is answered with that
effect. -/
theorem request_answered {s : State} {c' : Ctl} {type slot : Nat} {d : Datagram} {tileOk formOk : Bool}
    {f : Req → Mem → Ctl → Eff} {e : Eff} (ha : s.ctl.receive type d = .accepted slot c') (ho : d.asType = none)
    (hs : d.status = 0) (ht : tileOk = true) (hf : formOk = true) (hw : (c'.session slot).waiting.length < 32) {q : Req}
    (hq : q = { role := (c'.session slot).role, id := (c'.session slot).id, slot := slot, seq := d.seq.toNat
                v1 := (c'.session slot).v1, args := d.payload })
    (he : f q s.mem c' = e) (hd : e.denied = false) (hr : e.handle = none) :
    s.onModuleM (fun m c => chpRequest type 0 d tileOk formOk f m c) = .next (s.replied d q e) := by
  rw [onModuleM_next, chpRequest_accepted f s.mem ha hq ho hs ht hf hw, he, hd, released_none hr]
  subst hq
  rfl

/-- One that names a handle, which its effect has released. -/
theorem cmd_bulk {s : State} {c' : Ctl} {code n : Nat} {d : Datagram} {q : Req} {f : Req → Mem → Ctl → Eff} {e : Eff}
    (h : Delivered s.ctl code d q c') (he : f q s.mem c' = { e with handle := some n }) (hd : e.denied = false)
    (hg : tabFind e.ctl.net.bulks n = none) : s.cmd code d f = .next (s.replied d q e) := by
  rw [cmd_answered h he hd (released_gone rfl hg)]
  rfl

/-- A CMD of a role that may send it, with arguments of the right length, passes the guards. -/
theorem guarded_pass {r : Req} {roles : List Role} {len : Nat} (hr : roles.contains r.role = true) (hl : r.args.length = len)
    (m : Mem) (c : Ctl) (k : Eff) : guarded r roles len m c k = k := by
  simp only [guarded, hr, hl]; simp

end Sys2Proof.Machine
end

