-- ==== Sys2Proof/Tests/Slice0.lean ====
section
/-! SUPPORT. Tests/Slice0.lean: for every statement with hypotheses a concrete state and operands that meet all of them together, clause by
clause; ill-formed commands that the checks of WellFormed.lean refuse; and worked examples of the spec. -/
open Sys2Proof Sys2Proof.Machine
namespace Sys2Proof.Tests
set_option maxRecDepth 20000
set_option linter.unusedVariables false

/-! ## Small states for the witnesses -/

/-- Register fields of a tile set, each with its index. -/
def withRegs (c : Ctl) (t : Nat) (l : List (Field × Nat × Nat)) : Ctl := l.foldl (fun c e => c.put t e.1 e.2.1 e.2.2) c
/-- A state of a control state, memory empty. -/
def stateOf (c : Ctl) : State := { State.reset with ctl := c }
/-- A change of the control state. -/
def tweak (s : State) (f : Ctl → Ctl) : State := { s with ctl := f s.ctl }
/-- Register fields of tile 0 set. -/
def setF (s : State) (l : List (Field × Nat × Nat)) : State := tweak s (fun c => withRegs c 0 l)

/-- Tile 0 in RUN, core 0 System, task 5 RUNNING with some register values. -/
def onTask : State := stateOf ((withRegs {} 0 [(TILE_STATUS_STATE, 2, 0), (CASDA_CORE_LEVEL_SYSTEM, 1, 0),
  (TASK_CFG_VALID, 1, 5), (TASK_CFG_PRIO, 0, 5), (TASK_STATE_STATE, 4, 5)]).setTask 0 5 { s := [(1, 5#32), (2, 7#32)], addrExt := 0xF0 })
/-- Task 5 changed. -/
def taskIs (f : Task → Task) (s : State := onTask) : State := tweak s (fun c => c.setTask 0 5 (f (c.task 0 5)))
/-- Task 69 of the Application core 1 RUNNING. -/
def appTask : State := stateOf ((withRegs {} 0 [(TILE_STATUS_STATE, 2, 0), (CASDA_CORE_LEVEL_SYSTEM, 1, 0),
  (TASK_STATE_STATE, 4, 69)]).setTask 0 69 { s := [(2, 0x80000000#32)], addrExt := 0xF0 })
/-- The trap task RUNNING, task 5 TRAPPED. -/
def trapTask : State := tweak (setF onTask [(TASK_STATE_STATE, 5, 5), (TASK_STATE_STATE, 4, 0)])
  (fun c => c.setTask 0 0 { s := [(1, 5#32), (2, 7#32)] })
def fenced : State := taskIs (fun k => { k with wait := .fence })
def fencedStop : State := taskIs (fun k => { k with wait := .fence, stopReq := true })
def paidTask : State := taskIs (fun k => { k with paid := 1000 })
def poorTask : State := setF (taskIs (fun k => { k with s := [(2, 3#32)] })) [(TASK_CFG_PRIO, 3, 5), (PWR_BUCKET_B, 0, 0)]
def vecHeld (i : Nat) (s : State) : State := tweak s (fun c => c.setVec 0 { holder := some i })
def onVector : State := vecHeld 5 onTask
def vecTaken : State := vecHeld 6 onTask
def appVector : State := vecHeld 69 appTask
def lockedTask : State := setF onTask [(TIME_STATE_STATE, 2, 0)]
def taskAt (st : Nat) : State := setF onTask [(TASK_STATE_STATE, st, 5)]
/-- An access by System code of tile 0. -/
def sysO : Origin := .casda 0 1
def offTile0 : State := setF onTask [(TILE_STATUS_STATE, tsOff, 0)]
def ns32Last : State := setF onTask [(TIME_NS32_VALUE, 0xFFFFFFFC, 0)]
def haltedCore : State := setF onTask [(CASDA_CORE_CTRL_HALT, 1, 0)]
def watched : State := setF onTask [(CASDA_WDOG_CFG_EN, 1, 0), (CASDA_WDOG_CFG_PERIOD, 500, 0)]
def timed : State := setF onTask [(CASDA_TIMER_PERIOD_PERIOD, 1000, 1)]
def boxed : State := tweak (setF onTask [(CASDA_MBOX_CFG_EN, 1, 2)]) (fun c => c.setMailbox 0 2 [9])
def boxFull : State := tweak boxed (fun c => c.setMailbox 0 2 (List.replicate 16 3))
def farTask : State := taskIs (fun k => { k with pc := 0x40000 })
def trapWaits : State := setF onTask [(TASK_STATE_STATE, 2, 0)]
def divTask : State := taskIs (fun k => { k with s := [(1, 0x80000000#32), (2, 0xFFFFFFFF#32)] })
def entering : State := taskIs (fun k => { k with first := some {} })

/-! ## Requests of a session -/

/-- Path 0 with link and an address of its own. -/
def linkUp0 (s : State) : State := tweak (setF s [(NET_P_LINK, 1, 0)]) (fun c => { c with net := { c.net with
  ipActive := [(NET_P_IP4_EN.key 0 0 0, 1), (NET_P_IP4_ADDR.key 0 0 0, 0xC0A80001)] } })
/-- The state with an open session of a role in slot 0, on path 0. -/
def session (role : Role) (s : State) : State := tweak (linkUp0 s)
  (fun c => c.setSession 0 { open_ := true, role := role, id := 1 })
/-- The address and port of the host. -/
def hostAt : Endpoint := { ip := 0xC0A80009#128, port := 50000 }
/-- A datagram of a session, with its MAC. -/
def messageIn (session : Word) (type : Nat) (tile : Byte) (payload : List Byte) : Datagram :=
  let d : Datagram :=
    { path := 0, src := hostAt, dst := 0xC0A80001#128, magic := 0x7A5C, version := 2, seq := 1, session := session, len := BitVec.ofNat 16 payload.length,
      tile := tile, status := 0, payload := payload, mac := [] }
  { d with mac := dgMac d type [] }
/-- The same of the session in slot 0. -/
def message (type : Nat) (tile : Byte) (payload : List Byte) : Datagram := messageIn 1 type tile payload
/-- A CMD of a code. -/
def cmd (code : Nat) (args : List Byte) : Datagram := message 0x03 0xFF (beBytes 2 code ++ args)
/-- The request it makes. -/
def asks (role : Role) (args : List Byte) : Req :=
  { role := role, id := 1, slot := 0, seq := 1, v1 := false, args := args.drop 2 }
/-- The control state once its SEQ is accepted. -/
def heard (s : State) : Ctl :=
  s.ctl.setSession 0 { s.ctl.session 0 with peers := tabSet (s.ctl.session 0).peers 0 hostAt, high := some 1, seen := [1] }

theorem mac_length (d : Datagram) (type : Nat) (key : List Byte) : (dgMac d type key).length = 16 := by
  simp [dgMac, Config.hmacSha256]

/-- A datagram that nothing on the path turns away comes to CHP. -/
theorem arrives_none {c : Ctl} {type : Nat} {d : Datagram} (h : (c.deaf type d || !c.linkUp d.path || !d.crcOk
    || !c.ipTakes d || (c.img.paused && type != 0x07 && type != 0x08)) = false) : c.arrives type d = none := by
  simp only [Bool.or_eq_false_iff] at h
  simp [Ctl.arrives, h.1.1.1.1, h.1.1.1.2, h.1.1.2, h.1.2, h.2]

/-- A datagram with its MAC is accepted. -/
theorem accepted {c : Ctl} {type : Nat} {d : Datagram} {slot : Nat} {c' : Ctl} (hm : d.mac = dgMac d type (c.session slot).key)
    (h1 : c.arrives type d = none)
    (h2 : (d.payload.length == d.len.toNat && decide (d.len.toNat ≤ 1400) && d.magic == 0x7A5C
      && (d.version == 2 || (d.version == 1 && c.flag 0 NET_CFG_COMPAT))) = true)
    (h3 : c.slotOf d.session.toNat = some slot ∧ (c.session slot).v1 = decide (d.version = 1))
    (h4 : c.sequence slot d = .accepted slot c') : c.receive type d = .accepted slot c' := by
  have hl : d.mac.length = 16 := by rw [hm]; exact mac_length _ _ _
  have hf : c.formatOk d = true := by
    simp only [Ctl.formatOk, hl, Bool.and_eq_true] at h2 ⊢
    exact ⟨⟨⟨h2.1.1, rfl⟩, h2.1.2⟩, h2.2⟩
  unfold Ctl.receive
  rw [h1, hf, h3.1]
  simp only []
  rw [if_neg (by simp), if_neg (by rw [h3.2]; simp), if_neg (by rw [← hm]; simp)]
  exact h4

/-- A CMD of the session is delivered. -/
theorem delivered {c : Ctl} {code : Nat} {d : Datagram} {q : Req} {c' : Ctl} (hm : d.mac = dgMac d 0x03 (c.session q.slot).key)
    (h1 : c.arrives 0x03 d = none)
    (h2 : (d.payload.length == d.len.toNat && decide (d.len.toNat ≤ 1400) && d.magic == 0x7A5C
      && (d.version == 2 || (d.version == 1 && c.flag 0 NET_CFG_COMPAT))) = true)
    (h3 : c.slotOf d.session.toNat = some q.slot ∧ (c.session q.slot).v1 = decide (d.version = 1))
    (h4 : c.sequence q.slot d = .accepted q.slot c')
    (h5 : q = { role := (c'.session q.slot).role, id := (c'.session q.slot).id, slot := q.slot, seq := d.seq.toNat
                v1 := (c'.session q.slot).v1, args := d.payload.drop 4 })
    (h6 : d.asType = none ∧ d.status = 0 ∧ d.tile = 0xFF ∧ 4 ≤ d.payload.length ∧ beNat (d.payload.take 2) = code
      ∧ (c'.session q.slot).waiting.length < 32) : Delivered c code d q c' :=
  ⟨h6.1, accepted hm h1 h2 h3 h4, h5, h6.2.1, h6.2.2.1, h6.2.2.2.1, h6.2.2.2.2.1, h6.2.2.2.2.2⟩

/-! ## Rings and blocks -/

/-- Ring 1 of tile 0 in a state, with block 0 enumerated. -/
def ringIn (st : Nat) (s : State := onTask) : State :=
  tweak (setF s [(RING_STATUS_STATE, st, 1), (RING_STATUS_COUNT, 1, 1)]) (fun c => c.put 0 RING_BLK_PRESENT 1 1 0)
/-- Ring 1 changed. -/
def ringIs (f : Rng → Rng) (s : State) : State := tweak s (fun c => c.setRng 0 1 (f (c.rng 0 1)))
def ringIdle0 : State := ringIn rgIdle
def ringRun0 : State := ringIn rgRun
def ringLocks (s : State) : State := setF s [(RING_LINK_HEAD_LOCK, 1, 1), (RING_LINK_TAIL_LOCK, 1, 1)]
def ringLocked0 : State := ringLocks ringRun0
def ringTail0 : State := setF ringRun0 [(RING_LINK_TAIL_LOCK, 1, 1)]
def ringSuspect : State := ringIs (fun g => { g with suspect := true }) ringRun0
def ringEnumLocked : State := ringLocks (ringIs (fun g => { g with step := 1 }) (ringIn rgEnum))
def ping0 : Tx := { addr := 0, cmd := 8 }
/-- A frame of a SEQ, a type, a command code and request bytes to address 0, with its CRC. -/
def wireSeq (seq type cmd : Byte) (req : List Byte) : RingFrame :=
  let fr : RingFrame := { type := type, cmd := cmd, addr := 0, seq := seq, len := BitVec.ofNat 8 req.length, req := req, crc := 0, abort := false }
  { fr with crc := BitVec.ofNat 16 (crc16 (fr.header ++ req)) }
/-- The same with SEQ 1. -/
def wire (type cmd : Byte) (req : List Byte) : RingFrame := wireSeq 1 type cmd req
def ringCtl0 : State := ringIs (fun g => { g with ctl := [ping0] }) ringRun0
def ringPosted0 : State := ringIs (fun g => { g with posted := [ping0] }) ringRun0
def ringPosted7 : State := ringIs (fun g => { g with posted := [{ addr := 7, cmd := 8 }] }) ringRun0
def ringFlight0 : State := ringIs (fun g => { g with flight := [ping0] }) ringRun0
def ringAgain0 : State := ringIs (fun g => { g with flight := [{ addr := 0, cmd := 8, again := true }] }) ringRun0
def ringMeasure0 : State := ringIs (fun g => { g with measuring := true }) ringRun0
def ringFlight9 : State := ringIs (fun g => { g with flight := [{ addr := 0, cmd := 8, tries := 9 }] }) ringRun0
/-- A response element of block 0 with SEQ 0 and OK. -/
def elOk : List Byte := element [0, 0, 0, 0, 0, 0]
def ringEnum2 : State := ringIs (fun g => { g with step := 2 }) (ringIn rgEnum)
def ringEnum2s : State := ringIs (fun g => { g with suspect := true }) ringEnum2
def ringRejoin : State := ringIs (fun g => { g with rejoining := true })
  (setF (ringIn rgSplit) [(RING_STATUS_COUNT, 3, 1), (RING_STATUS_SPLIT_AT, 2, 1)])
def ringCarriedSplit : State := setF (ringIn rgSplit) [(TILE_STATUS_STATE, 4, 0), (RING_CTRL_MODE, 2, 1)]
def ringCarried0 : State := setF ringSuspect [(TILE_STATUS_STATE, 4, 0), (RING_CTRL_MODE, 2, 1)]
def ringMissing : State := ringIs (fun g => { g with missRun := [(0, 3)] })
  ringLocked0
def ringSlots : State := ringIs (fun g => { g with slots := [(0, { map := 1, duty := 50 })] }) ringRun0
def ringQuiet : State := setF ringRun0 [(BAL_CFG_QUIET, 1, 0)]
/-- A tile whose ring 1 runs, its block quarantined. -/
def world : State := tweak ringRun0 (fun c => { c.put 0 RING_BLK_QUAR 1 1 0 with
  rings := [(1, { everEnum := true })], pw := { c.pw with mode := .run } })
/-- Bytes of the local memory of core 0. -/
def withLocal (off : Nat) (l : List Byte) (s : State) : State := { s with mem := memStore s.mem (localAddr 0 0 off) l }
def onPost : State := taskIs (fun k => { k with s := [(2, 0x20#32)] })
  (withLocal 0x20 [0, 2, 0x0B, 0, 0, 0, 0, 0, 0, 0, 0, 0, 0, 0, 0, 0] ringRun0)
def onPostIdle : State := taskIs (fun k => { k with s := [(2, 0x20#32)] })
  (withLocal 0x20 [0, 2, 0x0B, 0, 0, 0, 0, 0, 0, 0, 0, 0, 0, 0, 0, 0] ringIdle0)
def onDuty : State := taskIs (fun k => { k with s := [(4, 0x200#32), (5, 0x10032#32)] }) (setF ringRun0 [(BAL_CTRL_MODE, 2, 0)])
def onPending : State := withLocal 3 [0xFF] (taskIs (fun k => { k with s := [] }))

/-! ## Frames -/

def frameOpen0 : State := ringIs (fun g => { g with swept := true }) (tweak ringRun0 (fun c => { c with frameOpen := [0] }))
def collecting0 : State := ringIs (fun g => { g with swept := false, collecting := true }) frameOpen0
def collectingGot : State := ringIs (fun g => { g with got := [0] }) collecting0
def collectingDark : State := ringLocks collecting0
/-- A sample element of block 0. -/
def el54 : List Byte := element (List.replicate 52 0)
def bursting0 : State := tweak ringRun0 (fun c => { c with bursts := [(0, { list := [0x2000] })] })
def entry0 : BurstEntry := { j := 1, seq := 0, frame := 0, ns := 0, stnNs := 0, stnSec := 0 }
def burstEntry0 : State := tweak ringRun0 (fun c => { c with bursts := [(0, { entry := some entry0 })] })
def onFetch : State := taskIs (fun k => { k with s := [(4, 0#32), (5, 0x200#32)] }) ringRun0
def fetching : State := taskIs (fun k => { k with wait := .fetch 0 0 64 }) ringRun0
/-- Tile 0 restarting. -/
def appDuty : State := tweak (ringRun0) (fun c => (withRegs c 0 [(TASK_STATE_STATE, 4, 69)]).setTask 0 69
  { s := [(2, 0x200#32), (3, 0x10032#32)], addrExt := 0xF0 })

/-! ## Open wires, estimation, balancing -/

/-- Ring 1 with block 0, and the findings of the block. -/
def owState (x : Ow) : State := tweak (setF ringRun0 [(SMP_OW_CFG_EN, 1, 0)]) (fun c => { c with ow := [(blkKey 0 1 0, x)] })
def owReady : State := owState {}
def owConfirmed : State := owState { confirmed := [3] }
def estIs (x : Est) : State := tweak onTask (fun c => c.setEst 0 x)
def passReady : State := estIs { next := some 0 }
def passLate : State := setF (estIs { next := some 0 }) [(SMP_LAST_COMPLETE_FRAME, 1300, 0)]
def fitDue0 : State := tweak ringRun0
  (fun c => ((c.put 0 RING_SMAP_ACT_VALID 1 1 0).setSx 0 1 0 { rest := some 100000000 }).setEst 0 { bufs := [(8192, 0)] })
def restReq : State := setF onTask [(EST_REST_REQ_STRING, 1, 1)]
def staleBlk : State := tweak onTask (fun c => c.put 0 RING_BLK_STALE 1 1 0)
def lvOn : State := setF onTask [(EST_LV_CFG_EN, 1, 0)]
def committing0 : State := estIs { commit := some (0, none) }
def contValid : State := setF onTask [(BAL_CONT_VALID, 1, 2)]
def planReady : State := tweak onTask (fun c => { c with planDue := [0] })
def manual0 : State := setF onTask [(BAL_CTRL_MODE, 2, 0)]
/-- What a ring needs for manual duties and wire tests. -/
def balWorld : State := tweak (setF ringRun0 [(BAL_CTRL_MODE, 2, 0), (BAL_RING_CFG_MWB, 1, 1)]) (fun c => c)
/-- A bulk handle 0 of the session that holds some bytes. -/
def withBulk (b : List Byte) (s : State) : State := tweak s (fun c =>
  { c with net := { c.net with bulks := [(0, { slot := 0, len := b.length, data := b.zipIdx.map (fun e => (e.2, e.1)) })] } })

/-! ## Blocks -/

/-- The block at position 0 of ring 1. -/
def blockIs (x : Blk) : State := tweak onTask (fun c => c.setBlk 0 1 0 x)
def blockAt : State := blockIs { addr := some 0 }
def blockLocked : State := blockIs { addr := some 0, thrLocked := true }
def blockReady : State := blockIs { addr := some 0, authReady := true, challenge := [1] }
def blockBurst : State := blockIs { addr := some 0, burst := 1 }
def blockSynced : State := blockIs { addr := some 0, sync := some (7, 0, 3) }
def blockBurstSynced : State := blockIs { addr := some 0, sync := some (7, 2, 3) }
def blockTested : State := blockIs { addr := some 0, openTest := some (3, 7) }
def blockShipped : State := blockIs { ship := true }
def blockBleeding : State := blockIs { addr := some 0, cmd := { map := 1, duty := 50 } }
def blockKept : State := blockIs { addr := some 0, kept := [1] }
def blockRepeat : State := blockIs { addr := some 0, lastUni := some 7, response := [1] }
def analog0 : Analog :=
  { cells := List.replicate 16 36000, temps := List.replicate 6 250, stack := 0, die := 0, current := 0, charge := 0 }

/-! ## Dispatch -/

def lonely : State := tweak (setF onTask [(TILE_STATUS_STATE, 3, 0), (DISP_CFG_AGE_LIMIT, 10, 1)]) (fun c =>
  { withRegs c 1 [(DISP_CFG_AGE_LIMIT, 10, 0)] with lone := [(1, { cycles := 100000 })] })
def dispOn : State := setF onTask [(DISP_CTRL_STARTED, 1, 0)]
def slotStale : State := tweak onTask (fun c => { c with slots := [(2, { missed := 100000 })] })
def resting0 : State := tweak onTask (fun c => { c with rests := [(0, [(34, 0)])] })
def perturbed : State := tweak (setF onTask [(DISP_PERT_FREQ, 1000, 1)]) (fun c =>
  { c.setPert 0 1 { begun := true } with bank := { c.bank with tick := 2000 } })
def followWorld : State := setF world [(DISP_CTRL_MODE, 0, 0)]
def pertOn0 : State := setF world [(DISP_PERT_ACTIVE, 1, 0)]
/-- Two strings of ring 1 in a container whose port is on its bus. -/
def pertReady : State := tweak (setF followWorld [(DISP_CONT_VALID, 1, 0), (DISP_CONT_RING_A, 1, 0), (CAN_CTRL_INIT, 0, 0),
    (CAN_STATUS_STATE, 2, 0), (CAN_CTRL_FD_EN, 1, 0), (DISP_STR_EN_STRING, 3, 1)])
  (fun c => [0, 1].foldl (fun (c : Ctl) s =>
    (c.put 0 RING_SMAP_ACT_VALID 1 1 s).put 0 DISP_STR_RATED_I_RATED 1000 1 s) { c with latch := [(32, List.replicate 0x28 1), (33, List.replicate 0x28 1)] })
/-- A schedule of one entry. -/
def schedule1 : List Byte :=
  let b : List Byte := beBytes 2 1 ++ [0, 0] ++ beBytes 4 0 ++ beBytes 4 100
  b ++ beBytes 4 (crc32c 0xFFFFFFFF b)
/-- The tail of a profile: a voltage window and a temperature window. -/
def profileTail : List Byte := [1, 0] ++ List.replicate 16 0 ++ [1, 0] ++ List.replicate 48 0
/-- A chemistry profile but its CRC: eight temperatures, tables of zeros and the tail. -/
def profileBody : List Byte :=
  (List.range 8).flatMap (fun k => leBytes 2 k) ++ (List.replicate 2000 0 ++ (profileTail))
/-- A chemistry profile. -/
def profile1 : List Byte := profileBody ++ leBytes 4 3076524327

theorem bulk_taken (b : List Byte) : (heard (session .engineer (withBulk b world))).takeBulk (asks .engineer [0, 0, 0, 0, 0]) 0 =
    (eOk, b, { heard (session .engineer (withBulk b world)) with
      net := { (heard (session .engineer (withBulk b world))).net with bulks := [] } }) := by
  have h : (b.zipIdx.map (fun e => (e.2, e.1))).map (fun e : Nat × Byte => e.2) = b := by
    rw [List.map_map]; exact List.zipIdx_map_fst 0 b
  have h2 : ¬ (b.zipIdx.map (fun e => (e.2, e.1))).length < b.length := by simp
  have e : tabFind (heard (session .engineer (withBulk b world))).net.bulks 0 =
    some { slot := 0, len := b.length, data := b.zipIdx.map (fun e => (e.2, e.1)) } := rfl
  unfold Ctl.takeBulk
  rw [e]
  simp only [h, h2]
  rfl

/-- A CMD with zero arguments is delivered whatever the handle holds. -/
theorem bulk_delivered (b : List Byte) :
    Delivered (session .engineer (withBulk b world)).ctl 0x2002 (cmd 0x2002 [0, 0, 0, 0, 0]) (asks .engineer [0, 0, 0, 0, 0])
      (heard (session .engineer (withBulk b world))) :=
  delivered rfl rfl rfl ⟨rfl, rfl⟩ rfl rfl ⟨rfl, rfl, rfl, by decide, by decide, show (0 : Nat) < 32 by decide⟩

theorem profile_zero {o : Nat} (h1 : 16 ≤ o) (h2 : o ≤ 2014) : leNat ((profile1.drop o).take 2) = 0 := by
  obtain ⟨k, rfl⟩ : ∃ k, o = 16 + k := ⟨o - 16, by omega⟩
  have hd : profile1.drop (16 + k) = List.replicate (2000 - k) 0 ++ (profileTail
      ++ leBytes 4 3076524327) := by
    rw [← List.drop_drop]
    show ((List.replicate 2000 0 ++ (profileTail)) ++ _).drop k = _
    rw [List.append_assoc, List.drop_append_of_le_length (by simp; omega), List.drop_replicate]
  obtain ⟨j, hj⟩ : ∃ j, 2000 - k = j + 2 := ⟨1998 - k, by omega⟩
  rw [hd, hj]; rfl

theorem profile_ok : profCode profile1 = eOk := by
  have hc : crc32c 0xFFFFFFFF (profile1.take 0x824) = leNat ((profile1.drop 0x824).take 4) := by decide +kernel
  have h7 : anyN 7 (fun k => decide (toSigned 16 (leNat ((profile1.drop (2 * (k + 1))).take 2)) ≤
    toSigned 16 (leNat ((profile1.drop (2 * k)).take 2)))) = false := by decide +kernel
  have h800 : anyN 800 (fun k => decide (leNat ((profile1.drop (0x010 + 2 * (k / 100 * 101 + k % 100 + 1))).take 2) <
    leNat ((profile1.drop (0x010 + 2 * (k / 100 * 101 + k % 100))).take 2))) = false := by
    simp only [anyN, List.any_eq_false, List.mem_range, decide_eq_true_eq]
    intro k hk
    rw [profile_zero (by omega) (by omega), profile_zero (by omega) (by omega)]
    simp
  have h1 : decide (leNat ((profile1.drop 0x7E0).take 2) ≤ leNat ((profile1.drop 0x7E2).take 2)) = false := by decide +kernel
  have h2 : decide (leNat ((profile1.drop 0x7F2).take 2) ≤ leNat ((profile1.drop 0x7F0).take 2)) = false := by decide +kernel
  unfold profCode
  simp only [h7, h800, h1, h2, hc, firstErr, bne_self_eq_false, Bool.or_self, if_neg Bool.false_ne_true]

/-! ## Loop, recorder, DMA -/

def onLshw : State := taskIs (fun k => { k with s := [(2, 0x100#32), (3, 100#32), (4, 0x40#32)] })
def onLoop (l : List (Field × Nat × Nat)) : State := setF onTask l
def loopOn : State := onLoop [(LOOP_CH_MODE, 1, 3)]
def loopMoving : State := tweak onTask (fun c => c.setChan 0 3 { c.chan 0 3 with moving := true })
def loopHeld : State := onLoop [(LOOP_CH_MODE, 4, 3), (LOOP_CH_FB_FAIL, 1, 3)]
def loopPending : State := onLoop [(LOOP_CH_MODE, 6, 3), (LOOP_CH_COMMIT_PENDING, 1, 3)]
def loopFrame : State := onLoop [(LOOP_OFRAME_EN, 1, 2), (LOOP_CH_MODE, 1, 3), (LOOP_ACTIVE 0x15, 0x8200, 3)]
def traceArmed : State := onLoop [(LOOP_TRACE_STATE, 1, 3)]
def traceFull : State := tweak (onLoop [(LOOP_TRACE_STATE, 2, 3)]) (fun c => c.setTrace 0 3 { n := 5000, trig := some 4 })
def rec0 : Presented := { code := 0x1001, severity := 3 }
def presented0 : State := tweak onTask (fun c => { (c.setTokens 0 (c.bucketOf 0 0x1001) 5000) with presented := [(0, [rec0])] })
def presentedPoor : State := tweak onTask (fun c => { (c.setTokens 0 (c.bucketOf 0 0x1001) 0) with presented := [(0, [rec0])] })
def rec5 : Presented := { code := 0x1001, severity := 5 }
def presentedGrave : State := tweak onTask (fun c => { (c.setTokens 0 (c.bucketOf 0 0x1001) 0) with presented := [(0, [rec5])] })
def emitFull : State := tweak onTask (fun c => { c with presented := [(0, List.replicate 16 { rec0 with source := 0x40 })] })
def tailed : State := tweak onTask (fun c => { c with tailQueue := [(0, [(5, [])])] })
def job0 : Job := { num := 1, src := 0, dst := 0x1000, len := 16, rows := 0, sstr := 0, dstr := 0, flags := 0, task := 5, system := true }
def dmaIn (st : Nat) (x : Dma) (s : State := onTask) : State :=
  tweak (setF s [(DMA_CH_EN, 1, 3), (DMA_CH_STATE, st, 3), (DMA_CH_PRIO, 1, 3)]) (fun c => c.setChn 0 3 x)
def dmaRunning : State := dmaIn dmRun { queue := [job0], under := true }
def dmaHalted : State := setF (dmaIn dmHalted { queue := [job0], under := true }) [(DMA_CH_EN, 1, 0), (DMA_CH_STATE, dmHalted, 0)]
def onDqueue : State := taskIs (fun k => { k with s := [(2, 0x20#32), (3, 3#32)] })
  (withLocal 0x20 (leBytes 8 0 ++ leBytes 8 0x1000 ++ leBytes 4 16 ++ List.replicate 12 0) (dmaIn dmIdle {}))
def onDwait : State := taskIs (fun k => { k with s := [(2, 3#32), (3, 1#32)] }) dmaRunning
def dmaOff : State := setF onTask [(DMA_CH_EN, 0, 3), (DMA_CH_PRIO, 1, 3)]

/-! ## Safety -/

def discOpened : State := tweak (setF onTask [(BERYL_INPUT_DISC_FAULT, 4, 0)]) (fun c => c.setBry 0 { opened := [2] })
def inputSplit : State := setF onTask [(BERYL_PA_IN_EN, 1, 2), (BERYL_INPUT_CH_A, 4, 0)]
def outIs (x : Bry) (s : State := onTask) : State := tweak s (fun c => c.setBry 0 x)
def outDue : State := outIs { hsDue := [2] }
def outChecked : State := outIs { rbDue := [2] }
def outTested : State := setF onTask [(BERYL_PA_OUT_TEST_EN, 1, 2), (BERYL_OUT_ON, 1, 2)]
def outPulsed : State := outIs { pulse := [(2, true)] }
def selfTest : State := setF onTask [(BERYL_STATUS_STATE, bySelftest, 0)]
/-- A connection of a kind on a medium, CONN_ID 5. -/
def connIs (n kind medium : Nat) (s : State := world) : State := setF s [(BERYL_PA_CONN_EN, 1, n), (BERYL_PA_CONN_KIND, kind, n),
  (BERYL_PA_CONN_MEDIUM, medium, n), (BERYL_PA_CONN_DATA_LEN, 1, n), (BERYL_PA_CONN_CID32, 0x10005, n),
  (BERYL_PA_CONN_WD_MS, 100, n), (BERYL_PA_CONN_SEQ_WIN, 4, n), (BERYL_PA_CONN_PORT, 2, n), (BERYL_PA_CONN_CAN_ID, 5, n),
  (BERYL_STATUS_STATE, byRun, 0)]
/-- A PDU of that connection with one data byte. -/
def pdu0 : List Byte := let b : List Byte := [0, 5, 0, 1, 0, 100, 0xFF]; b ++ beBytes 4 (crc32c 0x10005 b)
def pduArrived : State := tweak (connIs 2 0 1) (fun c => c.setConn 0 2 { slot := some pdu0 })
def pduBad : State := tweak (connIs 2 0 1) (fun c => c.setConn 0 2 { slot := some [] })
def connWatched : State := tweak (connIs 2 0 1) (fun c => c.setConn 0 2 { wd := true })
def paramOpen : State := tweak (setF world [(BERYL_SESSION_OPEN, 1, 0)]) (fun c => c.setBry 0 { owner := some 1 })

/-! ## CAN and time -/

def canIs (st init : Nat) (l : List (Field × Nat × Nat) := []) : State :=
  setF onTask ([(CAN_CTRL_INIT, init, 2), (CAN_STATUS_STATE, st, 2)] ++ l)
def canOn : State := canIs cnActive 0 [(CAN_CTRL_FD_EN, 1, 2)]
def canTimed : State := canIs cnInit 1 [(CAN_NBT_NBRP, 1, 2), (CAN_NBT_NTSEG1, 63, 2), (CAN_NBT_NTSEG2, 16, 2),
  (CAN_NBT_NSJW, 16, 2), (CAN_DBT_DBRP, 1, 2), (CAN_DBT_DTSEG1, 29, 2), (CAN_DBT_DTSEG2, 10, 2), (CAN_DBT_DSJW, 10, 2)]
def canBusOff : State := canIs cnOff 0
def canJoining : State := canIs cnInit 0
def canRecovering : State := canIs cnRecovering 0
def canDetecting : State := canIs cnDetect 1
def canFound : State := canIs cnInit 1 [(CAN_RATE_VALID, 1, 2), (CAN_RATE_NOMINAL, 2, 2)]
def canFoundFd : State := setF canFound [(CAN_RATE_DATA, 2, 2)]
def frame0 : CanFrame :=
  { ext := false, fdf := false, brs := false, esi := false, rtr := false, id := 5, dlc := 1, data := [7] }
def frameFd : CanFrame := { frame0 with fdf := true, res := true }
def tryOf (b : Nat) : CanTry := { buf := b, frame := frame0 }
def canTrying : State := tweak canOn (fun c => { c with canTry := [(canKey 0 2, tryOf 1)] })
def canSyncing : State := tweak (setF canOn [(TIME_CAN_CFG_EN, 1, 2)]) (fun c => { c with canTry := [(canKey 0 2, tryOf 15)] })
def canConsuming : State := connIs 3 0 0 canOn
def canSynced : State := setF canOn [(TIME_CAN_CFG_EN, 1, 2), (TIME_STATE_STATE, 2, 0)]
def canFollow : State := tweak (setF canSynced [(TIME_CAN_CFG_SEQ, 0, 2)]) (fun c => { c with syncRef := [(canKey 0 2, 0)] })
def producing : State := connIs 3 1 0 canOn
def producingEth : State := connIs 3 1 1 canOn
def ptpOn : State := setF onTask [(TIME_PTP_CFG_EN, 1, 0), (TIME_PTP_CFG_DOMAIN, 0, 0)]
def ptpChosen : State := tweak (setF ptpOn [(TIME_STATE_PATH, 0, 0)]) (fun c => { c with ptp := { c.ptp with chosen := true } })
def timeIn (st : Nat) : State := setF onTask [(TIME_STATE_STATE, st, 0)]
def strobed : State := tweak onTask (fun c => c.put 1 TILE_STATUS_STATE tsRun)
def strobeless : State := setF onTask [(TIME_STATE_STROBE_LOST, 1, 0)]
/-- The CRC of the pending area of parameters as `paramOpen` holds it. -/
def paramCrc : List Byte := beBytes 4 (crc32c 0xFFFFFFFF (paramOpen.ctl.rawBytes 0x0A 0 0x400 96))

/-! ## Network, power, images, side band -/

def netIs (f : Net → Net) (s : State := onTask) : State := tweak s (fun c => { c with net := f c.net })
def fast (p : Nat) (s : State) : State := netIs (fun n => { n with tenGig := [(p, true)] }) s
def sfpIn : State := fast 0 (setF onTask [(NET_P_SUPPORTED, 1, 0), (NET_P_LINK, 0, 0), (NET_PATH_ACTIVE, 3, 0)])
def sfpBack : State := fast 0 (setF onTask [(NET_P_SUPPORTED, 1, 0), (NET_P_LINK, 0, 0), (NET_PATH_ACTIVE, 1, 0)])
def sfpSecond : State := fast 1 (setF onTask [(NET_P_SUPPORTED, 1, 1), (NET_P_LINK, 0, 1), (NET_PATH_ACTIVE, 0, 0)])
def supervisedIn (s : State) : State := netIs (fun n => { n with supervisor := some 0 }) s
def sfpSupervised : State := supervisedIn (fast 1 (setF onTask [(NET_P_SUPPORTED, 1, 1), (NET_P_LINK, 0, 1)]))
def supervised : State := supervisedIn world
def resyncing : State := setF onTask [(NET_PATH_STATE_A, paResync, 0)]
def compatible : State := setF supervised [(NET_CFG_COMPAT, 1, 0), (NET_PATH_STATE_A, paStandby, 0)]
def sub0 : Sub := { slot := 0, kind := .event 1 0 0, records := [(0, [])] }
def subDue : Sub := { slot := 0, kind := .telem 0 1 1 [], due := true }
def subscribed : State := netIs (fun n => { n with subs := [(0, sub0)] }) world
def telemDue : State := netIs (fun n => { n with subs := [(0, subDue)] }) world
def linked0 : State := linkUp0 onTask
def downReady : State := setF world [(DISP_CTRL_MODE, dmRampdown, 0), (DISP_SP_FORCE_KW, 0, 0)]
def powIs (f : Pow → Pow) (s : State := onTask) : State := tweak s (fun c => { c with pw := f c.pw })
def leaving (l : Leaving) : State := powIs (fun p => { p with leaving := l })
def leavingOpen (l : Leaving) : State := powIs (fun p => { p with leaving := l, mrstLow := false, held := false })
def leavingHeld (l : Leaving) : State := powIs (fun p => { p with leaving := l, held := true })
def inMode (m : PowerMode) : State := powIs (fun p => { p with mode := m })
def asleep : State := powIs (fun p => { p with mode := .standby, wakeAt := some 100 })
def armedWake : State := powIs (fun p => { p with mode := .chrysalis, armed := true })
def heldTile : State := setF onTask [(MOD_TILE_CTRL_HOLD, 1, 0)]
def unpowered0 : State := powIs (fun p => { p with mode := .off, vin := false, charged := false })
def applied0 : State := powIs (fun p => { p with mode := .off, charged := false })
def charged0 : State := powIs (fun p => { p with mode := .off })
def mrstDown (m : PowerMode) : State := powIs (fun p => { p with mode := m, mrstLow := true })
def warned0 : State := powIs (fun p => { p with warned := true })
def avsAtLimit : State := setF onTask [(PWR_STATUS_AVS_LIMIT, 1, 0)]
def booting : State := State.reset
def allReady : State := estIs { passed := true }
def jobReady : State := setF onTask [(TWB_RESULT_BUSY, 1, 0), (TWB_STATUS_BUS_BUSY, 0, 0)]
def jobSending : State := tweak onTask (fun c => { c with twb := { c.twb with sending := true } })
def imgIs (f : Img → Img) (s : State := onTask) : State := tweak s (fun c => { c with img := f c.img })
def downloaded : State := imgIs (fun i => { i with stage := .download, len := 1024, granules := [0] }) world
def verifying : State := imgIs (fun i => { i with stage := .verify })
def activatable : State := imgIs (fun i => { i with stage := .verified }) world
def confirmable : State := imgIs (fun i => { i with stage := .trial })
  (tweak world (fun c => (List.range 8).foldl (fun (c : Ctl) t => c.put t IMG_STATUS_SELF_OK 1) c))
def activating0 : State := imgIs (fun i => { i with stage := .activating, commits := true })
def paused0 : State := imgIs (fun i => { i with paused := true })
def rollBoot (b : BootRecord) : BootRecord := { b with stateB := .trial, pending := true, rolling := true }
def rolling0 : State := imgIs (fun i => { i with stage := .activating, boot := rollBoot i.boot, onB := [1, 2, 3, 4, 5, 6, 7] })
def rolledOut : State := setF (imgIs (fun i => { i with stage := .activating, boot := rollBoot i.boot, rollTile := some 1 })) []
  |> fun s => tweak s (fun c => c.put 1 CARRY_STATUS_STATE csCarried)
def trial0 : State := imgIs (fun i => { i with stage := .trial })
def carriedTile : State := tweak onTask (fun c => withRegs c 1 [(TILE_STATUS_STATE, tsCarried, 0), (CASDA_CORE_LEVEL_SYSTEM, 1, 0)])
def twoTiles : State := stateOf { unit := { variant := .skv7282 } }
def withCommand (i : Instr) : State := { State.reset with pending := [i] }
def epochTwo : State := { State.reset with mem := memStore [] (bankAddr 0 true + 0x18) [2] }
/-- A READ or WRITE payload. -/
def access0 (a n : Nat) (data : List Byte) : List Byte := beBytes 5 a ++ [0] ++ beBytes 2 n ++ data

/-- Bytes that differ from the MAC of a datagram. -/
def wrongMac (d : Datagram) : Datagram := { d with mac := d.mac.map (fun b => b + 1) }

theorem map_succ_ne {l : List Byte} (h : l.length = 16) : l.map (fun b => b + 1) ≠ l := by
  match l, h with
  | x :: r, _ =>
    intro e
    have h1 : x + 1 = x := (List.cons.inj e).1
    bv_omega

/-- The format check rests on the payload alone where the MAC has 16 bytes. -/
theorem format_ok {c : Ctl} {d : Datagram} (hl : d.mac.length = 16)
    (h : (d.payload.length == d.len.toNat && decide (d.len.toNat ≤ 1400) && d.magic == 0x7A5C
      && (d.version == 2 || (d.version == 1 && c.flag 0 NET_CFG_COMPAT))) = true) : c.formatOk d = true := by
  simp only [Ctl.formatOk, hl, Bool.and_eq_true] at h ⊢
  exact ⟨⟨⟨h.1.1, rfl⟩, h.1.2⟩, h.2⟩

/-- Arguments of `net.key`: role 0, a wrapped key of zeros, its check bytes. -/
def keyCheck : List Byte := (Config.hmacSha256 (xorBytes (List.replicate 32 0)
  (Config.hmacSha256 [] ([0x53, 0x4B, 0x56, 0x4B] ++ beBytes 4 1))) [0x53, 0x4B, 0x56, 0x43]).take 4
def keyArgs : List Byte := [0, 0, 0, 0, 0, 0] ++ List.replicate 32 0 ++ keyCheck
theorem keyCheck_length : keyCheck.length = 4 := by simp [keyCheck, Config.hmacSha256]
theorem keyPayload_length : (beBytes 2 0x7007 ++ keyArgs).length = 44 := by
  simp only [keyArgs, List.length_append, keyCheck_length, List.length_replicate]; rfl
theorem key_format : ((cmd 0x7007 keyArgs).payload.length == (cmd 0x7007 keyArgs).len.toNat
    && decide ((cmd 0x7007 keyArgs).len.toNat ≤ 1400) && (cmd 0x7007 keyArgs).magic == 0x7A5C
    && ((cmd 0x7007 keyArgs).version == 2 || ((cmd 0x7007 keyArgs).version == 1
      && (session .engineer world).ctl.flag 0 NET_CFG_COMPAT))) = true := by
  show ((beBytes 2 0x7007 ++ keyArgs).length == (BitVec.ofNat 16 (beBytes 2 0x7007 ++ keyArgs).length).toNat
    && decide ((BitVec.ofNat 16 (beBytes 2 0x7007 ++ keyArgs).length).toNat ≤ 1400) && _ && _) = true
  rw [keyPayload_length]
  rfl
theorem key_head : (cmd 0x7007 keyArgs).asType = none ∧ (cmd 0x7007 keyArgs).status = 0 ∧ (cmd 0x7007 keyArgs).tile = 0xFF ∧ 4 ≤ (cmd 0x7007 keyArgs).payload.length
    ∧ beNat ((cmd 0x7007 keyArgs).payload.take 2) = 0x7007
    ∧ ((heard (session .engineer world)).session (asks .engineer keyArgs).slot).waiting.length < 32 :=
  ⟨rfl, rfl, rfl, by show 4 ≤ (beBytes 2 0x7007 ++ keyArgs).length; rw [keyPayload_length]; decide, rfl, by decide⟩
theorem key_proof : let q := asks .engineer keyArgs
    let key := xorBytes (q.bytes 4 32) (Config.hmacSha256 ((heard (session .engineer world)).session q.slot).key
      ([0x53, 0x4B, 0x56, 0x4B] ++ beBytes 4 q.seq))
    mayKey q.role (q.arg 0 1) = true ∧ q.args.length = 40 ∧ q.arg 0 1 ≤ 3
      ∧ (Config.hmacSha256 key [0x53, 0x4B, 0x56, 0x43]).take 4 = q.bytes 36 4 := by
  refine ⟨by decide, ?_, by decide, ?_⟩
  · show (keyArgs.drop 2).length = 40
    have h := keyPayload_length
    have h2 : (beBytes 2 0x7007).length = 2 := rfl
    rw [List.length_append] at h
    rw [List.length_drop]; omega
  · have h : keyCheck.take 4 = keyCheck := List.take_of_length_le (Nat.le_of_eq keyCheck_length)
    show keyCheck = (((keyArgs.drop 2).drop 36).take 4)
    exact h.symm

/-! ## Ill-formed commands are refused -/

/-- A datagram of some payload length. -/
def sized (n : Nat) : Datagram :=
  { path := 0, src := hostAt, dst := 0, magic := 0, version := 2, seq := 0, session := 0, len := 0, tile := 0, status := 0
    payload := List.replicate n 0, mac := [] }
theorem test_wf_datagram : Datagram.wf (sized 100) = true := by decide
theorem test_ill_datagram : (Instr.modeRun (sized 66000)).wf = false := by
  simp only [Instr.wf, Datagram.wf, sized, List.length_replicate, List.length_nil]; rfl
theorem test_ill_ring_frame : (Instr.ping 0 0 0 (wire 5 0x0B (List.replicate 49 0))).wf = false := by decide
theorem test_ill_job_read : (Instr.twbJobEnd (.ok (List.replicate 65 0))).wf = false := by decide
theorem test_ill_job_count : (Instr.twbJobEnd (.noData 65)).wf = false := by decide
theorem test_ill_analog : (Instr.blockConversion 0 0 0 { analog0 with temps := [] }).wf = false := by decide
theorem test_ill_can_id : CanFrame.wf { frame0 with id := 0x800 } = false := by decide
theorem test_ill_can_remote : CanFrame.wf { frame0 with fdf := true, rtr := true, dlc := 0, data := [] } = false := by decide
theorem test_ill_can_rate : CanFrame.wf { frame0 with brs := true } = false := by decide
theorem test_ill_can_length : (Instr.canFrameReceive 0 2 { frame0 with data := [] }).wf = false := by decide
theorem test_wf_can : (Instr.canFrameReceive 0 2 frame0).wf = true := by decide

/-! ## Worked examples of the spec -/

/-- 02_address_map.md: tile 3's LOOP block and the MOD block; cell 3.17.205.9. -/
theorem test_addresses : loopAddr 3 0 = 0x3200090000 ∧ modAddr 0 0x200130000 = 0x0200130000 ∧ cellId 3 17 205 9 = 0x0E2CD9 := by
  decide
/-- 03_casda_core.md: lw s8, 0x48(s5). -/
theorem test_word_lw : wordI 0x14 8 5 0x48 = 0x51050048 := by decide
/-- 04_casda_vector_device.md: vsts.u16 v1, (s8, s9), p3; vclaim s2, s1; vrmax v2, v1, p3. -/
theorem test_word_vector : wordV 1 8 9 3 0x4C = 0xF862584C ∧ wordD 2 1 0 4 = 0xFC410004 ∧ wordV 2 1 0 3 0x39 = 0xF8841839 := by
  decide
/-- 15_can_fd.md: the reset timing of a port. -/
theorem test_can_timing : (State.reset.ctl.regRead [] (.host .engineer 1) 0 0x0C 0x4).1 = 0x203F2001
    ∧ (State.reset.ctl.regRead [] (.host .engineer 1) 0 0x0C 0x8).1 = 0x8F572801 := by decide
/-- 08_balancing.md: the example of compensation, cells 3 to 6 of a block. -/
theorem test_compensated :
    let w : List Nat := [0, 0, 0, 0, 1200, 1500, 1000]
    let v : List Nat := [0, 0, 0, 33110, 33050, 33080, 33100]
    [3, 4, 5, 6].map (fun n => compensated w v 0x30 136 n) = [33081, 33079, 33104, 33076] := by decide
/-- 17_dma.md: the tile field 0xF of a descriptor names the issuing tile. -/
theorem test_own_tile : ownTile 3 0xF002200000 = 0x3002200000 := by decide

/-! ## Witnesses of the hypotheses -/

theorem witness_ScalarInstructionsComplete_a :
    (∃ (s : State) (t : TileId) (k : CoreId) (d a b : Fin 32) (func : Fin 2048) (i : Nat) (y : Word), Executes s.ctl t k i ∧
      aluFn func ((s.ctl.task t i).reg a) ((s.ctl.task t i).reg b) b = some y ∧ ((aluUnary func = true → b.val = 0))) ∧
    (∃ (s : State) (t : TileId) (k : CoreId) (op : ImmOp) (d a : Fin 32) (imm : BitVec 16) (i : Nat), Executes s.ctl t k i ∧
      ((op = .lui → a.val = 0))) ∧
    (∃ (s : State) (t : TileId) (k : CoreId) (op : BranchOp) (a b : Fin 32) (disp : BitVec 16) (i : Nat),
      Executes s.ctl t k i) ∧
    (∃ (s : State) (t : TileId) (k : CoreId) (disp : BitVec 26) (i : Nat), Executes s.ctl t k i) ∧
    (∃ (s : State) (t : TileId) (k : CoreId) (disp : BitVec 26) (i : Nat), Executes s.ctl t k i) ∧
    (∃ (s : State) (t : TileId) (k : CoreId) (d a : Fin 32) (imm : BitVec 16) (i : Nat), Executes s.ctl t k i) ∧
    (∃ (s : State) (t : TileId) (k : CoreId) (w : Word) (i : Nat), Executes s.ctl t k i ∧ w = 0xC0000000#32) ∧
    (∃ (s : State) (t : TileId) (k : CoreId) (d a b : Fin 32) (i : Nat), Executes s.ctl t k i ∧ a.val = 0 ∧ b.val ≠ 8 ∧
      ¬ (9 ≤ b.val ∧ b.val ≤ 12 ∧ s.ctl.level t k = 0)) ∧
    (∃ (s : State) (t : TileId) (k : CoreId) (d a b : Fin 32) (i : Nat), Executes s.ctl t k i ∧ a.val = 0 ∧ b.val = 8) :=
  ⟨⟨onTask, 0, 0, 3, 1, 2, 0, 5, 12, by decide⟩,
   ⟨onTask, 0, 0, .addi, 3, 1, 5, 5, by decide⟩,
   ⟨onTask, 0, 0, .beq, 3, 1, 5, 5, by decide⟩,
   ⟨onTask, 0, 0, 3, 5, by decide⟩,
   ⟨onTask, 0, 0, 3, 5, by decide⟩,
   ⟨onTask, 0, 0, 3, 1, 8, 5, by decide⟩,
   ⟨onTask, 0, 0, 0xC0000000#32, 5, by decide⟩,
   ⟨onTask, 0, 0, 3, 0, 2, 5, by decide⟩,
   ⟨onTask, 0, 0, 3, 0, 8, 5, by decide⟩⟩

theorem witness_ScalarInstructionsComplete_b :
    (∃ (s : State) (t : TileId) (k : CoreId) (d a b : Fin 32) (i : Nat), Executes s.ctl t k i ∧ a.val = 0 ∧ 9 ≤ b.val ∧
      b.val ≤ 12 ∧ s.ctl.level t k = 0) ∧
    (∃ (s : State) (t : TileId) (k : CoreId) (d a b : Fin 32) (i : Nat), Executes s.ctl t k i ∧ d.val = 0 ∧ b.val = 1) ∧
    (∃ (s : State) (t : TileId) (k : CoreId) (d a b : Fin 32) (i : Nat), Executes s.ctl t k i ∧ d.val = 0 ∧ b.val ≠ 1 ∧
      ¬ (9 ≤ b.val ∧ b.val ≤ 12 ∧ s.ctl.level t k = 0)) ∧
    (∃ (s : State) (t : TileId) (k : CoreId) (d a b : Fin 32) (i : Nat), Executes s.ctl t k i ∧ d.val = 0 ∧ 9 ≤ b.val ∧
      b.val ≤ 12 ∧ s.ctl.level t k = 0) :=
  ⟨⟨appTask, 0, 1, 3, 0, 9, 69, by decide⟩,
   ⟨onTask, 0, 0, 0, 3, 1, 5, by decide⟩,
   ⟨onTask, 0, 0, 0, 3, 2, 5, by decide⟩,
   ⟨appTask, 0, 1, 0, 3, 9, 69, by decide⟩⟩

theorem witness_TaskInstructionsComplete_a :
    (∃ (s : State) (t : TileId) (k : CoreId) (d a b : Fin 32) (i : Nat), Executes s.ctl t k i ∧ d.val = 0 ∧ a.val = 0 ∧
      b.val = 0) ∧
    (∃ (s : State) (t : TileId) (k : CoreId) (d a b : Fin 32),
    let j := ((s.ctl.task t 0).reg a).toNat % 256
    Executes s.ctl t k 0 ∧ s.ctl.tstate t j = kTrapped) ∧
    (∃ (s : State) (t : TileId) (k : CoreId) (d a b : Fin 32), Executes s.ctl t k 0 ∧
      s.ctl.tstate t (((s.ctl.task t 0).reg a).toNat % 256) ≠ kTrapped) ∧
    (∃ (s : State) (t : TileId) (k : CoreId) (d a b : Fin 32) (i : Nat),
    let j := ((s.ctl.task t i).reg a).toNat % 256
    Executes s.ctl t k i ∧ b.val = 0) ∧
    (∃ (s : State) (t : TileId) (k : CoreId) (d a : Fin 32) (i : Nat), Executes s.ctl t k i ∧ d.val = 0 ∧ a.val = 0) ∧
    (∃ (s : State) (t : TileId) (k : CoreId) (d a : Fin 32) (i : Nat), Executes s.ctl t k i ∧ d.val = 0) ∧
    (∃ (s : State) (t : TileId) (k : CoreId) (d a : Fin 32) (i : Nat), Executes s.ctl t k i ∧ d.val = 0 ∧ a.val = 0) ∧
    (∃ (s : State) (t : TileId) (i : TaskId), t.val < s.ctl.tiles ∧ (s.ctl.task t i).wait = .fence ∧
      (s.ctl.task t i).stopReq = false) ∧
    (∃ (s : State) (t : TileId) (i : TaskId), t.val < s.ctl.tiles ∧ (s.ctl.task t i).wait = .fence ∧
      (s.ctl.task t i).stopReq = true) :=
  ⟨⟨onTask, 0, 0, 0, 0, 0, 5, by decide⟩,
   ⟨trapTask, 0, 0, 3, 1, 2, by decide⟩,
   ⟨trapTask, 0, 0, 3, 2, 1, by decide⟩,
   ⟨onTask, 0, 0, 3, 1, 0, 5, by decide⟩,
   ⟨onTask, 0, 0, 0, 0, 5, by decide⟩,
   ⟨onTask, 0, 0, 0, 1, 5, by decide⟩,
   ⟨onTask, 0, 0, 0, 0, 5, by decide⟩,
   ⟨fenced, 0, 5, by decide⟩,
   ⟨fencedStop, 0, 5, by decide⟩⟩

theorem witness_TaskInstructionsComplete_b :
    (∃ (s : State) (t : TileId) (k : CoreId) (d a : Fin 32) (i : Nat), Executes s.ctl t k i ∧ s.ctl.get t TASK_CFG_PRIO i = 0 ∧
      0 < ((s.ctl.task t i).reg a).toNat % 4) ∧
    (∃ (s : State) (t : TileId) (k : CoreId) (d a : Fin 32) (i : Nat),
    let cls := ((s.ctl.task t i).reg a).toNat % 4
    Executes s.ctl t k i ∧ ¬ (s.ctl.get t TASK_CFG_PRIO i = 0 ∧ 0 < cls) ∧ classCost cls ≤ (s.ctl.task t i).paid) ∧
    (∃ (s : State) (t : TileId) (k : CoreId) (d a : Fin 32) (i : Nat),
    let cls := ((s.ctl.task t i).reg a).toNat % 4
    Executes s.ctl t k i ∧ ¬ (s.ctl.get t TASK_CFG_PRIO i = 0 ∧ 0 < cls) ∧ (s.ctl.task t i).paid < classCost cls ∧
      s.ctl.grants t (s.ctl.get t TASK_CFG_PRIO i) (classCost cls - (s.ctl.task t i).paid) = true) ∧
    (∃ (s : State) (t : TileId) (k : CoreId) (d a : Fin 32) (i : Nat),
    let cls := ((s.ctl.task t i).reg a).toNat % 4
    Executes s.ctl t k i ∧ ¬ (s.ctl.get t TASK_CFG_PRIO i = 0 ∧ 0 < cls) ∧ (s.ctl.task t i).paid < classCost cls ∧
      s.ctl.grants t (s.ctl.get t TASK_CFG_PRIO i) (classCost cls - (s.ctl.task t i).paid) = false) ∧
    (∃ (s : State) (t : TileId) (k : CoreId) (d a : Fin 32) (i : Nat), Executes s.ctl t k i ∧
      (s.ctl.vecOf t).holder = some i) ∧
    (∃ (s : State) (t : TileId) (k : CoreId) (d a : Fin 32) (i : Nat), Executes s.ctl t k i ∧ (s.ctl.vecOf t).holder = none ∧
      (s.ctl.vecOf t).waiters = []) ∧
    (∃ (s : State) (t : TileId) (k : CoreId) (d a : Fin 32) (i : Nat), Executes s.ctl t k i ∧ (s.ctl.vecOf t).holder ≠ some i ∧
      ¬ ((s.ctl.vecOf t).holder = none ∧ (s.ctl.vecOf t).waiters = []) ∧ ((s.ctl.task t i).reg a).toNat % 2 = 0) ∧
    (∃ (s : State) (t : TileId) (k : CoreId) (d a : Fin 32) (i : Nat), Executes s.ctl t k i ∧ (s.ctl.vecOf t).holder ≠ some i ∧
      ¬ ((s.ctl.vecOf t).holder = none ∧ (s.ctl.vecOf t).waiters = []) ∧ ((s.ctl.task t i).reg a).toNat % 2 = 1) ∧
    (∃ (s : State) (t : TileId) (k : CoreId) (d a : Fin 32) (i : Nat), Executes s.ctl t k i ∧ a.val = 0 ∧
      (s.ctl.vecOf t).holder = some i) :=
  ⟨⟨onTask, 0, 0, 3, 1, 5, by decide⟩,
   ⟨paidTask, 0, 0, 3, 0, 5, by decide⟩,
   ⟨onTask, 0, 0, 3, 0, 5, by decide⟩,
   ⟨poorTask, 0, 0, 3, 2, 5, by decide⟩,
   ⟨onVector, 0, 0, 3, 0, 5, by decide⟩,
   ⟨onTask, 0, 0, 3, 0, 5, by decide⟩,
   ⟨vecTaken, 0, 0, 3, 0, 5, by decide⟩,
   ⟨vecTaken, 0, 0, 3, 1, 5, by decide⟩,
   ⟨onVector, 0, 0, 3, 0, 5, by decide⟩⟩

theorem witness_TaskInstructionsComplete_c :
    (∃ (s : State) (t : TileId) (k : CoreId) (d a : Fin 32) (i : Nat), Executes s.ctl t k i ∧ a.val = 0 ∧
      (s.ctl.vecOf t).holder ≠ some i) ∧
    (∃ (s : State) (t : TileId) (k : CoreId) (d a : Fin 32) (i : Nat),
    let v := s.ctl.vecOf t
    let keep := 31 - ((s.ctl.task t i).reg a).toNat % 32
    let kept : List VecUndo := v.queue.map (fun q => { q with flags := q.flags &&& keep })
    let v1 : VecArray := { v with flags := v.flags &&& keep, queue := kept }
    Executes s.ctl t k i) :=
  ⟨⟨onTask, 0, 0, 3, 0, 5, by decide⟩,
   ⟨onTask, 0, 0, 3, 0, 5, by decide⟩⟩

theorem witness_TimeAndFrameOperationsComplete_a :
    (∃ (s : State) (t : TileId) (k : CoreId) (d a : Fin 32) (i : Nat),
    let x := s.ctl.taskTime t i
    Executes s.ctl t k i ∧ a.val = 0) ∧
    (∃ (s : State) (t : TileId) (k : CoreId) (d a : Fin 32) (i : Nat),
    let x := s.ctl.taskTime t i
    Executes s.ctl t k i ∧ a.val = 0 ∧ d.val % 2 = 0) ∧
    (∃ (s : State) (t : TileId) (k : CoreId) (d a : Fin 32) (i : Nat),
    let x := s.ctl.taskTime t i
    Executes s.ctl t k i ∧ a.val = 0 ∧ d.val % 2 = 0) ∧
    (∃ (s : State) (t : TileId) (k : CoreId) (d a : Fin 32) (i : Nat),
    let x := s.ctl.taskTime t i
    Executes s.ctl t k i ∧ a.val = 0 ∧ d.val % 2 = 0) ∧
    (∃ (c : Ctl) (t i : Nat), (c.task t i).first = none) ∧
    (∃ (c : Ctl) (t i : Nat) (x : TimeSnap), (c.task t i).first = some x ∧ (c.task t i).pc = c.get t TASK_ENTRY_ENTRY i * 4) ∧
    (∃ (c : Ctl) (t i : Nat), (c.task t i).entered = false ∧ (c.task t i).late = false) ∧
    (∃ (s : State) (t : TileId) (k : CoreId) (d a : Fin 32) (i : Nat), Executes s.ctl t k i ∧ a.val = 0) ∧
    (∃ (s : State) (t : TileId) (k : CoreId) (d a : Fin 32) (i : Nat), Executes s.ctl t k i ∧
      0 ≤ frameDiff (s.ctl.get t SMP_LAST_COMPLETE_FRAME) ((s.ctl.task t i).reg a).toNat) :=
  ⟨⟨onTask, 0, 0, 3, 0, 5, by decide⟩,
   ⟨lockedTask, 0, 0, 4, 0, 5, by decide⟩,
   ⟨onTask, 0, 0, 4, 0, 5, by decide⟩,
   ⟨onTask, 0, 0, 4, 0, 5, by decide⟩,
   ⟨onTask.ctl, 0, 5, by decide⟩,
   ⟨entering.ctl, 0, 5, {}, by decide⟩,
   ⟨onTask.ctl, 0, 6, by decide⟩,
   ⟨onTask, 0, 0, 3, 0, 5, by decide⟩,
   ⟨onTask, 0, 0, 3, 0, 5, by decide⟩⟩

theorem witness_TimeAndFrameOperationsComplete_b :
    (∃ (s : State) (t : TileId) (k : CoreId) (d a : Fin 32) (i : Nat), Executes s.ctl t k i ∧
      frameDiff (s.ctl.get t SMP_LAST_COMPLETE_FRAME) ((s.ctl.task t i).reg a).toNat < 0) ∧
    (∃ (s : State) (t : TileId) (k : CoreId) (d a : Fin 32) (i : Nat), Executes s.ctl t k i ∧
      0 ≤ frameDiff (s.ctl.get t SMP_FRAME_NUM_FRAME) ((s.ctl.task t i).reg a).toNat) ∧
    (∃ (s : State) (t : TileId) (k : CoreId) (d a : Fin 32) (i : Nat), Executes s.ctl t k i ∧
      frameDiff (s.ctl.get t SMP_FRAME_NUM_FRAME) ((s.ctl.task t i).reg a).toNat < 0) :=
  ⟨⟨onTask, 0, 0, 3, 1, 5, by decide⟩,
   ⟨onTask, 0, 0, 3, 0, 5, by decide⟩,
   ⟨onTask, 0, 0, 3, 1, 5, by decide⟩⟩

theorem witness_MemoryInstructionsComplete :
    (∃ (s : State) (t : TileId) (k : CoreId) (op : LoadOp) (d a : Fin 32) (imm : BitVec 16) (ecc : Bool) (i : Nat),
    let p := s.ctl.dataAddr t i ((s.ctl.task t i).reg a + imm.signExtend 32)
    let y := casdaLoad (s.ctl.landed s.mem t) (s.ctl.memOrder t i) t i p (loadCode op).2
    Executes s.ctl t k i ∧ op ≠ .ldp ∧ (ecc && s.ctl.eccHits t i p (loadCode op).2) = false) ∧
    (∃ (s : State) (t : TileId) (k : CoreId) (op : LoadOp) (d a : Fin 32) (imm : BitVec 16) (ecc : Bool) (i : Nat),
    let p := s.ctl.dataAddr t i ((s.ctl.task t i).reg a + imm.signExtend 32)
    let y := casdaLoad (s.ctl.landed s.mem t) (s.ctl.memOrder t i) t i p 8
    Executes s.ctl t k i ∧ op = .ldp ∧ d.val % 2 = 0 ∧ (ecc && s.ctl.eccHits t i p 8) = false) ∧
    (∃ (s : State) (t : TileId) (k : CoreId) (op : LoadOp) (d a : Fin 32) (imm : BitVec 16) (ecc : Bool) (i : Nat),
    let x := (s.ctl.task t i).reg a + imm.signExtend 32
    Executes s.ctl t k i ∧ ((op = .ldp → d.val % 2 = 0)) ∧ ecc = true ∧
      s.ctl.eccHits t i (s.ctl.dataAddr t i x) (loadCode op).2 = true) ∧
    (∃ (s : State) (t : TileId) (k : CoreId) (op : StoreOp) (d a : Fin 32) (imm : BitVec 16) (i : Nat),
    let n := (storeCode op).2
    let v := ((s.ctl.task t i).reg d).toNat + (if op = .sdp then ((s.ctl.task t i).reg (d.val + 1)).toNat * 2 ^ 32 else 0)
    let c1 := ((s.ctlTo (s.ctl.memOrder t i)).stepped t i).ctl
    let x := dmaLand t (s.mem, c1)
    Executes s.ctl t k i ∧ ((op = .sdp → d.val % 2 = 0))) ∧
    (∃ (s : State) (t : TileId) (k : CoreId) (d a b : Fin 32) (func : Fin 2048) (ecc : Bool) (i : Nat),
    let x := dmaLand t (s.mem, s.ctl.memOrder t i)
    let y := casdaAmo x.1 x.2 t i (s.ctl.dataAddr t i ((s.ctl.task t i).reg a)) (fun old => (amoFn func old ((s.ctl.task t i).reg b) ((s.ctl.task t i).reg d)).getD old)
    Executes s.ctl t k i ∧ func.val < 8 ∧ ecc = false) ∧
    (∃ (s : State) (t : TileId) (k : CoreId) (d a b : Fin 32) (func : Fin 2048) (ecc : Bool) (i : Nat),
    let p := s.ctl.dataAddr t i ((s.ctl.task t i).reg a)
    let x := dmaLand t (s.mem, s.ctl.memOrder t i)
    Executes s.ctl t k i ∧ func.val < 8 ∧ ecc = true ∧ s.ctl.eccHits t i p 4 = true ∧ p % 4 = 0 ∧
      regionOf (p % 2 ^ 36) ∈ [.dram, .owner, .loc 0, .loc 1, .loc 2, .loc 3]) :=
  ⟨⟨onTask, 0, 0, .lw, 3, 1, 8, false, 5, by decide⟩,
   ⟨onTask, 0, 0, .ldp, 4, 1, 8, false, 5, by decide⟩,
   ⟨onTask, 0, 0, .lw, 3, 1, 8, true, 5, by decide⟩,
   ⟨onTask, 0, 0, .sw, 3, 1, 8, 5, by decide⟩,
   ⟨onTask, 0, 0, 3, 1, 2, 1, false, 5, by decide⟩,
   ⟨onTask, 0, 0, 3, 0, 2, 1, true, 5, by decide⟩⟩

theorem witness_TaskAndTimerWritesComplete_a :
    (∃ (s : State) (t : TileId) (o : Origin) (i : TaskId), accessorFitted s.ctl o = true ∧ s.ctl.reachedBy o t = true ∧
      s.ctl.mayConfig o = true ∧ s.ctl.tstate t i = kStopped) ∧
    (∃ (s : State) (t : TileId) (o : Origin) (i : TaskId), accessorFitted s.ctl o = true ∧ s.ctl.reachedBy o t = true ∧
      s.ctl.mayConfig o = true ∧ i.val ≠ 0 ∧ s.ctl.tstate t i = kRunning ∧ (s.ctl.task t i).wait ≠ .none) ∧
    (∃ (s : State) (t : TileId) (o : Origin) (i : TaskId), accessorFitted s.ctl o = true ∧ s.ctl.reachedBy o t = true ∧
      s.ctl.mayConfig o = true ∧ i.val ≠ 0 ∧ s.ctl.tstate t i ≠ kEmpty ∧ ¬ (s.ctl.tstate t i = kRunning ∧
      (s.ctl.task t i).wait ≠ .none)) ∧
    (∃ (s : State) (t : TileId) (o : Origin) (i : TaskId), accessorFitted s.ctl o = true ∧ s.ctl.reachedBy o t = true ∧
      s.ctl.mayTaskCmd o 3 t i = true ∧ s.ctl.tstate t i ≠ kEmpty ∧ s.ctl.tstate t i ≠ kStopped) ∧
    (∃ (s : State) (t : TileId) (o : Origin) (i : TaskId),
    let x := vecDiscard s.mem s.ctl t i
    accessorFitted s.ctl o = true ∧ s.ctl.reachedBy o t = true ∧ s.ctl.mayConfig o = true ∧ i.val ≠ 0 ∧
      s.ctl.tstate t i ≠ kEmpty) ∧
    (∃ (s : State) (t : TileId) (o : Origin) (i : TaskId) (w : Word),
    let n := w.toNat
    accessorFitted s.ctl o = true ∧ s.ctl.reachedBy o t = true ∧ s.ctl.isSystem o = true ∧ ¬ (bitsOf n 24 4 = 0 ∧
      bitsOf n 28 2 ≠ 0) ∧ ((s.ctl.fixedBound t i = true → bitsOf n 24 4 = 0 ∧ bitsOf n 28 2 = 0)) ∧
      s.ctl.tstate t i = kStopped ∧ bitsOf n 31 1 = s.ctl.get t TASK_CFG_VALID i) ∧
    (∃ (s : State) (t : TileId) (o : Origin) (k : CoreId), accessorFitted s.ctl o = true ∧ s.ctl.reachedBy o t = true ∧
      s.ctl.isSystem o = true) ∧
    (∃ (s : State) (t : TileId) (k : CoreId), t.val < s.ctl.tiles ∧ s.ctl.halted t k = true ∧
      (s.ctl.runningTask t k).all (fun i => decide ((s.ctl.task t i).wait = .none)) = true) ∧
    (∃ (s : State) (t : TileId) (o : Origin) (k : CoreId), accessorFitted s.ctl o = true ∧ s.ctl.reachedBy o t = true ∧
      s.ctl.isSystem o = true) :=
  ⟨⟨taskAt kStopped, 0, sysO, 5, by decide⟩,
   ⟨fenced, 0, sysO, 5, by decide⟩,
   ⟨taskAt kWaiting, 0, sysO, 5, by decide⟩,
   ⟨taskAt kWaiting, 0, sysO, 5, by decide⟩,
   ⟨taskAt kWaiting, 0, sysO, 5, by decide⟩,
   ⟨taskAt kStopped, 0, sysO, 5, 0x94000000, by decide⟩,
   ⟨onTask, 0, sysO, 0, by decide⟩,
   ⟨haltedCore, 0, 0, by decide⟩,
   ⟨haltedCore, 0, sysO, 0, by decide⟩⟩

theorem witness_TaskAndTimerWritesComplete_b :
    (∃ (s : State) (t : TileId) (o : Origin) (period : BitVec 14), accessorFitted s.ctl o = true ∧ s.ctl.reachedBy o t = true ∧
      s.ctl.isSystem o = true ∧ 10 ≤ period.toNat ∧ period.toNat ≤ 10000 ∧ s.ctl.flag t CASDA_WDOG_CFG_EN = false) ∧
    (∃ (s : State) (t : TileId) (o : Origin) (w : Word), accessorFitted s.ctl o = true ∧ s.ctl.reachedBy o t = true ∧
      s.ctl.isSystem o = true ∧ w.toNat = 0x5A17 ∧ s.ctl.flag t CASDA_WDOG_CFG_EN = true) ∧
    (∃ (s : State) (t : TileId), t.val < s.ctl.tiles ∧ s.ctl.flag t CASDA_WDOG_CFG_EN = true) ∧
    (∃ (s : State) (t : TileId) (o : Origin) (n : Fin 4) (w : Word), accessorFitted s.ctl o = true ∧
      s.ctl.reachedBy o t = true ∧ s.ctl.mayConfig o = true ∧ ((w.toNat = 0 ∨ (10 ≤ w.toNat ∧ w.toNat ≤ 60000000)))) ∧
    (∃ (s : State) (t : TileId) (n : Fin 4), t.val < s.ctl.tiles ∧ s.ctl.get t CASDA_TIMER_PERIOD_PERIOD n ≠ 0) ∧
    (∃ (s : State) (t : TileId) (o : Origin) (m : Fin 16) (w : Word), accessorFitted s.ctl o = true ∧
      s.ctl.reachedBy o t = true ∧ ((s.ctl.isSystem o = true ∨ (s.ctl.isApp o = true ∧
      s.ctl.mboxApp t m = true) ∨ isRole o .operator = true ∨ isRole o .engineer = true ∨ isRole o .management = true)) ∧
      s.ctl.flag t CASDA_MBOX_CFG_EN m = true ∧ (s.ctl.mailbox t m).length < 16) ∧
    (∃ (s : State) (t : TileId) (o : Origin) (m : Fin 16) (n : Nat) (l : List Nat), accessorFitted s.ctl o = true ∧
      s.ctl.reachedBy o t = true ∧ ((s.ctl.isSystem o = true ∨ (s.ctl.isApp o = true ∧ s.ctl.mboxApp t m = true))) ∧
      s.ctl.mailbox t m = n :: l) ∧
    (∃ (s : State) (t : TileId) (o : Origin) (m : Fin 16) (w : Word), accessorFitted s.ctl o = true ∧
      s.ctl.reachedBy o t = true ∧ s.ctl.isSystem o = true ∧ bit w.toNat 31 = true) ∧
    (∃ (s : State) (t : TileId) (o : Origin) (m : Fin 16) (w : Word), accessorFitted s.ctl o = true ∧
      s.ctl.reachedBy o t = true ∧ s.ctl.isSystem o = true ∧ bit w.toNat 31 = false) :=
  ⟨⟨onTask, 0, sysO, 500, by decide⟩,
   ⟨watched, 0, sysO, 0x5A17, by decide⟩,
   ⟨watched, 0, by decide⟩,
   ⟨onTask, 0, sysO, 1, 1000, by decide⟩,
   ⟨timed, 0, 1, by decide⟩,
   ⟨boxed, 0, sysO, 2, 7, by decide⟩,
   ⟨boxed, 0, sysO, 2, 9, [], by decide⟩,
   ⟨onTask, 0, sysO, 2, 0x80000005, by decide⟩,
   ⟨boxed, 0, sysO, 2, 5, by decide⟩⟩

theorem witness_TaskAndTimerWritesComplete_c :
    ∃ (s : State) (t : TileId) (o : Origin) (r : Fin 64) (w : Word), accessorFitted s.ctl o = true ∧
      s.ctl.reachedBy o t = true ∧ s.ctl.isSystem o = true ∧ ((bit w.toNat 30 = true →
      s.ctl.get t TASK_CFG_PRIO (w.toNat % 256) = 0 ∧ s.ctl.get t TASK_CFG_COST (w.toNat % 256) = 0)) :=
  ⟨onTask, 0, sysO, 3, 0x80000005, by decide⟩

theorem witness_VectorInstructionsComplete_a :
    (∃ (s : State) (t : TileId) (k : CoreId) (vfunc : Fin 2048) (vd va vb : Fin 16) (p : Fin 8) (i : Nat),
    let v := s.ctl.vecOf t
    ExecutesVector s.ctl t k i ∧ (vectorFn vfunc 0 0 0).isNone = false ∧ ((vectorUnary vfunc = true → vb.val = 0))) ∧
    (∃ (s : State) (t : TileId) (k : CoreId) (op : CvtOp) (vd va vb : Fin 16) (p : Fin 8) (i : Nat),
    let v := s.ctl.vecOf t
    ExecutesVector s.ctl t k i ∧ vb.val = 0) ∧
    (∃ (s : State) (t : TileId) (k : CoreId) (op : CmpOp) (vd va vb : Fin 16) (p : Fin 8) (i : Nat),
    let v := s.ctl.vecOf t
    ExecutesVector s.ctl t k i ∧ vd.val ≤ 7) ∧
    (∃ (s : State) (t : TileId) (k : CoreId) (op : PredOp) (vd va vb : Fin 16) (p : Fin 8) (i : Nat),
    let v := s.ctl.vecOf t
    ExecutesVector s.ctl t k i ∧ p.val = 0 ∧ vd.val ≤ 7 ∧ va.val ≤ 7 ∧ (if op = .pnot then vb.val = 0 else vb.val ≤ 7)) ∧
    (∃ (s : State) (t : TileId) (k : CoreId) (vd va vb : Fin 16) (p : Fin 8) (i : Nat),
    let v := s.ctl.vecOf t
    ExecutesVector s.ctl t k i) ∧
    (∃ (s : State) (t : TileId) (k : CoreId) (vd va vb : Fin 16) (p : Fin 8) (i : Nat), ExecutesVector s.ctl t k i ∧
      vb.val = 0) ∧
    (∃ (s : State) (t : TileId) (k : CoreId) (vd va vb : Fin 16) (p : Fin 8) (i : Nat), ExecutesVector s.ctl t k i ∧
      p.val = 0) ∧
    (∃ (s : State) (t : TileId) (k : CoreId) (vd va vb : Fin 16) (p : Fin 8) (i : Nat), ExecutesVector s.ctl t k i ∧
      va.val = 0 ∧ vb.val = 0) ∧
    (∃ (s : State) (t : TileId) (k : CoreId) (vd va vb : Fin 16) (p : Fin 8) (i : Nat), ExecutesVector s.ctl t k i ∧
      p.val = 0 ∧ vb.val = 0 ∧ vd.val ≤ 7) :=
  ⟨⟨onVector, 0, 0, 0, 3, 1, 2, 0, 5, by decide⟩,
   ⟨onVector, 0, 0, .vcvtif, 3, 1, 0, 0, 5, by decide⟩,
   ⟨onVector, 0, 0, .vclt, 3, 1, 2, 0, 5, by decide⟩,
   ⟨onVector, 0, 0, .pand, 3, 1, 2, 0, 5, by decide⟩,
   ⟨onVector, 0, 0, 3, 1, 2, 0, 5, by decide⟩,
   ⟨onVector, 0, 0, 3, 1, 0, 0, 5, by decide⟩,
   ⟨onVector, 0, 0, 3, 1, 2, 0, 5, by decide⟩,
   ⟨onVector, 0, 0, 3, 0, 0, 0, 5, by decide⟩,
   ⟨onVector, 0, 0, 3, 1, 0, 0, 5, by decide⟩⟩

theorem witness_VectorInstructionsComplete_b :
    (∃ (s : State) (t : TileId) (k : CoreId) (vd va vb : Fin 16) (p : Fin 8) (i : Nat), ExecutesVector s.ctl t k i ∧
      p.val = 0 ∧ vb.val = 0 ∧ va.val ≤ 7) ∧
    (∃ (s : State) (t : TileId) (k : CoreId) (op : RedOp) (vd va vb : Fin 16) (p : Fin 8) (i : Nat),
    let v := s.ctl.vecOf t
    let r := redTree op (fun l => if v.active p l then some (v.lane va l) else none) 5 0
    ExecutesVector s.ctl t k i ∧ vb.val = 0) :=
  ⟨⟨onVector, 0, 0, 3, 1, 0, 0, 5, by decide⟩,
   ⟨onVector, 0, 0, .vrsum, 3, 1, 0, 0, 5, by decide⟩⟩

theorem witness_VectorMemoryComplete :
    (∃ (s : State) (t : TileId) (k : CoreId) (e : ElemType) (vd va vb : Fin 16) (p : Fin 8) (i : Nat),
    let v := s.ctl.vecOf t
    let addr := stridedAddr t va vb s.ctl i
    ExecutesVector s.ctl t k i ∧ e.val ≤ 4 ∧ vecBad v p t (s.ctl.task t i).addrExt (elemSize e) addr = none) ∧
    (∃ (s : State) (t : TileId) (k : CoreId) (vd va vb : Fin 16) (p : Fin 8) (i : Nat),
    let v := s.ctl.vecOf t
    let addr := indexedAddr t va vb s.ctl i
    ExecutesVector s.ctl t k i ∧ vecBad v p t (s.ctl.task t i).addrExt (elemSize 0) addr = none) ∧
    (∃ (s : State) (t : TileId) (k : CoreId) (e : ElemType) (vd va vb : Fin 16) (p : Fin 8) (i : Nat),
    let v := s.ctl.vecOf t
    let addr := stridedAddr t va vb s.ctl i
    ExecutesVector s.ctl t k i ∧ e.val ≤ 4 ∧ vecBad v p t (s.ctl.task t i).addrExt (elemSize e) addr = none ∧
      s.ctl.level t (i / 64) ≠ 0) ∧
    (∃ (s : State) (t : TileId) (k : CoreId) (e : ElemType) (vd va vb : Fin 16) (p : Fin 8) (i : Nat),
    let v := s.ctl.vecOf t
    let addr := stridedAddr t va vb s.ctl i
    ExecutesVector s.ctl t k i ∧ e.val ≤ 4 ∧ vecBad v p t (s.ctl.task t i).addrExt (elemSize e) addr = none ∧
      s.ctl.level t (i / 64) = 0 ∧ anyN 32 (fun l => v.active p l && decide (addr l < 0x80000000)) = false) ∧
    (∃ (s : State) (t : TileId) (k : CoreId) (e : ElemType) (vd va vb : Fin 16) (p : Fin 8) (i : Nat),
    let v := s.ctl.vecOf t
    let addr := stridedAddr t va vb s.ctl i
    ExecutesVector s.ctl t k i ∧ e.val ≤ 4 ∧ vecBad v p t (s.ctl.task t i).addrExt (elemSize e) addr = none ∧
      s.ctl.level t (i / 64) = 0 ∧ anyN 32 (fun l => v.active p l && decide (addr l < 0x80000000)) = true) ∧
    (∃ (s : State) (t : TileId) (k : CoreId) (vd va vb : Fin 16) (p : Fin 8) (i : Nat),
    let v := s.ctl.vecOf t
    let addr := indexedAddr t va vb s.ctl i
    ExecutesVector s.ctl t k i ∧ vecBad v p t (s.ctl.task t i).addrExt (elemSize 0) addr = none ∧
      s.ctl.level t (i / 64) ≠ 0) ∧
    (∃ (s : State) (t : TileId) (k : CoreId) (vd va vb : Fin 16) (p : Fin 8) (i : Nat),
    let v := s.ctl.vecOf t
    let addr := indexedAddr t va vb s.ctl i
    ExecutesVector s.ctl t k i ∧ vecBad v p t (s.ctl.task t i).addrExt (elemSize 0) addr = none ∧ s.ctl.level t (i / 64) = 0 ∧
      anyN 32 (fun l => v.active p l && decide (addr l < 0x80000000)) = false) ∧
    (∃ (s : State) (t : TileId) (k : CoreId) (vd va vb : Fin 16) (p : Fin 8) (i : Nat),
    let v := s.ctl.vecOf t
    let addr := indexedAddr t va vb s.ctl i
    ExecutesVector s.ctl t k i ∧ vecBad v p t (s.ctl.task t i).addrExt (elemSize 0) addr = none ∧ s.ctl.level t (i / 64) = 0 ∧
      anyN 32 (fun l => v.active p l && decide (addr l < 0x80000000)) = true) :=
  ⟨⟨onVector, 0, 0, 0, 3, 0, 4, 0, 5, by decide⟩,
   ⟨onVector, 0, 0, 3, 0, 4, 0, 5, by decide⟩,
   ⟨onVector, 0, 0, 0, 3, 0, 4, 0, 5, by decide⟩,
   ⟨appVector, 0, 1, 0, 3, 2, 0, 0, 69, by decide⟩,
   ⟨appVector, 0, 1, 0, 3, 0, 4, 0, 69, by decide⟩,
   ⟨onVector, 0, 0, 3, 0, 4, 0, 5, by decide⟩,
   ⟨appVector, 0, 1, 3, 2, 0, 0, 69, by decide⟩,
   ⟨appVector, 0, 1, 3, 0, 4, 0, 69, by decide⟩⟩

theorem witness_VectorErrorsTrap :
    (∃ (s : State) (t : TileId) (addr : Word) (i : Nat),
    let x := veccDiscard s.mem s.ctl t
    let c1 := x.2
    let c2 := (c1.setTask t i { c1.task t i with wait := .none }).put t TASK_STATE_WAIT_ON 0 i
    t.val < s.ctl.tiles ∧ (s.ctl.vecOf t).holder = some i) ∧
    (∃ (s : State) (t : TileId) (addr : Word), t.val < s.ctl.tiles ∧ (s.ctl.vecOf t).holder = none) ∧
    (∃ (s : State) (t : TileId) (k : CoreId) (e : ElemType) (vd va vb : Fin 16) (p : Fin 8) (i l : Nat),
    let addr := stridedAddr t va vb s.ctl i
    ExecutesVector s.ctl t k i ∧ e.val ≤ 4 ∧ vecBad (s.ctl.vecOf t) p t (s.ctl.task t i).addrExt (elemSize e) addr = some l) ∧
    (∃ (s : State) (t : TileId) (k : CoreId) (vd va vb : Fin 16) (p : Fin 8) (i l : Nat),
    let addr := indexedAddr t va vb s.ctl i
    ExecutesVector s.ctl t k i ∧ vecBad (s.ctl.vecOf t) p t (s.ctl.task t i).addrExt (elemSize 0) addr = some l) ∧
    (∃ (s : State) (t : TileId) (k : CoreId) (e : ElemType) (vd va vb : Fin 16) (p : Fin 8) (i l : Nat),
    let addr := stridedAddr t va vb s.ctl i
    ExecutesVector s.ctl t k i ∧ e.val ≤ 4 ∧ vecBad (s.ctl.vecOf t) p t (s.ctl.task t i).addrExt (elemSize e) addr = some l) ∧
    (∃ (s : State) (t : TileId) (k : CoreId) (vd va vb : Fin 16) (p : Fin 8) (i l : Nat),
    let addr := indexedAddr t va vb s.ctl i
    ExecutesVector s.ctl t k i ∧ vecBad (s.ctl.vecOf t) p t (s.ctl.task t i).addrExt (elemSize 0) addr = some l) :=
  ⟨⟨onVector, 0, 0x1000, 5, by decide⟩,
   ⟨onTask, 0, 0x1000, by decide⟩,
   ⟨onVector, 0, 0, 0, 3, 1, 4, 0, 5, 0, by decide⟩,
   ⟨onVector, 0, 0, 3, 1, 4, 0, 5, 0, by decide⟩,
   ⟨onVector, 0, 0, 0, 3, 1, 4, 0, 5, 0, by decide⟩,
   ⟨onVector, 0, 0, 3, 1, 4, 0, 5, 0, by decide⟩⟩

theorem witness_RingEventsComplete_a :
    (∃ (s : State) (t : TileId) (r : RingId) (rx : RingReceiver) (eq : Byte), t.val < s.ctl.tiles ∧ portEnd rx = none) ∧
    (∃ (s : State) (t : TileId) (r : RingId) (rx : RingReceiver) (eq : Byte) (tail : Bool),
    let c1 := (s.ctl.linkAt t r rx true).put t (if tail then RING_LINK_EQ_TAIL else RING_LINK_EQ_HEAD) eq.toNat r
    let idle := decide (c1.rstate t r = rgIdle) && (tail == decide (c1.get t RING_CTRL_MODE r = 2)) && c1.flag t RING_CTRL_AUTO_ENUM r
    let again := decide (c1.rstate t r = rgEnum) && decide ((c1.rng t r).step < 8) && !s.ctl.endLock t r tail
    t.val < s.ctl.tiles ∧ portEnd rx = some tail ∧ (idle || again) = true) ∧
    (∃ (s : State) (t : TileId) (r : RingId) (rx : RingReceiver) (eq : Byte) (tail : Bool),
    let c1 := (s.ctl.linkAt t r rx true).put t (if tail then RING_LINK_EQ_TAIL else RING_LINK_EQ_HEAD) eq.toNat r
    let idle := decide (c1.rstate t r = rgIdle) && (tail == decide (c1.get t RING_CTRL_MODE r = 2)) && c1.flag t RING_CTRL_AUTO_ENUM r
    let again := decide (c1.rstate t r = rgEnum) && decide ((c1.rng t r).step < 8) && !s.ctl.endLock t r tail
    t.val < s.ctl.tiles ∧ portEnd rx = some tail ∧ (idle || again) = false) ∧
    (∃ (s : State) (t : TileId) (r : RingId) (rx : RingReceiver),
    let had := (portEnd rx).any (fun tail => s.ctl.endLock t r tail)
    let c0 := s.ctl.linkAt t r rx false
    let c1 := c0.setRng t r { c0.rng t r with missRun := [] }
    t.val < s.ctl.tiles ∧ had = false) ∧
    (∃ (s : State) (t : TileId) (r : RingId) (rx : RingReceiver),
    let had := (portEnd rx).any (fun tail => s.ctl.endLock t r tail)
    let c0 := s.ctl.linkAt t r rx false
    let c1 := c0.setRng t r { c0.rng t r with missRun := [] }
    let st := c1.rstate t r
    let dark := !(c1.endLock t r false || c1.endLock t r true) && (st == rgEnum || st == rgRun || st == rgSplit)
    t.val < s.ctl.tiles ∧ had = true ∧ dark = true) ∧
    (∃ (s : State) (t : TileId) (r : RingId) (rx : RingReceiver),
    let had := (portEnd rx).any (fun tail => s.ctl.endLock t r tail)
    let c0 := s.ctl.linkAt t r rx false
    let c1 := c0.setRng t r { c0.rng t r with missRun := [] }
    let st := c1.rstate t r
    let dark := !(c1.endLock t r false || c1.endLock t r true) && (st == rgEnum || st == rgRun || st == rgSplit)
    t.val < s.ctl.tiles ∧ had = true ∧ dark = false ∧ st = rgEnum ∧ (c1.rng t r).step < 8) ∧
    (∃ (s : State) (t : TileId) (r : RingId) (rx : RingReceiver),
    let had := (portEnd rx).any (fun tail => s.ctl.endLock t r tail)
    let c0 := s.ctl.linkAt t r rx false
    let c1 := c0.setRng t r { c0.rng t r with missRun := [] }
    let st := c1.rstate t r
    let dark := !(c1.endLock t r false || c1.endLock t r true) && (st == rgEnum || st == rgRun || st == rgSplit)
    t.val < s.ctl.tiles ∧ had = true ∧ dark = false ∧ st = rgRun ∧ rx = .tail) ∧
    (∃ (s : State) (t : TileId) (r : RingId) (rx : RingReceiver),
    let had := (portEnd rx).any (fun tail => s.ctl.endLock t r tail)
    let c0 := s.ctl.linkAt t r rx false
    let c1 := c0.setRng t r { c0.rng t r with missRun := [] }
    let st := c1.rstate t r
    let dark := !(c1.endLock t r false || c1.endLock t r true) && (st == rgEnum || st == rgRun || st == rgSplit)
    t.val < s.ctl.tiles ∧ had = true ∧ dark = false ∧ ¬ (st = rgEnum ∧ (c1.rng t r).step < 8) ∧ ¬ (st = rgRun ∧ rx = .tail)) ∧
    (∃ (s : State) (t : TileId) (r : RingId), t.val < s.ctl.tiles ∧ s.ctl.rstate t r ≠ rgEnum ∧ s.ctl.ringUp t r = false) :=
  ⟨⟨ringRun0, 0, 1, .upstream 2, 3, by decide⟩,
   ⟨ringIdle0, 0, 1, .head, 3, false, by decide⟩,
   ⟨ringRun0, 0, 1, .head, 3, false, by decide⟩,
   ⟨ringRun0, 0, 1, .downstream 2, by decide⟩,
   ⟨ringTail0, 0, 1, .tail, by decide⟩,
   ⟨ringEnumLocked, 0, 1, .tail, by decide⟩,
   ⟨ringLocked0, 0, 1, .tail, by decide⟩,
   ⟨ringLocked0, 0, 1, .head, by decide⟩,
   ⟨ringIdle0, 0, 1, by decide⟩⟩

theorem witness_RingEventsComplete_b :
    (∃ (s : State) (t : TileId) (r : RingId),
    let g := s.ctl.rng t r
    t.val < s.ctl.tiles ∧ (s.ctl.rstate t r = rgEnum ∨ s.ctl.ringUp t r = true) ∧
      g.flight.any (fun y => y.again && s.ctl.launchable t r y) = true) ∧
    (∃ (s : State) (t : TileId) (r : RingId) (tx : Tx),
    let g := s.ctl.rng t r
    t.val < s.ctl.tiles ∧ (s.ctl.rstate t r = rgEnum ∨ s.ctl.ringUp t r = true) ∧
      g.flight.any (fun y => y.again && s.ctl.launchable t r y) = false ∧ g.ctl.find? (s.ctl.launchable t r) = some tx) ∧
    (∃ (s : State) (t : TileId) (r : RingId),
    let g := s.ctl.rng t r
    t.val < s.ctl.tiles ∧ (s.ctl.rstate t r = rgEnum ∨ s.ctl.ringUp t r = true) ∧
      g.flight.any (fun y => y.again && s.ctl.launchable t r y) = false ∧ g.ctl.find? (s.ctl.launchable t r) = none ∧
      g.posted.head?.any (s.ctl.launchable t r) = false) ∧
    (∃ (s : State) (t : TileId) (r : RingId) (tx : Tx) (rest : List Tx),
    let g := s.ctl.rng t r
    t.val < s.ctl.tiles ∧ (s.ctl.rstate t r = rgEnum ∨ s.ctl.ringUp t r = true) ∧
      g.flight.any (fun y => y.again && s.ctl.launchable t r y) = false ∧ g.ctl.find? (s.ctl.launchable t r) = none ∧
      g.posted = tx :: rest ∧ s.ctl.launchable t r tx = true ∧
      (s.ctl.setRng t r { g with posted := rest }).reachable t r tx.addr = true) ∧
    (∃ (s : State) (t : TileId) (r : RingId) (tx : Tx) (rest : List Tx),
    let g := s.ctl.rng t r
    t.val < s.ctl.tiles ∧ (s.ctl.rstate t r = rgEnum ∨ s.ctl.ringUp t r = true) ∧
      g.flight.any (fun y => y.again && s.ctl.launchable t r y) = false ∧ g.ctl.find? (s.ctl.launchable t r) = none ∧
      g.posted = tx :: rest ∧ s.ctl.launchable t r tx = true ∧
      (s.ctl.setRng t r { g with posted := rest }).reachable t r tx.addr = false) ∧
    (∃ (s : State) (t : TileId) (r : RingId) (seq : Byte) (el : List Byte), t.val < s.ctl.tiles ∧
      (s.ctl.rng t r).flight.find? (fun y => y.seq == seq.toNat) = none) ∧
    (∃ (s : State) (t : TileId) (r : RingId) (seq : Byte) (el : List Byte) (tx : Tx),
    let g := s.ctl.rng t r
    t.val < s.ctl.tiles ∧ (s.ctl.rng t r).flight.find? (fun y => y.seq == seq.toNat) = some tx ∧
      (!elementOk el || beNat (el.take 2) / 128 != tx.addr || beNat ((el.drop 3).take 1) != seq.toNat) = true) ∧
    (∃ (s : State) (t : TileId) (r : RingId) (seq : Byte) (el : List Byte) (tx : Tx),
    let count := beNat ((el.drop 2).take 1)
    let rcode := beNat ((el.drop 4).take 1)
    let data := (el.drop 6).take (beNat ((el.drop 5).take 1))
    let c1 := if rcode = eOk then s.ctl else s.ctl.put t RING_BLK_EXP_COUNTER (s.ctl.get t RING_BLK_EXP_COUNTER r tx.addr + 255) r tx.addr
    t.val < s.ctl.tiles ∧ (s.ctl.rng t r).flight.find? (fun y => y.seq == seq.toNat) = some tx ∧
      (!elementOk el || beNat (el.take 2) / 128 != tx.addr || beNat ((el.drop 3).take 1) != seq.toNat) = false) ∧
    (∃ (s : State) (t : TileId) (r : RingId) (seq : Byte), t.val < s.ctl.tiles ∧
      (s.ctl.rng t r).flight.find? (fun y => y.seq == seq.toNat) = none) :=
  ⟨⟨ringAgain0, 0, 1, by decide⟩,
   ⟨ringCtl0, 0, 1, { addr := 0, cmd := 8 }, by decide⟩,
   ⟨ringRun0, 0, 1, by decide⟩,
   ⟨ringPosted0, 0, 1, { addr := 0, cmd := 8 }, [], by decide⟩,
   ⟨ringPosted7, 0, 1, { addr := 7, cmd := 8 }, [], by decide⟩,
   ⟨ringRun0, 0, 1, 0, [], by decide⟩,
   ⟨ringFlight0, 0, 1, 0, [], { addr := 0, cmd := 8 }, by decide⟩,
   ⟨ringFlight0, 0, 1, 0, elOk, { addr := 0, cmd := 8 }, by decide⟩,
   ⟨ringRun0, 0, 1, 0, by decide⟩⟩

theorem witness_RingEventsComplete_c :
    (∃ (s : State) (t : TileId) (r : RingId) (seq : Byte) (tx : Tx),
    let g := s.ctl.rng t r
    t.val < s.ctl.tiles ∧ (s.ctl.rng t r).flight.find? (fun y => y.seq == seq.toNat) = some tx ∧ tx.again = false ∧
      tx.tries < s.ctl.get t RING_CTRL_RETRIES r) ∧
    (∃ (s : State) (t : TileId) (r : RingId) (seq : Byte) (tx : Tx), t.val < s.ctl.tiles ∧
      (s.ctl.rng t r).flight.find? (fun y => y.seq == seq.toNat) = some tx ∧ tx.again = true) ∧
    (∃ (s : State) (t : TileId) (r : RingId) (seq : Byte) (tx : Tx), t.val < s.ctl.tiles ∧
      (s.ctl.rng t r).flight.find? (fun y => y.seq == seq.toNat) = some tx ∧ tx.again = false ∧
      s.ctl.get t RING_CTRL_RETRIES r ≤ tx.tries) ∧
    (∃ (s : State) (t : TileId) (r : RingId) (b : Nat) (x : Duty),
    let g := s.ctl.rng t r
    let f := s.ctl.get t SMP_FRAME_NUM_FRAME
    let g1 := Rng.dutySent { g with slots := tabErase g.slots b, held := g.held.filter (fun n => n != b) } f [b] x
    let c1 := s.ctl.setRng t r g1
    t.val < s.ctl.tiles ∧ s.ctl.ringUp t r = true ∧ s.ctl.dutyReady t r = some (b, x)) ∧
    (∃ (s : State) (t : TileId) (r : RingId), t.val < s.ctl.tiles ∧ (s.ctl.ringUp t r = false ∨ s.ctl.dutyReady t r = none)) ∧
    (∃ (s : State) (t : TileId) (r : RingId), t.val < s.ctl.tiles ∧ s.ctl.ringUp t r = true ∧ s.ctl.get t BAL_CFG_QUIET ≠ 0) ∧
    (∃ (s : State) (t : TileId) (r : RingId), t.val < s.ctl.tiles ∧
      (s.ctl.ringUp t r = false ∨ s.ctl.get t BAL_CFG_QUIET = 0)) :=
  ⟨⟨ringFlight0, 0, 1, 0, { addr := 0, cmd := 8 }, by decide⟩,
   ⟨ringAgain0, 0, 1, 0, { addr := 0, cmd := 8, again := true }, by decide⟩,
   ⟨ringFlight9, 0, 1, 0, { addr := 0, cmd := 8, tries := 9 }, by decide⟩,
   ⟨ringSlots, 0, 1, 0, { map := 1, duty := 50 }, by decide⟩,
   ⟨ringRun0, 0, 1, by decide⟩,
   ⟨ringQuiet, 0, 1, by decide⟩,
   ⟨ringIdle0, 0, 1, by decide⟩⟩

theorem witness_RingEnumerationComplete_a :
    (∃ (s : State) (t : TileId) (r : RingId) (count : Fin 513) (acc : BitVec 24), t.val < s.ctl.tiles ∧
      s.ctl.rstate t r = rgEnum ∧ (s.ctl.rng t r).step = 2) ∧
    (∃ (s : State) (t : TileId) (r : RingId) (count : Fin 513) (acc : BitVec 24),
    let g := s.ctl.rng t r
    let k := s.ctl.get t RING_STATUS_SPLIT_AT r
    let pos := (List.range (count.val - k)).map (fun i => ({ addr := k + i, cmd := 0x08, req := leBytes 4 0 } : Tx))
    t.val < s.ctl.tiles ∧ s.ctl.rstate t r = rgSplit ∧ g.rejoining = true ∧ count.val = s.ctl.get t RING_STATUS_COUNT r) ∧
    (∃ (s : State) (t : TileId) (r : RingId) (count : Fin 513) (acc : BitVec 24),
    let g := s.ctl.rng t r
    t.val < s.ctl.tiles ∧ s.ctl.rstate t r = rgSplit ∧ g.rejoining = true ∧ count.val ≠ s.ctl.get t RING_STATUS_COUNT r) ∧
    (∃ (s : State) (t : TileId) (r : RingId) (count : Fin 513) (acc : BitVec 24), t.val < s.ctl.tiles ∧
      ¬ (s.ctl.rstate t r = rgEnum ∧ (s.ctl.rng t r).step = 2) ∧ ¬ (s.ctl.rstate t r = rgSplit ∧
      (s.ctl.rng t r).rejoining = true) ∧ ¬ (s.ctl.rstate t r = rgRun ∧ (s.ctl.rng t r).measuring = true)) ∧
    (∃ (s : State) (t : TileId) (r : RingId) (count : Fin 513) (acc : BitVec 24),
    let c1 := s.ctl.setRng t r { s.ctl.rng t r with measuring := false }
    t.val < s.ctl.tiles ∧ s.ctl.rstate t r = rgRun ∧ (s.ctl.rng t r).measuring = true) ∧
    (∃ (s : State) (t : TileId) (r : RingId), t.val < s.ctl.tiles ∧ s.ctl.rstate t r = rgEnum ∧ (s.ctl.rng t r).step = 2) ∧
    (∃ (s : State) (t : TileId) (r : RingId), t.val < s.ctl.tiles ∧ ¬ (s.ctl.rstate t r = rgEnum ∧
      (s.ctl.rng t r).step = 2)) ∧
    (∃ (s : State) (t : TileId) (r : RingId), t.val < s.ctl.tiles ∧ s.ctl.rstate t r = rgEnum ∧ (s.ctl.rng t r).step < 8) ∧
    (∃ (s : State) (t : TileId) (r : RingId), t.val < s.ctl.tiles ∧ ¬ (s.ctl.rstate t r = rgEnum ∧
      (s.ctl.rng t r).step < 8)) :=
  ⟨⟨ringEnum2, 0, 1, 4, 100, by decide⟩,
   ⟨ringRejoin, 0, 1, 3, 100, by decide⟩,
   ⟨ringRejoin, 0, 1, 4, 100, by decide⟩,
   ⟨ringRun0, 0, 1, 4, 100, by decide⟩,
   ⟨ringMeasure0, 0, 1, 4, 100, by decide⟩,
   ⟨ringEnum2, 0, 1, by decide⟩,
   ⟨ringRejoin, 0, 1, by decide⟩,
   ⟨ringEnum2, 0, 1, by decide⟩,
   ⟨ringRun0, 0, 1, by decide⟩⟩

theorem witness_RingEnumerationComplete_b :
    (∃ (s : State) (t : TileId) (r : RingId) (k n : Fin 513) (twoBreaks : Bool), t.val < s.ctl.tiles ∧
      s.ctl.rstate t r = rgEnum ∧ (s.ctl.rng t r).step = 2 ∧ (s.ctl.rng t r).suspect = true ∧ twoBreaks = true) ∧
    (∃ (s : State) (t : TileId) (r : RingId) (k n : Fin 513) (twoBreaks : Bool),
    let x := enumCounted (s.mem, s.ctl.setRng t r { s.ctl.rng t r with suspect := false }) t r n (some k.val)
    t.val < s.ctl.tiles ∧ s.ctl.rstate t r = rgEnum ∧ (s.ctl.rng t r).step = 2 ∧ (s.ctl.rng t r).suspect = true ∧
      twoBreaks = false) ∧
    (∃ (s : State) (t : TileId) (r : RingId) (k n : Fin 513) (twoBreaks : Bool), t.val < s.ctl.tiles ∧
      s.ctl.rstate t r = rgSplit) ∧
    (∃ (s : State) (t : TileId) (r : RingId) (k n : Fin 513) (twoBreaks : Bool), t.val < s.ctl.tiles ∧
      s.ctl.rstate t r = rgRun ∧ (s.ctl.rng t r).suspect = true ∧ twoBreaks = true) ∧
    (∃ (s : State) (t : TileId) (r : RingId) (k n : Fin 513) (twoBreaks : Bool),
    let g := s.ctl.rng t r
    t.val < s.ctl.tiles ∧ s.ctl.rstate t r = rgRun ∧ (s.ctl.rng t r).suspect = true ∧ twoBreaks = false) ∧
    (∃ (s : State) (t : TileId) (r : RingId) (k n : Fin 513) (twoBreaks : Bool), t.val < s.ctl.tiles ∧
      ¬ (s.ctl.rstate t r = rgEnum ∧ (s.ctl.rng t r).step = 2 ∧ (s.ctl.rng t r).suspect = true) ∧ s.ctl.rstate t r ≠ rgSplit ∧
      ¬ (s.ctl.rstate t r = rgRun ∧ (s.ctl.rng t r).suspect = true)) ∧
    (∃ (s : State) (t : TileId) (r : RingId) (k : Fin 513), t.val < s.ctl.tiles ∧ s.ctl.tileState t = tsCarried ∧
      s.ctl.get t RING_CTRL_MODE r = 2 ∧ s.ctl.rstate t r = rgSplit) ∧
    (∃ (s : State) (t : TileId) (r : RingId) (k : Fin 513),
    let g := s.ctl.rng t r
    t.val < s.ctl.tiles ∧ s.ctl.tileState t = tsCarried ∧ s.ctl.get t RING_CTRL_MODE r = 2 ∧ s.ctl.rstate t r = rgRun ∧
      (s.ctl.rng t r).suspect = true) ∧
    (∃ (s : State) (t : TileId) (r : RingId) (k : Fin 513), t.val < s.ctl.tiles ∧ (¬ (s.ctl.tileState t = tsCarried ∧
      s.ctl.get t RING_CTRL_MODE r = 2) ∨ (s.ctl.rstate t r ≠ rgSplit ∧ ¬ (s.ctl.rstate t r = rgRun ∧
      (s.ctl.rng t r).suspect = true)))) :=
  ⟨⟨ringEnum2s, 0, 1, 2, 4, true, by decide⟩,
   ⟨ringEnum2s, 0, 1, 2, 4, false, by decide⟩,
   ⟨ringRejoin, 0, 1, 2, 0, false, by decide⟩,
   ⟨ringSuspect, 0, 1, 2, 0, true, by decide⟩,
   ⟨ringSuspect, 0, 1, 2, 0, false, by decide⟩,
   ⟨ringRun0, 0, 1, 2, 0, false, by decide⟩,
   ⟨ringCarriedSplit, 0, 1, 2, by decide⟩,
   ⟨ringCarried0, 0, 1, 2, by decide⟩,
   ⟨ringRun0, 0, 1, 2, by decide⟩⟩

theorem witness_RingEnumerationComplete_c :
    (∃ (s : State) (t : TileId) (r : RingId), t.val < s.ctl.tiles ∧ s.ctl.rstate t r = rgSplit ∧
      s.ctl.flag t RING_CTRL_AUTO_REJOIN r = true ∧ s.ctl.tileState t ≠ tsCarried ∧
      s.ctl.facingLocked t r (s.ctl.get t RING_STATUS_SPLIT_AT r) = true) ∧
    (∃ (s : State) (t : TileId) (r : RingId), t.val < s.ctl.tiles ∧ ¬ (s.ctl.rstate t r = rgSplit ∧
      s.ctl.flag t RING_CTRL_AUTO_REJOIN r = true ∧ s.ctl.tileState t ≠ tsCarried ∧
      s.ctl.facingLocked t r (s.ctl.get t RING_STATUS_SPLIT_AT r) = true)) ∧
    (∃ (s : State) (t : TileId) (r : RingId), t.val < s.ctl.tiles ∧
      (s.ctl.ringUp t r && s.ctl.flag t RING_CTRL_AUTO_ENUM r && s.ctl.linksLocked t r && (s.ctl.rng t r).missRun.any (fun e => decide (3 ≤ e.2))) = true) ∧
    (∃ (s : State) (t : TileId) (r : RingId), t.val < s.ctl.tiles ∧
      (s.ctl.ringUp t r && s.ctl.flag t RING_CTRL_AUTO_ENUM r && s.ctl.linksLocked t r && (s.ctl.rng t r).missRun.any (fun e => decide (3 ≤ e.2))) = false) :=
  ⟨⟨ringRejoin, 0, 1, by decide⟩,
   ⟨ringRun0, 0, 1, by decide⟩,
   ⟨ringMissing, 0, 1, by decide⟩,
   ⟨ringRun0, 0, 1, by decide⟩⟩

theorem witness_RingRequestsComplete_a :
    (∃ (s : State) (d : Datagram) (q : Req) (c' : Ctl),
    let x := enumerateRings (s.mem, c') (q.arg 0 1) (q.arg 1 4)
    Delivered s.ctl 0x1001 d q c' ∧ engRoles.contains q.role = true ∧ q.args.length = 5 ∧ c'.running (q.arg 0 1) = true ∧
      c'.enumerateCode (q.arg 0 1) (q.arg 1 4) = eOk) ∧
    (∃ (s : State) (d : Datagram) (q : Req) (c' : Ctl),
    let t := q.arg 0 1
    let r := q.arg 1 1
    let c1 := ((((c'.put t RING_CTRL_POLICY (q.arg 3 1) r).put t RING_CTRL_AUTO_ENUM (q.arg 4 1) r).put t RING_CTRL_AUTO_REJOIN (q.arg 5 1) r).put t RING_CTRL_RETRIES (q.arg 6 1) r)
    let x := ringMode (s.mem, c1) t r (q.arg 2 1)
    Delivered s.ctl 0x1002 d q c' ∧ engRoles.contains q.role = true ∧ q.args.length = 7 ∧ c'.ringAbsent t r = false ∧
      q.arg 2 1 ≤ 1 ∧ q.arg 3 1 ≤ 1 ∧ q.arg 4 1 ≤ 1 ∧ q.arg 5 1 ≤ 1 ∧ q.arg 6 1 ≤ 3 ∧ ¬ (q.arg 2 1 = 0 ∧
      c'.mapValid t r = true) ∧ c'.rstate t r ≠ rgEnum) ∧
    (∃ (s : State) (t : TileId) (o : Origin) (r : RingId),
    let keep := s.ctl.get t RING_CTRL_AUTO_REJOIN r * 2048 + s.ctl.get t RING_CTRL_AUTO_ENUM r * 1024 + s.ctl.get t RING_CTRL_RETRIES r * 256 + s.ctl.get t RING_CTRL_POLICY r * 128 + 4 + s.ctl.get t RING_CTRL_MODE r
    let x := ringCtrlWrite s.mem s.ctl o t r keep
    accessorFitted s.ctl o = true ∧ s.ctl.reachedBy o t = true ∧ x.2 = eOk) ∧
    (∃ (s : State) (d : Datagram) (q : Req) (c' : Ctl),
    let v := fun i : Nat => q.arg (6 + 8 * i) 8
    let key := blkKey (q.arg 0 1) (q.arg 1 1) (q.arg 3 2)
    Delivered s.ctl 0x1003 d q c' ∧ engRoles.contains q.role = true ∧ c'.inventoryCode q = eOk ∧ q.arg 2 1 = 0) ∧
    (∃ (s : State) (d : Datagram) (q : Req) (c' : Ctl),
    let key := blkKey (q.arg 0 1) (q.arg 1 1) (q.arg 3 2)
    let v := fun (c : Ctl) (i : Nat) => tabGet 0 c.found (key + i)
    Delivered s.ctl 0x1003 d q c' ∧ engRoles.contains q.role = true ∧ c'.inventoryCode q = eOk ∧ q.arg 2 1 = 1) ∧
    (∃ (s : State) (d : Datagram) (q : Req) (c' : Ctl),
    let key := blkKey (q.arg 0 1) (q.arg 1 1) (q.arg 3 2)
    Delivered s.ctl 0x1003 d q c' ∧ engRoles.contains q.role = true ∧ c'.inventoryCode q = eOk ∧ 2 ≤ q.arg 2 1) ∧
    (∃ (s : State) (d : Datagram) (q : Req) (c' : Ctl),
    let t := q.arg 0 1
    let r := q.arg 1 1
    let b := q.arg 2 2
    let key := blkKey t r b
    let inv := if (c'.rng t r).policy then tabSet c'.inventory key (tabGet 0 c'.found key) else c'.inventory
    Delivered s.ctl 0x1004 d q c' ∧ engRoles.contains q.role = true ∧ q.args.length = 4 ∧ c'.ringAbsent t r = false ∧ b < 512 ∧
      c'.present? t r b = true ∧ c'.flag t RING_BLK_QUAR r b = true) ∧
    (∃ (s : State) (t : TileId) (k : CoreId) (d a : Fin 32) (i : Nat),
    let p := ((s.ctl.task t i).reg a).toNat
    let e := if localOk p 16 16 then s.ctl.rpostCode t p (memBytes s.mem (localAddr t k p) 16) else eFormat
    Executes s.ctl t k i ∧ e ≠ eOk) ∧
    (∃ (s : State) (t : TileId) (k : CoreId) (d a : Fin 32) (i g : Nat),
    let p := ((s.ctl.task t i).reg a).toNat
    let ds := memBytes s.mem (localAddr t k p) 16
    let r := leNat (ds.take 2) / 512 % 32
    let req := memBytes s.mem (localAddr t k (leNat ((ds.drop 8).take 4))) (leNat ((ds.drop 4).take 1))
    let tx : Tx := { addr := leNat (ds.take 2) % 512, cmd := leNat ((ds.drop 2).take 1), req := req, desc := some (t.val, k.val, p), rsp := leNat ((ds.drop 12).take 4), cap := leNat ((ds.drop 5).take 1) }
    Executes s.ctl t k i ∧ localOk p 16 16 = true ∧ s.ctl.rpostCode t p ds = eOk ∧
      s.ctl.targetTile t (leNat (ds.take 2)) = some g ∧ (s.ctl.rstate g r = rgEnum ∨ s.ctl.ringUp g r = true)) :=
  ⟨⟨(session .engineer world), (cmd 0x1001 [0, 0, 0, 0, 0, 0, 2]), asks .engineer [0, 0, 0, 0, 0, 0, 2],
    heard (session .engineer world), delivered rfl (arrives_none (by decide)) (by decide) (by decide) rfl rfl (by decide),
    by decide⟩,
   ⟨(session .engineer world), (cmd 0x1002 [0, 0, 0, 1, 0, 1, 1, 1, 3]), asks .engineer [0, 0, 0, 1, 0, 1, 1, 1, 3],
     heard (session .engineer world), delivered rfl (arrives_none (by decide)) (by decide) (by decide) rfl rfl (by decide),
     by decide⟩,
   ⟨ringRun0, 0, sysO, 1, by decide⟩,
   ⟨(session .engineer world), (cmd 0x1003 ([0, 0, 0, 1, 0, 0, 0, 1] ++ [1, 2, 3, 4, 5, 6, 7, 8])), asks .engineer ([0, 0, 0,
     1, 0, 0, 0, 1] ++ [1, 2, 3, 4, 5, 6, 7, 8]), heard (session .engineer world),
     delivered rfl (arrives_none (by decide)) (by decide) (by decide) rfl rfl (by decide), by decide⟩,
   ⟨(session .engineer world), (cmd 0x1003 [0, 0, 0, 1, 1, 0, 0, 1]), asks .engineer [0, 0, 0, 1, 1, 0, 0, 1],
     heard (session .engineer world), delivered rfl (arrives_none (by decide)) (by decide) (by decide) rfl rfl (by decide),
     by decide⟩,
   ⟨(session .engineer world), (cmd 0x1003 [0, 0, 0, 1, 2, 0, 0, 1]), asks .engineer [0, 0, 0, 1, 2, 0, 0, 1],
     heard (session .engineer world), delivered rfl (arrives_none (by decide)) (by decide) (by decide) rfl rfl (by decide),
     by decide⟩,
   ⟨(session .engineer world), (cmd 0x1004 [0, 0, 0, 1, 0, 0]), asks .engineer [0, 0, 0, 1, 0, 0],
     heard (session .engineer world), delivered rfl (arrives_none (by decide)) (by decide) (by decide) rfl rfl (by decide),
     by decide⟩,
   ⟨onTask, 0, 0, 3, 1, 5, by decide⟩,
   ⟨onPost, 0, 0, 3, 2, 5, 0, by decide⟩⟩

theorem witness_RingRequestsComplete_b :
    (∃ (s : State) (t : TileId) (k : CoreId) (d a : Fin 32) (i g : Nat),
    let p := ((s.ctl.task t i).reg a).toNat
    let ds := memBytes s.mem (localAddr t k p) 16
    let r := leNat (ds.take 2) / 512 % 32
    let req := memBytes s.mem (localAddr t k (leNat ((ds.drop 8).take 4))) (leNat ((ds.drop 4).take 1))
    let tx : Tx := { addr := leNat (ds.take 2) % 512, cmd := leNat ((ds.drop 2).take 1), req := req, desc := some (t.val, k.val, p), rsp := leNat ((ds.drop 12).take 4), cap := leNat ((ds.drop 5).take 1) }
    let c1 := (s.ctl.setRng g r { s.ctl.rng g r with posted := (s.ctl.rng g r).posted ++ [tx] }).retireCode t i d eOk
    Executes s.ctl t k i ∧ localOk p 16 16 = true ∧ s.ctl.rpostCode t p ds = eOk ∧
      s.ctl.targetTile t (leNat (ds.take 2)) = some g ∧ s.ctl.rstate g r ≠ rgEnum ∧ s.ctl.ringUp g r = false) ∧
    (∃ (s : State) (t : TileId) (k : CoreId) (d a : Fin 32) (i : Nat),
    let w := ((s.ctl.task t i).reg a).toNat
    let v := ((s.ctl.task t i).reg (a.val + 1)).toNat
    let r := w % 16384 / 512
    let b := w % 512
    let duty := if dieCap s.mem s.ctl t r b < v % 128 then dieCap s.mem s.ctl t r b else v % 128
    let x : Duty := { map := v / 65536, duty := duty, alt := !s.ctl.flag t BAL_RING_CFG_ADJACENT_PERMIT r }
    let n := blkKey t r b
    let man := if v / 65536 = 0 then tabErase s.ctl.manual n else tabSet s.ctl.manual n { map := v / 65536, duty := v % 128 }
    let c1 := if s.ctl.get t BAL_CTRL_MODE ≠ 2 then s.ctl else { s.ctl with manual := man }
    Executes s.ctl t k i ∧ a.val % 2 = 0 ∧ bitsOf v 7 9 = 0 ∧
      (s.ctl.targetTile t w).any (fun g => s.ctl.present? g r b) = true ∧ v % 128 ≤ 100 ∧ bit w 14 = false ∧
      ¬ (s.ctl.level t k = 0 ∧ s.ctl.get t BAL_CTRL_MODE ≠ 2) ∧ s.ctl.flag t RING_BLK_QUAR r b = false ∧
      ¬ (adjacent (v / 65536) = true ∧ s.ctl.flag t BAL_RING_CFG_ADJACENT_PERMIT r = false)) ∧
    (∃ (s : State) (t : TileId) (k : CoreId) (d a : Fin 32) (i : Nat),
    let p := ((s.ctl.task t i).reg a).toNat
    Executes s.ctl t k i ∧ localOk p 16 16 = true ∧ (memRead s.mem (localAddr t k (p + 3))).toNat ≠ 0xFF) ∧
    (∃ (s : State) (t : TileId) (k : CoreId) (d a : Fin 32) (i : Nat),
    let p := ((s.ctl.task t i).reg a).toNat
    Executes s.ctl t k i ∧ localOk p 16 16 = true ∧ (memRead s.mem (localAddr t k (p + 3))).toNat = 0xFF) :=
  ⟨⟨onPostIdle, 0, 0, 3, 2, 5, 0, by decide⟩,
   ⟨onDuty, 0, 0, 3, 4, 5, by decide⟩,
   ⟨onTask, 0, 0, 3, 0, 5, by decide⟩,
   ⟨onPending, 0, 0, 3, 0, 5, by decide⟩⟩

theorem witness_FrameAndSamplingComplete_a :
    (∃ (s : State) ,
    let n := (s.ctl.frameNum + 1) % 2 ^ 32
    s.ctl.tileState 0 ≠ tsOff ∧ s.ctl.pw.mode = .run) ∧
    (∃ (s : State) , (s.ctl.tileState 0 = tsOff ∨ s.ctl.pw.mode ≠ .run)) ∧
    (∃ (s : State) (t : TileId), t.val < s.ctl.tiles ∧
      (s.ctl.running t && s.ctl.frameOpen.contains t.val && !s.ctl.recordsHalted t && !(s.ctl.sections t).any (fun h => !s.ctl.sweepsDone h)) = true) ∧
    (∃ (s : State) (t : TileId), t.val < s.ctl.tiles ∧
      (s.ctl.running t && s.ctl.frameOpen.contains t.val && !s.ctl.recordsHalted t && !(s.ctl.sections t).any (fun h => !s.ctl.sweepsDone h)) = false) ∧
    (∃ (s : State) (o : Origin) (next : Fin 4),
    let ahead := frameDiff (s.ctl.get 0 SMP_FRAME_SWITCH_AT) (s.ctl.get 0 SMP_FRAME_NUM_FRAME)
    accessorFitted s.ctl o = true ∧ s.ctl.reachedBy o 0 = true ∧ s.ctl.mayConfig o = true ∧ (next.val = 0 ∨ (4 ≤ ahead ∧
      ahead ≤ 65536 ∧ s.ctl.activating = false ∧ s.ctl.carryUnderWay = false))) ∧
    (∃ (s : State) (t : TileId) (r : RingId), t.val < s.ctl.tiles ∧ s.ctl.live t = true ∧ s.ctl.ringUp t r = true ∧
      s.ctl.frameOpen.contains t.val = true) ∧
    (∃ (s : State) (t : TileId) (r : RingId), t.val < s.ctl.tiles ∧ ¬ (s.ctl.live t = true ∧ s.ctl.ringUp t r = true ∧
      s.ctl.frameOpen.contains t.val = true)) ∧
    (∃ (s : State) (t : TileId) (r : RingId) (el : List Byte),
    let g := s.ctl.rng t r
    t.val < s.ctl.tiles ∧ ¬ (s.ctl.live t = true ∧ s.ctl.ringUp t r = true ∧ s.ctl.frameOpen.contains t.val = true ∧
      g.collecting = true ∧ g.swept = false)) ∧
    (∃ (s : State) (t : TileId) (r : RingId) (el : List Byte),
    let g := s.ctl.rng t r
    t.val < s.ctl.tiles ∧ s.ctl.live t = true ∧ s.ctl.ringUp t r = true ∧ s.ctl.frameOpen.contains t.val = true ∧
      g.collecting = true ∧ g.swept = false ∧ ((el.length ≠ 54 ∧ el.length ≠ 60) ∨ elementOk el = false)) :=
  ⟨⟨onTask, by decide⟩,
   ⟨offTile0, by decide⟩,
   ⟨frameOpen0, 0, by decide⟩,
   ⟨onTask, 0, by decide⟩,
   ⟨onTask, sysO, 0, by decide⟩,
   ⟨frameOpen0, 0, 1, by decide⟩,
   ⟨onTask, 0, 1, by decide⟩,
   ⟨onTask, 0, 1, [], by decide⟩,
   ⟨collecting0, 0, 1, [], by decide⟩⟩

theorem witness_FrameAndSamplingComplete_b :
    (∃ (s : State) (t : TileId) (r : RingId) (el : List Byte),
    let g := s.ctl.rng t r
    let b := beNat (el.take 2) / 128
    t.val < s.ctl.tiles ∧ s.ctl.live t = true ∧ s.ctl.ringUp t r = true ∧ s.ctl.frameOpen.contains t.val = true ∧
      g.collecting = true ∧ g.swept = false ∧ ¬ (el.length ≠ 54 ∧ el.length ≠ 60) ∧ elementOk el = true ∧
      (s.ctl.present? t r b = false ∨ g.got.contains b = true)) ∧
    (∃ (s : State) (t : TileId) (r : RingId) (el : List Byte),
    let g := s.ctl.rng t r
    let b := beNat (el.take 2) / 128
    let x := parseSample el
    let c1 := s.ctl.counterCheck t r b x.counter
    t.val < s.ctl.tiles ∧ s.ctl.live t = true ∧ s.ctl.ringUp t r = true ∧ s.ctl.frameOpen.contains t.val = true ∧
      g.collecting = true ∧ g.swept = false ∧ ¬ (el.length ≠ 54 ∧ el.length ≠ 60) ∧ elementOk el = true ∧
      s.ctl.present? t r b = true ∧ g.got.contains b = false) ∧
    (∃ (s : State) (t : TileId) (r : RingId),
    let g := s.ctl.rng t r
    let missing := (s.ctl.missingBlocks t r).take 8
    t.val < s.ctl.tiles ∧ (s.ctl.ringUp t r && g.collecting && !g.swept && decide (g.passes < 2) && missing != []) = true) ∧
    (∃ (s : State) (t : TileId) (r : RingId),
    let g := s.ctl.rng t r
    let missing := (s.ctl.missingBlocks t r).take 8
    t.val < s.ctl.tiles ∧ (s.ctl.ringUp t r && g.collecting && !g.swept && decide (g.passes < 2) && missing != []) = false) ∧
    (∃ (s : State) (t : TileId) (r : RingId) (reached : Bool), t.val < s.ctl.tiles ∧ ¬ (s.ctl.live t = true ∧
      s.ctl.ringUp t r = true ∧ s.ctl.frameOpen.contains t.val = true ∧ (s.ctl.rng t r).swept = false)) ∧
    (∃ (s : State) (t : TileId) (r : RingId) (reached : Bool),
    let x := fillRing (s.mem, s.ctl) t r
    t.val < s.ctl.tiles ∧ s.ctl.live t = true ∧ s.ctl.ringUp t r = true ∧ s.ctl.frameOpen.contains t.val = true ∧
      (s.ctl.rng t r).swept = false ∧ s.ctl.sweepSuspect t r reached = false) ∧
    (∃ (s : State) (t : TileId) (r : RingId) (reached : Bool),
    let x := fillRing (s.mem, s.ctl) t r
    t.val < s.ctl.tiles ∧ s.ctl.live t = true ∧ s.ctl.ringUp t r = true ∧ s.ctl.frameOpen.contains t.val = true ∧
      (s.ctl.rng t r).swept = false ∧ s.ctl.sweepSuspect t r reached = true) ∧
    (∃ (s : State) (t : TileId) (r : RingId) (tail : Bool), t.val < s.ctl.tiles) ∧
    (∃ (s : State) (t : TileId) (r : RingId) (tail : Bool), t.val < s.ctl.tiles ∧ s.ctl.rstate t r ≠ rgSplit) :=
  ⟨⟨collectingGot, 0, 1, el54, by decide⟩,
   ⟨collecting0, 0, 1, el54, by decide⟩,
   ⟨collecting0, 0, 1, by decide⟩,
   ⟨onTask, 0, 1, by decide⟩,
   ⟨onTask, 0, 1, true, by decide⟩,
   ⟨collecting0, 0, 1, true, by decide⟩,
   ⟨collectingDark, 0, 1, false, by decide⟩,
   ⟨onTask, 0, 1, true, by decide⟩,
   ⟨onTask, 0, 1, true, by decide⟩⟩

theorem witness_FrameAndSamplingComplete_c :
    (∃ (s : State) (t : TileId) (r : RingId) (tail : Bool), t.val < s.ctl.tiles ∧ s.ctl.rstate t r = rgSplit) ∧
    (∃ (s : State) (t : TileId) (r : RingId) (tail : Bool), t.val < s.ctl.tiles ∧ s.ctl.rstate t r = rgSplit) ∧
    (∃ (s : State) (t : TileId) (r : RingId) (tail : Bool), t.val < s.ctl.tiles ∧ s.ctl.rstate t r ≠ rgSplit) ∧
    (∃ (s : State) (t : TileId) (r : RingId) (tail : Bool), t.val < s.ctl.tiles ∧ s.ctl.rstate t r = rgSplit) ∧
    (∃ (s : State) (t : TileId) (r : RingId) (tail : Bool), t.val < s.ctl.tiles ∧ s.ctl.rstate t r ≠ rgSplit) ∧
    (∃ (s : State) (t : TileId) (k : CoreId) (d a : Fin 32) (i : Nat),
    let f := ((s.ctl.task t i).reg a).toNat
    let w := ((s.ctl.task t i).reg (a.val + 1)).toNat
    Executes s.ctl t k i ∧ a.val % 2 = 0 ∧ s.ctl.sfetchCode t f w = eOk) ∧
    (∃ (s : State) (t : TileId) (k : CoreId) (d a : Fin 32) (i : Nat),
    let e := s.ctl.sfetchCode t ((s.ctl.task t i).reg a).toNat ((s.ctl.task t i).reg (a.val + 1)).toNat
    Executes s.ctl t k i ∧ a.val % 2 = 0 ∧ e ≠ eOk) ∧
    (∃ (s : State) (t : TileId) (i : TaskId) (f w dst : Nat),
    let g := (s.ctl.targetTile t w).getD t
    t.val < s.ctl.tiles ∧ (s.ctl.task t i).wait = .fetch f w dst) ∧
    (∃ (s : State) (t : TileId) (i : TaskId), t.val < s.ctl.tiles ∧ (∀ f w dst, (s.ctl.task t i).wait ≠ .fetch f w dst)) :=
  ⟨⟨ringRejoin, 0, 1, true, by decide⟩,
   ⟨ringRejoin, 0, 1, true, by decide⟩,
   ⟨onTask, 0, 1, true, by decide⟩,
   ⟨ringRejoin, 0, 1, true, by decide⟩,
   ⟨onTask, 0, 1, true, by decide⟩,
   ⟨onFetch, 0, 0, 3, 4, 5, by decide⟩,
   ⟨onTask, 0, 0, 3, 4, 5, by decide⟩,
   ⟨fetching, 0, 5, 0, 0, 64, by decide⟩,
   ⟨onTask, 0, 5, by decide, fun f w d h => Wait.noConfusion ((show Wait.none = .fetch f w d from h))⟩⟩

theorem witness_BurstSamplingComplete :
    (∃ (s : State) (t : TileId) (o : Origin) (count : Fin 2048),
    let cells := (List.range count).map (fun i => s.ctl.get t SMP_BURST_LIST_CELL i)
    let c1 := s.ctl.put t SMP_BURST_CTRL_COUNT count
    accessorFitted s.ctl o = true ∧ s.ctl.reachedBy o t = true ∧ s.ctl.mayConfig o = true ∧ s.ctl.burstCode t count = eOk) ∧
    (∃ (s : State) (t : TileId) (j : Fin 20),
    let x := tabGet {} s.ctl.bursts t
    t.val < s.ctl.tiles ∧ (j = 0 ∨ s.ctl.periodMs / 10 ≤ j.val ∨ x.list = [] ∨ s.ctl.live t = false)) ∧
    (∃ (s : State) (t : TileId) (j : Fin 20),
    let x := tabGet {} s.ctl.bursts t
    let late := (List.range 32).filter (fun r => s.ctl.ringUp t r && !(s.ctl.rng t r).swept && x.list.any (fun id => id / 2 ^ 13 % 32 == r))
    let c1 := s.ctl.burstOpen t j
    let y := tabGet {} c1.bursts t
    let c2 : Ctl := { c1 with bursts := tabSet c1.bursts t { y with entry := y.entry.map (fun e => { e with skipped := late }) } }
    t.val < s.ctl.tiles ∧ (¬ (j = 0 ∨ s.ctl.periodMs / 10 ≤ j.val ∨ x.list = [] ∨ s.ctl.live t = false))) ∧
    (∃ (s : State) (t : TileId) (r : RingId) (els : List (List Byte)), t.val < s.ctl.tiles ∧
      (tabGet {} s.ctl.bursts t).entry.all (fun e => e.j == 0 || e.skipped.contains r.val || !s.ctl.ringUp t r) = true) ∧
    (∃ (s : State) (t : TileId) (r : RingId) (els : List (List Byte)) (e : BurstEntry),
    let x := tabGet {} s.ctl.bursts t
    let asked := x.nextListed e t r
    let e1 := { e with asked := asked.foldl (fun (k : Tab Nat) b => tabSet k b (tabGet 0 k b + 1)) e.asked }
    t.val < s.ctl.tiles ∧ x.entry = some e ∧ (e.j == 0 || e.skipped.contains r.val || !s.ctl.ringUp t r) = false) ∧
    (∃ (s : State) (t : TileId), t.val < s.ctl.tiles ∧ (tabGet {} s.ctl.bursts t).entry = none) ∧
    (∃ (s : State) (t : TileId) (e : BurstEntry),
    let x := tabGet {} s.ctl.bursts t
    let a := modAddr t (s.ctl.get t SMP_BURST_BASE_BASE * 2 ^ 26 + e.seq % 16384 * 4096)
    let c1 := Ctl.put { s.ctl with bursts := tabSet s.ctl.bursts t { x with entry := none } } t SMP_BURST_SEQ_VALUE e.seq
    t.val < s.ctl.tiles ∧ x.entry = some e) :=
  ⟨⟨onTask, 0, sysO, 0, by decide⟩,
   ⟨onTask, 0, 1, by decide⟩,
   ⟨bursting0, 0, 1, by decide⟩,
   ⟨onTask, 0, 1, [], by decide⟩,
   ⟨burstEntry0, 0, 1, [], entry0, by decide⟩,
   ⟨onTask, 0, by decide⟩,
   ⟨burstEntry0, 0, entry0, by decide⟩⟩

theorem witness_LimitsAndEstimationComplete_a :
    (∃ (s : State) (t : TileId) (o : Origin) (w : Word), accessorFitted s.ctl o = true ∧ s.ctl.reachedBy o t = true ∧
      s.ctl.mayConfig o = true ∧ anyN 8 (fun k => bit w.toNat k && s.ctl.limitRange t k) = false) ∧
    (∃ (s : State) (t : TileId) (o : Origin) (r : RingId) (w : Word), accessorFitted s.ctl o = true ∧
      s.ctl.reachedBy o t = true ∧ s.ctl.mayConfig o = true) ∧
    (∃ (s : State) (t : TileId) (r : RingId) (b : BlockId) (w : Fin 17), t.val < s.ctl.tiles ∧
      s.ctl.flag t SMP_OW_CFG_EN = true ∧ s.ctl.ringUp t r = true ∧ s.ctl.present? t r b = true) ∧
    (∃ (s : State) (t : TileId) (r : RingId) (b : BlockId) (w : Fin 17), t.val < s.ctl.tiles ∧
      (s.ctl.owOf t r b).confirmed.contains w.val = true ∧ s.ctl.ringUp t r = true ∧ s.ctl.present? t r b = true) ∧
    (∃ (s : State) (d : Datagram) (q : Req) (c' : Ctl),
    let t := q.arg 0 1
    let r := q.arg 1 1
    let b := q.arg 2 2
    Delivered s.ctl 0x1010 d q c' ∧ engRoles.contains q.role = true ∧ q.args.length = 4 ∧ c'.ringAbsent t r = false ∧ b < 512 ∧
      c'.present? t r b = true ∧ (c'.owOf t r b).pending = []) ∧
    (∃ (s : State) (t : TileId) (n : Nat),
    let last := s.ctl.get t SMP_LAST_COMPLETE_FRAME
    t.val < s.ctl.tiles ∧ s.ctl.running t = true ∧ s.ctl.systemHeld t = false ∧ (s.ctl.estOf t).next = some n ∧
      0 ≤ frameDiff last n ∧ frameDiff last n ≤ 1198) ∧
    (∃ (s : State) (t : TileId) (n : Nat),
    let last := s.ctl.get t SMP_LAST_COMPLETE_FRAME
    let back := frameDiff last n
    let z := skipFrames t n ((last + 2 ^ 32 - 1199) % 2 ^ 32) (s.mem,
      s.ctl.event t 0x06 0x2002 0 (leBytes 4 (back - 1198).toNat))
    t.val < s.ctl.tiles ∧ s.ctl.running t = true ∧ s.ctl.systemHeld t = false ∧ (s.ctl.estOf t).next = some n ∧ 1198 < back) ∧
    (∃ (s : State) (t : TileId) (r : RingId) (str : StringId),
    let p := s.ctl.execOf t
    let x : Run := { p := p, h := t, f := s.ctl.get p EST_PASS_FRAME }
    t.val < s.ctl.tiles ∧ s.ctl.running p = true ∧ s.ctl.systemHeld p = false ∧ s.ctl.fitDue t r str = true) ∧
    (∃ (s : State) (t : TileId) (r : RingId) (str : StringId),
    let p := s.ctl.execOf t
    let x : Run := { p := p, h := t, f := s.ctl.get p EST_PASS_FRAME }
    let c1 := s.ctl.put t EST_REST_REQ_STRING (setBit (s.ctl.get t EST_REST_REQ_STRING r) str false) r
    t.val < s.ctl.tiles ∧ s.ctl.systemHeld p = false ∧ bit (s.ctl.get t EST_REST_REQ_STRING r) str = true ∧
      bit (s.ctl.get t DISP_REST_GNT_STRING r) str = false) :=
  ⟨⟨onTask, 0, sysO, 0, by decide⟩,
   ⟨onTask, 0, sysO, 1, 0x00030002, by decide⟩,
   ⟨owReady, 0, 1, 0, 3, by decide⟩,
   ⟨owConfirmed, 0, 1, 0, 3, by decide⟩,
   ⟨(session .engineer world), (cmd 0x1010 [0, 0, 0, 1, 0, 0]), asks .engineer [0, 0, 0, 1, 0, 0],
     heard (session .engineer world), delivered rfl (arrives_none (by decide)) (by decide) (by decide) rfl rfl (by decide),
     by decide⟩,
   ⟨passReady, 0, 0, by decide⟩,
   ⟨passLate, 0, 0, by decide⟩,
   ⟨fitDue0, 0, 1, 0, by decide⟩,
   ⟨restReq, 0, 1, 0, by decide⟩⟩

theorem witness_LimitsAndEstimationComplete_b :
    (∃ (s : State) (t : TileId) (o : Origin) (w : Word),
    let b := w.toNat % 16384
    accessorFitted s.ctl o = true ∧ s.ctl.reachedBy o t = true ∧ s.ctl.isSystem o = true ∧
      s.ctl.flag t RING_BLK_STALE (b / 512) (b % 512) = true) ∧
    (∃ (s : State) (d : Datagram) (q : Req) (c' : Ctl),
    let t := q.arg 0 1
    let r := q.arg 1 1
    let x : Run := { p := t, h := t, f := c'.get t EST_PASS_FRAME }
    let new := (List.range 32).filter (fun i => bit (q.arg 2 4) i && !bit (c'.get t EST_REST_REQ_STRING r) i)
    let c1 := fun (c : Ctl) (i : Nat) => c.put t EST_REST_REQ_STRING (setBit (c.get t EST_REST_REQ_STRING r) i true) r
    Delivered s.ctl 0x2001 d q c' ∧ engRoles.contains q.role = true ∧ q.args.length = 6 ∧ c'.ringAbsent t r = false ∧
      anyN 32 (fun i => bit (q.arg 2 4) i && !c'.flag t RING_SMAP_ACT_VALID r i) = false) ∧
    (∃ (s : State) (d : Datagram) (q : Req) (c' c1 : Ctl) (b : List Byte),
    let n := q.arg 1 1
    let tiles := c1.named (q.arg 0 1)
    Delivered s.ctl 0x2002 d q c' ∧ engRoles.contains q.role = true ∧ q.args.length = 3 ∧ c'.takeBulk q (q.arg 2 1) = (eOk, b,
      c1) ∧ b.length = 0x828 ∧ c1.namedAbsent (q.arg 0 1) = false ∧ profCode b ≠ eIntegrity ∧ profCode b ≠ eRange ∧ n ≤ 7 ∧
      tiles.any (fun t => anyN 1024 (fun i => c1.flag t RING_SMAP_ACT_VALID (i / 32) (i % 32) && c1.get t RING_SMAP_ACT_PROFILE (i / 32) (i % 32) == n && over1500 ((c1.get t RING_SMAP_ACT_LAST (i / 32) (i % 32) + 1 - c1.get t RING_SMAP_ACT_FIRST (i / 32) (i % 32)) * 16) (leNat ((b.drop 0x7E0).take 2)))) = false) ∧
    (∃ (s : State) (d : Datagram) (q : Req) (c' : Ctl),
    let t := q.arg 0 1
    let r := q.arg 1 1
    let b := q.arg 2 2
    Delivered s.ctl 0x2003 d q c' ∧ engRoles.contains q.role = true ∧ q.args.length = 6 ∧ c'.ringAbsent t r = false ∧ b < 512 ∧
      c'.present? t r b = true) ∧
    (∃ (s : State) (d : Datagram) (q : Req) (c' : Ctl),
    let tiles := c'.named (q.arg 0 1)
    let c1 := tiles.foldl (fun (c : Ctl) t => c.startCommit t 8 none) c'
    Delivered s.ctl 0x2010 d q c' ∧ opRoles.contains q.role = true ∧ q.args.length = 1 ∧ c'.namedAbsent (q.arg 0 1) = false ∧
      tiles.any (fun t => c'.committing t [4, 7]) = false) ∧
    (∃ (s : State) (d : Datagram) (q : Req) (c' : Ctl),
    let tiles := c'.named (q.arg 0 1)
    let src := q.arg 1 1
    Delivered s.ctl 0x2011 d q c' ∧ engRoles.contains q.role = true ∧ q.args.length = 2 ∧ c'.namedAbsent (q.arg 0 1) = false ∧
      ¬ (src = 1 ∧ tiles.any (fun t => !anyN 262144 (fun i => (lvSource s.mem t i true false).isSome)) = true) ∧ src ≤ 1 ∧
      ((c'.get 0 DISP_CTRL_MODE = 1 ∨ c'.get 0 DISP_CTRL_MODE = 2))) ∧
    (∃ (s : State) (t : TileId), t.val < s.ctl.tiles ∧ s.ctl.running t = true ∧ s.ctl.flag t EST_LV_CFG_EN = true) ∧
    (∃ (s : State) (t : TileId) (failAt : Option (BitVec 32)) (reach : Bool), t.val < s.ctl.tiles ∧
      (s.ctl.estOf t).commit = none) ∧
    (∃ (s : State) (t : TileId) (failAt : Option (BitVec 32)) (reach : Bool) (cause : Nat) (rest : Option (List Nat)),
    let x : MC := lvCommit s.mem s.ctl t (failAt.map (fun a => a.toNat)) reach
    let y : MC := if s.ctl.img.stage = .activating ∧ formatsDiffer s.mem 0x20 = true then (legacyCopy t x.1, x.2) else x
    let c0 := if cause = 4 ∨ cause = 7 then forN 4 (fun k (c : Ctl) => c.sched t k) (y.2.backupDone t) else y.2.backupDone t
    let c1 := if cause = 3 ∨ cause = 4 ∨ cause = 6 ∨ cause = 7 then c0.storeOptime else c0
    t.val < s.ctl.tiles ∧ (s.ctl.estOf t).commit = some (cause, rest)) :=
  ⟨⟨staleBlk, 0, sysO, 0x200, by decide⟩,
   ⟨(session .engineer world), (cmd 0x2001 [0, 0, 0, 1, 0, 0, 0, 0]), asks .engineer [0, 0, 0, 1, 0, 0, 0, 0],
     heard (session .engineer world), delivered rfl (arrives_none (by decide)) (by decide) (by decide) rfl rfl (by decide),
     by decide⟩,
   ⟨session .engineer (withBulk profile1 world), (cmd 0x2002 [0, 0, 0, 0, 0]), asks .engineer [0, 0, 0, 0, 0], _, _, profile1,
     bulk_delivered _, by decide, by decide, bulk_taken _, by decide +kernel, by decide, by rw [profile_ok]; decide,
     by rw [profile_ok]; decide, by decide, by decide⟩,
   ⟨(session .engineer world), (cmd 0x2003 [0, 0, 0, 1, 0, 0, 0, 3]), asks .engineer [0, 0, 0, 1, 0, 0, 0, 3],
     heard (session .engineer world), delivered rfl (arrives_none (by decide)) (by decide) (by decide) rfl rfl (by decide),
     by decide⟩,
   ⟨(session .operator world), (cmd 0x2010 [0, 0, 0]), asks .operator [0, 0, 0], heard (session .operator world),
     delivered rfl (arrives_none (by decide)) (by decide) (by decide) rfl rfl (by decide), by decide⟩,
   ⟨(session .engineer world), (cmd 0x2011 [0, 0, 0, 0]), asks .engineer [0, 0, 0, 0], heard (session .engineer world),
     delivered rfl (arrives_none (by decide)) (by decide) (by decide) rfl rfl (by decide), by decide⟩,
   ⟨lvOn, 0, by decide⟩,
   ⟨onTask, 0, none, true, by decide⟩,
   ⟨committing0, 0, none, true, 0, none, by decide⟩⟩

theorem witness_LimitsAndEstimationComplete_c :
    (∃ (s : State) (t : TileId) (k : Fin 32),
    let n := t.val * 32 + k.val
    let c1 := (s.ctl.put t BAL_HEAT_BUDGET 0 k).put t BAL_HEAT_STALE 1 k
    t.val < s.ctl.tiles ∧ s.ctl.running t = true ∧ s.ctl.flag t BAL_CONT_VALID k = true ∧ s.ctl.heatEp.contains n = false) ∧
    (∃ (s : State) (t : TileId),
    let f := s.ctl.get t EST_PASS_FRAME
    t.val < s.ctl.tiles ∧ s.ctl.running t = true ∧ s.ctl.systemHeld t = false ∧ s.ctl.planDue.contains t.val = true) ∧
    (∃ (s : State) (d : Datagram) (q : Req) (c' : Ctl),
    let tiles := c'.named (q.arg 0 1)
    let mode := q.arg 1 1
    let z := tiles.foldl (fun (z : MC) t => if z.2.get t BAL_CTRL_MODE = mode then z else Machine.balMode t mode (z.1,
      z.2.put t BAL_CTRL_MAN_TIMEOUT (q.arg 2 1))) (s.mem, c')
    Delivered s.ctl 0x3001 d q c' ∧ engRoles.contains q.role = true ∧ q.args.length = 3 ∧ c'.namedAbsent (q.arg 0 1) = false ∧
      mode ≤ 2 ∧ q.arg 2 1 ≠ 0 ∧ q.arg 2 1 ≤ 60 ∧
      ((mode = 0 ∨ tiles.any (fun t => c'.get t BAL_CTRL_MODE != mode && !(c'.estOf t).passed) = false))) ∧
    (∃ (s : State) (t : TileId),
    let z := zeroAll t (Machine.balMode t (tabGet 0 s.ctl.balBefore t) (s.mem, s.ctl))
    t.val < s.ctl.tiles ∧ s.ctl.running t = true ∧ s.ctl.get t BAL_CTRL_MODE = 2) ∧
    (∃ (s : State) (d : Datagram) (q : Req) (c' : Ctl),
    let t := q.arg 0 1
    let r := q.arg 1 1
    let b := q.arg 2 2
    let map := q.arg 4 2
    let k := blkKey t r b
    let z : MC := (tableFlag s.mem t r b 2 (map != 0),
      { c' with manual := if map = 0 then tabErase c'.manual k else tabSet c'.manual k { map := map, duty := q.arg 6 1 } })
    let y := if map = 0 ∧ holds z t r b then issue z t r b 0 0 else z
    Delivered s.ctl 0x3002 d q c' ∧ engRoles.contains q.role = true ∧ q.args.length = 7 ∧ c'.ringAbsent t r = false ∧ b < 512 ∧
      c'.present? t r b = true ∧ q.arg 6 1 ≤ 100 ∧ c'.get t BAL_CTRL_MODE = 2 ∧ c'.flag t RING_BLK_QUAR r b = false ∧
      ¬ (adjacent map = true ∧ c'.flag t BAL_RING_CFG_ADJACENT_PERMIT r = false)) ∧
    (∃ (s : State) (d : Datagram) (q : Req) (c' : Ctl),
    let t := q.arg 0 1
    let r := q.arg 1 1
    let b := q.arg 2 2
    Delivered s.ctl 0x3003 d q c' ∧ engRoles.contains q.role = true ∧ q.args.length = 4 ∧ c'.ringAbsent t r = false ∧ b < 512 ∧
      c'.present? t r b = true ∧ c'.flag t BAL_RING_CFG_MWB r = true ∧ c'.flag t BAL_RING_CFG_WIRE_BUSY r = false) :=
  ⟨⟨contValid, 0, 2, by decide⟩,
   ⟨planReady, 0, by decide⟩,
   ⟨(session .engineer world), (cmd 0x3001 [0, 0, 0, 0, 5]), asks .engineer [0, 0, 0, 0, 5], heard (session .engineer world),
     delivered rfl (arrives_none (by decide)) (by decide) (by decide) rfl rfl (by decide), by decide⟩,
   ⟨manual0, 0, by decide⟩,
   ⟨(session .engineer balWorld), (cmd 0x3002 [0, 0, 0, 1, 0, 0, 0, 1, 50]), asks .engineer [0, 0, 0, 1, 0, 0, 0, 1, 50],
     heard (session .engineer balWorld), delivered rfl (arrives_none (by decide)) (by decide) (by decide) rfl rfl (by decide),
     by decide⟩,
   ⟨(session .engineer balWorld), (cmd 0x3003 [0, 0, 0, 1, 0, 0]), asks .engineer [0, 0, 0, 1, 0, 0],
     heard (session .engineer balWorld), delivered rfl (arrives_none (by decide)) (by decide) (by decide) rfl rfl (by decide),
     by decide⟩⟩

theorem witness_BlockCommandsComplete_a :
    (∃ (s : State) (t : TileId) (r : RingId) (b : BlockId) (fr : RingFrame),
    let x := s.ctl.blk t r b
    t.val < s.ctl.tiles ∧ x.Takes fr 5 0x1 0) ∧
    (∃ (s : State) (t : TileId) (r : RingId) (b : BlockId) (fr : RingFrame),
    let x := s.ctl.blk t r b
    t.val < s.ctl.tiles ∧ x.Takes fr 5 0x2 6 ∧ x.thrLocked = false) ∧
    (∃ (s : State) (t : TileId) (r : RingId) (b : BlockId) (fr : RingFrame),
    let x := s.ctl.blk t r b
    t.val < s.ctl.tiles ∧ x.Takes fr 5 0x2 6 ∧ x.thrLocked = true) ∧
    (∃ (s : State) (t : TileId) (r : RingId) (b : BlockId) (fr : RingFrame),
    let x := s.ctl.blk t r b
    t.val < s.ctl.tiles ∧ x.Takes fr 5 0x3 0) ∧
    (∃ (s : State) (t : TileId) (r : RingId) (b : BlockId) (fr : RingFrame),
    let x := s.ctl.blk t r b
    t.val < s.ctl.tiles ∧ x.Takes fr 5 0x4 0) ∧
    (∃ (s : State) (t : TileId) (r : RingId) (b : BlockId) (fr : RingFrame),
    let x := s.ctl.blk t r b
    t.val < s.ctl.tiles ∧ x.Takes fr 5 0x5 16) ∧
    (∃ (s : State) (t : TileId) (r : RingId) (b : BlockId) (fr : RingFrame),
    let x := s.ctl.blk t r b
    t.val < s.ctl.tiles ∧ x.Takes fr 5 0x6 0 ∧ x.authReady = true) ∧
    (∃ (s : State) (t : TileId) (r : RingId) (b : BlockId) (fr : RingFrame),
    let x := s.ctl.blk t r b
    t.val < s.ctl.tiles ∧ x.Takes fr 5 0x6 0 ∧ x.authReady = false) ∧
    (∃ (s : State) (t : TileId) (r : RingId) (b : BlockId) (fr : RingFrame),
    let x := s.ctl.blk t r b
    t.val < s.ctl.tiles ∧ x.Takes fr 5 0x7 2) :=
  ⟨⟨blockAt, 0, 1, 0, wire 5 0x1 (List.replicate 0 0), by decide⟩,
   ⟨blockAt, 0, 1, 0, wire 5 0x2 (List.replicate 6 0), by decide⟩,
   ⟨blockLocked, 0, 1, 0, wire 5 0x2 (List.replicate 6 0), by decide⟩,
   ⟨blockAt, 0, 1, 0, wire 5 0x3 (List.replicate 0 0), by decide⟩,
   ⟨blockAt, 0, 1, 0, wire 5 0x4 (List.replicate 0 0), by decide⟩,
   ⟨blockAt, 0, 1, 0, wire 5 0x5 (List.replicate 16 0), by decide⟩,
   ⟨blockReady, 0, 1, 0, wire 5 0x6 (List.replicate 0 0), by decide⟩,
   ⟨blockAt, 0, 1, 0, wire 5 0x6 (List.replicate 0 0), by decide⟩,
   ⟨blockAt, 0, 1, 0, wire 5 0x7 (List.replicate 2 0), by decide⟩⟩

theorem witness_BlockCommandsComplete_b :
    (∃ (s : State) (t : TileId) (r : RingId) (b : BlockId) (fr : RingFrame),
    let x := s.ctl.blk t r b
    t.val < s.ctl.tiles ∧ x.Takes fr 5 0x8 4) ∧
    (∃ (s : State) (t : TileId) (r : RingId) (b : BlockId) (fr : RingFrame),
    let x := s.ctl.blk t r b
    t.val < s.ctl.tiles ∧ x.Takes fr 5 0xa 2) ∧
    (∃ (s : State) (t : TileId) (r : RingId) (b : BlockId) (fr : RingFrame),
    let x := s.ctl.blk t r b
    t.val < s.ctl.tiles ∧ x.Takes fr 5 0xb 0) ∧
    (∃ (s : State) (t : TileId) (r : RingId) (b : BlockId) (fr : RingFrame),
    let x := s.ctl.blk t r b
    t.val < s.ctl.tiles ∧ x.Takes fr 5 0xc 0) ∧
    (∃ (s : State) (t : TileId) (r : RingId) (b : BlockId) (fr : RingFrame),
    let x := s.ctl.blk t r b
    t.val < s.ctl.tiles ∧ x.Takes fr 6 0x10 4 ∧ reqArg fr.req 0 2 = 0) ∧
    (∃ (s : State) (t : TileId) (r : RingId) (b : BlockId) (fr : RingFrame),
    let x := s.ctl.blk t r b
    t.val < s.ctl.tiles ∧ x.Takes fr 6 0x10 4 ∧ reqArg fr.req 0 2 ≠ 0) ∧
    (∃ (s : State) (t : TileId) (r : RingId) (b : BlockId) (fr : RingFrame),
    let x := s.ctl.blk t r b
    t.val < s.ctl.tiles ∧ x.Takes fr 6 0x11 0) ∧
    (∃ (s : State) (t : TileId) (r : RingId) (b : BlockId) (fr : RingFrame),
    let x := s.ctl.blk t r b
    t.val < s.ctl.tiles ∧ x.Takes fr 6 0x12 0) ∧
    (∃ (s : State) (t : TileId) (r : RingId) (b : BlockId) (fr : RingFrame),
    let x := s.ctl.blk t r b
    let n := reqArg fr.req 0 1
    t.val < s.ctl.tiles ∧ x.Takes fr 5 0x9 2 ∧ fr.broadcast = false ∧ n ≤ 16) :=
  ⟨⟨blockAt, 0, 1, 0, wire 5 0x8 (List.replicate 4 0), by decide⟩,
   ⟨blockAt, 0, 1, 0, wire 5 0xa (List.replicate 2 0), by decide⟩,
   ⟨blockAt, 0, 1, 0, wire 5 0xb (List.replicate 0 0), by decide⟩,
   ⟨blockAt, 0, 1, 0, wire 5 0xc (List.replicate 0 0), by decide⟩,
   ⟨blockAt, 0, 1, 0, wire 6 0x10 (List.replicate 4 0), by decide⟩,
   ⟨blockAt, 0, 1, 0, wire 6 0x10 (1 :: List.replicate 3 0), by decide⟩,
   ⟨blockAt, 0, 1, 0, wire 6 0x11 (List.replicate 0 0), by decide⟩,
   ⟨blockAt, 0, 1, 0, wire 6 0x12 (List.replicate 0 0), by decide⟩,
   ⟨blockAt, 0, 1, 0, wire 5 0x9 (List.replicate 2 0), by decide⟩⟩

theorem witness_BlockCommandsComplete_c :
    ∃ (s : State) (t : TileId) (r : RingId) (b : BlockId) (below above : BitVec 16) (n q : Nat),
    let x := s.ctl.blk t r b
    let y : Blk := { x with openTest := none, suspended := 0, counter := (x.counter + 1) % 256 }
    let z := y.commandResponse q eOk (beBytes 2 (if 1 ≤ n then below.toNat else 0) ++ beBytes 2 (if n ≤ 15 then above.toNat else 0))
    t.val < s.ctl.tiles ∧ x.openTest = some (n, q) :=
  ⟨blockTested, 0, 1, 0, 5, 6, 3, 7, by decide⟩

theorem witness_BlockEventsComplete_a :
    (∃ (s : State) (t : TileId) (r : RingId) (b : BlockId) (fr : RingFrame) (interval : Word),
    let x : Blk := { s.ctl.blk t r b with aborts := false }
    let frame := reqArg fr.req 0 4
    let align := reqArg fr.req 4 2
    let burst := reqArg fr.req 6 1
    t.val < s.ctl.tiles ∧ x.ship = false ∧ Whole fr ∧ fr.names 1 0 = true ∧ fr.req.length = 8 ∧ x.addr ≠ none ∧ burst = 0) ∧
    (∃ (s : State) (t : TileId) (r : RingId) (b : BlockId) (fr : RingFrame) (interval : Word),
    let x : Blk := { s.ctl.blk t r b with aborts := false }
    let frame := reqArg fr.req 0 4
    let align := reqArg fr.req 4 2
    let burst := reqArg fr.req 6 1
    t.val < s.ctl.tiles ∧ x.ship = false ∧ Whole fr ∧ fr.names 1 0 = true ∧ fr.req.length = 8 ∧ x.addr ≠ none ∧ burst ≠ 0 ∧
      x.burst ≠ 0) ∧
    (∃ (s : State) (t : TileId) (r : RingId) (b : BlockId) (fr : RingFrame) (interval : Word),
    let x : Blk := { s.ctl.blk t r b with aborts := false }
    let burst := reqArg fr.req 6 1
    t.val < s.ctl.tiles ∧ x.ship = false ∧ Whole fr ∧ fr.names 1 0 = true ∧ (fr.req.length ≠ 8 ∨ x.addr = none ∨ (burst ≠ 0 ∧
      x.burst = 0))) ∧
    (∃ (s : State) (t : TileId) (r : RingId) (b : BlockId) (a : Analog) (f g : Nat),
    let x := s.ctl.blk t r b
    t.val < s.ctl.tiles ∧ x.ship = false ∧ x.sync = some (f, 0, g)) ∧
    (∃ (s : State) (t : TileId) (r : RingId) (b : BlockId) (a : Analog) (f n g : Nat),
    let x := s.ctl.blk t r b
    t.val < s.ctl.tiles ∧ x.ship = false ∧ x.sync = some (f, n, g) ∧ n ≠ 0) ∧
    (∃ (s : State) (t : TileId) (r : RingId) (b : BlockId) (fr : RingFrame),
    let x : Blk := { s.ctl.blk t r b with aborts := false }
    let el := element (x.head2 ++ leBytes 1 x.counter ++ x.sample)
    t.val < s.ctl.tiles ∧ x.ship = false ∧ Whole fr ∧ fr.names 2 0 = true ∧ x.addr ≠ none ∧ x.kept = []) ∧
    (∃ (s : State) (t : TileId) (r : RingId) (b : BlockId) (fr : RingFrame),
    let x : Blk := { s.ctl.blk t r b with aborts := false }
    t.val < s.ctl.tiles ∧ x.ship = false ∧ Whole fr ∧ fr.names 2 0 = true ∧ x.addr ≠ none ∧ x.kept ≠ []) ∧
    (∃ (s : State) (t : TileId) (r : RingId) (b : BlockId) (fr : RingFrame),
    let x : Blk := { s.ctl.blk t r b with aborts := false }
    let el := element (x.head2 ++ leBytes 1 x.counter ++ x.sample)
    t.val < s.ctl.tiles ∧ x.ship = false ∧ Whole fr ∧ fr.names 3 0 = true ∧ fr.listed.any (fun a => x.addr == some a) = true ∧
      x.addr ≠ none ∧ x.kept = []) ∧
    (∃ (s : State) (t : TileId) (r : RingId) (b : BlockId) (fr : RingFrame),
    let x : Blk := { s.ctl.blk t r b with aborts := false }
    t.val < s.ctl.tiles ∧ x.ship = false ∧ Whole fr ∧ fr.names 3 0 = true ∧ fr.listed.any (fun a => x.addr == some a) = true ∧
      x.addr ≠ none ∧ x.kept ≠ []) :=
  ⟨⟨blockAt, 0, 1, 0, wire 1 0 (List.replicate 8 0), 100000, by decide⟩,
   ⟨blockBurst, 0, 1, 0, wire 1 0 [0, 0, 0, 7, 0, 3, 1, 0], 100000, by decide⟩,
   ⟨blockAt, 0, 1, 0, wire 1 0 [0, 0, 0, 7, 0, 3, 1, 0], 100000, by decide⟩,
   ⟨blockSynced, 0, 1, 0, analog0, 7, 3, by decide⟩,
   ⟨blockBurstSynced, 0, 1, 0, analog0, 7, 2, 3, by decide⟩,
   ⟨blockAt, 0, 1, 0, wire 2 0 [], by decide⟩,
   ⟨blockKept, 0, 1, 0, wire 2 0 [], by decide⟩,
   ⟨blockAt, 0, 1, 0, wire 3 0 [0, 0, 0, 0, 0, 0], by decide⟩,
   ⟨blockKept, 0, 1, 0, wire 3 0 [0, 0, 0, 0, 0, 0], by decide⟩⟩

theorem witness_BlockEventsComplete_b :
    (∃ (s : State) (t : TileId) (r : RingId) (b : BlockId) (fr : RingFrame),
    let x : Blk := { s.ctl.blk t r b with aborts := false }
    t.val < s.ctl.tiles ∧ x.ship = false ∧ Whole fr ∧ fr.names 3 0 = true ∧
      fr.listed.any (fun a => x.addr == some a) = false) ∧
    (∃ (s : State) (t : TileId) (r : RingId) (b : BlockId) (fr : RingFrame) (upstream retime : BitVec 16),
    let x : Blk := { s.ctl.blk t r b with aborts := false }
    let n := reqArg fr.req 0 2
    let a := reqArg fr.req 2 4 + upstream.toNat
    let flags := reqArg fr.req 6 1
    let count := (if bit flags 1 then n + 65535 else n + 1) % 65536
    let acc := (a + retime.toNat) % 2 ^ 32
    let y : Blk := { x with arrival := a, assignOut := (count, acc, crc16 (fr.header ++ beBytes 2 count ++ beBytes 4 acc ++ leBytes 1 flags)) }
    t.val < s.ctl.tiles ∧ x.ship = false ∧ Whole fr ∧ fr.names 4 0 = true ∧ fr.req.length = 7 ∧ bit flags 0 = true) ∧
    (∃ (s : State) (t : TileId) (r : RingId) (b : BlockId) (fr : RingFrame) (upstream retime : BitVec 16),
    let x : Blk := { s.ctl.blk t r b with aborts := false }
    let n := reqArg fr.req 0 2
    let a := reqArg fr.req 2 4 + upstream.toNat
    let flags := reqArg fr.req 6 1
    let count := (if bit flags 1 then n + 65535 else n + 1) % 65536
    let acc := (a + retime.toNat) % 2 ^ 32
    let y : Blk := { x with arrival := a, assignOut := (count, acc, crc16 (fr.header ++ beBytes 2 count ++ beBytes 4 acc ++ leBytes 1 flags)) }
    t.val < s.ctl.tiles ∧ x.ship = false ∧ Whole fr ∧ fr.names 4 0 = true ∧ fr.req.length = 7 ∧ bit flags 0 = false) ∧
    (∃ (s : State) (t : TileId) (r : RingId) (b : BlockId),
    let x := s.ctl.blk t r b
    t.val < s.ctl.tiles ∧ x.challenge ≠ []) ∧
    (∃ (s : State) (t : TileId) (r : RingId) (b : BlockId),
    let x := s.ctl.blk t r b
    t.val < s.ctl.tiles ∧ x.ship = true) ∧
    (∃ (s : State) (t : TileId) (r : RingId) (b : BlockId),
    let x := s.ctl.blk t r b
    let d := x.pending.getD x.cmd
    t.val < s.ctl.tiles) ∧
    (∃ (s : State) (t : TileId) (r : RingId) (b : BlockId),
    let x := s.ctl.blk t r b
    t.val < s.ctl.tiles) ∧
    (∃ (s : State) (t : TileId) (r : RingId) (b : BlockId),
    let x := s.ctl.blk t r b
    t.val < s.ctl.tiles ∧ (x.pending.getD x.cmd).map ≠ 0) ∧
    (∃ (s : State) (t : TileId) (r : RingId) (b : BlockId),
    let x := s.ctl.blk t r b
    t.val < s.ctl.tiles ∧ (x.pending.getD x.cmd).map = 0) :=
  ⟨⟨blockAt, 0, 1, 0, wire 3 0 [0, 0, 0, 0, 0, 1], by decide⟩,
   ⟨blockAt, 0, 1, 0, wire 4 0 [0, 3, 0, 0, 0, 10, 1], 2, 1, by decide⟩,
   ⟨blockAt, 0, 1, 0, wire 4 0 [0, 3, 0, 0, 0, 10, 0], 2, 1, by decide⟩,
   ⟨blockReady, 0, 1, 0, by decide⟩,
   ⟨blockShipped, 0, 1, 0, by decide⟩,
   ⟨blockAt, 0, 1, 0, by decide⟩,
   ⟨blockAt, 0, 1, 0, by decide⟩,
   ⟨blockBleeding, 0, 1, 0, by decide⟩,
   ⟨blockAt, 0, 1, 0, by decide⟩⟩

theorem witness_BlockEventsComplete_c :
    (∃ (s : State) (t : TileId) (r : RingId) (b : BlockId) (which : Fin 3),
    let x := s.ctl.blk t r b
    t.val < s.ctl.tiles) ∧
    (∃ (s : State) (t : TileId) (r : RingId) (b : BlockId) (which : BitVec 3),
    let x := s.ctl.blk t r b
    t.val < s.ctl.tiles) ∧
    (∃ (s : State) (t : TileId) (r : RingId) (b : BlockId) (tone : Bool),
    let x := s.ctl.blk t r b
    let sends := x.segEnd && tone && !x.ship
    let way := (s.ctl.beaconWay t r b).foldl (fun (z : Ctl × Bool) k => (z.1.setBlk t r k { z.1.blk t r k with beacon := z.2 && (z.1.blk t r k).passesTone }, z.2 && (z.1.blk t r k).passesTone))
    t.val < s.ctl.tiles) ∧
    (∃ (s : State) (t : TileId) (r : RingId) (b : BlockId),
    let u := fun n : Nat => Config.freeValue (s.ctl.fresh + n) % 65536
    t.val < s.ctl.tiles) :=
  ⟨⟨blockAt, 0, 1, 0, 2, by decide⟩,
   ⟨blockAt, 0, 1, 0, 7, by decide⟩,
   ⟨blockAt, 0, 1, 0, true, by decide⟩,
   ⟨blockAt, 0, 1, 0, by decide⟩⟩

theorem witness_BankDispatchEventsComplete :
    (∃ (s : State) , s.ctl.coordinator.isSome = true ∧ s.ctl.bank.mode = none) ∧
    (∃ (s : State) (t : TileId), t.val < s.ctl.tiles ∧ s.ctl.bank.late.contains t.val = false) ∧
    (∃ (s : State) (t : TileId),
    let x := tabGet ({} : Lone) s.ctl.lone t
    let c1 : Ctl := { s.ctl with lone := tabSet s.ctl.lone t { x with ramping := true } }
    t.val < s.ctl.tiles ∧ s.ctl.coordinator = none ∧ x.ramping = false ∧ x.cycles ≠ 0 ∧
      s.ctl.get t DISP_CFG_AGE_LIMIT * 100 ≤ x.cycles * 10) ∧
    (∃ (s : State) (t : TileId), t.val < s.ctl.tiles ∧ s.ctl.flag t DISP_CTRL_STARTED = true) ∧
    (∃ (s : State) (t : TileId), t.val < s.ctl.tiles ∧ s.ctl.flag t DISP_CTRL_STARTED = false) ∧
    (∃ (s : State) (t : TileId) (k : Fin 32),
    let x := tabGet ({} : Slot) s.ctl.slots (t.val * 32 + k.val)
    let c1 := Ctl.putStopped { s.ctl with slots := tabSet s.ctl.slots (t.val * 32 + k.val) { x with stopped := true } } t
    t.val < s.ctl.tiles ∧ x.stopped = false ∧ s.ctl.get t DISP_CFG_REPEAT_LIMIT * 50 ≤ x.missed * 10) ∧
    (∃ (s : State) (t : TileId) (r : RingId) (str : StringId) (n at_ : Nat), t.val < s.ctl.tiles ∧
      (s.ctl.restsOf t).find? (fun e => e.1 == r.val * 32 + str.val) = some (n, at_) ∧
      ((match (s.ctl.sx t r str).rest with | some ms => decide (s.ctl.get t DISP_REST_DURATION * 1000 ≤ ms) | none => decide (at_ + 30000 ≤ s.ctl.optime)) || !bit (s.ctl.get t EST_REST_REQ_STRING r) str) = true) ∧
    (∃ (s : State) (t : TileId) (i : Fin 4), t.val < s.ctl.tiles ∧ (s.ctl.pert t i).begun = true ∧
      2000000 ≤ s.ctl.pertCycles (s.ctl.pert t i) * s.ctl.get t DISP_PERT_FREQ i) ∧
    (∃ (s : State) (t : TileId) (o : Origin) (r : RingId),
    let c1 := s.ctl.setRng t r { s.ctl.rng t r with mapCommit := some ((List.range 32).map (fun i => s.ctl.rawWord 3 t (0x2000 + r.val * 0x80 + i * 4))) }
    let has := fun q : Nat => if q = r.val then anyN 8 (fun i => s.ctl.flag t RING_SMAP_PEND_VALID r (24 + i)) else s.ctl.has24 t q
    let n := fun (f : Nat → Bool) (p : Nat) => portFrames (s.ctl.contEntry t) f p
    accessorFitted s.ctl o = true ∧ s.ctl.reachedBy o t = true ∧ s.ctl.mayConfig o = true ∧ s.ctl.mapBad s.mem t r = false ∧
      anyN 8 (fun p => decide (8 < n has p) && decide (n (fun q => s.ctl.has24 t q) p < n has p)) = false ∧
      s.ctl.rstate t r ≠ rgEnum) :=
  ⟨⟨onTask, by decide⟩,
   ⟨onTask, 1, by decide⟩,
   ⟨lonely, 1, by decide⟩,
   ⟨dispOn, 0, by decide⟩,
   ⟨onTask, 0, by decide⟩,
   ⟨slotStale, 0, 2, by decide⟩,
   ⟨resting0, 0, 1, 2, 34, 0, by decide⟩,
   ⟨perturbed, 0, 1, by decide⟩,
   ⟨onTask, 0, sysO, 1, by decide⟩⟩

theorem witness_BankDispatchCommandsComplete :
    (∃ (s : State) (d : Datagram) (q : Req) (c' : Ctl),
    let v := q.argInt 4 4
    Delivered s.ctl 0x4001 d q c' ∧ opRoles.contains q.role = true ∧ q.args.length = 8 ∧ -8000000 ≤ v ∧ v ≤ 8000000 ∧
      c'.dispModeNow = dmFollow ∧ c'.spNewer (q.arg 0 4) = true) ∧
    (∃ (s : State) (d : Datagram) (q : Req) (c' : Ctl),
    let mode := q.arg 0 1
    Delivered s.ctl 0x4002 d q c' ∧ opRoles.contains q.role = true ∧ q.args.length = 1 ∧ mode ≠ dmFollow ∧ mode ≤ 3 ∧
      ((mode = dmLocal → c'.schedule ≠ []))) ∧
    (∃ (s : State) (d : Datagram) (q : Req) (c' : Ctl),
    let v := q.argInt 5 4
    let c1 := Ctl.put { c' with bank := { c'.bank with host := some v, seq := some (q.arg 1 4) } } 0 DISP_SP_AGE_MS 0
    Delivered s.ctl 0x4002 d q c' ∧ opRoles.contains q.role = true ∧ q.args.length = 9 ∧ q.arg 0 1 = dmFollow ∧ -8000000 ≤ v ∧
      v ≤ 8000000 ∧ c'.spNewer (q.arg 1 4) = true) ∧
    (∃ (s : State) (d : Datagram) (q : Req) (c' : Ctl) (b : List Byte) (c1 : Ctl), Delivered s.ctl 0x4003 d q c' ∧
      engRoles.contains q.role = true ∧ q.args.length = 1 ∧ c'.takeBulk q (q.arg 0 1) = (eOk, b, c1) ∧ schedCode b = eOk) ∧
    (∃ (s : State) (d : Datagram) (q : Req) (c' : Ctl), Delivered s.ctl 0x4004 d q c' ∧ engRoles.contains q.role = true ∧
      q.args.length = 2 ∧ c'.running (q.arg 0 1) = true ∧ q.arg 1 1 ≤ 3 ∧
      c'.flag (q.arg 0 1) DISP_PERT_ACTIVE (q.arg 1 1) = true) ∧
    (∃ (s : State) (d : Datagram) (q : Req) (c' : Ctl) (i : Nat),
    let t := q.arg 0 1
    let r := q.arg 1 1
    let a := q.arg 2 1
    let b := q.arg 3 1
    let f := q.arg 4 2
    let n := q.arg 6 2
    let ratio := fun x : Nat => rdiv (c'.powerOf t r x).1 (c'.powerOf t r x).2
    let rated := fun x : Nat => c'.get t DISP_STR_RATED_I_RATED r x
    let busy := fun x : Nat => bit (c'.get t DISP_REST_GNT_STRING r) x || (c'.pertOn t r x).isSome
    let c1 : Ctl := { c' with perts := tabErase c'.perts (t * 4 + i) }
    let c2 := c1.put t DISP_PERT_ACTIVE 1 i |>.put t DISP_PERT_RING r i |>.put t DISP_PERT_STR_A a i |>.put t DISP_PERT_STR_B b i
    let c3 := c2.put t DISP_PERT_FREQ f i |>.put t DISP_PERT_AMPL n i
    Delivered s.ctl 0x4004 d q c' ∧ engRoles.contains q.role = true ∧ q.args.length = 8 ∧ c'.ringAbsent t r = false ∧ a < 32 ∧
      b < 32 ∧ c'.flag t RING_SMAP_ACT_VALID r a = true ∧ c'.flag t RING_SMAP_ACT_VALID r b = true ∧ 50 ≤ f ∧ f ≤ 1000 ∧
      4 * f * c'.periodMs ≤ 1000000 ∧ rated a ≠ 0 ∧ rated b ≠ 0 ∧ 50 * n ≤ rated a ∧
      50 * ((n : Rat) * rdiv (ratio a) (ratio b)) ≤ (rated b : Rat) ∧ c'.dispModeNow ≠ dmRampdown ∧ c'.takesPart t r a = true ∧
      c'.takesPart t r b = true ∧ a ≠ b ∧ busy a = false ∧ busy b = false ∧
      (List.range 4).find? (fun i => !c'.flag t DISP_PERT_ACTIVE i) = some i) :=
  ⟨⟨(session .operator followWorld), (cmd 0x4001 [0, 0, 0, 0, 0, 7, 0, 0, 0, 9]), asks .operator [0, 0, 0, 0, 0, 7, 0, 0, 0,
    9], heard (session .operator followWorld),
    delivered rfl (arrives_none (by decide)) (by decide) (by decide) rfl rfl (by decide), by decide⟩,
   ⟨(session .operator world), (cmd 0x4002 [0, 0, 1]), asks .operator [0, 0, 1], heard (session .operator world),
     delivered rfl (arrives_none (by decide)) (by decide) (by decide) rfl rfl (by decide), by decide⟩,
   ⟨(session .operator world), (cmd 0x4002 [0, 0, 0, 0, 0, 0, 7, 0, 0, 0, 9]), asks .operator [0, 0, 0, 0, 0, 0, 7, 0, 0, 0,
     9], heard (session .operator world),
     delivered rfl (arrives_none (by decide)) (by decide) (by decide) rfl rfl (by decide), by decide⟩,
   ⟨(session .engineer (withBulk schedule1 world)), (cmd 0x4003 [0, 0, 0]), asks .engineer [0, 0, 0],
     heard (session .engineer (withBulk schedule1 world)), (schedule1.zipIdx.map (fun e => (e.2, e.1))).map (fun e => e.2),
     { heard (session .engineer (withBulk schedule1 world)) with net := { (heard (session .engineer (withBulk schedule1 world))).net with bulks := [] } }, delivered rfl (arrives_none (by decide)) (by decide) (by decide) rfl rfl (by decide), by decide +kernel⟩,
   ⟨(session .engineer pertOn0), (cmd 0x4004 [0, 0, 0, 0]), asks .engineer [0, 0, 0, 0], heard (session .engineer pertOn0),
     delivered rfl (arrives_none (by decide)) (by decide) (by decide) rfl rfl (by decide), by decide⟩,
   ⟨(session .engineer pertReady), (cmd 0x4004 [0, 0, 0, 1, 0, 1, 0, 50, 0, 0]), asks .engineer [0, 0, 0, 1, 0, 1, 0, 50, 0,
     0], heard (session .engineer pertReady), 0,
     delivered rfl (arrives_none (by decide)) (by decide) (by decide) rfl rfl (by decide), by decide +kernel⟩⟩

theorem witness_LoopOperationsComplete_a :
    (∃ (s : State) (t : TileId) (k : CoreId) (d a : Fin 32) (i : Nat),
    let w := ((s.ctl.task t i).reg a).toNat
    let x := s.ctl.shadowPut t (w % 64) (bitsOf w 8 6) ((s.ctl.task t i).reg (a.val + 1)).toNat
    Executes s.ctl t k i ∧ a.val % 2 = 0 ∧ bitsOf w 14 18 = 0 ∧ bitsOf w 6 2 = 0) ∧
    (∃ (s : State) (t : TileId) (k : CoreId) (d a : Fin 32) (i : Nat),
    let w := ((s.ctl.task t i).reg a).toNat
    Executes s.ctl t k i ∧ a.val % 2 = 0 ∧ ¬ (bitsOf w 14 18 = 0 ∧ bitsOf w 6 2 = 0)) ∧
    (∃ (s : State) (t : TileId) (k : CoreId) (d a : Fin 32) (i : Nat), Executes s.ctl t k i) ∧
    (∃ (s : State) (t : TileId) (ch : ChanId), t.val < s.ctl.tiles ∧ s.ctl.loopMode t ch ≠ lmOff) ∧
    (∃ (s : State) (t : TileId) (ch : ChanId), t.val < s.ctl.tiles ∧ s.ctl.loopMode t ch = lmHold ∧
      s.ctl.flag t LOOP_CH_FB_FAIL ch = true) ∧
    (∃ (s : State) (t : TileId) (ch : ChanId), t.val < s.ctl.tiles ∧ s.ctl.loopMode t ch = lmOff ∧
      s.ctl.flag t LOOP_CH_COMMIT_PENDING ch = true) ∧
    (∃ (s : State) (t : TileId) (o : Origin) (w : Word), accessorFitted s.ctl o = true ∧ s.ctl.reachedBy o t = true ∧
      s.ctl.mayLoop o = true) ∧
    (∃ (s : State) (t : TileId) (o : Origin) (ch : ChanId) (p : Fin 64) (w : Word), accessorFitted s.ctl o = true ∧
      s.ctl.reachedBy o t = true ∧ s.ctl.mayLoop o = true ∧ paramCode p w.toNat = eOk ∧
      (s.ctl.put t (LOOP_SHADOW p) w.toNat ch |>.chan t ch).moving = false) ∧
    (∃ (s : State) (t : TileId) (o : Origin) (ch : ChanId) (p : Fin 64) (w : Word),
    let c1 := s.ctl.put t (LOOP_SHADOW p) w.toNat ch
    accessorFitted s.ctl o = true ∧ s.ctl.reachedBy o t = true ∧ s.ctl.mayLoop o = true ∧ paramCode p w.toNat = eOk ∧
      (c1.chan t ch).moving = true) :=
  ⟨⟨onLshw, 0, 0, 3, 2, 5, by decide⟩,
   ⟨onLshw, 0, 0, 3, 4, 5, by decide⟩,
   ⟨onTask, 0, 0, 3, 2, 5, by decide⟩,
   ⟨loopOn, 0, 3, by decide⟩,
   ⟨loopHeld, 0, 3, by decide⟩,
   ⟨loopPending, 0, 3, by decide⟩,
   ⟨onTask, 0, sysO, 3, by decide⟩,
   ⟨onTask, 0, sysO, 3, 1, 100, by decide⟩,
   ⟨loopMoving, 0, sysO, 3, 1, 100, by decide⟩⟩

theorem witness_LoopOperationsComplete_b :
    (∃ (s : State) (t : TileId) (o : Origin) (i : Fin 256) (w : Word), accessorFitted s.ctl o = true ∧
      s.ctl.reachedBy o t = true ∧ s.ctl.mayLoop o = true ∧ s.ctl.get t LOOP_IN_MAP_SRC i = 0) ∧
    (∃ (s : State) (t : TileId) (o : Origin) (tab : Fin 32) (j : Fin 33) (gain : Bool) (w : Word),
      accessorFitted s.ctl o = true ∧ s.ctl.reachedBy o t = true ∧ s.ctl.mayConfig o = true ∧ s.ctl.tableUsed t tab = false) ∧
    (∃ (s : State) (t : TileId) (f : Fin 16), t.val < s.ctl.tiles ∧ s.ctl.flag t LOOP_OFRAME_EN f = true ∧
      anyN 64 (fun k => s.ctl.loopMode t k != lmOff && bit (s.ctl.par t k 0x15) 15 && bitsOf (s.ctl.par t k 0x15) 8 4 == f.val) = true) ∧
    (∃ (s : State) (t : TileId) (o : Origin) (u : Fin 8),
    let w := s.ctl.traceWord t u + 2 ^ 31
    let c1 := s.ctl.put t LOOP_TRACE_COND (bitsOf w 24 3) u |>.put t LOOP_TRACE_TRIG_NODE (bitsOf w 22 2) u
    let c2 := c1.put t LOOP_TRACE_TIMEBASE (bitsOf w 16 6) u |>.put t LOOP_TRACE_PRE (w % 4096) u
    let c3 := (c2.setTrace t u {}).put t LOOP_TRACE_STATE 1 u |>.put t LOOP_TRACE_COUNT 0 u
    accessorFitted s.ctl o = true ∧ s.ctl.reachedBy o t = true ∧ s.ctl.mayConfig o = true ∧
      s.ctl.get t LOOP_TRACE_STATE u ≠ 1 ∧ s.ctl.get t LOOP_TRACE_STATE u ≠ 2 ∧ bit w 30 = false ∧ bit w 29 = false ∧
      bit w 31 = true ∧ bitsOf w 24 3 ≤ 4) ∧
    (∃ (s : State) (t : TileId) (o : Origin) (u : Fin 8),
    let w := s.ctl.traceWord t u + 2 ^ 30
    let c1 := s.ctl.put t LOOP_TRACE_COND (bitsOf w 24 3) u |>.put t LOOP_TRACE_TRIG_NODE (bitsOf w 22 2) u
    let c2 := c1.put t LOOP_TRACE_TIMEBASE (bitsOf w 16 6) u |>.put t LOOP_TRACE_PRE (w % 4096) u
    let busy := s.ctl.get t LOOP_TRACE_STATE u == 1 || s.ctl.get t LOOP_TRACE_STATE u == 2
    accessorFitted s.ctl o = true ∧ s.ctl.reachedBy o t = true ∧ s.ctl.mayConfig o = true ∧ bitsOf w 24 3 ≤ 4 ∧
      bit w 30 = true ∧ (busy = false ∨ (s.ctl.traceSame t u w = true ∧ bit w 31 = false ∧ bit w 29 = false))) ∧
    (∃ (s : State) (t : TileId) (o : Origin) (u : Fin 8),
    let w := s.ctl.traceWord t u + 2 ^ 29
    let c1 := s.ctl.put t LOOP_TRACE_COND (bitsOf w 24 3) u |>.put t LOOP_TRACE_TRIG_NODE (bitsOf w 22 2) u
    let c2 := c1.put t LOOP_TRACE_TIMEBASE (bitsOf w 16 6) u |>.put t LOOP_TRACE_PRE (w % 4096) u
    accessorFitted s.ctl o = true ∧ s.ctl.reachedBy o t = true ∧ s.ctl.mayConfig o = true ∧
      s.ctl.get t LOOP_TRACE_STATE u = 1 ∧ bit w 30 = false ∧ bit w 29 = true ∧ bit w 31 = false ∧ bitsOf w 24 3 ≤ 4 ∧
      s.ctl.traceSame t u w = true) ∧
    (∃ (s : State) (t : TileId) (u : Fin 8), t.val < s.ctl.tiles ∧ s.ctl.get t LOOP_TRACE_STATE u = 2 ∧
      s.ctl.traceOpen t u = false) ∧
    (∃ (s : State) (d : Datagram) (q : Req) (c' : Ctl),
    let t := q.arg 0 1
    let ch := q.arg 1 1
    let c1 := (c'.put t (LOOP_SHADOW 0) (q.arg 2 1) ch).loopCommit t ch
    Delivered s.ctl 0x5001 d q c' ∧ engRoles.contains q.role = true ∧ q.args.length = 3 ∧ c'.running t = true ∧ ch ≤ 63 ∧
      q.arg 2 1 ≤ 6) :=
  ⟨⟨onTask, 0, sysO, 3, 100, by decide⟩,
   ⟨onTask, 0, sysO, 3, 1, true, 100, by decide⟩,
   ⟨loopFrame, 0, 2, by decide⟩,
   ⟨onTask, 0, sysO, 3, by decide⟩,
   ⟨onTask, 0, sysO, 3, by decide⟩,
   ⟨traceArmed, 0, sysO, 3, by decide⟩,
   ⟨traceFull, 0, 3, by decide⟩,
   ⟨(session .engineer world), (cmd 0x5001 [0, 0, 0, 3, 1]), asks .engineer [0, 0, 0, 3, 1], heard (session .engineer world),
     delivered rfl (arrives_none (by decide)) (by decide) (by decide) rfl rfl (by decide), by decide⟩⟩

theorem witness_RecorderOperationsComplete_a :
    (∃ (s : State) (t : TileId) (x : Presented) (rest : List Presented),
    let c1 : Ctl := { s.ctl with presented := tabSet s.ctl.presented t rest }
    let b := c1.bucketOf t x.code
    let q := c1.get t EVT_SEQ_SEQ
    let bytes := recordBytes x q (tabGet 0 c1.withheld (t * 65536 + x.code))
    let c2 := c1.setTokens t b (c1.tokensOf t b - 1000)
    let c3 := (Ctl.incMod { c2 with withheld := tabErase c2.withheld (t * 65536 + x.code) } t EVT_SEQ_SEQ).feedSubs t x.code x.severity bytes
    t.val < s.ctl.tiles ∧ tabGet [] s.ctl.presented t = x :: rest ∧ 1000 ≤ c1.tokensOf t b) ∧
    (∃ (s : State) (t : TileId) (x : Presented) (rest : List Presented),
    let c1 : Ctl := { s.ctl with presented := tabSet s.ctl.presented t rest }
    let q := c1.get t EVT_SEQ_SEQ
    let bytes := recordBytes x q (tabGet 0 c1.withheld (t * 65536 + x.code))
    let c3 := (Ctl.incMod { c1 with withheld := tabErase c1.withheld (t * 65536 + x.code) } t EVT_SEQ_SEQ).feedSubs t x.code x.severity bytes
    t.val < s.ctl.tiles ∧ tabGet [] s.ctl.presented t = x :: rest ∧ c1.tokensOf t (c1.bucketOf t x.code) < 1000 ∧
      x.severity = 5) ∧
    (∃ (s : State) (t : TileId) (x : Presented) (rest : List Presented),
    let c1 : Ctl := { s.ctl with presented := tabSet s.ctl.presented t rest }
    t.val < s.ctl.tiles ∧ tabGet [] s.ctl.presented t = x :: rest ∧ c1.tokensOf t (c1.bucketOf t x.code) < 1000 ∧
      x.severity ≠ 5) ∧
    (∃ (s : State) (t : TileId), t.val < s.ctl.tiles ∧ tabGet [] s.ctl.presented t = []) ∧
    (∃ (s : State) (t : TileId), t.val < s.ctl.tiles ∧ tabGet [] s.ctl.tailQueue t = []) ∧
    (∃ (s : State) (t : TileId) (q : Nat) (b : List Byte) (rest : List (Nat × List Byte)), t.val < s.ctl.tiles ∧
      tabGet [] s.ctl.tailQueue t = (q, b) :: rest) ∧
    (∃ (s : State) (t : TileId) (o : Origin) (w : Word), accessorFitted s.ctl o = true ∧ s.ctl.reachedBy o t = true ∧
      s.ctl.isSystem o = true) ∧
    (∃ (s : State) (t : TileId) (o : Origin) (k : Fin 16) (w : Word), accessorFitted s.ctl o = true ∧
      s.ctl.reachedBy o t = true ∧ s.ctl.mayConfig o = true) ∧
    (∃ (s : State) (t : TileId) (o : Origin) (e : Fin 4096) (hi : Fin 2) (w : Word), accessorFitted s.ctl o = true ∧
      s.ctl.reachedBy o t = true ∧ s.ctl.mayConfig o = true ∧ hi = 0 ∧
      (bit w.toNat 31 && ((s.ctl.put t EVT_CODE_VALID 0 e).codeEntry t (w.toNat % 65536)).isSome) = false) :=
  ⟨⟨presented0, 0, rec0, [], by decide⟩,
   ⟨presentedGrave, 0, rec5, [], by decide⟩,
   ⟨presentedPoor, 0, rec0, [], by decide⟩,
   ⟨onTask, 0, by decide⟩,
   ⟨onTask, 0, by decide⟩,
   ⟨tailed, 0, 5, [], [], by decide⟩,
   ⟨onTask, 0, sysO, 3, by decide⟩,
   ⟨onTask, 0, sysO, 3, 100, by decide⟩,
   ⟨onTask, 0, sysO, 3, 0, 100, by decide⟩⟩

theorem witness_RecorderOperationsComplete_b :
    (∃ (s : State) (t : TileId) (o : Origin) (e : Fin 4096) (hi : Fin 2) (w : Word), accessorFitted s.ctl o = true ∧
      s.ctl.reachedBy o t = true ∧ s.ctl.mayConfig o = true ∧ hi = 1) ∧
    (∃ (s : State) (t : TileId) (k : CoreId) (d a : Fin 32) (i : Nat),
    let x := ((s.ctl.task t i).reg a).toNat
    let b := memBytes s.mem (localAddr t k x) 32
    let y := presentNow s.mem s.ctl t (s.ctl.emitRecord t k b)
    Executes s.ctl t k i ∧ localOk x 32 8 = true ∧ s.ctl.emitCode t k b = eOk ∧
      ((tabGet [] s.ctl.presented t).filter (fun z => z.source == 0x40 + k.val)).length < 16) ∧
    (∃ (s : State) (t : TileId) (k : CoreId) (d a : Fin 32) (i : Nat),
    let x := ((s.ctl.task t i).reg a).toNat
    let b := memBytes s.mem (localAddr t k x) 32
    Executes s.ctl t k i ∧ localOk x 32 8 = true ∧ s.ctl.emitCode t k b = eOk ∧
      16 ≤ ((tabGet [] s.ctl.presented t).filter (fun z => z.source == 0x40 + k.val)).length) :=
  ⟨⟨onTask, 0, sysO, 3, 1, 100, by decide⟩,
   ⟨onTask, 0, 0, 3, 9, 5, by decide⟩,
   ⟨emitFull, 0, 0, 3, 9, 5, by decide⟩⟩

theorem witness_DmaOperationsComplete_a :
    (∃ (s : State) (t : TileId) (ch : Fin 16) (j : Job) (rest : List Job),
    let x0 := dmaLand t (s.mem, s.ctl)
    let x := dmaServe t ch (s.ctl.dmaWork t) x0
    let y := jobEnds t j (j.parts j.rowCount 0) x.2
    t.val < s.ctl.tiles ∧ (s.ctl.chn t ch).queue = j :: rest ∧ s.ctl.get t DMA_CH_STATE ch = dmRun) ∧
    (∃ (s : State) (t : TileId) (addr : BitVec 40) (write : Bool),
    let a := addr.toNat
    let x := dmaSome t (dmaLand t (s.mem, s.ctl))
    let c1 := forN 16 (fun ch (c : Ctl) => if c.get t DMA_CH_STATE ch = dmDisabled then c else if ((c.chn t ch).under && ((c.chn t ch).queue.head?).any Job.irq) = true then (c.dmaState t ch dmHalted).irq t (8 + ch) else c.dmaState t ch dmHalted) x.2
    let c2 := c1.inc t DMA_COUNT_HALTS
    let c3 := c2.put t DMA_ERR_INFO_VALID 1 |>.put t DMA_ERR_INFO_WRITE (b2n write) |>.put t DMA_ERR_INFO_TILE (a / 2 ^ 36)
    let c4 := if c2.flag t DMA_ERR_INFO_VALID = true then c2 else c3.put t DMA_ERR_INFO_OFFSET_HI (bitsOf a 32 4) |>.put t DMA_ERR_ADDR_OFFSET_LO a
    let c5 := c4.event t 0x0B 0xA001 0 (leBytes 8 a ++ leBytes 1 (b2n write))
    let n := c5.optime :: (tabGet [] c5.dmaHalts t).filter (fun n => decide (c5.optime < n + c5.periodMs))
    let c6 : Ctl := { c5 with dmaHalts := tabSet c5.dmaHalts t n }
    t.val < s.ctl.tiles ∧ s.ctl.live t = true) ∧
    (∃ (s : State) (t : TileId), t.val < s.ctl.tiles ∧ s.ctl.recordsHalted t = true) ∧
    (∃ (s : State) (t : TileId) (o : Origin),
    let halted := ((List.range 16).drop 2).filter (fun ch => s.ctl.get t DMA_CH_STATE ch == dmHalted)
    let cut := halted.filter (fun ch => (s.ctl.chn t ch).under)
    let c0 := cut.foldl (fun (c : Ctl) ch => (c.jobCut t ch).jobEnd t ch eIntegrity true) s.ctl
    let c1 := (halted.foldl (fun (c : Ctl) ch => c.dmaNext t ch) c0).event t 0x0B 0xA003 0 (leBytes 2 (maskN 16 (fun ch => cut.contains ch)))
    accessorFitted s.ctl o = true ∧ s.ctl.reachedBy o t = true ∧ s.ctl.isSystem o = true ∧ halted ≠ []) ∧
    (∃ (s : State) (t : TileId) (o : Origin) (ch : Fin 16),
    let w := 2 ^ 31 + s.ctl.get t DMA_CH_PRIO ch
    accessorFitted s.ctl o = true ∧ s.ctl.reachedBy o t = true ∧ s.ctl.isSystem o = true ∧ 2 ≤ ch.val ∧ w % 4 ≠ 0 ∧
      bitsOf w 31 1 = 1 ∧ s.ctl.get t DMA_CH_EN ch = 0) ∧
    (∃ (s : State) (t : TileId) (o : Origin) (ch : Fin 16), accessorFitted s.ctl o = true ∧ s.ctl.reachedBy o t = true ∧
      s.ctl.isSystem o = true ∧ ch.val < 2) ∧
    (∃ (s : State) (t : TileId) (o : Origin) (ch : Fin 16),
    let w := s.ctl.get t DMA_CH_PRIO ch
    let c1 := (s.ctl.put t DMA_CH_EN 0 ch).put t DMA_CH_PRIO w ch
    let code := if c1.get t DMA_CH_STATE ch = dmHalted then eIntegrity else eState
    let y := dmaSome t (dmaLand t (s.mem, c1))
    let c0 := if (c1.chn t ch).under = true then (y.2.jobCut t ch).jobEnd t ch code true else y.2
    let c2 := (forN 16 (fun _ (c : Ctl) => c.jobEnd t ch eState true) c0).dmaState t ch dmDisabled
    accessorFitted s.ctl o = true ∧ s.ctl.reachedBy o t = true ∧ s.ctl.isSystem o = true ∧ 2 ≤ ch.val ∧ w % 4 ≠ 0 ∧
      bitsOf w 31 1 = 0 ∧ s.ctl.get t DMA_CH_EN ch = 1) ∧
    (∃ (s : State) (t : TileId) (k : CoreId) (d a : Fin 32) (i : Nat),
    let x := ((s.ctl.task t i).reg a).toNat
    let ch := ((s.ctl.task t i).reg (a.val + 1)).toNat % 16
    let b := memBytes s.mem (localAddr t k x) 32
    let num := (s.ctl.get t DMA_CH_JOBS ch + 1) % 2 ^ 32
    let j := jobOf t i num (s.ctl.level t k == 1) b
    let y := s.ctl.chn t ch
    let c1 := (s.ctl.setChn t ch { y with queue := y.queue ++ [j] }).put t DMA_CH_JOBS num ch
    let c2 := if c1.get t DMA_CH_STATE ch = dmIdle then c1.dmaNext t ch else c1
    Executes s.ctl t k i ∧ a.val % 2 = 0 ∧ d.val % 2 = 0 ∧ localOk x 32 32 = true ∧ s.ctl.dqueueCode t ch b j = eOk) ∧
    (∃ (s : State) (t : TileId) (k : CoreId) (d a : Fin 32) (i : Nat),
    let ch := ((s.ctl.task t i).reg a).toNat % 16
    let num := ((s.ctl.task t i).reg (a.val + 1)).toNat
    Executes s.ctl t k i ∧ a.val % 2 = 0 ∧ (s.ctl.chn t ch).queue.any (fun j => j.num == num) = true) :=
  ⟨⟨dmaRunning, 0, 3, job0, [], by decide⟩,
   ⟨onTask, 0, 8, true, by decide⟩,
   ⟨dmaHalted, 0, by decide⟩,
   ⟨dmaHalted, 0, sysO, by decide⟩,
   ⟨dmaOff, 0, sysO, 3, by decide⟩,
   ⟨onTask, 0, sysO, 1, by decide⟩,
   ⟨dmaRunning, 0, sysO, 3, by decide⟩,
   ⟨onDqueue, 0, 0, 4, 2, 5, by decide⟩,
   ⟨onDwait, 0, 0, 3, 2, 5, by decide⟩⟩

theorem witness_DmaOperationsComplete_b :
    ∃ (s : State) (t : TileId) (k : CoreId) (d a : Fin 32) (i : Nat),
    let ch := ((s.ctl.task t i).reg a).toNat % 16
    let num := ((s.ctl.task t i).reg (a.val + 1)).toNat
    Executes s.ctl t k i ∧ a.val % 2 = 0 ∧ (s.ctl.chn t ch).queue.any (fun j => j.num == num) = false :=
  ⟨onTask, 0, 0, 3, 2, 5, by decide⟩

theorem witness_SafetyInputsAndOutputsComplete_a :
    (∃ (s : State) (t : TileId) (i : Fin 8) (a b : Bool),
    let c1 := s.ctl.put t BERYL_INPUT_CH_A (setBit (s.ctl.get t BERYL_INPUT_CH_A) i a)
    let c2 := c1.put t BERYL_INPUT_CH_B (setBit (s.ctl.get t BERYL_INPUT_CH_B) i b)
    t.val < s.ctl.tiles ∧ bit (c2.get t BERYL_INPUT_DISC_FAULT) i = false) ∧
    (∃ (s : State) (t : TileId) (i : Fin 8) (a b : Bool),
    let c1 := s.ctl.put t BERYL_INPUT_CH_A (setBit (s.ctl.get t BERYL_INPUT_CH_A) i true)
    let c2 := c1.put t BERYL_INPUT_CH_B (setBit (s.ctl.get t BERYL_INPUT_CH_B) i true)
    let x := c2.bry t
    let c3 := c2.put t BERYL_INPUT_DISC_FAULT (setBit (c2.get t BERYL_INPUT_DISC_FAULT) i false)
    t.val < s.ctl.tiles ∧ a = true ∧ b = true ∧ bit (c2.get t BERYL_INPUT_DISC_FAULT) i = true ∧
      x.opened.contains i.val = true) ∧
    (∃ (s : State) (t : TileId) (i : Fin 8),
    let x := s.ctl.bry t
    let c1 := s.ctl.setBry t { x with opened := x.opened.filter (fun n => n != i.val) }
    let c2 := c1.put t BERYL_INPUT_DISC_FAULT (setBit (c1.get t BERYL_INPUT_DISC_FAULT) i true)
    t.val < s.ctl.tiles ∧ s.ctl.flag t BERYL_PA_IN_EN i = true ∧
      (bit (s.ctl.get t BERYL_INPUT_CH_A) i != bit (s.ctl.get t BERYL_INPUT_CH_B) i) = true ∧
      bit (s.ctl.get t BERYL_INPUT_DISC_FAULT) i = false) ∧
    (∃ (s : State) (t : TileId) (openMs pressMs skewMs : BitVec 16) (gone : BitVec 7),
    let c1 := (s.ctl.put t BERYL_INPUT_LRST_A 0).put t BERYL_INPUT_LRST_B 0
    t.val < s.ctl.tiles ∧ 100 ≤ openMs.toNat ∧ 100 ≤ pressMs.toNat ∧ pressMs.toNat ≤ 3000 ∧ skewMs.toNat ≤ 100) ∧
    (∃ (s : State) (t : TileId) (openMs pressMs skewMs : BitVec 16) (gone : BitVec 7), t.val < s.ctl.tiles ∧
      ¬ (100 ≤ openMs.toNat ∧ 100 ≤ pressMs.toNat ∧ pressMs.toNat ≤ 3000 ∧ skewMs.toNat ≤ 100)) ∧
    (∃ (s : State) (t : TileId) (a b : Bool),
    let c1 := (s.ctl.put t BERYL_INPUT_LRST_A (b2n a)).put t BERYL_INPUT_LRST_B (b2n b)
    t.val < s.ctl.tiles ∧ (a || b) = true ∧ c1.flag t BERYL_INPUT_RESET_STUCK = false) ∧
    (∃ (s : State) (t : TileId), t.val < s.ctl.tiles) ∧
    (∃ (s : State) (t : TileId) (o : Fin 8),
    let x := s.ctl.bry t
    let c1 := s.ctl.setBry t { x with hs := setBit x.hs o true, hsDue := x.hsDue.filter (fun n => n != o.val), rbDue := o.val :: x.rbDue }
    let c2 := c1.put t BERYL_OUT_ON 1 o |>.put t BERYL_OUT_HS_RB 1 o
    t.val < s.ctl.tiles ∧ x.hsDue.contains o.val = true) ∧
    (∃ (s : State) (t : TileId) (o : Fin 8) (hs ls : Bool),
    let x := s.ctl.bry t
    let c1 := (s.ctl.put t BERYL_OUT_HS_RB (b2n hs) o).put t BERYL_OUT_LS_RB (b2n ls) o
    t.val < s.ctl.tiles ∧ x.rbDue.contains o.val = true) :=
  ⟨⟨onTask, 0, 2, true, true, by decide⟩,
   ⟨discOpened, 0, 2, true, true, by decide⟩,
   ⟨inputSplit, 0, 2, by decide⟩,
   ⟨onTask, 0, 200, 200, 5, 0, by decide⟩,
   ⟨onTask, 0, 200, 4000, 5, 0, by decide⟩,
   ⟨onTask, 0, true, false, by decide⟩,
   ⟨onTask, 0, by decide⟩,
   ⟨outDue, 0, 2, by decide⟩,
   ⟨outChecked, 0, 2, true, false, by decide⟩⟩

theorem witness_SafetyInputsAndOutputsComplete_b :
    (∃ (s : State) (t : TileId) (o : Fin 8),
    let x := s.ctl.bry t
    let high := !x.lastHs.contains o.val
    let rest := x.lastHs.filter (fun n => n != o.val)
    let c1 := s.ctl.setBry t { x with pulse := tabSet x.pulse o high, lastHs := if high then o.val :: rest else rest }
    t.val < s.ctl.tiles ∧ s.ctl.flag t BERYL_PA_OUT_TEST_EN o = true ∧ s.ctl.flag t BERYL_OUT_ON o = true ∧
      tabFind x.pulse o = none ∧ x.rbDue.contains o.val = false ∧ s.ctl.outputDemand t o = none) ∧
    (∃ (s : State) (t : TileId) (o : Fin 8) (hs ls : Bool) (high : Bool),
    let x := s.ctl.bry t
    let c1 := s.ctl.setBry t { x with pulse := tabErase x.pulse o }
    let badHs := if high then hs else !hs
    let badLs := if high then !ls else ls
    t.val < s.ctl.tiles ∧ tabFind x.pulse o = some high) ∧
    (∃ (s : State) (t : TileId) (o : Fin 8) (hs ls : Bool),
    let x := s.ctl.bry t
    let badHs := hs != bit x.hs o
    let badLs := ls != bit x.ls o
    let c1 := s.ctl.outFault t o (switchOf badHs badLs)
    t.val < s.ctl.tiles ∧ tabFind x.pulse o = none ∧ (badHs || badLs) = true) ∧
    (∃ (s : State) (t : TileId) (cause : Fin 6),
    let F := match cause.val with | 0 => BERYL_SF5_LOCKSTEP | 1 => BERYL_SF5_ROM | 2 => BERYL_SF5_RAM | 3 => BERYL_SF5_CLOCK | 4 => BERYL_SF5_SUPPLY | _ => BERYL_SF5_CROSS
    let c1 := (s.ctl.put t F 1).event t 0x0A 0x6010 0 (leBytes 1 cause)
    t.val < s.ctl.tiles ∧ s.ctl.flag t F = false) ∧
    (∃ (s : State) (t : TileId) (copy1 copy2 : Bool),
    let bad := (s.ctl.put t BERYL_SF5_PARAM 1).event t 0x0A 0x6010 0 (leBytes 1 6)
    let c2 := if s.ctl.copyChecks t false copy1 = true then (s.ctl.takeCopy t false).storeCopy t true else if s.ctl.copyChecks t true copy2 = true then (s.ctl.takeCopy t true).storeCopy t false else bad
    t.val < s.ctl.tiles ∧ s.ctl.get t BERYL_STATUS_STATE = bySelftest) :=
  ⟨⟨outTested, 0, 2, by decide⟩,
   ⟨outPulsed, 0, 2, false, true, true, by decide⟩,
   ⟨onTask, 0, 2, true, false, by decide⟩,
   ⟨onTask, 0, 2, by decide⟩,
   ⟨selfTest, 0, true, true, by decide⟩⟩

theorem witness_SafetyConnectionsComplete_a :
    (∃ (s : State) (t : TileId) (n : Fin 16) (x : List Byte),
    let y := s.ctl.conn t n
    let c1 := s.ctl.setConn t n { y with slot := none }
    let c2 := c1.setConn t n { c1.conn t n with base := true, wd := true, strobe := true }
    let c3 := c2.put t BERYL_CONN_STAT_SEQ (beNat ((x.drop 2).take 2)) n |>.put t BERYL_CONN_STAT_LIVE (((x.drop 6).headD 0).toNat % 2) n
    t.val < s.ctl.tiles ∧ y.slot = some x ∧ c1.flag t BERYL_PA_CONN_EN n = true ∧ c1.get t BERYL_PA_CONN_KIND n = 0 ∧
      c1.get t BERYL_STATUS_STATE ≠ bySelftest ∧ c1.pduCheck t n x = 0) ∧
    (∃ (s : State) (t : TileId) (n : Fin 16) (x : List Byte),
    let y := s.ctl.conn t n
    let c1 := s.ctl.setConn t n { y with slot := none }
    t.val < s.ctl.tiles ∧ y.slot = some x ∧ c1.flag t BERYL_PA_CONN_EN n = true ∧ c1.get t BERYL_PA_CONN_KIND n = 0 ∧
      c1.get t BERYL_STATUS_STATE ≠ bySelftest ∧ c1.pduCheck t n x ≠ 0 ∧ c1.pduCheck t n x ≠ 7) ∧
    (∃ (s : State) (t : TileId) (n : Fin 16),
    let x := s.ctl.conn t n
    t.val < s.ctl.tiles ∧ s.ctl.flag t BERYL_PA_CONN_EN n = true ∧ s.ctl.get t BERYL_PA_CONN_KIND n = 0 ∧ x.wd = true) ∧
    (∃ (s : State) (d : Datagram) (slot : Nat) (c' : Ctl),
    let t := d.tile.toNat
    let n := (d.payload.headD 0).toNat
    s.ctl.receive 0x08 d = .accepted slot c' ∧
      ((c'.session slot).role = .operator ∨ (c'.session slot).role = .engineer ∨ (c'.session slot).role = .safety) ∧
      d.asType = none ∧ (c'.session slot).v1 = false ∧ d.status = 0 ∧ 2 ≤ d.payload.length ∧ t < c'.tiles ∧ n < 16 ∧
      c'.flag t BERYL_PA_CONN_EN n = true ∧ c'.get t BERYL_PA_CONN_KIND n = 0 ∧ c'.get t BERYL_PA_CONN_MEDIUM n = 1) ∧
    (∃ (s : State) (d : Datagram) (gone : BitVec 7) (q : Req) (c' : Ctl) (n : Nat),
    let t := q.arg 0 1
    let x := q.bytes 1 11
    let c1 := c'.setConn t n { c'.conn t n with base := true }
    let c2 := c1.put t BERYL_CONN_STAT_SEQ (beNat ((x.drop 2).take 2)) n
    let y := c2.deliberate t ((x.drop 6).headD 0).toNat gone false
    Delivered s.ctl 0x6001 d q c' ∧ q.role = .safety ∧ q.args.length = 12 ∧ t < c'.tiles ∧
      c'.get t BERYL_STATUS_STATE ≠ byHalt ∧
      (List.range 16).find? (fun n => c'.flag t BERYL_PA_CONN_EN n && c'.get t BERYL_PA_CONN_KIND n == 2 && c'.get t BERYL_PA_CONN_CID32 n % 65536 == beNat (x.take 2)) = some n ∧ c'.pduCheck t n x = 0) ∧
    (∃ (s : State) (d : Datagram) (q : Req) (c' : Ctl),
    let t := q.arg 0 1
    let c1 := (c'.copyRegs t 0x0A 0x800 0x400 0x180).setBry t { c'.bry t with owner := some q.id }
    Delivered s.ctl 0x6002 d q c' ∧ q.role = .safety ∧ q.args.length = 2 ∧ q.arg 1 1 = 0 ∧ c'.running t = true ∧
      c'.flag t BERYL_SESSION_OPEN = false) ∧
    (∃ (s : State) (d : Datagram) (q : Req) (c' : Ctl),
    let t := q.arg 0 1
    let crc := crc32c 0xFFFFFFFF (c'.rawBytes 0x0A t 0x400 96)
    Delivered s.ctl 0x6002 d q c' ∧ q.role = .safety ∧ q.args.length = 6 ∧ q.arg 1 1 = 1 ∧ c'.running t = true ∧
      c'.flag t BERYL_SESSION_OPEN = true ∧ (c'.bry t).owner = some q.id ∧ crc = q.arg 2 4 ∧ c'.paramRange t = false ∧
      c'.paramConflict t = false) ∧
    (∃ (s : State) (d : Datagram) (q : Req) (c' : Ctl),
    let t := q.arg 0 1
    Delivered s.ctl 0x6002 d q c' ∧ q.role = .safety ∧ q.args.length = 2 ∧ q.arg 1 1 = 2 ∧ c'.running t = true ∧
      c'.flag t BERYL_SESSION_OPEN = true ∧ (c'.bry t).owner = some q.id) ∧
    (∃ (s : State) (t : TileId) (o : Origin) (k : Fin 96) (w : Word) (role : Role) (q : Nat),
    let c1 := (fieldsAt 0x0A t (0x400 + 4 * k.val)).foldl (fun (c : Ctl) f => c.put t f.field (f.of w.toNat) f.i f.j) s.ctl
    o = .host role q ∧ role = .safety ∧ s.ctl.reachedBy o t = true ∧ s.ctl.running t = true ∧
      s.ctl.flag t BERYL_SESSION_OPEN = true ∧ (s.ctl.bry t).owner = some q) :=
  ⟨⟨pduArrived, 0, 2, pdu0, by decide⟩,
   ⟨pduBad, 0, 2, [], by decide⟩,
   ⟨connWatched, 0, 2, by decide⟩,
   ⟨(session .safety (connIs 2 0 1)), message 8 0 [2, 0], 0, heard (session .safety (connIs 2 0 1)),
     accepted rfl (arrives_none (by decide)) (by decide) (by decide) rfl, by decide⟩,
   ⟨(session .safety (connIs 3 2 1)), cmd 0x6001 ([0, 0, 0] ++ pdu0), 0, asks .safety ([0, 0, 0] ++ pdu0),
     heard (session .safety (connIs 3 2 1)), 3,
     delivered rfl (arrives_none (by decide)) (by decide) (by decide) rfl rfl (by decide), by decide⟩,
   ⟨(session .safety world), (cmd 0x6002 [0, 0, 0, 0]), asks .safety [0, 0, 0, 0], heard (session .safety world),
     delivered rfl (arrives_none (by decide)) (by decide) (by decide) rfl rfl (by decide), by decide⟩,
   ⟨(session .safety paramOpen), cmd 0x6002 ([0, 0, 0, 1] ++ paramCrc), asks .safety ([0, 0, 0, 1] ++ paramCrc),
     heard (session .safety paramOpen), delivered rfl (arrives_none (by decide)) (by decide) (by decide) rfl rfl (by decide),
     by decide +kernel⟩,
   ⟨(session .safety paramOpen), (cmd 0x6002 [0, 0, 0, 2]), asks .safety [0, 0, 0, 2], heard (session .safety paramOpen),
     delivered rfl (arrives_none (by decide)) (by decide) (by decide) rfl rfl (by decide), by decide⟩,
   ⟨paramOpen, 0, .host .safety 1, 2, 5, .safety, 1, by decide⟩⟩

theorem witness_SafetyConnectionsComplete_b :
    ∃ (s : State) (t : TileId), t.val < s.ctl.tiles ∧ s.ctl.flag t BERYL_SESSION_OPEN = true :=
  ⟨paramOpen, 0, by decide⟩

theorem witness_CanPortControlComplete_a :
    (∃ (s : State) (t : TileId) (o : Origin) (p : PortId),
    let v := setBit (s.ctl.canCtrl t p) 31 true
    let c0 := s.ctl.put t CAN_CTRL_INIT (bitsOf v 31 1) p |>.put t CAN_CTRL_LISTEN (bitsOf v 30 1) p |>.put t CAN_CTRL_FD_EN (bitsOf v 29 1) p
    let c1 := c0.put t CAN_CTRL_AUTO_RECOVER (bitsOf v 28 1) p |>.put t CAN_CTRL_TERM (bitsOf v 27 1) p
    let c2 := c1.put t CAN_CTRL_APP (if s.ctl.isSystem o = true then bitsOf v 26 1 else s.ctl.get t CAN_CTRL_APP p) p
    accessorFitted s.ctl o = true ∧ s.ctl.reachedBy o t = true ∧ s.ctl.mayConfig o = true ∧
      s.ctl.get t CAN_CTRL_LISTEN p = bitsOf v 30 1 ∧ s.ctl.get t CAN_CTRL_FD_EN p = bitsOf v 29 1 ∧ bit v 31 = true ∧
      bit v 25 = false ∧ bit v 24 = false ∧ s.ctl.flag t CAN_CTRL_INIT p = false ∧ (c2.canInitSet t p).canState t p ≠ cnOff) ∧
    (∃ (s : State) (t : TileId) (o : Origin) (p : PortId),
    let v := setBit (s.ctl.canCtrl t p) 31 false
    let c0 := s.ctl.put t CAN_CTRL_INIT (bitsOf v 31 1) p |>.put t CAN_CTRL_LISTEN (bitsOf v 30 1) p |>.put t CAN_CTRL_FD_EN (bitsOf v 29 1) p
    let c1 := c0.put t CAN_CTRL_AUTO_RECOVER (bitsOf v 28 1) p |>.put t CAN_CTRL_TERM (bitsOf v 27 1) p
    let c2 := c1.put t CAN_CTRL_APP (if s.ctl.isSystem o = true then bitsOf v 26 1 else s.ctl.get t CAN_CTRL_APP p) p
    accessorFitted s.ctl o = true ∧ s.ctl.reachedBy o t = true ∧ s.ctl.mayConfig o = true ∧
      s.ctl.get t CAN_CTRL_LISTEN p = bitsOf v 30 1 ∧ s.ctl.get t CAN_CTRL_FD_EN p = bitsOf v 29 1 ∧ bit v 31 = false ∧
      bit v 25 = false ∧ bit v 24 = false ∧ s.ctl.flag t CAN_CTRL_INIT p = true ∧ c2.timingBad t p = false ∧
      (c2.canCounters t p 0 0).canState t p ≠ cnOff) ∧
    (∃ (s : State) (t : TileId) (o : Origin) (p : PortId),
    let v := setBit (s.ctl.canCtrl t p) 24 true
    let c0 := s.ctl.put t CAN_CTRL_INIT (bitsOf v 31 1) p |>.put t CAN_CTRL_LISTEN (bitsOf v 30 1) p |>.put t CAN_CTRL_FD_EN (bitsOf v 29 1) p
    let c1 := c0.put t CAN_CTRL_AUTO_RECOVER (bitsOf v 28 1) p |>.put t CAN_CTRL_TERM (bitsOf v 27 1) p
    let c2 := c1.put t CAN_CTRL_APP (if s.ctl.isSystem o = true then bitsOf v 26 1 else s.ctl.get t CAN_CTRL_APP p) p
    accessorFitted s.ctl o = true ∧ s.ctl.reachedBy o t = true ∧ s.ctl.mayConfig o = true ∧
      s.ctl.get t CAN_CTRL_LISTEN p = bitsOf v 30 1 ∧ s.ctl.get t CAN_CTRL_FD_EN p = bitsOf v 29 1 ∧ bit v 31 = false ∧
      bit v 25 = false ∧ bit v 24 = true ∧ s.ctl.flag t CAN_CTRL_INIT p = false ∧ s.ctl.canState t p = cnOff) ∧
    (∃ (s : State) (t : TileId) (o : Origin) (p : PortId),
    let v := setBit (s.ctl.canCtrl t p) 25 true
    let c0 := s.ctl.put t CAN_CTRL_INIT (bitsOf v 31 1) p |>.put t CAN_CTRL_LISTEN (bitsOf v 30 1) p |>.put t CAN_CTRL_FD_EN (bitsOf v 29 1) p
    let c1 := c0.put t CAN_CTRL_AUTO_RECOVER (bitsOf v 28 1) p |>.put t CAN_CTRL_TERM (bitsOf v 27 1) p
    let c2 := c1.put t CAN_CTRL_APP (if s.ctl.isSystem o = true then bitsOf v 26 1 else s.ctl.get t CAN_CTRL_APP p) p
    accessorFitted s.ctl o = true ∧ s.ctl.reachedBy o t = true ∧ s.ctl.mayConfig o = true ∧
      s.ctl.get t CAN_CTRL_LISTEN p = bitsOf v 30 1 ∧ s.ctl.get t CAN_CTRL_FD_EN p = bitsOf v 29 1 ∧ bit v 31 = true ∧
      bit v 25 = true ∧ bit v 24 = false ∧ s.ctl.flag t CAN_CTRL_INIT p = true ∧ s.ctl.canState t p = cnInit) ∧
    (∃ (s : State) (t : TileId) (p : PortId), t.val < s.ctl.tiles ∧ s.ctl.canState t p = cnInit ∧
      s.ctl.flag t CAN_CTRL_INIT p = false) ∧
    (∃ (s : State) (t : TileId) (p : PortId),
    let c1 := ((s.ctl.put t CAN_ERRCNT_TEC 0 p).put t CAN_ERRCNT_REC 0 p).canWarn t p
    t.val < s.ctl.tiles ∧ s.ctl.canState t p = cnRecovering) ∧
    (∃ (s : State) (t : TileId) (o : Origin) (p : PortId) (w : Word),
    let bufs := (List.range 32).filter (fun b => bit w.toNat b)
    accessorFitted s.ctl o = true ∧ s.ctl.reachedBy o t = true ∧ s.ctl.canMay o t p = true ∧
      bufs.all (fun b => s.ctl.canSoft t p b && !s.ctl.windowBad t p b) = true ∧ s.ctl.canState t p ≠ cnInit ∧
      s.ctl.canState t p ≠ cnDetect ∧ s.ctl.canState t p ≠ cnOff ∧ s.ctl.flag t CAN_CTRL_LISTEN p = false ∧
      ((s.ctl.flag t CAN_CTRL_FD_EN p = true ∨ bufs.any (fun b => s.ctl.flag t CAN_TXB_FDF p b) = false))) ∧
    (∃ (s : State) (t : TileId) (o : Origin) (p : PortId) (w : Word),
    let bufs := (List.range 32).filter (fun b => bit w.toNat b)
    accessorFitted s.ctl o = true ∧ s.ctl.reachedBy o t = true ∧ s.ctl.canMay o t p = true ∧
      bufs.any (fun b => !s.ctl.canSoft t p b) = false) ∧
    (∃ (s : State) (t : TileId) (p : PortId) (a : CanTry),
    let c1 := s.ctl.canStart t p
    let c2 := c1.canEnd t p a.buf CAN_TXDONE
    let c3 := if bit (c1.get t CAN_TXCANCEL p) a.buf = true then c2.putTxBit t p a.buf CAN_TXCSENT true else c2
    t.val < s.ctl.tiles ∧ tabFind c1.canTry (canKey t p) = some a ∧ a.again = false ∧ a.buf ≠ 15) :=
  ⟨⟨canOn, 0, sysO, 2, by decide⟩,
   ⟨canTimed, 0, sysO, 2, by decide⟩,
   ⟨canBusOff, 0, sysO, 2, by decide⟩,
   ⟨onTask, 0, sysO, 2, by decide⟩,
   ⟨canJoining, 0, 2, by decide⟩,
   ⟨canRecovering, 0, 2, by decide⟩,
   ⟨canOn, 0, sysO, 2, 1, by decide⟩,
   ⟨canOn, 0, sysO, 2, 1, by decide⟩,
   ⟨canTrying, 0, 2, tryOf 1, by decide⟩⟩

theorem witness_CanPortControlComplete_b :
    (∃ (s : State) (t : TileId) (p : PortId) (a : CanTry),
    let c1 := s.ctl.canStart t p
    let c2 := c1.canEnd t p 15 CAN_TXDONE
    let c3 := if bit (c1.get t CAN_TXCANCEL p) 15 = true then c2.putTxBit t p 15 CAN_TXCSENT true else c2
    let c4 := Ctl.put { c3 with syncRef := tabSet c3.syncRef (canKey t p) (c3.stn t), followed := c3.followed.filter (fun n => n != canKey t p) } t TIME_CAN_CFG_SYNC_DONE 1 p
    t.val < s.ctl.tiles ∧ tabFind c1.canTry (canKey t p) = some a ∧ a.again = false ∧ a.buf = 15 ∧
      c3.flag t TIME_CAN_CFG_EN p = true) ∧
    (∃ (s : State) (t : TileId) (p : PortId) (x : CanTxFault) (a : CanTry),
    let c1 := s.ctl.canStart t p
    let last := bit (c1.get t CAN_TXCANCEL p) a.buf || c1.flag t CAN_TXB_ONESHOT p a.buf
    let c2 := c1.canTxFault t p x
    let c3 := if (last && c2.canPending t p a.buf) = true then c2.canEnd t p a.buf CAN_TXFAIL else c2
    t.val < s.ctl.tiles ∧ tabFind c1.canTry (canKey t p) = some a) ∧
    (∃ (s : State) (t : TileId) (p : PortId),
    let x := s.ctl.detect t p
    t.val < s.ctl.tiles ∧ s.ctl.canState t p = cnDetect) ∧
    (∃ (s : State) (t : TileId) (p : PortId) (timeout : Bool),
    let x := s.ctl.detect t p
    let c1 := s.ctl.put t CAN_RATE_VALID (b2n x.found) p |>.put t CAN_RATE_FAIL (b2n timeout) p
    let c2 := c1.put t CAN_RATE_NOMINAL (if x.found = true then x.nominal else 0) p |>.put t CAN_RATE_DATA (if x.dataFound = true then x.data else 0) p
    let c3 := c2.canFlag t p CAN_IRQ_RATE_DONE CAN_IRQ_EN_RATE_DONE
    let c4 := c3.event t 0x0C 0x8006 0 (leBytes 1 p.val ++ leBytes 4 (c3.rawWord 0x0C t (p.val * 0x2000 + 0x048)))
    t.val < s.ctl.tiles ∧ s.ctl.canState t p = cnDetect ∧ ((timeout = true ∨ (x.found = true ∧
      (x.dataFound = true ∨ x.quiet = true))))) ∧
    (∃ (s : State) (t : TileId) (o : Origin) (p : PortId),
    let n := nominalTiming (s.ctl.get t CAN_RATE_NOMINAL p)
    let c1 := s.ctl.put t CAN_NBT_NBRP n.1 p |>.put t CAN_NBT_NTSEG1 n.2.1 p |>.put t CAN_NBT_NTSEG2 n.2.2 p |>.put t CAN_NBT_NSJW n.2.2 p
    accessorFitted s.ctl o = true ∧ s.ctl.reachedBy o t = true ∧ s.ctl.mayConfig o = true ∧
      s.ctl.flag t CAN_RATE_VALID p = true ∧ s.ctl.flag t CAN_CTRL_INIT p = true ∧ s.ctl.get t CAN_RATE_DATA p = 0) ∧
    (∃ (s : State) (t : TileId) (o : Origin) (p : PortId),
    let n := nominalTiming (s.ctl.get t CAN_RATE_NOMINAL p)
    let k := s.ctl.get t CAN_RATE_DATA p
    let d := dataTiming k
    let c1 := s.ctl.put t CAN_NBT_NBRP n.1 p |>.put t CAN_NBT_NTSEG1 n.2.1 p |>.put t CAN_NBT_NTSEG2 n.2.2 p |>.put t CAN_NBT_NSJW n.2.2 p
    let c2 := c1.put t CAN_DBT_DBRP d.1 p |>.put t CAN_DBT_DTSEG1 d.2.1 p |>.put t CAN_DBT_DTSEG2 d.2.2 p |>.put t CAN_DBT_DSJW d.2.2 p
    accessorFitted s.ctl o = true ∧ s.ctl.reachedBy o t = true ∧ s.ctl.mayConfig o = true ∧
      s.ctl.flag t CAN_RATE_VALID p = true ∧ s.ctl.flag t CAN_CTRL_INIT p = true ∧ k ≠ 0) :=
  ⟨⟨canSyncing, 0, 2, tryOf 15, by decide⟩,
   ⟨canTrying, 0, 2, { kind := .crc }, tryOf 1, by decide⟩,
   ⟨canDetecting, 0, 2, by decide⟩,
   ⟨canDetecting, 0, 2, true, by decide⟩,
   ⟨canFound, 0, sysO, 2, by decide⟩,
   ⟨canFoundFd, 0, sysO, 2, by decide⟩⟩

theorem witness_CanReceptionComplete_a :
    (∃ (s : State) (t : TileId) (p : PortId) (frame : CanFrame) (n : Nat),
    let c1 := s.ctl.canRxGood t p
    t.val < s.ctl.tiles ∧ s.ctl.canState t p ≠ cnDetect ∧ s.ctl.canOnBus t p = true ∧ s.ctl.canExcepts t p frame = false ∧
      c1.consumer t p frame = some n ∧ c1.flag t CAN_CTRL_LISTEN p = false) ∧
    (∃ (s : State) (t : TileId) (p : PortId) (frame : CanFrame),
    let c1 := s.ctl.canRxGood t p
    let c2 := forN 32 (fun k (c : Ctl) => if c.flag t BAL_CONT_VALID k && c.get t BAL_CONT_PORT k == p.val && c.flag t BAL_CONT_EXT k == frame.ext && c.get t BAL_CONT_CAN_ID k == frame.id.toNat then c.heatFrame t k frame.data else c) (c1.loopFrame t p frame)
    t.val < s.ctl.tiles ∧ s.ctl.canState t p ≠ cnDetect ∧ s.ctl.canOnBus t p = true ∧ s.ctl.canExcepts t p frame = false ∧
      c1.consumer t p frame = none) ∧
    (∃ (s : State) (t : TileId) (p : PortId) (frame : CanFrame), t.val < s.ctl.tiles ∧ s.ctl.canExcepts t p frame = true) ∧
    (∃ (s : State) (t : TileId) (p : PortId) (frame : CanFrame), t.val < s.ctl.tiles ∧ s.ctl.canExcepts t p frame = false ∧
      s.ctl.canState t p = cnDetect) ∧
    (∃ (s : State) (t : TileId) (p : PortId) (kind : CanFault) (eight inData : Bool), t.val < s.ctl.tiles ∧
      s.ctl.canState t p ≠ cnDetect ∧ s.ctl.canOnBus t p = true ∧ kind ≠ .arbitration) ∧
    (∃ (s : State) (t : TileId) (o : Origin) (p : PortId) (w : BitVec 2),
    let c1 := if bit w.toNat 0 = true then s.ctl.fifoPop t p 0 else s.ctl
    accessorFitted s.ctl o = true ∧ s.ctl.reachedBy o t = true ∧ s.ctl.canMay o t p = true) ∧
    (∃ (s : State) (t : TileId) (p : PortId),
    let seq := (s.ctl.get t TIME_CAN_CFG_SEQ p + 1) % 256
    let f : CanFrame := { ext := s.ctl.flag t TIME_CAN_CFG_EXT p, fdf := false, brs := false, esi := false, rtr := false, id := BitVec.ofNat 29 (s.ctl.get t TIME_CAN_CFG_SYNC_ID p), dlc := 2, data := [BitVec.ofNat 8 seq, 0] }
    let c1 : Ctl := { s.ctl with syncRef := tabErase s.ctl.syncRef (canKey t p), followed := s.ctl.followed.filter (fun n => n != canKey t p) }
    t.val < s.ctl.tiles ∧ s.ctl.flag t TIME_CAN_CFG_EN p = true ∧ s.ctl.timeLocked t = true ∧
      s.ctl.canTakes t p false = true) ∧
    (∃ (s : State) (t : TileId) (o : Origin) (p : PortId) (seq : Byte) (ref : Nat),
    let q := 2 ^ 31 + seq.toNat
    let k := canKey t p
    let hold := b2n (decide (s.ctl.get 0 TIME_STATE_STATE = tmHoldover))
    let c1 : Ctl := { s.ctl with followed := k :: s.ctl.followed.filter (fun n => n != k) }
    let data := leBytes 1 q ++ leBytes 1 hold ++ beBytes 2 (ref / 1000000000 / 2 ^ 32) ++ beBytes 4 (c1.get t TIME_CAN_FU_SEC p) ++ beBytes 4 (c1.get t TIME_CAN_FU_NS p)
    accessorFitted s.ctl o = true ∧ s.ctl.reachedBy o t = true ∧ s.ctl.isSystem o = true ∧ tabFind s.ctl.syncRef k = some ref ∧
      s.ctl.flag t TIME_CAN_CFG_EN p = true ∧ q % 256 = s.ctl.get t TIME_CAN_CFG_SEQ p ∧ s.ctl.followed.contains k = false ∧
      s.ctl.stn t ≤ ref + 8000000 ∧ s.ctl.tileState t ≠ tsCarried) ∧
    (∃ (s : State) (t : TileId) (n : Fin 16),
    let port := s.ctl.get t BERYL_PA_CONN_PORT n
    let x := s.ctl.producePdu t n
    t.val < s.ctl.tiles ∧ s.ctl.flag t BERYL_PA_CONN_EN n = true ∧ s.ctl.get t BERYL_PA_CONN_KIND n = 1 ∧
      (s.ctl.bry t).stopped = false ∧ s.ctl.get t BERYL_STATUS_STATE ≠ bySelftest ∧ s.ctl.get t BERYL_PA_CONN_MEDIUM n = 0 ∧
      s.ctl.canTakes t port true = true) :=
  ⟨⟨canConsuming, 0, 2, frame0, 3, by decide⟩,
   ⟨canOn, 0, 2, frame0, by decide⟩,
   ⟨canOn, 0, 2, frameFd, by decide⟩,
   ⟨canDetecting, 0, 2, frame0, by decide⟩,
   ⟨canOn, 0, 2, .crc, true, false, by decide⟩,
   ⟨canOn, 0, sysO, 2, 1, by decide⟩,
   ⟨canSynced, 0, 2, by decide⟩,
   ⟨canFollow, 0, sysO, 2, 0, 0, by decide⟩,
   ⟨producing, 0, 3, by decide⟩⟩

theorem witness_CanReceptionComplete_b :
    ∃ (s : State) (t : TileId) (n : Fin 16),
    let x := s.ctl.producePdu t n
    t.val < s.ctl.tiles ∧ s.ctl.flag t BERYL_PA_CONN_EN n = true ∧ s.ctl.get t BERYL_PA_CONN_KIND n = 1 ∧
      (s.ctl.bry t).stopped = false ∧ s.ctl.get t BERYL_STATUS_STATE ≠ bySelftest ∧ s.ctl.get t BERYL_PA_CONN_MEDIUM n ≠ 0 :=
  ⟨producingEth, 0, 3, by decide⟩

theorem witness_TimeBaseEventsComplete_a :
    (∃ (s : State) (path : Fin 2) (domain : Byte) (gm : BitVec 64) (better : Bool),
    let c1 : Ctl := { s.ctl with ptp := { s.ctl.ptp with heard := tabSet s.ctl.ptp.heard path gm.toNat } }
    s.ctl.ptpTakes domain.toNat = true) ∧
    (∃ (s : State) (path : Fin 2) (domain : Byte) (offset : BitVec 64), s.ctl.ptpTakes domain.toNat = true ∧
      s.ctl.ptp.chosen = true ∧ s.ctl.get 0 TIME_STATE_PATH = path.val) ∧
    (∃ (s : State) (path : Fin 2) (delay : Word), s.ctl.tileState 0 ≠ tsOff ∧ s.ctl.flag 0 TIME_PTP_CFG_EN = true) ∧
    (∃ (s : State) , s.ctl.get 0 TIME_STATE_STATE = tmLocked) ∧
    (∃ (s : State) , s.ctl.get 0 TIME_STATE_STATE = tmHoldover) ∧
    (∃ (s : State) (path : Fin 2),
    let c1 : Ctl := { s.ctl with ptp := { s.ctl.ptp with heard := tabErase s.ctl.ptp.heard path } }
    s.ctl.ptp.chosen = true ∧ s.ctl.get 0 TIME_STATE_PATH = path.val) ∧
    (∃ (s : State) (t : TileId) (sec : BitVec 48) (ms : Fin 1000), t.val < s.ctl.tiles ∧
      (t.val = 0 ∨ (tabFind s.ctl.stnSec t).isSome = true)) ∧
    (∃ (s : State) (t : TileId) (sec : BitVec 48) (ms : Fin 1000), t.val < s.ctl.tiles ∧ s.ctl.live t = true ∧ t.val ≠ 0 ∧
      tabFind s.ctl.stnSec t = none ∧ s.ctl.stn 0 / 1000000 = sec.toNat * 1000 + ms.val) ∧
    (∃ (s : State) (t : TileId),
    let c1 := (s.ctl.put t TIME_STATE_STROBE_LOST 1).event t 0x02 0x7107
    t.val < s.ctl.tiles ∧ s.ctl.live t = true ∧ s.ctl.flag t TIME_STATE_STROBE_LOST = false) :=
  ⟨⟨ptpOn, 0, 0, 5, true, by decide⟩,
   ⟨ptpChosen, 0, 0, 5, by decide⟩,
   ⟨ptpOn, 0, 5, by decide⟩,
   ⟨timeIn 2, by decide⟩,
   ⟨timeIn 3, by decide⟩,
   ⟨ptpChosen, 0, by decide⟩,
   ⟨onTask, 0, 5, 6, by decide⟩,
   ⟨strobed, 1, 0, 0, by decide⟩,
   ⟨onTask, 0, by decide⟩⟩

theorem witness_TimeBaseEventsComplete_b :
    (∃ (s : State) (t : TileId),
    let c1 := s.ctl.put t TIME_STATE_STROBE_LOST 0
    t.val < s.ctl.tiles ∧ s.ctl.flag t TIME_STATE_STROBE_LOST = true) ∧
    (∃ (s : State) (t : TileId),
    let n := s.ctl.get t TIME_NS32_VALUE + 4
    t.val < s.ctl.tiles ∧ s.ctl.counts t = true ∧ 2 ^ 32 ≤ n) ∧
    (∃ (s : State) (t : TileId), t.val < s.ctl.tiles ∧ (s.ctl.counts t = false ∨ s.ctl.get t TIME_NS32_VALUE + 4 < 2 ^ 32)) ∧
    (∃ (s : State) (t : TileId), t.val < s.ctl.tiles) ∧
    (∃ (s : State) (t : TileId), t.val < s.ctl.tiles) :=
  ⟨⟨strobeless, 0, by decide⟩,
   ⟨ns32Last, 0, by decide⟩,
   ⟨onTask, 0, by decide⟩,
   ⟨onTask, 0, by decide⟩,
   ⟨onTask, 0, by decide⟩⟩

theorem witness_NetworkEventsComplete_a :
    (∃ (s : State) (p : Fin 2) (ten : Bool),
    let c0 := s.ctl.put 0 NET_P_LINK 1 p |>.put 0 NET_P_LOS 0 p |>.put 0 NET_P_SPEED (if ten then 2 else 1) p
    let c1 : Ctl := { c0 with net := { c0.net with sent := [] } }
    s.ctl.flag 0 NET_P_SUPPORTED p = true ∧ s.ctl.linkUp p = false ∧ ten = tabGet false s.ctl.net.tenGig p ∧
      s.ctl.net.supervisor ≠ none) ∧
    (∃ (s : State) (p : Fin 2) (ten : Bool),
    let c0 := s.ctl.put 0 NET_P_LINK 1 p |>.put 0 NET_P_LOS 0 p |>.put 0 NET_P_SPEED (if ten then 2 else 1) p
    let c1 : Ctl := { c0 with net := { c0.net with sent := [] } }
    s.ctl.flag 0 NET_P_SUPPORTED p = true ∧ s.ctl.linkUp p = false ∧ ten = tabGet false s.ctl.net.tenGig p ∧
      s.ctl.net.supervisor = none ∧ c1.activePath = 3) ∧
    (∃ (s : State) (p : Fin 2) (ten : Bool),
    let c0 := s.ctl.put 0 NET_P_LINK 1 p |>.put 0 NET_P_LOS 0 p |>.put 0 NET_P_SPEED (if ten then 2 else 1) p
    let c1 : Ctl := { c0 with net := { c0.net with sent := [] } }
    s.ctl.flag 0 NET_P_SUPPORTED p = true ∧ s.ctl.linkUp p = false ∧ ten = tabGet false s.ctl.net.tenGig p ∧
      s.ctl.net.supervisor = none ∧ c1.activePath ≠ 3 ∧ p.val = 0 ∧ s.ctl.net.bActive = false) ∧
    (∃ (s : State) (p : Fin 2) (ten : Bool),
    let c0 := s.ctl.put 0 NET_P_LINK 1 p |>.put 0 NET_P_LOS 0 p |>.put 0 NET_P_SPEED (if ten then 2 else 1) p
    let c1 : Ctl := { c0 with net := { c0.net with sent := [] } }
    s.ctl.flag 0 NET_P_SUPPORTED p = true ∧ s.ctl.linkUp p = false ∧ ten = tabGet false s.ctl.net.tenGig p ∧
      s.ctl.net.supervisor = none ∧ c1.activePath ≠ 3 ∧ ¬ (p.val = 0 ∧ s.ctl.net.bActive = false)) ∧
    (∃ (s : State) (p : Fin 2) (ten : Bool),
      (s.ctl.flag 0 NET_P_SUPPORTED p = false ∨ s.ctl.linkUp p = true ∨ ten ≠ tabGet false s.ctl.net.tenGig p)) ∧
    (∃ (s : State) (d : Datagram) (slot : Nat) (c' : Ctl), s.ctl.receive 0x07 d = .accepted slot c' ∧ d.asType = none ∧
      d.status = 0 ∧ d.tile = 0xFF ∧ d.payload.length = 16 ∧ beNat (d.payload.take 1) = d.path.val ∧
      c'.net.supervisor = some slot) ∧
    (∃ (s : State)  (slot : Nat),
    let c1 : Ctl := { s.ctl with net := { s.ctl.net with sent := [] } }
    s.ctl.net.supervisor = some slot) ∧
    (∃ (s : State) (p : Fin 2), s.ctl.net.supervisor ≠ none) ∧
    (∃ (s : State) (p : Fin 2), s.ctl.path p = paResync) :=
  ⟨⟨sfpSupervised, 1, true, by decide⟩,
   ⟨sfpIn, 0, true, by decide⟩,
   ⟨sfpBack, 0, true, by decide⟩,
   ⟨sfpSecond, 1, true, by decide⟩,
   ⟨onTask, 0, true, by decide⟩,
   ⟨(session .operator supervised), message 7 0xFF (List.replicate 16 0), 0, heard (session .operator supervised),
     accepted rfl (arrives_none (by decide)) (by decide) (by decide) rfl, by decide⟩,
   ⟨supervised, 0, by decide⟩,
   ⟨supervised, 0, by decide⟩,
   ⟨resyncing, 0, by decide⟩⟩

theorem witness_NetworkEventsComplete_b :
    (∃ (s : State) , s.ctl.net.supervisor ≠ none ∧ s.ctl.flag 0 NET_CFG_COMPAT = true ∧ s.ctl.path 0 = paStandby) ∧
    (∃ (s : State) (sub : Fin 32) (x : Sub) (t : Nat) (b : List Byte) (rest : List (Nat × List Byte)),
    let y := takeRecords t x.records
    let c1 : Ctl := { s.ctl with net := { s.ctl.net with subs := tabSet s.ctl.net.subs sub { x with records := y.2 } } }
    tabFind s.ctl.net.subs sub = some x ∧ x.records = (t, b) :: rest) ∧
    (∃ (s : State) (p : Fin 2) (l : Lookup), s.ctl.live 0 = true ∧ s.ctl.linkUp p = true) :=
  ⟨⟨compatible, by decide⟩,
   ⟨subscribed, 0, sub0, 0, [], [], by decide⟩,
   ⟨linked0, 0, .echo4 0, by decide⟩⟩

theorem witness_NetworkCommandsComplete :
    (∃ (s : State) (d : Datagram) (key : List Byte) (slot : Nat),
    let role := beNat ((d.payload.drop 4).take 1)
    let y := s.ctl.free.2.free
    let id := y.2.newId s.ctl.free.1
    let nm := beBytes 16 y.1
    let ks := Config.hmacSha256 key ([0x53, 0x4B, 0x56, 0x53] ++ (d.payload.drop 8).take 16 ++ nm ++ beBytes 4 id)
    let c1 := y.2.setSession slot { open_ := true, role := roleOf role, id := id, key := ks, v1 := decide (d.version = 1), peers := [(d.path.val, d.src)] }
    s.ctl.arrives 0x03 d = none ∧ d.asType = none ∧ s.ctl.formatOk d = true ∧ beNat (d.payload.take 2) = 0x7001 ∧
      d.payload.length = 24 ∧ d.tile = 0xFF ∧ d.status = 0 ∧ d.session = 0 ∧ role ≤ 3 ∧
      tabFind s.ctl.net.keys role = some key ∧ dgMac d 0x03 key = d.mac ∧
      (List.range 16).find? (fun i => !(s.ctl.session i).open_) = some slot) ∧
    (∃ (s : State) (d : Datagram) (q : Req) (c' : Ctl), Delivered s.ctl 0x7002 d q c' ∧ anyHost.contains q.role = true ∧
      q.args.length = 0) ∧
    (∃ (s : State) (d : Datagram) (q : Req) (c' : Ctl) (kind : SubKind) (n : Nat), Delivered s.ctl 0x7003 d q c' ∧
      ¬ (q.arg 0 1 = 2 ∧ q.role = .observer) ∧ q.subKind = some kind ∧ q.arg 0 1 ≤ 2 ∧ c'.subPresent kind = true ∧
      q.v1 = false ∧ subInRange kind = true ∧ c'.subsOf q.slot < 8 ∧ c'.net.subs.length < 32 ∧
      (List.range 32).find? (fun i => (tabFind c'.net.subs i).isNone) = some n) ∧
    (∃ (s : State) (d : Datagram) (q : Req) (c' : Ctl) (x : Sub), Delivered s.ctl 0x7004 d q c' ∧
      anyHost.contains q.role = true ∧ q.args.length = 1 ∧ tabFind c'.net.subs (q.arg 0 1) = some x ∧ x.slot = q.slot) ∧
    (∃ (s : State) (d : Datagram) (q : Req) (c' : Ctl) (n : Nat), Delivered s.ctl 0x7005 d q c' ∧
      (q.role = .engineer ∨ q.role = .safety) ∧ q.args.length = 4 ∧ q.v1 = false ∧ 1 ≤ q.arg 0 4 ∧ q.arg 0 4 ≤ 65536 ∧
      c'.net.bulks.length < 4 ∧ (List.range 4).find? (fun i => (tabFind c'.net.bulks i).isNone) = some n) ∧
    (∃ (s : State) (d : Datagram) (slot : Nat) (c' : Ctl) (b : Bulk),
    let x := c'.session slot
    let q : Req := { role := x.role, id := x.id, slot := slot, seq := d.seq.toNat, v1 := x.v1, args := d.payload }
    let data := d.payload.drop 8
    s.ctl.receive 0x09 d = .accepted slot c' ∧ d.asType = none ∧ d.status = 0 ∧ d.tile = 0xFF ∧ d.version = 2 ∧
      9 ≤ d.payload.length ∧ d.payload.length ≤ 1032 ∧ x.waiting.length < 32 ∧ tabFind c'.net.bulks (q.arg 0 1) = some b ∧
      b.slot = slot ∧ q.arg 4 4 + data.length ≤ b.len) ∧
    (∃ (s : State) (d : Datagram) (q : Req) (c' : Ctl), Delivered s.ctl 0x7006 d q c' ∧
      (q.role = .operator ∨ q.role = .engineer ∨ q.role = .safety) ∧ q.args.length = 1 ∧ q.arg 0 1 = 1 ∧
      (c'.net.supervisor = none ∨ c'.net.supervisor = some q.slot)) ∧
    (∃ (s : State) (d : Datagram) (q : Req) (c' : Ctl), Delivered s.ctl 0x7006 d q c' ∧
      (q.role = .operator ∨ q.role = .engineer ∨ q.role = .safety) ∧ q.args.length = 1 ∧ q.arg 0 1 = 0 ∧
      c'.net.supervisor = some q.slot) ∧
    (∃ (s : State) (d : Datagram) (q : Req) (c' : Ctl),
    let key := xorBytes (q.bytes 4 32) (Config.hmacSha256 (c'.session q.slot).key ([0x53, 0x4B, 0x56,
      0x4B] ++ beBytes 4 q.seq))
    Delivered s.ctl 0x7007 d q c' ∧ mayKey q.role (q.arg 0 1) = true ∧ q.args.length = 40 ∧ q.arg 0 1 ≤ 3 ∧
      (Config.hmacSha256 key [0x53, 0x4B, 0x56, 0x43]).take 4 = q.bytes 36 4) :=
  ⟨⟨(netIs (fun n => { n with keys := [(0, [])] }) linked0), messageIn 0 3 0xFF ([0x70, 1, 0, 0, 0] ++ List.replicate 19 0),
    [], 0, (arrives_none (by decide)), rfl, format_ok (mac_length _ _ _) (by decide), by decide, by decide, rfl, rfl, rfl,
    by decide, by decide, rfl, by decide⟩,
   ⟨(session .engineer world), (cmd 0x7002 [0, 0]), asks .engineer [0, 0], heard (session .engineer world),
     delivered rfl (arrives_none (by decide)) (by decide) (by decide) rfl rfl (by decide), by decide⟩,
   ⟨(session .engineer world), (cmd 0x7003 [0, 0, 0, 1, 0, 0, 0]), asks .engineer [0, 0, 0, 1, 0, 0, 0],
     heard (session .engineer world), .event 1 0 0, 0,
     delivered rfl (arrives_none (by decide)) (by decide) (by decide) rfl rfl (by decide), by decide⟩,
   ⟨(session .engineer subscribed), (cmd 0x7004 [0, 0, 0]), asks .engineer [0, 0, 0], heard (session .engineer subscribed),
     sub0, delivered rfl (arrives_none (by decide)) (by decide) (by decide) rfl rfl (by decide), by decide⟩,
   ⟨(session .engineer world), (cmd 0x7005 [0, 0, 0, 0, 0, 8]), asks .engineer [0, 0, 0, 0, 0, 8],
     heard (session .engineer world), 0, delivered rfl (arrives_none (by decide)) (by decide) (by decide) rfl rfl (by decide),
     by decide⟩,
   ⟨(session .engineer (withBulk [1, 2] world)), message 9 0xFF [0, 0, 0, 0, 0, 0, 0, 0, 5], 0,
     heard (session .engineer (withBulk [1, 2] world)), { slot := 0, len := 2, data := [(0, 1), (1, 2)] },
     accepted rfl (arrives_none (by decide)) (by decide) (by decide) rfl, by decide⟩,
   ⟨(session .engineer world), (cmd 0x7006 [0, 0, 1]), asks .engineer [0, 0, 1], heard (session .engineer world),
     delivered rfl (arrives_none (by decide)) (by decide) (by decide) rfl rfl (by decide), by decide⟩,
   ⟨(session .engineer supervised), (cmd 0x7006 [0, 0, 0]), asks .engineer [0, 0, 0], heard (session .engineer supervised),
     delivered rfl (arrives_none (by decide)) (by decide) (by decide) rfl rfl (by decide), by decide⟩,
   ⟨(session .engineer world), cmd 0x7007 keyArgs, asks .engineer keyArgs, heard (session .engineer world),
     delivered rfl rfl key_format (by decide) rfl rfl key_head, key_proof⟩⟩

theorem witness_PowerModeCommandsComplete_a :
    (∃ (s : State) (d : Datagram) (q : Req) (c' : Ctl),
    let wake := q.arg 0 4
    let x := shutdownStart 6 .standby (s.mem, { c' with pw := { c'.pw with wake := wake } })
    Delivered s.ctl 0x0001 d q c' ∧ modeRoles.contains q.role = true ∧ q.args.length = 4 ∧ (wake = 0 ∨ (60 ≤ wake ∧
      wake ≤ 604800)) ∧ c'.leaveCode = eOk) ∧
    (∃ (s : State) (d : Datagram) (q : Req) (c' : Ctl), Delivered s.ctl 0x0002 d q c' ∧ engRoles.contains q.role = true ∧
      q.args.length = 0 ∧ c'.leaveCode = eOk) ∧
    (∃ (s : State) (d : Datagram) (q : Req) (c' : Ctl), Delivered s.ctl 0x0003 d q c' ∧ modeRoles.contains q.role = true ∧
      q.args.length = 0 ∧ c'.pw.mode = .run) ∧
    (∃ (s : State) ,
    let cause := if s.ctl.pw.leaving = .standby then 6 else 7
    let x := (settle 0 (s.mem, s.ctl.storeOptime.event 0 0x01 0x0131 0 (leBytes 1 cause))).on Ctl.sendEvents
    let y : MC := if cause = 6 then settle 0 (x.on (fun c => c.event 0 0x01 0x0110)) else x
    let z := (resetAll .module tsHeld y).on (fun c => { c with pw := { c.pw with held := true }, net := { c.net with sent := y.2.net.sent } })
    (s.ctl.pw.leaving = .standby ∨ s.ctl.pw.leaving = .eject) ∧ s.ctl.pw.held = false ∧ s.ctl.anyCommit = false) ∧
    (∃ (s : State) ,
    let wake := s.ctl.pw.wake
    let x := resetAll .standby tsOff (s.mem, s.ctl)
    s.ctl.pw.leaving = .standby ∧ s.ctl.pw.held = true) ∧
    (∃ (s : State)  (a : Nat), s.ctl.pw.wakeAt = some a ∧ s.ctl.pw.mode = .standby ∧ s.ctl.pw.ejectLow = false) ∧
    (∃ (s : State) ,
    let x := chrysalisStep (s.mem, s.ctl)
    s.ctl.pw.leaving = .chrysalis) ∧
    (∃ (s : State) , s.ctl.pw.mode = .chrysalis) ∧
    (∃ (s : State) , s.ctl.pw.mode = .chrysalis ∧ s.ctl.pw.armed = true) :=
  ⟨⟨(session .operator downReady), (cmd 0x0001 [0, 0, 0, 0, 0, 0]), asks .operator [0, 0, 0, 0, 0, 0],
    heard (session .operator downReady), delivered rfl (arrives_none (by decide)) (by decide) (by decide) rfl rfl (by decide),
    by decide⟩,
   ⟨(session .engineer downReady), (cmd 0x0002 [0, 0]), asks .engineer [0, 0], heard (session .engineer downReady),
     delivered rfl (arrives_none (by decide)) (by decide) (by decide) rfl rfl (by decide), by decide⟩,
   ⟨(session .operator world), (cmd 0x0003 [0, 0]), asks .operator [0, 0], heard (session .operator world),
     delivered rfl (arrives_none (by decide)) (by decide) (by decide) rfl rfl (by decide), by decide⟩,
   ⟨leaving .standby, by decide⟩,
   ⟨leavingHeld .standby, by decide⟩,
   ⟨asleep, 100, by decide⟩,
   ⟨leavingHeld .chrysalis, by decide⟩,
   ⟨inMode .chrysalis, by decide⟩,
   ⟨armedWake, by decide⟩⟩

theorem witness_PowerModeCommandsComplete_b :
    (∃ (s : State) (o : Origin) (t : TileId),
    let v := setBit s.ctl.holdBits t true
    let x := tileCtrlDown t (bit v (8 + t)) (s.mem, s.ctl.put 0 MOD_TILE_CTRL_HOLD (bitsOf v 9 7))
    accessorFitted s.ctl o = true ∧ s.ctl.reachedBy o 0 = true ∧
      ((s.ctl.isSystem o = true ∨ isRole o .engineer = true ∨ isRole o .management = true)) ∧ 1 ≤ t.val ∧
      s.ctl.tileCtrlCode v [t.val] [] [] = eOk) ∧
    (∃ (s : State) (o : Origin) (t : TileId),
    let v := setBit s.ctl.holdBits (8 + t) true
    let x := tileCtrlDown t true (s.mem, s.ctl.put 0 MOD_TILE_CTRL_HOLD (bitsOf v 9 7))
    accessorFitted s.ctl o = true ∧ s.ctl.reachedBy o 0 = true ∧
      ((s.ctl.isSystem o = true ∨ isRole o .engineer = true ∨ isRole o .management = true)) ∧ 1 ≤ t.val ∧
      bit s.ctl.holdBits (8 + t) = false ∧ s.ctl.tileCtrlCode v [] [t.val] [t.val] = eOk) ∧
    (∃ (s : State) (o : Origin) (t : TileId),
    let v := setBit s.ctl.holdBits (8 + t) false
    let c1 := s.ctl.put 0 MOD_TILE_CTRL_HOLD (bitsOf v 9 7)
    accessorFitted s.ctl o = true ∧ s.ctl.reachedBy o 0 = true ∧
      ((s.ctl.isSystem o = true ∨ isRole o .engineer = true ∨ isRole o .management = true)) ∧ 1 ≤ t.val ∧
      bit s.ctl.holdBits (8 + t) = true ∧ s.ctl.tileCtrlCode v [] [t.val] [] = eOk) :=
  ⟨⟨onTask, sysO, 1, by decide⟩,
   ⟨onTask, sysO, 1, by decide⟩,
   ⟨heldTile, sysO, 1, by decide⟩⟩

theorem witness_PowerEventsComplete_a :
    (∃ (s : State) , s.ctl.pw.vin = false) ∧
    (∃ (s : State) , s.ctl.pw.mode = .off ∧ s.ctl.pw.vin = true) ∧
    (∃ (s : State) , s.ctl.pw.mode = .off ∧ s.ctl.pw.vin = true ∧ s.ctl.pw.charged = true ∧ s.ctl.pw.ejectLow = false) ∧
    (∃ (s : State) (d : VinDip), d = .removed) ∧
    (∃ (s : State) (d : VinDip), d = .below30 ∧ s.ctl.pw.mode = .off) ∧
    (∃ (s : State) (d : VinDip), (d = .below34 ∨ (d = .below30 ∧ s.ctl.pw.mode ≠ .off))) ∧
    (∃ (s : State) , s.ctl.pw.mrstLow = false ∧ s.ctl.pw.mode = .run ∧ s.ctl.pw.leaving = .none) ∧
    (∃ (s : State) , s.ctl.pw.mrstLow = false ∧ s.ctl.pw.mode = .run ∧ s.ctl.pw.leaving = .eject ∧ s.ctl.pw.held = false) ∧
    (∃ (s : State) , s.ctl.pw.mrstLow = false ∧ ¬ (s.ctl.pw.mode = .run ∧ s.ctl.pw.leaving = .none) ∧ ¬ (s.ctl.pw.mode = .run ∧
      s.ctl.pw.leaving = .eject ∧ s.ctl.pw.held = false)) :=
  ⟨⟨unpowered0, by decide⟩,
   ⟨applied0, by decide⟩,
   ⟨charged0, by decide⟩,
   ⟨onTask, .removed, by decide⟩,
   ⟨charged0, .below30, by decide⟩,
   ⟨onTask, .below34, by decide⟩,
   ⟨onTask, by decide⟩,
   ⟨leavingOpen .eject, by decide⟩,
   ⟨inMode .chrysalis, by decide⟩⟩

theorem witness_PowerEventsComplete_b :
    (∃ (s : State) , s.ctl.pw.mrstLow = true ∧ s.ctl.pw.mode = .run ∧ s.ctl.pw.leaving = .none) ∧
    (∃ (s : State) , s.ctl.pw.mrstLow = true ∧ s.ctl.pw.mode = .standby) ∧
    (∃ (s : State) , s.ctl.pw.ejectLow = false ∧ s.ctl.pw.mode = .run ∧ s.ctl.pw.leaving = .none) ∧
    (∃ (s : State) , s.ctl.pw.mode = .run ∧ s.ctl.pw.leaving = .eject ∧ s.ctl.pw.held = true) ∧
    (∃ (s : State) ,
    let c1 := Ctl.commitAll { s.ctl with pw := { s.ctl.pw with warned := true, warnDue := true } } 4
    s.ctl.pw.mode = .run ∧ s.ctl.pw.warned = false) ∧
    (∃ (s : State) , s.ctl.pw.warned = true) ∧
    (∃ (s : State) (t : TileId) (clock : Fin 5), t.val < s.ctl.tiles) ∧
    (∃ (s : State) (t : TileId) (m : Margin),
    let code := s.ctl.get t PWR_AVS_CODE
    let c1 := if m = .tooSmall then s.ctl else s.ctl.put t PWR_STATUS_AVS_LIMIT 0
    t.val < s.ctl.tiles) ∧
    (∃ (s : State) (t : TileId), t.val < s.ctl.tiles ∧ s.ctl.flag t PWR_STATUS_AVS_LIMIT = true) :=
  ⟨⟨mrstDown .run, by decide⟩,
   ⟨mrstDown .standby, by decide⟩,
   ⟨onTask, by decide⟩,
   ⟨leavingHeld .eject, by decide⟩,
   ⟨onTask, by decide⟩,
   ⟨warned0, by decide⟩,
   ⟨onTask, 0, 3, by decide⟩,
   ⟨onTask, 0, .tooSmall, by decide⟩,
   ⟨avsAtLimit, 0, by decide⟩⟩

theorem witness_PowerEventsComplete_c :
    (∃ (s : State) (t : TileId), t.val < s.ctl.tiles) ∧
    (∃ (s : State) (t : TileId) (eHw : Word) (tj : BitVec 16) (mw : Word),
    let z := dmaLand t (s.mem, s.ctl)
    let c0 := if z.2.tileState t = tsOff then z.2 else z.2.berylTick t
    let cs := c0.loopSettled t
    let ct := Ctl.timelyLock { cs with ticks := tabSet cs.ticks t (tabGet 0 cs.ticks t + 1) } t
    let c1 := ct.tileTimers t
    let c2 := if t.val = 0 ∧ c1.live 0 = true then c1.moduleTimers else c1
    t.val < s.ctl.tiles ∧ c0.tileState t ≠ tsOff ∧ c0.tileState t ≠ tsHeld ∧ c0.tileState t ≠ tsFault) ∧
    (∃ (s : State) (t : TileId), t.val < s.ctl.tiles ∧ s.ctl.boots t = true) ∧
    (∃ (s : State) (t : TileId),
    let c1 := s.ctl.tileFault t TILE_RESET_CAUSE_FAULT .fault
    t.val < s.ctl.tiles ∧ s.ctl.tileState t = tsBoot) ∧
    (∃ (s : State) ,
    let up := (List.range s.ctl.tiles).filter (fun t => s.ctl.running t)
    let z := up.foldl (fun (z : MC) t => Machine.balMode t 1 z) (s.mem,
      { s.ctl with pw := { s.ctl.pw with readyDue := false } })
    let a := z.2.measure
    let b := a.2.measure
    let d := b.2.measure
    let e := d.2.measure
    s.ctl.pw.readyDue = true ∧ up ≠ [] ∧
      up.any (fun t => !(s.ctl.estOf t).passed || (s.ctl.estOf t).reload.isSome) = false) :=
  ⟨⟨onTask, 0, by decide⟩,
   ⟨onTask, 0, 5, 6, 7, by decide⟩,
   ⟨booting, 0, by decide⟩,
   ⟨booting, 0, by decide⟩,
   ⟨allReady, by decide⟩⟩

theorem witness_RegisterAndHostAccessComplete :
    (∃ (s : State) (t : TileId) (o : Origin) (k : Fin 20) (off : Fin 16384) (w : Word),
    let x := regWrite s.mem s.ctl o t k (4 * off.val) w.toNat
    accessorFitted s.ctl o = true ∧ s.ctl.reachedBy o t = true ∧ x.2 = eOk ∧
      violates s.ctl o (fun c => (regWrite s.mem c o t k (4 * off.val) w.toNat).1.2) = false) ∧
    (∃ (s : State) (t : TileId) (o : Origin) (k : Fin 20) (off : Fin 16384) (w : Word), accessorFitted s.ctl o = true ∧
      s.ctl.reachedBy o t = true ∧ s.ctl.mayConfig o = true ∧ k.val = 0x0D ∧ off.val = 3 ∧ 1 ≤ bitsOf w.toNat 0 21 ∧
      bitsOf w.toNat 0 21 ≤ 1048576) ∧
    (∃ (s : State) (d : Datagram) (slot : Nat) (c' : Ctl),
    let x := c'.session slot
    let q : Req := { role := x.role, id := x.id, slot := slot, seq := d.seq.toNat, v1 := x.v1, args := d.payload }
    let a := q.arg 0 5
    let n := q.arg 6 2
    let off := a % 2 ^ 36
    s.ctl.receive 0x01 d = .accepted slot c' ∧ d.asType = none ∧ d.status = 0 ∧ tileMatches d = true ∧ d.payload.length = 8 ∧
      x.waiting.length < 32 ∧ (regionsOf off n).any (fun g => !hostGrant q.role false g) = false ∧
      c'.hostCode a n false = eOk ∧ 1 ≤ n ∧ n ≤ 1024 ∧ rangeOf off ≠ 2) ∧
    (∃ (s : State) (d : Datagram) (slot : Nat) (c' : Ctl),
    let x := c'.session slot
    let q : Req := { role := x.role, id := x.id, slot := slot, seq := d.seq.toNat, v1 := x.v1, args := d.payload }
    let a := q.arg 0 5
    let n := q.arg 6 2
    let off := a % 2 ^ 36
    let y := hostWords s.mem q.origin (a / 2 ^ 36) (wordOffs off n) c'
    s.ctl.receive 0x01 d = .accepted slot c' ∧ d.asType = none ∧ d.status = 0 ∧ tileMatches d = true ∧ d.payload.length = 8 ∧
      x.waiting.length < 32 ∧ (regionsOf off n).any (fun g => !hostGrant q.role false g) = false ∧
      c'.hostCode a n false = eOk ∧ 1 ≤ n ∧ n ≤ 1024 ∧ rangeOf off = 2 ∧
      (wordOffs (off / 4 * 4) (off % 4 + n + 3)).any (fun w => systemRead (a / 2 ^ 36) (blockOf w) (blockOff w)) = false) ∧
    (∃ (s : State) (d : Datagram) (slot : Nat) (c' : Ctl),
    let x := c'.session slot
    let q : Req := { role := x.role, id := x.id, slot := slot, seq := d.seq.toNat, v1 := x.v1, args := d.payload }
    let a := q.arg 0 5
    let n := q.arg 6 2
    let off := a % 2 ^ 36
    s.ctl.receive 0x02 d = .accepted slot c' ∧ d.asType = none ∧ d.status = 0 ∧ tileMatches d = true ∧ 8 ≤ d.payload.length ∧
      d.payload.length = 8 + beNat ((d.payload.drop 6).take 2) ∧ x.waiting.length < 32 ∧
      (regionsOf off n).any (fun g => !hostGrant q.role true g) = false ∧ rangeOf off ≠ 2 ∧ c'.hostCode a n true = eOk ∧
      1 ≤ n ∧ n ≤ 1024) ∧
    (∃ (s : State) (d : Datagram) (slot : Nat) (c' : Ctl),
    let x := c'.session slot
    let q : Req := { role := x.role, id := x.id, slot := slot, seq := d.seq.toNat, v1 := x.v1, args := d.payload }
    let a := q.arg 0 5
    let n := q.arg 6 2
    let off := a % 2 ^ 36
    let data := q.bytes 8 n
    let words : Nat → List (Nat × Nat) := fun n => (wordOffs (off / 4 * 4) n).map (fun v => (v,
      leNat ((data.drop (v - off / 4 * 4)).take 4)))
    let y := writeWords q.origin (a / 2 ^ 36) (words n) ((s.mem, c'), eOk)
    s.ctl.receive 0x02 d = .accepted slot c' ∧ d.asType = none ∧ d.status = 0 ∧ tileMatches d = true ∧ 8 ≤ d.payload.length ∧
      d.payload.length = 8 + beNat ((d.payload.drop 6).take 2) ∧ x.waiting.length < 32 ∧
      (regionsOf off n).any (fun g => !hostGrant q.role true g) = false ∧ rangeOf off = 2 ∧
      (words (off % 4 + n + 3)).any (fun v => violates c' q.origin (fun c => (regWrite s.mem c q.origin (a / 2 ^ 36) (blockOf v.1) (blockOff v.1) v.2).1.2)) = false ∧ c'.hostCode a n true = eOk ∧ 1 ≤ n ∧ n ≤ 1024 ∧ y.2 = eOk) ∧
    (∃ (s : State) (sub : Fin 32) (x : Sub) (tile trigger decim : Nat) (ranges : List (Nat × Nat)),
    let c1 : Ctl := { s.ctl with net := { s.ctl.net with subs := tabSet s.ctl.net.subs sub { x with due := false } } }
    let y := c1.session x.slot
    let z := ranges.foldl (telemRange s.mem y.role (.host y.role y.id)) ([], c1)
    let c2 : Ctl := { z.2 with status := s.ctl.status }
    tabFind s.ctl.net.subs sub = some x ∧ x.kind = .telem tile trigger decim ranges ∧ x.due = true) :=
  ⟨⟨onTask, 0, sysO, 13, 3, 5, by decide⟩,
   ⟨onTask, 0, sysO, 13, 3, 5, by decide⟩,
   ⟨(session .engineer world), message 1 0 (access0 0x1000 4 []), 0, heard (session .engineer world),
     accepted rfl (arrives_none (by decide)) (by decide) (by decide) rfl, by decide⟩,
   ⟨(session .engineer world), message 1 0 (access0 0x200000000 4 []), 0, heard (session .engineer world),
     accepted rfl (arrives_none (by decide)) (by decide) (by decide) rfl, by decide⟩,
   ⟨(session .engineer world), message 2 0 (access0 0x80001000 4 [1, 2, 3, 4]), 0, heard (session .engineer world),
     accepted rfl (arrives_none (by decide)) (by decide) (by decide) rfl, by decide⟩,
   ⟨(session .engineer world), message 2 0 (access0 0x200060200 4 [1, 0, 0, 0]), 0, heard (session .engineer world),
     accepted rfl (arrives_none (by decide)) (by decide) (by decide) rfl, by decide⟩,
   ⟨telemDue, 0, subDue, 0, 1, 1, [], by decide⟩⟩

theorem witness_TwoWireBusComplete_a :
    (∃ (s : State) (x : TargetRead),
    let c1 := s.ctl.busAfter x.stop
    let out := (List.range x.n.toNat).map (fun i => s.ctl.sideByte s.mem ((s.ctl.twb.ptr + i) % 65536))
    s.ctl.twbOn = true) ∧
    (∃ (s : State) (x : TargetWrite) (hi lo b : Byte) (rest : List Byte),
    let p := hi.toNat * 256 + lo.toNat
    let page := p / 64 * 64
    let c1 := s.ctl.busAfter x.stop
    let c2 : Ctl := { c1 with twb := { c1.twb with ptr := page + (p + (b :: rest).length) % 64 } }
    let y := sideApply s.mem c2 page (stageBytes p (b :: rest) [])
    s.ctl.twbOn = true ∧ x.bytes = hi :: lo :: b :: rest) ∧
    (∃ (s : State) (x : TargetWrite) (hi lo : Byte),
    let p := hi.toNat * 256 + lo.toNat
    let c1 := s.ctl.busAfter x.stop
    s.ctl.twbOn = true ∧ x.bytes = [hi, lo]) ∧
    (∃ (s : State) (x : TargetWrite), s.ctl.twbOn = true ∧ x.bytes.length < 2) ∧
    (∃ (s : State) ,
    let c1 := s.ctl.busAfter true
    let x := sideGo s.mem { c1 with twb := { c1.twb with ptr := 0x101 } }
    s.ctl.twbOn = true ∧ s.ctl.twb.state ≠ 1) ∧
    (∃ (s : State) (path : Byte) (addr : Word) (pfx : Byte) (gw : Word),
    let c1 := s.ctl.busAfter true
    let args := [path] ++ beBytes 4 addr.toNat ++ [pfx] ++ beBytes 4 gw.toNat
    let area := stageBytes 0x104 (beBytes 2 0x9001 ++ beBytes 2 10 ++ args) []
    let c2 := Ctl.putReq { c1 with twb := { c1.twb with ptr := 0x112 } } 0 area
    let c3 : Ctl := { c2 with twb := { c2.twb with lastWr := eOk, wrCount := (c2.twb.wrCount + 1) % 65536 } }
    let c4 := c3.busAfter true
    let x := sideGo s.mem { c4 with twb := { c4.twb with ptr := 0x101 } }
    s.ctl.twbOn = true ∧ s.ctl.twb.state ≠ 1) ∧
    (∃ (s : State) ,
    let c1 := s.ctl.busAfter true
    let area := stageBytes 0x104 (beBytes 2 0x9002 ++ beBytes 2 0) []
    let c2 := Ctl.putReq { c1 with twb := { c1.twb with ptr := 0x108 } } 0 area
    let c3 : Ctl := { c2 with twb := { c2.twb with lastWr := eOk, wrCount := (c2.twb.wrCount + 1) % 65536 } }
    let c4 := c3.busAfter true
    let x := sideGo s.mem { c4 with twb := { c4.twb with ptr := 0x101 } }
    s.ctl.twbOn = true ∧ s.ctl.twb.state ≠ 1) ∧
    (∃ (s : State) ,
    let ms := if s.ctl.pw.mrstLow = true then satAdd 32 s.ctl.pw.mrstMs 1 else s.ctl.pw.mrstMs
    let aon := if s.ctl.live 0 = true then s.ctl.pw.aonMs else s.ctl.pw.aonMs + 1
    let c1 := if 1000 ≤ aon then s.ctl.incMod 0 TIME_AON_SEC else s.ctl
    let c2 : Ctl := { c1 with pw := { c1.pw with mrstMs := ms, aonMs := aon % 1000 }, optime := if c1.live 0 = true then c1.optime else satAdd 48 c1.optime 1 }
    s.ctl.twbOn = true) ∧
    (∃ (s : State) , s.ctl.twbOn = true) :=
  ⟨⟨onTask, { n := 4 }, by decide⟩,
   ⟨onTask, { bytes := [4, 0, 0] }, 4, 0, 0, [], by decide⟩,
   ⟨onTask, { bytes := [4, 0] }, 4, 0, by decide⟩,
   ⟨onTask, { bytes := [4] }, by decide⟩,
   ⟨onTask, by decide⟩,
   ⟨onTask, 0, 5, 24, 1, by decide⟩,
   ⟨onTask, by decide⟩,
   ⟨onTask, by decide⟩,
   ⟨onTask, by decide⟩⟩

theorem witness_TwoWireBusComplete_b :
    (∃ (s : State) , s.ctl.twbOn = true) ∧
    (∃ (s : State) (o : Origin) (w : Word),
    let v := w.toNat
    let a := jobAddr v
    let c1 := s.ctl.put 0 TWB_JOB_RETRIES (bitsOf v 29 2) |>.put 0 TWB_JOB_ADDR a |>.put 0 TWB_JOB_WLEN (jobWlen v) |>.put 0 TWB_JOB_RLEN (jobRlen v)
    accessorFitted s.ctl o = true ∧ s.ctl.reachedBy o 0 = true ∧ s.ctl.isSystem o = true ∧ bit v 31 = true ∧
      a ≠ s.ctl.twb.taddr ∧ 8 ≤ a ∧ a < 0x78 ∧ jobWlen v ≤ 64 ∧ jobRlen v ≤ 64 ∧ s.ctl.flag 0 TWB_RESULT_BUSY = false) ∧
    (∃ (s : State) (b : BusCheck),
    let on := fun c : Ctl => Ctl.put { c with twb := { c.twb with sending := true, jobOut := c.jobBytes } } 0 TWB_STATUS_BUS_BUSY 1
    let c1 := s.ctl.inc 0 TWB_COUNT_CLEARS
    s.ctl.flag 0 TWB_RESULT_BUSY = true ∧ s.ctl.twb.sending = false ∧ s.ctl.twbOn = true ∧ ((b = .high →
      s.ctl.flag 0 TWB_STATUS_BUS_BUSY = false))) ∧
    (∃ (s : State) ,
    let c1 := s.ctl.inc 0 TWB_COUNT_ARB_LOST
    let v := c1.openDone
    s.ctl.twb.sending = true) ∧
    (∃ (s : State) (e : JobEnd),
    let v := s.ctl.twb.job
    let stop := fun c : Ctl => (c.put 0 TWB_STATUS_BUS_BUSY 0).put 0 TWB_STATUS_STUCK 0
    s.ctl.twb.sending = true) :=
  ⟨⟨onTask, by decide⟩,
   ⟨onTask, sysO, 0x84008000, by decide⟩,
   ⟨jobReady, .high, by decide⟩,
   ⟨jobSending, by decide⟩,
   ⟨jobSending, .noAddress false, by decide⟩⟩

theorem witness_ImageCommandsComplete :
    (∃ (s : State) (d : Datagram) (q : Req) (c' : Ctl),
    let n := q.arg 0 4
    let c1 : Ctl := { c' with img := { c'.img with len := n, granules := [] } }
    Delivered s.ctl 0xB001 d q c' ∧ engRoles.contains q.role = true ∧ q.args.length = 4 ∧ 1024 ≤ n ∧ n ≤ 33554432 ∧
      n % 16 = 0 ∧ c'.img.stage ≠ .activating ∧ c'.img.stage ≠ .trial ∧ c'.img.stage ≠ .fallback ∧ c'.img.stage ≠ .verify) ∧
    (∃ (s : State) (d : Datagram) (q : Req) (c' : Ctl) (b : List Byte) (c1 : Ctl),
    let off := q.arg 0 4
    let g := (List.range ((b.length + 1023) / 1024)).map (fun i => off / 1024 + i)
    Delivered s.ctl 0xB002 d q c' ∧ engRoles.contains q.role = true ∧ q.args.length = 5 ∧ c'.takeBulk q (q.arg 4 1) = (eOk, b,
      c1) ∧ c1.img.stage = .download ∧ (off % 1024 = 0 ∧ off + b.length ≤ c1.img.len ∧
      (b.length % 1024 = 0 ∨ off + b.length = c1.img.len))) ∧
    (∃ (s : State) (d : Datagram) (q : Req) (c' : Ctl), Delivered s.ctl 0xB003 d q c' ∧ engRoles.contains q.role = true ∧
      q.args.length = 0 ∧ c'.img.stage = .download ∧ (c'.img.len + 1023) / 1024 ≤ c'.img.granules.length) ∧
    (∃ (s : State) (programOk : Bool),
    let v := verifyCode s.mem s.ctl
    s.ctl.img.stage = .verify ∧ v.1 ≠ eOk) ∧
    (∃ (s : State) (programOk : Bool),
    let b := s.ctl.inactive
    let c1 := s.ctl.writeBoot (s.ctl.img.boot.with b .empty)
    let m1 := (List.range c1.tiles).foldl (fun m' t => memCopy m' stageAddr (bankAddr t b) c1.img.len) s.mem
    let r := c1.img.boot.with b .verified
    let c2 := c1.writeBoot (if b = true then { r with digestB := Config.sha384 (memBytes s.mem stageAddr c1.img.len) } else { r with digestA := Config.sha384 (memBytes s.mem stageAddr c1.img.len) })
    let v := verifyCode s.mem s.ctl
    s.ctl.img.stage = .verify ∧ programOk = true) ∧
    (∃ (s : State) (programOk : Bool),
    let b := s.ctl.inactive
    let c1 := s.ctl.writeBoot (s.ctl.img.boot.with b .empty)
    let x := c1.free
    let m1 := (List.range c1.tiles).foldl (fun m' t => memCopy m' stageAddr (bankAddr t b) (x.1 % (c1.img.len + 1))) s.mem
    let v := verifyCode s.mem s.ctl
    s.ctl.img.stage = .verify ∧ programOk = false) ∧
    (∃ (s : State) (d : Datagram) (q : Req) (c' : Ctl),
    let mode := q.arg 0 1
    let pause := mode == 1 || !c'.hasCarry
    let c1 : Ctl := { c' with img := { c'.img with byPause := pause, commits := pause, revert := false, rollTile := none, rollBack := false, legacyRead := false } }
    let c2 := ((c1.inc 0 IMG_COUNT_ACTIVATE).setStage .activating).event 0 0x0E 0xB004 0 (leBytes 1 mode)
    Delivered s.ctl 0xB004 d q c' ∧ engRoles.contains q.role = true ∧ q.args.length = 1 ∧ activateCode s.mem c' mode = eOk) ∧
    (∃ (s : State) (d : Datagram) (q : Req) (c' : Ctl), Delivered s.ctl 0xB005 d q c' ∧ engRoles.contains q.role = true ∧
      q.args.length = 0 ∧ c'.confirmCode = eOk) :=
  ⟨⟨(session .engineer world), (cmd 0xB001 [0, 0, 0, 0, 4, 0]), asks .engineer [0, 0, 0, 0, 4, 0],
    heard (session .engineer world), delivered rfl (arrives_none (by decide)) (by decide) (by decide) rfl rfl (by decide),
    by decide⟩,
   ⟨(session .engineer (withBulk [1, 2] (imgIs (fun i => { i with stage := .download, len := 2, granules := [] }) world))),
     cmd 0xB002 [0, 0, 0, 0, 0, 0, 0], asks .engineer [0, 0, 0, 0, 0, 0, 0], heard (session .engineer (withBulk [1,
     2] (imgIs (fun i => { i with stage := .download, len := 2, granules := [] }) world))), [1, 2],
     { heard (session .engineer (withBulk [1, 2] (imgIs (fun i => { i with stage := .download, len := 2, granules := [] }) world))) with net := { (heard (session .engineer (withBulk [1, 2] (imgIs (fun i => { i with stage := .download, len := 2, granules := [] }) world)))).net with bulks := [] } }, delivered rfl (arrives_none (by decide)) (by decide) (by decide) rfl rfl (by decide), by decide⟩,
   ⟨(session .engineer downloaded), (cmd 0xB003 [0, 0]), asks .engineer [0, 0], heard (session .engineer downloaded),
     delivered rfl (arrives_none (by decide)) (by decide) (by decide) rfl rfl (by decide), by decide⟩,
   ⟨verifying, true, by decide⟩,
   ⟨verifying, true, by decide⟩,
   ⟨verifying, false, by decide⟩,
   ⟨(session .engineer activatable), (cmd 0xB004 [0, 0, 1]), asks .engineer [0, 0, 1], heard (session .engineer activatable),
     delivered rfl (arrives_none (by decide)) (by decide) (by decide) rfl rfl (by decide), by decide⟩,
   ⟨(session .engineer confirmable), (cmd 0xB005 [0, 0]), asks .engineer [0, 0], heard (session .engineer confirmable),
     delivered rfl (arrives_none (by decide)) (by decide) (by decide) rfl rfl (by decide), by decide⟩⟩

theorem witness_ImageEventsComplete_a :
    (∃ (s : State) , s.ctl.img.stage = .activating ∧ s.ctl.img.commits = true ∧ s.ctl.anyCommit = false) ∧
    (∃ (s : State) ,
    let x := pauseEnd (s.mem, s.ctl)
    s.ctl.img.paused = true) ∧
    (∃ (s : State)  (t : Nat),
    let x := imageRestart t s.ctl.targetBank (s.mem, s.ctl)
    s.ctl.img.paused = false ∧ s.ctl.img.rollTile = some t ∧ s.ctl.carry t = csCarried ∧
      s.ctl.img.onB.contains t ≠ s.ctl.targetBank) ∧
    (∃ (s : State)  (t : Nat), s.ctl.rolling = true ∧ s.ctl.img.rollTile = none ∧ s.ctl.nextRoll = some t) ∧
    (∃ (s : State) , s.ctl.img.rollTile ≠ none) ∧
    (∃ (s : State) (o : Origin), accessorFitted s.ctl o = true ∧ s.ctl.reachedBy o 0 = true ∧ s.ctl.isSystem o = true ∧
      s.ctl.confirmCode = eOk) ∧
    (∃ (s : State) (t : TileId) (o : Origin), accessorFitted s.ctl o = true ∧ s.ctl.reachedBy o t = true ∧
      s.ctl.isSystem o = true ∧ s.ctl.img.stage = .trial ∧ s.ctl.flag t IMG_STATUS_SELF_OK = false ∧
      s.ctl.flag t IMG_STATUS_SELF_FAIL = false) ∧
    (∃ (s : State) (t : TileId) (o : Origin), accessorFitted s.ctl o = true ∧ s.ctl.reachedBy o t = true ∧
      s.ctl.isSystem o = true ∧ s.ctl.img.stage = .trial ∧ s.ctl.flag t IMG_STATUS_SELF_OK = false ∧
      s.ctl.flag t IMG_STATUS_SELF_FAIL = false) ∧
    (∃ (s : State) , s.ctl.img.stage = .trial) :=
  ⟨⟨activating0, by decide⟩,
   ⟨paused0, by decide⟩,
   ⟨rolledOut, 1, by decide⟩,
   ⟨rolling0, 0, by decide⟩,
   ⟨rolledOut, by decide⟩,
   ⟨confirmable, sysO, by decide⟩,
   ⟨trial0, 0, sysO, by decide⟩,
   ⟨trial0, 0, sysO, by decide⟩,
   ⟨trial0, by decide⟩⟩

theorem witness_ImageEventsComplete_b :
    ∃ (s : State) (t : TileId) (o : Origin),
    let v := s.ctl.get t CARRY_CTRL_AUTO * 2 ^ 31 + 1
    let c1 := s.ctl.put t CARRY_CTRL_AUTO (bitsOf v 31 1)
    accessorFitted s.ctl o = true ∧ s.ctl.reachedBy o t = true ∧ s.ctl.isSystem o = true ∧ s.ctl.hasCarry = true ∧
      s.ctl.tileState t = tsCarried :=
  ⟨carriedTile, 1, .casda 1 0, by decide⟩

theorem witness_AnIdleStepPassesTime :
    ∃ s : State, s.pending = [] :=
  ⟨State.reset, by decide⟩

theorem witness_CommandsStopOnlyForAnAbsentTile :
    (∃ (i : Instr) (s : State), Acts i s) ∧
    (∃ (i : Instr) (s : State) (t : Nat), actor i = some t ∧ s.ctl.tiles ≤ t) :=
  ⟨⟨.nop 1 ⟨0, 0⟩, State.reset, fun t h => by simp only [actor, Option.some.injEq] at h; subst h; decide⟩,
   ⟨.nop 3 ⟨0, 0⟩, twoTiles, 3, by decide⟩⟩

theorem witness_CommandsLeaveTheQueue :
    ∃ (i : Instr) (s u : State), exec i s = .next u :=
  ⟨.supervisionSend, State.reset, _, rfl⟩

theorem witness_OtherCommandsLeaveMemory :
    ∃ (i : Instr) (s u : State), mayStore i = false ∧ exec i s = .next u :=
  ⟨.supervisionSend, State.reset, _, rfl, rfl⟩

theorem witness_StepKeepsMemoryForm :
    ∃ s u : State, Memory.wf s.mem = true ∧ step s = .next u :=
  ⟨withCommand .supervisionSend, _, rfl, rfl⟩

theorem witness_ResetState :
    ∃ (t : Nat) (_ : Origin), t < 8 :=
  ⟨7, .host .engineer 1, by decide⟩

theorem witness_IllegalInstructionsTrap :
    (∃ (s : State) (t : TileId) (k : CoreId) (b : Fin 32) (func : Fin 2048) (i : Nat), Executes s.ctl t k i ∧
      aluFn func 0 0 b = none) ∧
    (∃ (s : State) (t : TileId) (k : CoreId) (b : Fin 32) (func : Fin 2048) (i : Nat), Executes s.ctl t k i ∧
      aluUnary func = true ∧ b.val ≠ 0) ∧
    (∃ (s : State) (t : TileId) (k : CoreId) (a : Fin 32) (i : Nat), Executes s.ctl t k i ∧ a.val ≠ 0) ∧
    (∃ (s : State) (t : TileId) (k : CoreId) (d : Fin 32) (i : Nat), Executes s.ctl t k i ∧ d.val % 2 = 1) ∧
    (∃ (s : State) (t : TileId) (k : CoreId) (func : Fin 2048) (i : Nat), Executes s.ctl t k i ∧ 8 ≤ func.val) ∧
    (∃ (s : State) (t : TileId) (k : CoreId) (i : Nat), Executes s.ctl t k i ∧ i ≠ 0) ∧
    (∃ (s : State) (t : TileId) (k : CoreId) (i : Nat), t < s.ctl.tiles ∧ s.ctl.runningTask t k = some i ∧
      s.ctl.coreHeld t k = false ∧ (s.ctl.task t i).wait = .none ∧ 0x40000 ≤ (s.ctl.task t i).pc) :=
  ⟨⟨onTask, 0, 0, 2, 0x7FF, 5, by decide⟩,
   ⟨onTask, 0, 0, 2, 0x24, 5, by decide⟩,
   ⟨onTask, 0, 0, 1, 5, by decide⟩,
   ⟨onTask, 0, 0, 31, 5, by decide⟩,
   ⟨onTask, 0, 0, 8, 5, by decide⟩,
   ⟨onTask, 0, 0, 5, by decide⟩,
   ⟨farTask, 0, 0, 5, by decide⟩⟩

theorem witness_TrapsStopTheTaskAndQueue :
    (∃ (t i : Nat), t < 8 ∧ i < 256 ∧ i ≠ 0) ∧
    (∃ (c : Ctl) (t i : Nat), t < 8 ∧ i < 256 ∧ i ≠ 0 ∧ c.waitsForTrigger t 0 = false) ∧
    (∃ (c : Ctl) (t i : Nat), t < 8 ∧ i < 256 ∧ i ≠ 0 ∧ c.waitsForTrigger t 0 = true) :=
  ⟨⟨7, 255, by decide⟩,
   ⟨onTask.ctl, 0, 5, by decide⟩,
   ⟨trapWaits.ctl, 0, 5, by decide⟩⟩

theorem witness_ScalarRegisterZero :
    (∃ n m : Nat, n ≠ 0 ∧ m ≠ n) ∧
    (∃ (s : State) (t : TileId) (k : CoreId) (i : Nat), Executes s.ctl t k i) ∧
    (∃ (s : State) (t : TileId) (k : CoreId) (i : Nat), Executes s.ctl t k i) :=
  ⟨⟨31, 0, by decide⟩,
   ⟨onTask, 0, 0, 5, by decide⟩,
   ⟨onTask, 0, 0, 5, by decide⟩⟩

theorem witness_BranchTargets :
    (∃ (s : State) (t : TileId) (k : CoreId) (op : BranchOp) (a b : Fin 32) (i : Nat), Executes s.ctl t k i ∧
      branchTaken op ((s.ctl.task t i).reg a) ((s.ctl.task t i).reg b) = true) ∧
    (∃ (s : State) (t : TileId) (k : CoreId) (i : Nat), Executes s.ctl t k i) :=
  ⟨⟨onTask, 0, 0, .beq, 0, 0, 5, by decide⟩,
   ⟨onTask, 0, 0, 5, by decide⟩⟩

theorem witness_DivisionCorners :
    (∃ (s : State) (t : TileId) (k : CoreId) (b : Fin 32) (i : Nat), Executes s.ctl t k i ∧ (s.ctl.task t i).reg b = 0) ∧
    (∃ (s : State) (t : TileId) (k : CoreId) (a b : Fin 32) (i : Nat), Executes s.ctl t k i ∧
      (s.ctl.task t i).reg a = 0x80000000#32 ∧ (s.ctl.task t i).reg b = 0xFFFFFFFF#32) :=
  ⟨⟨onTask, 0, 0, 0, 5, by decide⟩,
   ⟨divTask, 0, 0, 1, 2, 5, by decide⟩⟩

theorem witness_PredicateZero :
    (∃ l : Nat, l < 32) ∧
    (∃ p q : Nat, p ≠ 0 ∧ q ≠ 0 ∧ q ≠ p) :=
  ⟨⟨31, by decide⟩,
   ⟨7, 1, by decide⟩⟩

theorem witness_LoadsOfATask :
    (∃ (c : Ctl) (t : TileId) (i a n : Nat), (regionsOf (a % 2 ^ 36) n).contains .blocks = false ∧
      (regionsOf (a % 2 ^ 36) n).all (fun r => memGrant (c.level t (i / 64) == 1) (ownCore t i (a / 2 ^ 36)) false r) = true ∧
      c.reaches t a = true ∧ inConfigStore (a % 2 ^ 36) n = false) ∧
    (∃ (c : Ctl) (t : TileId) (i a n : Nat), (regionsOf (a % 2 ^ 36) n).contains .blocks = false ∧
      (regionsOf (a % 2 ^ 36) n).any (fun r => !memGrant (c.level t (i / 64) == 1) (ownCore t i (a / 2 ^ 36)) false r) = true) ∧
    (∃ (m : Mem) (c : Ctl) (t : TileId) (i a n : Nat), (regionsOf (a % 2 ^ 36) n).contains .blocks = true ∧
      (n ≠ 4 ∨ a % 4 ≠ 0) ∧
      violates c (taskOrigin t i) (fun c => (c.regRead m (taskOrigin t i) (a / 2 ^ 36) (blockOf (a % 2 ^ 36 / 4 * 4)) (blockOff (a % 2 ^ 36 / 4 * 4))).2) = false) ∧
    (∃ (c : Ctl) (t : TileId) (i a n : Nat), (regionsOf (a % 2 ^ 36) n).contains .blocks = false ∧
      (regionsOf (a % 2 ^ 36) n).all (fun r => memGrant (c.level t (i / 64) == 1) (ownCore t i (a / 2 ^ 36)) false r) = true ∧
      c.reaches t a = false) :=
  ⟨⟨onTask.ctl, 0, 5, 0x10, 8, by decide⟩,
   ⟨appTask.ctl, 0, 69, 0x300000000, 4, by decide⟩,
   ⟨[], onTask.ctl, 0, 5, 0x200000002, 4, by decide⟩,
   ⟨onTask.ctl, 0, 5, 0x9000000000, 4, by decide⟩⟩

theorem witness_ScalarStoresWriteTheirBytes :
    (∃ (s : State) (t : TileId) (k : CoreId) (op : StoreOp) (d a : Fin 32) (imm : BitVec 16) (i x : Nat),
      Executes s.ctl t k i ∧ (op = .sdp → d.val % 2 = 0) ∧
      (regionsOf (s.ctl.dataAddr t i ((s.ctl.task t i).reg a + imm.signExtend 32) % 2 ^ 36) (storeCode op).2).contains .blocks = false ∧ (x < s.ctl.dataAddr t i ((s.ctl.task t i).reg a + imm.signExtend 32) ∨ s.ctl.dataAddr t i ((s.ctl.task t i).reg a + imm.signExtend 32) + (storeCode op).2 ≤ x)) ∧
    (∃ (s : State) (t : TileId) (k : CoreId) (op : StoreOp) (a : Fin 32) (imm : BitVec 16) (i j : Nat), Executes s.ctl t k i ∧
      op ≠ .sdp ∧
      (regionsOf (s.ctl.dataAddr t i ((s.ctl.task t i).reg a + imm.signExtend 32) % 2 ^ 36) (storeCode op).2).all (fun r => r.isMem && memGrant (s.ctl.level t k == 1) (ownCore t i (s.ctl.dataAddr t i ((s.ctl.task t i).reg a + imm.signExtend 32) / 2 ^ 36)) true r) = true ∧ s.ctl.reaches t (s.ctl.dataAddr t i ((s.ctl.task t i).reg a + imm.signExtend 32)) = true ∧ j < (storeCode op).2) ∧
    (∃ (s : State) (t : TileId) (k : CoreId) (a : Fin 32) (func : Fin 2048) (i x : Nat), Executes s.ctl t k i ∧ func.val < 8 ∧
      (x < s.ctl.dataAddr t i ((s.ctl.task t i).reg a) ∨ s.ctl.dataAddr t i ((s.ctl.task t i).reg a) + 4 ≤ x)) :=
  ⟨⟨onTask, 0, 0, .sdp, 2, 0, 16, 5, 24, by decide⟩,
   ⟨onTask, 0, 0, .sw, 0, 16, 5, 3, by decide⟩,
   ⟨onTask, 0, 0, 0, 7, 5, 4, by decide⟩⟩

theorem witness_VectorStoresWriteTheirLanes :
    ∃ (s : State) (t i r p e x : Nat) (addr : Nat → Nat), ∀ l < 32, (s.ctl.vecOf t).active p l = true →
      x < modAddr t (addr l) ∨ modAddr t (addr l) + elemSize e ≤ x :=
  ⟨onVector, 0, 5, 1, 0, 0, 128, (fun l => 4 * l), by decide⟩

theorem witness_RepeatedBlockFrames :
    (∃ (s : State) (c : Instr) (t : TileId) (r : RingId) (b : BlockId) (fr : RingFrame) (ty cmd : Nat),
      blockFrame c = some (t, r, b, fr, ty, cmd) ∧ t < s.ctl.tiles ∧ (s.ctl.blk t r b).ship = false ∧ Whole fr ∧
      fr.names ty cmd = true ∧ (fr.broadcast = true ∨ (s.ctl.blk t r b).addr = some (fr.addr.toNat % 1024)) ∧
      (if fr.broadcast then (s.ctl.blk t r b).lastBc else (s.ctl.blk t r b).lastUni) = some fr.seq.toNat) ∧
    (∃ (s : State) (t : TileId) (r : RingId) (b : BlockId) (fr : RingFrame), t < s.ctl.tiles ∧ (s.ctl.blk t r b).ship = false ∧
      Whole fr ∧ fr.names 5 0x0C = true ∧ (fr.broadcast = true ∨ (s.ctl.blk t r b).addr = some (fr.addr.toNat % 1024)) ∧
      (if fr.broadcast then (s.ctl.blk t r b).lastBc else (s.ctl.blk t r b).lastUni) = some fr.seq.toNat) ∧
    (∃ (x : Blk) (fr : RingFrame) (ty cmd len : Nat) (f : Blk → BlkResult), x.Takes fr ty cmd len ∧ (∀ y,
      (f y).2.2.lastUni = y.lastUni ∧ (f y).2.2.lastBc = y.lastBc)) :=
  ⟨⟨blockRepeat, .ping 0 1 0 (wireSeq 7 5 0x0B []), 0, 1, 0, _, _, _, rfl, by decide⟩,
   ⟨blockRepeat, 0, 1, 0, wireSeq 7 5 0x0C [], by decide⟩,
   ⟨{ addr := some 0 }, wireSeq 7 5 0x0B [], 5, 0x0B, 0, (fun y => (0, [], y)), by decide, fun _ => ⟨rfl, rfl⟩⟩⟩

theorem witness_LowerMedianAndMad :
    ∃ l : List Int, l ≠ [] :=
  ⟨[4, -2, 9, 3], by decide⟩

theorem witness_ApplicationBalancingNeedsManual :
    ∃ (s : State) (t : TileId) (k : CoreId) (a : Fin 32) (i g : Nat), Executes s.ctl t k i ∧ a.val % 2 = 0 ∧
      s.ctl.level t k = 0 ∧ s.ctl.get t BAL_CTRL_MODE ≠ 2 ∧ bitsOf ((s.ctl.task t i).reg (a.val + 1)).toNat 7 9 = 0 ∧
      s.ctl.targetTile t ((s.ctl.task t i).reg a).toNat = some g ∧
      s.ctl.present? g (((s.ctl.task t i).reg a).toNat % 16384 / 512) (((s.ctl.task t i).reg a).toNat % 512) = true ∧
      ((s.ctl.task t i).reg (a.val + 1)).toNat % 128 ≤ 100 :=
  ⟨appDuty, 0, 1, 2, 69, 0, by decide⟩

theorem witness_ConfirmationRaisesTheEpoch :
    ∃ (c : Ctl) (m : Mem), mfField m (bankAddr 0 (!c.inactive)) 0x18 2 < (c.confirm m).img.boot.epochMin :=
  ⟨epochTwo.ctl, epochTwo.mem, by decide⟩

theorem witness_CommandsAboveTheRoleAreSilent :
    ∃ (s : State) (d : Datagram) (i : Instr) (code : Nat) (roles : List Role) (q : Req) (c' : Ctl), (i, code,
      roles) = (.imgBegin d, 0xB001, engRoles) ∧ Delivered s.ctl code d q c' ∧ roles.contains q.role = false :=
  ⟨(session .observer world), (cmd 0xB001 [0, 0]), .imgBegin (cmd 0xB001 [0, 0]), 0xB001, engRoles, asks .observer [0, 0],
    heard (session .observer world), rfl,
    delivered rfl (arrives_none (by decide)) (by decide) (by decide) rfl rfl (by decide), by decide⟩

theorem witness_DeafModuleAnswersNothing :
    ∃ (i : Instr) (ty : Nat) (d : Datagram) (s : State), sessionDatagram i = some (ty, d) ∧ s.ctl.live 0 = false :=
  ⟨.modeRun { path := 0, src := { ip := 0, port := 0 }, dst := 0, magic := 0x7A5C, version := 2, seq := 1, session := 1, len := 0, tile := 0xFF, status := 0, payload := [], mac := [] }, _, _, State.reset, rfl, by decide⟩

theorem witness_UnauthenticatedDatagramsHaveNoEffect :
    ∃ (i : Instr) (ty slot : Nat) (d : Datagram) (s : State), sessionDatagram i = some (ty, d) ∧ s.ctl.arrives ty d = none ∧
      s.ctl.formatOk d = true ∧ s.ctl.slotOf d.session.toNat = some slot ∧ (s.ctl.session slot).v1 = decide (d.version = 1) ∧
      d.mac ≠ dgMac d ty (s.ctl.session slot).key :=
  ⟨.modeRun (wrongMac (cmd 0x0003 [0, 0])), 3, 0, (wrongMac (cmd 0x0003 [0, 0])), (session .engineer world), rfl, rfl,
    format_ok ((List.length_map _).trans (mac_length _ _ _)) (by decide), by decide, by decide,
    map_succ_ne (mac_length _ _ _)⟩

theorem witness_RepeatedDatagramsAreNotExecuted :
    ∃ (i : Instr) (ty slot h : Nat) (d : Datagram) (s : State), sessionDatagram i = some (ty, d) ∧ s.ctl.arrives ty d = none ∧
      s.ctl.formatOk d = true ∧ s.ctl.slotOf d.session.toNat = some slot ∧ (s.ctl.session slot).v1 = decide (d.version = 1) ∧
      d.mac = dgMac d ty (s.ctl.session slot).key ∧ (s.ctl.session slot).high = some h ∧ frameDiff d.seq.toNat h ≤ 0 ∧
      -64 < frameDiff d.seq.toNat h ∧ d.seq.toNat ∈ (s.ctl.session slot).seen :=
  ⟨.modeRun (cmd 0x0003 [0, 0]), 3, 0, 1, (cmd 0x0003 [0, 0]),
    (tweak (session .engineer world) (fun _ => heard (session .engineer world))), rfl, rfl,
    format_ok (mac_length _ _ _) (by decide), by decide, by decide, rfl, by decide, by decide, by decide, by decide⟩

theorem witness_MailboxesAreFifos :
    (∃ (c : Ctl) (o : Origin) (t m : Nat), c.isSystem o = true ∧ c.flag t CASDA_MBOX_CFG_EN m = true ∧
      (c.mailbox t m).length < 16) ∧
    (∃ (c : Ctl) (o : Origin) (t m : Nat), c.isSystem o = true ∧ c.flag t CASDA_MBOX_CFG_EN m = false) ∧
    (∃ (c : Ctl) (o : Origin) (t m : Nat), c.isSystem o = true ∧ 16 ≤ (c.mailbox t m).length) ∧
    (∃ (c : Ctl) (t : TileId) (i : TaskId) (m : Nat), m < 16 ∧ c.isSystem (.casda t i) = true) :=
  ⟨⟨boxed.ctl, sysO, 0, 2, by decide⟩,
   ⟨onTask.ctl, sysO, 0, 3, by decide⟩,
   ⟨boxFull.ctl, sysO, 0, 2, by decide⟩,
   ⟨onTask.ctl, 0, 5, 15, by decide⟩⟩

end Sys2Proof.Tests
end

/-! ## What every meaning does, whatever its effect

A meaning is one of the shared outcomes of Ops.lean around an effect. Said once for each of these outcomes: when it answers, when
it stops at an absent tile, and that it keeps of the memories what its effect keeps. -/
namespace Sys2Proof.Machine

/-- The meaning `F` of a command that stands on tile `o` (none for the module) and stores only where `stores` says so: it answers
where the tile is fitted and stops where it is not, leaves the memories alone or at least keeps their canonical form. -/
structure Lawful (o : Option Nat) (stores : Bool) (F : State → Host.Outcome State Fault Refusal) : Prop where
  answers : ∀ s, (∀ t, o = some t → t < s.ctl.tiles) → ∃ u, F s = .next u
  absent : ∀ s t, o = some t → s.ctl.tiles ≤ t → F s = .fault .absentTile
  keepsBytes : stores = false → ∀ s u, F s = .next u → u.mem = s.mem
  keepsForm : ∀ s u, Memory.wf s.mem = true → F s = .next u → Memory.wf u.mem = true

section Outcomes

variable {t : Nat} {o : Origin} {stores : Bool}

theorem onTileM_lawful {f : Mem → Ctl → Mem × Ctl} (hb : stores = false → ∀ m c, (f m c).1 = m)
    (hf : ∀ m c, Memory.wf m = true → Memory.wf (f m c).1 = true) : Lawful (some t) stores (fun s => s.onTileM t f) where
  answers s h := ⟨_, onTileM_fitted (h t rfl) f⟩
  absent s u hu h := by cases hu; exact onTileM_absent (Nat.not_lt.mpr h) f
  keepsBytes hs s u h := by
    unfold State.onTileM at h
    split at h <;> cases h
    exact hb hs _ _
  keepsForm s u hm h := by
    unfold State.onTileM at h
    split at h <;> cases h
    exact hf _ _ hm

theorem onModuleM_lawful {f : Mem → Ctl → Mem × Ctl} (hb : stores = false → ∀ m c, (f m c).1 = m)
    (hf : ∀ m c, Memory.wf m = true → Memory.wf (f m c).1 = true) : Lawful none stores (fun s => s.onModuleM f) where
  answers s _ := ⟨_, onModuleM_next s f⟩
  absent s u hu := by cases hu
  keepsBytes hs s u h := by cases h; exact hb hs _ _
  keepsForm s u hm h := by cases h; exact hf _ _ hm

/-- An access stands on the tile of its accessor. -/
theorem onAccessM_lawful {f : Mem → Ctl → Mem × Ctl} (hb : stores = false → ∀ m c, (f m c).1 = m)
    (hf : ∀ m c, Memory.wf m = true → Memory.wf (f m c).1 = true) :
    Lawful (originTile o) stores (fun s => s.onAccessM o f) := by
  cases o with
  | casda u i => exact onTileM_lawful hb hf
  | host r q => exact onModuleM_lawful hb hf

/-! The outcomes that touch no memory, or only read it, are those with an effect that hands the memories back. -/

theorem onTileR_lawful (f : Mem → Ctl → Ctl) : Lawful (some t) stores (fun s => s.onTileR t f) :=
  onTileM_lawful (f := fun m c => (m, f m c)) (fun _ _ _ => rfl) (fun _ _ h => h)

theorem onTile_lawful (f : Ctl → Ctl) : Lawful (some t) stores (fun s => s.onTile t f) := onTileR_lawful fun _ c => f c

theorem onModuleR_lawful (f : Mem → Ctl → Ctl) : Lawful none stores (fun s => s.onModuleR f) :=
  onModuleM_lawful (f := fun m c => (m, f m c)) (fun _ _ _ => rfl) (fun _ _ h => h)

theorem onModule_lawful (f : Ctl → Ctl) : Lawful none stores (fun s => s.onModule f) := onModuleR_lawful fun _ c => f c

theorem onAccess_lawful (f : Ctl → Ctl) : Lawful (originTile o) stores (fun s => s.onAccess o f) := by
  cases o with
  | casda u i => exact onTile_lawful f
  | host r q => exact onModule_lawful f

section Blocks

variable {t : TileId} {r : RingId} {b : BlockId}

theorem onBlk_lawful (f : Blk → Blk) : Lawful (some t.val) stores (fun s => s.onBlk t r b f) := onTile_lawful _

theorem onFrame_lawful (fr : RingFrame) (type cmd : Nat) (f : Blk → Blk) :
    Lawful (some t.val) stores (fun s => s.onFrame t r b fr type cmd f) := onTile_lawful _

theorem onCmd_lawful (fr : RingFrame) (cmd len : Nat) (f : Blk → BlkResult) :
    Lawful (some t.val) stores (fun s => s.onCmd t r b fr cmd len f) := onFrame_lawful fr 5 cmd _

theorem onPost_lawful (fr : RingFrame) (cmd len : Nat) (f : Blk → BlkResult) :
    Lawful (some t.val) stores (fun s => s.onPost t r b fr cmd len f) := onFrame_lawful fr 6 cmd _

end Blocks

/-! The outcomes that may store. -/

theorem onTileM_stores {f : Mem → Ctl → Mem × Ctl} (hf : ∀ m c, Memory.wf m = true → Memory.wf (f m c).1 = true) :
    Lawful (some t) true (fun s => s.onTileM t f) := onTileM_lawful (fun h => Bool.noConfusion h) hf

theorem onModuleM_stores {f : Mem → Ctl → Mem × Ctl} (hf : ∀ m c, Memory.wf m = true → Memory.wf (f m c).1 = true) :
    Lawful none true (fun s => s.onModuleM f) := onModuleM_lawful (fun h => Bool.noConfusion h) hf

/-- A register write through the access rules keeps what its register's effect keeps. -/
theorem onAccessM_stores {u blk : Nat} {f : Mem → Ctl → MC × Nat}
    (hf : ∀ m c, Memory.wf m = true → Memory.wf (f m c).1.1 = true) :
    Lawful (originTile o) true (fun s => s.onAccessM o (fun m c => accessM m c o u blk f)) :=
  onAccessM_lawful (fun h => Bool.noConfusion h) (fun _ _ hm => accessM_wf hm hf)

/-- A request of a session keeps what its effect keeps. -/
theorem request_stores {type skip : Nat} {d : Datagram} {tileOk formOk : Bool} {f : Req → Mem → Ctl → Eff}
    (hf : ∀ q m c, Memory.wf m = true → Memory.wf (f q m c).mem = true) :
    Lawful none true (fun s => s.onModuleM (fun m c => chpRequest type skip d tileOk formOk f m c)) :=
  onModuleM_stores (fun _ _ hm => chpRequest_wf hf hm)

theorem cmd_stores {code : Nat} {d : Datagram} {f : Req → Mem → Ctl → Eff}
    (hf : ∀ q m c, Memory.wf m = true → Memory.wf (f q m c).mem = true) : Lawful none true (fun s => s.cmd code d f) :=
  request_stores hf

/-- A CMD that first checks role and length. -/
theorem cmd_guarded {code len : Nat} {d : Datagram} {roles : List Role} {f : Req → Mem → Ctl → Eff}
    (hf : ∀ q m c, Memory.wf m = true → Memory.wf (f q m c).mem = true) :
    Lawful none true (fun s => s.cmd code d (fun q m c => guarded q roles len m c (f q m c))) :=
  cmd_stores (fun q m c hm => guarded_wf hm (hf q m c hm))

end Outcomes

end Sys2Proof.Machine

/-! ## The requests of a session

What the CMDs of R366 and the other requests keep of the memories: a request that is refused keeps them as they are, and each
command's own effect keeps their canonical form. -/
namespace Sys2Proof.Machine

/-- A request refused under a condition keeps the canonical form when the rest of its effect does. -/
theorem err_unless_wf {p : Prop} [Decidable p] {m : Mem} {c : Ctl} {code : Nat} {e : Eff} (hm : Memory.wf m = true)
    (he : Memory.wf e.mem = true) : Memory.wf (if p then .err m c code else e).mem = true := by
  split
  · exact hm
  · exact he

/-- Memories in canonical form are so whatever the control state beside them. -/
theorem beside_wf {m : Mem} {c : Ctl} (hm : Memory.wf m = true) : Memory.wf (m, c).1 = true := hm

/-- One of two effects that both keep the canonical form. -/
theorem either_wf {p : Prop} [Decidable p] {x y : Mem × Ctl} (hx : Memory.wf x.1 = true) (hy : Memory.wf y.1 = true) :
    Memory.wf (if p then x else y).1 = true := by
  split
  · exact hx
  · exact hy

/-- A request whose effect leaves the memories alone leaves them alone, answered or not. -/
theorem chpRequest_mem {type skip : Nat} {d : Datagram} {tileOk formOk : Bool}
    {f : Req → Mem → Ctl → Eff} (m : Mem) (c : Ctl)
    (hf : ∀ q m c, (f q m c).mem = m) : (chpRequest type skip d tileOk formOk f m c).1 = m := by
  have answered_mem (e : Eff) (slot seq path : Nat) : (e.answered slot seq path).1 = e.mem := by
    unfold Eff.answered; split <;> rfl
  unfold chpRequest
  split
  · rfl
  · simp only [answered_mem, apply_ite Eff.mem, Eff.released_mem, hf]
    simp [Eff.err]

section Commands

variable {d : Datagram}

/-! A network command. -/

theorem netOpen_lawful : Lawful none false (execNetOpen d) := by
  by_cases hd : d.session = 0
  · have h : execNetOpen d = fun s => s.onModule (fun c => c.netOpen d) := funext fun s => if_pos hd
    exact h ▸ onModule_lawful _
  · have h : execNetOpen d = fun s => s.cmd 0x7001 d (fun _ m c => .err m c eFormat) := funext fun s => if_neg hd
    have hmem (m : Mem) (c : Ctl) : (chpCmd 0x7001 d (fun _ m c => .err m c eFormat) m c).1 = m :=
      chpRequest_mem m c (fun _ _ _ => rfl)
    exact h ▸ onModuleM_lawful (fun _ => hmem) (fun m c hm => by rw [hmem]; exact hm)
theorem netClose_lawful : Lawful none true (execNetClose d) := cmd_guarded fun _ _ _ hm => hm
theorem netSubscribe_lawful : Lawful none true (execNetSubscribe d) := cmd_stores fun _ _ _ => netSubscribe_wf
theorem netUnsubscribe_lawful : Lawful none true (execNetUnsubscribe d) := cmd_guarded fun _ _ _ hm => by
  split
  · exact hm
  · exact err_unless_wf hm hm
theorem netBulkOpen_lawful : Lawful none true (execNetBulkOpen d) := cmd_guarded fun _ _ _ hm => err_unless_wf hm hm
theorem netSupervise_lawful : Lawful none true (execNetSupervise d) := cmd_stores fun _ _ _ => netSupervise_wf
theorem netKey_lawful : Lawful none true (execNetKey d) := cmd_stores fun _ _ _ hm => by
  dsimp only
  split
  · exact hm
  · exact err_unless_wf hm (err_unless_wf hm (err_unless_wf hm hm))
theorem chpBulkReceive_lawful : Lawful none true (execChpBulkReceive d) := request_stores fun _ _ _ => chpBulk_wf
theorem hostRead_lawful : Lawful none true (execHostRead d) := request_stores fun _ _ _ => hostRead_wf
theorem hostWrite_lawful : Lawful none true (execHostWrite d) := request_stores fun _ _ _ => hostWrite_wf

/-! A mode command. -/

theorem modeStandby_lawful : Lawful none true (execModeStandby d) := cmd_stores fun _ _ _ => modeStandby_wf
theorem modeChrysalis_lawful : Lawful none true (execModeChrysalis d) := cmd_guarded fun _ _ _ hm => err_unless_wf hm hm
theorem modeRun_lawful : Lawful none true (execModeRun d) := cmd_stores fun _ _ _ => modeRun_wf

/-! A command of the rings and of sampling. -/

theorem ringEnumerate_lawful : Lawful none true (execRingEnumerate d) := cmd_guarded fun _ _ _ hm =>
  err_unless_wf hm (enumerateRings_wf hm)
theorem ringMode_lawful : Lawful none true (execRingMode d) := cmd_guarded fun _ _ _ hm => err_unless_wf hm (ringMode_wf hm)
theorem ringInventory_lawful : Lawful none true (fun s => s.cmd 0x1003 d ringInventory) :=
  cmd_stores fun _ _ _ => ringInventory_wf
theorem ringTrust_lawful : Lawful none true (execRingTrust d) := cmd_guarded fun _ _ _ hm => err_unless_wf hm hm
theorem smpOwTest_lawful : Lawful none true (execSmpOwTest d) := cmd_guarded fun _ _ _ hm => err_unless_wf hm hm

/-! A command of the estimator. -/

theorem estAnchorRequest_lawful : Lawful none true (execEstAnchorRequest d) := cmd_guarded fun _ _ _ hm => err_unless_wf hm hm
theorem estProfile_lawful : Lawful none true (execEstProfile d) := cmd_stores fun _ _ _ hm =>
  guarded_wf hm (err_unless_wf hm hm)
theorem estCellInit_lawful : Lawful none true (execEstCellInit d) := cmd_guarded fun _ _ _ hm => err_unless_wf hm hm
theorem lvBackup_lawful : Lawful none true (execLvBackup d) := cmd_stores fun _ _ _ => lvBackup_wf
theorem lvRestore_lawful : Lawful none true (execLvRestore d) := cmd_guarded fun _ _ _ hm => err_unless_wf hm hm

/-! A command of balancing, dispatch and the loop engine. -/

theorem balMode_lawful : Lawful none true (execBalMode d) := cmd_guarded fun q _ _ hm =>
  err_unless_wf hm (pairFold (fun z t hz => by
    split
    · exact hz
    · exact balMode_wf (MC.on_wf hz)) _ hm)
theorem balManual_lawful : Lawful none true (execBalManual d) := cmd_guarded fun _ _ _ hm =>
  err_unless_wf hm
    (have hz {k : Ctl} {t r b n : Nat} {v : Bool} := show Memory.wf (tableFlag _ t r b n v, k).1 = true from tableFlag_wf hm
     either_wf (issue_wf hz) hz)
theorem balWireTest_lawful : Lawful none true (execBalWireTest d) := cmd_guarded fun _ _ _ hm => err_unless_wf hm hm
theorem bankSetpoint_lawful : Lawful none true (execBankSetpoint d) := cmd_stores fun _ _ _ => bankSetpoint_wf
theorem dispMode_lawful : Lawful none true (execDispMode d) := cmd_stores fun _ _ _ => dispModeCmd_wf
theorem dispSchedule_lawful : Lawful none true (execDispSchedule d) := cmd_stores fun _ _ _ hm =>
  guarded_wf hm (err_unless_wf hm hm)
theorem dispPerturb_lawful : Lawful none true (fun s => s.cmd 0x4004 d dispPerturb) := cmd_stores fun _ _ _ => dispPerturb_wf
theorem loopMode_lawful : Lawful none true (execLoopMode d) := cmd_guarded fun _ _ _ hm => err_unless_wf hm hm

/-! A command of Beryl. -/

theorem berylReset_lawful {gone : BitVec 7} : Lawful none true (execBerylReset d gone) := cmd_guarded fun _ _ _ hm =>
  err_unless_wf hm (err_unless_wf hm (by
    split
    · exact hm
    · dsimp only
      split
      · exact hm
      · split <;> exact hm))
theorem berylParam_lawful : Lawful none true (fun s => s.cmd 0x6002 d berylParamSession) :=
  cmd_stores fun _ _ _ => berylParamSession_wf

/-! A command of the images. -/

theorem imgBegin_lawful : Lawful none true (execImgBegin d) := cmd_stores fun _ _ _ hm =>
  Eff.imaged_wf (guarded_wf hm (err_unless_wf hm (memClear_wf hm _ _)))
theorem imgChunk_lawful : Lawful none true (execImgChunk d) := cmd_stores fun _ _ _ hm =>
  Eff.imaged_wf (guarded_wf hm (err_unless_wf hm (err_unless_wf hm (memStore_wf _ hm _))))
theorem imgVerify_lawful : Lawful none true (execImgVerify d) := cmd_stores fun _ _ _ hm =>
  Eff.imaged_wf (guarded_wf hm (err_unless_wf hm hm))
theorem imgActivate_lawful : Lawful none true (execImgActivate d) := cmd_stores fun _ _ _ hm =>
  Eff.imaged_wf (guarded_wf hm (err_unless_wf hm hm))
theorem imgConfirm_lawful : Lawful none true (execImgConfirm d) := cmd_stores fun _ _ _ hm =>
  Eff.imaged_wf (guarded_wf hm (err_unless_wf hm hm))

end Commands

/-! ### Requests held through an activation pause (R451) -/

/-- The command a held CODE names is lawful. -/
theorem heldCmd_keepsForm {code : Nat} {d : Datagram} {s u : State} (hs : Memory.wf s.mem = true)
    (h : heldCmd code d s = .next u) : Memory.wf u.mem = true := by
  unfold heldCmd at h
  split at h
  · exact modeStandby_lawful.keepsForm s u hs h
  · exact modeChrysalis_lawful.keepsForm s u hs h
  · exact modeRun_lawful.keepsForm s u hs h
  · exact ringEnumerate_lawful.keepsForm s u hs h
  · exact ringMode_lawful.keepsForm s u hs h
  · exact ringInventory_lawful.keepsForm s u hs h
  · exact ringTrust_lawful.keepsForm s u hs h
  · exact smpOwTest_lawful.keepsForm s u hs h
  · exact estAnchorRequest_lawful.keepsForm s u hs h
  · exact estProfile_lawful.keepsForm s u hs h
  · exact estCellInit_lawful.keepsForm s u hs h
  · exact lvBackup_lawful.keepsForm s u hs h
  · exact lvRestore_lawful.keepsForm s u hs h
  · exact balMode_lawful.keepsForm s u hs h
  · exact balManual_lawful.keepsForm s u hs h
  · exact balWireTest_lawful.keepsForm s u hs h
  · exact bankSetpoint_lawful.keepsForm s u hs h
  · exact dispMode_lawful.keepsForm s u hs h
  · exact dispSchedule_lawful.keepsForm s u hs h
  · exact dispPerturb_lawful.keepsForm s u hs h
  · exact loopMode_lawful.keepsForm s u hs h
  · exact berylReset_lawful.keepsForm { s with ctl := s.ctl.free.2 } u hs h
  · exact berylParam_lawful.keepsForm s u hs h
  · exact netOpen_lawful.keepsForm s u hs h
  · exact netClose_lawful.keepsForm s u hs h
  · exact netSubscribe_lawful.keepsForm s u hs h
  · exact netUnsubscribe_lawful.keepsForm s u hs h
  · exact netBulkOpen_lawful.keepsForm s u hs h
  · exact netSupervise_lawful.keepsForm s u hs h
  · exact netKey_lawful.keepsForm s u hs h
  · exact imgBegin_lawful.keepsForm s u hs h
  · exact imgChunk_lawful.keepsForm s u hs h
  · exact imgVerify_lawful.keepsForm s u hs h
  · exact imgActivate_lawful.keepsForm s u hs h
  · exact imgConfirm_lawful.keepsForm s u hs h
  · exact netClose_lawful.keepsForm s u hs h

theorem heldOne_keepsForm {type : Nat} {d : Datagram} {s u : State} (hs : Memory.wf s.mem = true)
    (h : heldOne type d s = .next u) : Memory.wf u.mem = true := by
  unfold heldOne at h
  split at h
  · exact hostRead_lawful.keepsForm s u hs h
  · exact hostWrite_lawful.keepsForm s u hs h
  · exact chpBulkReceive_lawful.keepsForm s u hs h
  · split at h
    · exact netOpen_lawful.keepsForm s u hs h
    · exact heldCmd_keepsForm hs h

theorem heldNext_keepsForm {x : State × List Sent} {e : Nat × Datagram} (hx : Memory.wf x.1.mem = true) :
    Memory.wf (heldNext x e).1.mem = true := by
  unfold heldNext
  split
  · next h =>
    refine heldOne_keepsForm (s := x.1.ctlTo _) ?_ h
    exact hx
  · exact hx

theorem answerHeld_keepsForm {s : State} (hs : Memory.wf s.mem = true) : Memory.wf (answerHeld s).mem = true := by
  unfold answerHeld
  split
  · exact hs
  · refine foldl_keeps (fun x => Memory.wf x.1.mem = true) heldNext (fun _ _ => heldNext_keepsForm) _ (s.ctlTo _, []) ?_
    exact hs

end Sys2Proof.Machine

/-! ## Events and instructions that may store

Each keeps the canonical form because the operations it calls do; the branches are those of its meaning. -/
namespace Sys2Proof.Machine

/-! ### Instructions of a task -/

section Instructions

variable {t : TileId} {k : CoreId}

theorem store_lawful {op : StoreOp} {d a : Fin 32} {imm : BitVec 16} :
    Lawful (some t.val) true (execStore t k op d a imm) :=
  onTileM_stores fun _ _ hm => instrM_wf hm fun _ _ => casdaStore_wf (dmaLand_wf hm)

theorem amo_lawful {d a b : Fin 32} {func : Fin 2048} {ecc : Bool} : Lawful (some t.val) true (execAmo t k d a b func ecc) :=
  onTileM_stores fun _ _ hm => instrM_wf hm fun _ _ =>
    either_wf (beside_wf (dmaLand_wf hm)) (beside_wf (casdaAmo_wf (dmaLand_wf hm)))

theorem vsts_lawful {e : ElemType} {vd va vb : Fin 16} {p : Fin 8} :
    Lawful (some t.val) true (execVsts t k e vd va vb p) := onTileM_stores fun _ _ => vstore_wf

theorem vstx_lawful {vd va vb : Fin 16} {p : Fin 8} : Lawful (some t.val) true (execVstx t k vd va vb p) :=
  onTileM_stores fun _ _ => vstore_wf

theorem veccTrap_lawful {addr : Word} : Lawful (some t.val) true (execVeccTrap t addr) := onTileM_stores fun _ _ hm => by
  split
  · exact hm
  · exact MC.on_wf (veccDiscard_wf hm)

theorem emit_lawful {d a : Fin 32} : Lawful (some t.val) true (execEmit t k d a) :=
  onTileM_stores fun _ _ hm => instrM_wf hm fun _ _ => emitAt_wf hm

theorem rpost_lawful {d a : Fin 32} : Lawful (some t.val) true (execRpost t k d a) := onTileM_stores fun m c hm => by
  have mark {p : Prop} [Decidable p] {x : Nat} : Memory.wf (if p then memWrite m x 0xFF else m) = true := by
    split
    · exact memWrite_wf hm _ _
    · exact hm
  exact either_wf (completeTx_wf (MC.on_wf mark)) mark

theorem sfetchDone_lawful {i : TaskId} : Lawful (some t.val) true (execSfetchDone t i) := onTileM_stores fun _ _ hm => by
  split
  · exact memStore_wf _ hm _
  · exact hm

end Instructions

/-! ### Events of the rings -/

section Rings

variable {t : TileId} {r : RingId}

theorem ringLinkLock_lawful {rx : RingReceiver} {eq : Byte} : Lawful (some t.val) true (execRingLinkLock t r rx eq) :=
  onTileM_stores fun _ _ hm => by
    split
    · exact hm
    · exact either_wf (enumStart_wf hm) (either_wf (enumStart_wf hm) hm)

theorem ringLinkLoss_lawful {rx : RingReceiver} : Lawful (some t.val) true (execRingLinkLoss t r rx) :=
  onTileM_stores fun _ _ hm =>
    either_wf hm (either_wf (ringIdle_wf hm) (either_wf (enumStart_wf hm) (either_wf hm hm)))

theorem assignAtTail_lawful {count : Fin 513} {acc : BitVec 24} : Lawful (some t.val) true (execAssignAtTail t r count acc) :=
  onTileM_stores fun _ _ hm =>
    either_wf (enumCounted_wf hm) (either_wf (either_wf hm hm) (either_wf hm hm))

theorem enumStepTimeout_lawful : Lawful (some t.val) true (execEnumStepTimeout t r) :=
  onTileM_stores fun _ _ hm => either_wf (ringFault_wf hm) hm

theorem breakLocated_lawful {k n : Fin 513} {twoBreaks : Bool} :
    Lawful (some t.val) true (execBreakLocated t r k n twoBreaks) :=
  onTileM_stores fun _ _ hm =>
    either_wf (either_wf (ringFault_wf hm) (MC.on_wf (enumCounted_wf hm)))
      (either_wf (ringFault_wf hm) (either_wf (either_wf (ringFault_wf hm) hm) hm))

theorem carriedBreakLocate_lawful {k : Fin 513} : Lawful (some t.val) true (execCarriedBreakLocate t r k) :=
  onTileM_stores fun _ _ hm => either_wf hm (either_wf (ringFault_wf hm) (either_wf hm hm))

theorem missingCountReenum_lawful : Lawful (some t.val) true (execMissingCountReenum t r) :=
  onTileM_stores fun _ _ hm => either_wf (enumStart_wf hm) hm

theorem ringTxLaunch_lawful : Lawful (some t.val) true (execRingTxLaunch t r) := onTileM_stores fun _ _ hm =>
  either_wf hm (either_wf hm (by
    split
    · exact enumAdvance_wf hm
    · exact hm
    · exact either_wf hm (either_wf hm (completeTx_wf hm))))

theorem ringTxResponse_lawful {seq : Byte} {el : List Byte} : Lawful (some t.val) true (execRingTxResponse t r seq el) :=
  onTileM_stores fun _ _ hm => by
    split
    · exact hm
    · exact either_wf hm (txOutcome_wf hm)

theorem ringTxRetryTimeout_lawful {seq : Byte} : Lawful (some t.val) true (execRingTxRetryTimeout t r seq) :=
  onTileM_stores fun _ _ hm => by
    split
    · exact hm
    · exact either_wf hm (either_wf hm (txOutcome_wf hm))

theorem sampleResponseReceive_lawful {el : List Byte} : Lawful (some t.val) true (execSampleResponseReceive t r el) :=
  onTileM_stores fun _ _ hm => either_wf hm (either_wf hm (either_wf hm (takeRecord_wf hm)))

theorem ringSweepEnd_lawful {reached : Bool} : Lawful (some t.val) true (execRingSweepEnd t r reached) :=
  onTileM_stores fun _ _ hm => either_wf hm (either_wf (MC.on_wf (fillRing_wf hm)) (fillRing_wf hm))

end Rings

/-! ### Frames, the estimator, balancing and the loop engine -/

section Frames

variable {t : TileId}

theorem frameInstant_lawful : Lawful none true execFrameInstant :=
  onModuleM_stores fun _ _ hm => either_wf hm (MC.on_wf (frameBegin_wf hm))

theorem frameComplete_lawful : Lawful (some t.val) true (execFrameComplete t) :=
  onTileM_stores fun _ _ hm => either_wf hm (MC.on_wf (frameEnd_wf hm))

theorem burstEntryComplete_lawful : Lawful (some t.val) true (execBurstEntryComplete t) := onTileM_stores fun _ _ hm => by
  dsimp only
  split
  · exact hm
  · exact beside_wf (memStore_wf _ hm _)

theorem estimatorPass_lawful : Lawful (some t.val) true (execEstimatorPass t) := onTileM_stores fun _ _ hm => by
  dsimp only
  split
  · exact hm
  · exact either_wf hm (either_wf (estimatorRun_wf (skipFrames_wf hm)) (estimatorRun_wf hm))

theorem restFit_lawful {r : RingId} {str : StringId} : Lawful (some t.val) true (execRestFit t r str) :=
  onTileM_stores fun _ _ hm => either_wf hm (pairFold (fun _ _ hz => Run.fitCell_wf hz) _ hm)

theorem lvCommitComplete_lawful {failAt : Option (BitVec 32)} {reach : Bool} :
    Lawful (some t.val) true (execLvCommitComplete t failAt reach) := onTileM_stores fun _ _ hm => by
  split
  · exact hm
  · exact warnStep_wf (chrysalisStep_wf (MC.on_wf
      (either_wf (beside_wf (legacyCopy_wf (lvCommit_wf hm))) (lvCommit_wf hm))))

theorem balancingPlannerRun_lawful : Lawful (some t.val) true (execBalancingPlannerRun t) :=
  onTileM_stores fun _ _ hm => either_wf hm (carriedBleed_wf (plannerRun_wf hm))

theorem manualTimeout_lawful : Lawful (some t.val) true (execManualTimeout t) :=
  onTileM_stores fun _ _ hm => either_wf hm (MC.on_wf (zeroAll_wf (balMode_wf hm)))

theorem dispatchCycle_lawful : Lawful none true execDispatchCycle := onModuleM_stores fun _ _ hm => hm

theorem loopSampleBoundary_lawful {ch : ChanId} : Lawful (some t.val) true (execLoopSampleBoundary t ch) :=
  onTileM_stores fun _ _ hm => either_wf hm (boundary_wf hm)

theorem loopHoldTimeExpiry_lawful {ch : ChanId} : Lawful (some t.val) true (execLoopHoldTimeExpiry t ch) :=
  onTileM_stores fun _ _ hm => either_wf (boundary_wf hm) hm

theorem loopOffChannelTransfer_lawful {ch : ChanId} : Lawful (some t.val) true (execLoopOffChannelTransfer t ch) :=
  onTileM_stores fun _ _ hm => either_wf (boundary_wf hm) hm

end Frames

/-! ### Power, start-up and the images -/

section Power

variable {t : TileId}

theorem standbyPowerOff_lawful : Lawful none true execStandbyPowerOff :=
  onModuleM_stores fun _ _ hm => either_wf hm (MC.on_wf (resetAll_wf hm))

theorem chrysalisInputSwitchOpen_lawful : Lawful none true execChrysalisInputSwitchOpen := onModuleM_stores fun _ _ hm =>
  either_wf hm (either_wf (chrysalisStep_wf hm) (MC.on_wf (powerLost_wf (chrysalisStep_wf hm))))

theorem standbyWakeTime_lawful : Lawful none true execStandbyWakeTime := onModuleM_stores fun _ _ hm => by
  split
  · exact standbyExit_wf hm
  · exact hm

theorem shutdownCommitDone_lawful : Lawful none true execShutdownCommitDone := onModuleM_stores fun _ _ hm =>
  either_wf hm (MC.on_wf (resetAll_wf
    (either_wf (settle_wf (MC.on_wf (MC.on_wf (settle_wf hm)))) (MC.on_wf (settle_wf hm)))))

theorem governorTick_lawful {eHw : Word} {tj : BitVec 16} {mw : Word} :
    Lawful (some t.val) true (execGovernorTick t eHw tj mw) := onTileM_stores fun _ _ hm => MC.on_wf (dmaLand_wf hm)

theorem tileEnterRun_lawful : Lawful (some t.val) true (execTileEnterRun t) :=
  onTileM_stores fun _ _ hm => either_wf (enterRun_wf hm) hm

theorem estimationReady_lawful : Lawful none true execEstimationReady := onModuleM_stores fun _ _ hm =>
  either_wf hm (pairFold (fun _ _ hz => balMode_wf hz) _ hm)

theorem inputPowerGood_lawful : Lawful none true execInputPowerGood :=
  onModuleM_stores fun _ _ hm => either_wf (powerUp_wf hm) hm

theorem modulePowerUp_lawful : Lawful none true execModulePowerUp := onModuleM_stores fun _ _ hm => powerUp_wf hm

theorem vin48Dip_lawful {d : VinDip} : Lawful none true (execVin48Dip d) := onModuleM_stores fun _ _ hm => by
  cases d with
  | below34 => exact hm
  | below30 => exact either_wf hm hm
  | removed => exact MC.on_wf (powerLost_wf hm)

theorem mrstAssert_lawful : Lawful none true execMrstAssert := onModuleM_stores fun _ _ hm =>
  either_wf hm (either_wf (resetAll_wf hm) (either_wf (MC.on_wf (resetAll_wf hm)) hm))

theorem mrstRelease_lawful : Lawful none true execMrstRelease := onModuleM_stores fun _ _ hm =>
  either_wf hm (either_wf (moduleReset_wf hm) (either_wf (standbyExit_wf hm) hm))

theorem ejectAssert_lawful : Lawful none true execEjectAssert := onModuleM_stores fun _ _ hm =>
  either_wf hm (either_wf (shutdownStart_wf hm) hm)

theorem ejectReleaseRestart_lawful : Lawful none true execEjectReleaseRestart := onModuleM_stores fun _ _ hm =>
  either_wf (moduleReset_wf hm) hm

theorem powerFailWarning_lawful : Lawful none true execPowerFailWarning := onModuleM_stores fun _ _ hm =>
  either_wf hm (pairFold (fun _ _ hz => settle_wf hz) _ hm)

theorem imgVerifyDone_lawful {programOk : Bool} : Lawful none true (execImgVerifyDone programOk) :=
  onModuleM_stores fun _ _ hm =>
    have copied {l : List Nat} {dst : Nat → Nat} {n : Nat} := memFold (fun _ t h => memCopy_wf h stageAddr (dst t) n) l hm
    either_wf hm (either_wf hm (either_wf copied copied))

theorem activationCommitsDone_lawful : Lawful none true execActivationCommitsDone :=
  onModuleM_stores fun _ _ hm => either_wf hm hm

theorem imageRestartDone_lawful : Lawful none true execImageRestartDone where
  answers s _ := by
    unfold execImageRestartDone
    split
    · exact ⟨_, rfl⟩
    · exact ⟨_, onModuleM_next s _⟩
  absent s t ht := by cases ht
  keepsBytes h := by cases h
  keepsForm s u hs h := by
    unfold execImageRestartDone at h
    split at h
    · cases h
      exact answerHeld_keepsForm (s := s.allTo _) (pauseEnd_wf hs)
    · cases h
      exact stepRestarted_wf hs

end Power

/-! ### The two-wire block, DMA and the recorder -/

section Transfers

variable {t : TileId}

theorem supervisionReceive_lawful {d : Datagram} : Lawful none false (execSupervisionReceive d) :=
  have hmem (m : Mem) (c : Ctl) {x : Ctl} : (if d.asType.isSome then notHosts 0x07 d m c else (m, x)).1 = m := by
    split
    · exact chpRequest_mem m c fun _ _ _ => rfl
    · rfl
  onModuleM_lawful (fun _ _ _ => hmem _ _) fun m c hm => (congrArg Memory.wf (hmem m c)).trans hm

theorem safetyMessageReceive_lawful {d : Datagram} : Lawful none false (execSafetyMessageReceive d) :=
  have hmem (m : Mem) (c : Ctl) {x : Ctl} : (if d.asType.isSome then notHosts 0x08 d m c else (m, x)).1 = m := by
    split
    · exact chpRequest_mem m c fun _ _ _ => rfl
    · rfl
  onModuleM_lawful (fun _ _ _ => hmem _ _) fun m c hm => (congrArg Memory.wf (hmem m c)).trans hm

theorem twbTargetRead_lawful {x : TargetRead} : Lawful none true (execTwbTargetRead x) :=
  onModuleM_stores fun _ _ hm => either_wf hm hm

theorem dmaJobComplete_lawful {ch : Fin 16} : Lawful (some t.val) true (execDmaJobComplete t ch) :=
  onTileM_stores fun _ _ hm => by
    split
    · exact hm
    · exact either_wf hm (lastOnWay_wf (beside_wf (dmaServe_wf (dmaLand_wf hm))))

theorem dmaBusError_lawful {addr : BitVec 40} {write : Bool} : Lawful (some t.val) true (execDmaBusError t addr write) :=
  onTileM_stores fun _ _ hm => either_wf hm (beside_wf (dmaSome_wf (dmaLand_wf hm)))

theorem dmaAutoResume_lawful : Lawful (some t.val) true (execDmaAutoResume t) :=
  onTileM_stores fun _ _ hm => either_wf hm (MC.on_wf (recordsResume_wf (recordsResume_wf hm)))

theorem eventRecordAccept_lawful : Lawful (some t.val) true (execEventRecordAccept t) := onTileM_stores fun _ _ hm => by
  split
  · exact hm
  · exact recordOne_wf hm

theorem eventTailWriteDone_lawful : Lawful (some t.val) true (execEventTailWriteDone t) :=
  onTileM_stores fun _ _ => tailWrite_wf

end Transfers

end Sys2Proof.Machine

/-! ## Every command

The meaning of each row is one of the outcomes above, so it is lawful for the tile it stands on and for what `mayStore` says. -/
namespace Sys2Proof.Machine

theorem exec_lawful (i : Instr) : Lawful (actor i) (mayStore i) (exec i) := by
  cases i with
  | aluOp | aluImmediate | branch | jump | jal | jalr | nop | mfs | mts | tend | tret | trig | coreHalted | wdogExpiry
    | casdaTimerExpiry | vectorArith | vectorConvert | vectorCompare | predicateLogic | vsel | vbcast | vext | vlane
    | pfroms | ptos | vectorReduce | yield | trap | fence | fenceDone | budget | vclaim | vrelease | vstat | ns32 | station
    | frame | optime | sfetch | slast | lshw | lcommit | dwait | fwait | iwait | assignTimeout | rejoinAttempt
    | toneLossReport | toneRestored | beaconReceive | beaconTimeout | collectLaunch | retryPassLaunch | dutySlotSend
    | quietLaunch | readStatus | burstSubInstant | burstCollect | owScheduledTest | owRetestTimer | lvCommitInterval
    | heatBudgetStale | allocationExchangeTimeout | coordinationRamp | cyclicTxRelease | repeatLimitStop | restEnd
    | sessionEnd | loopOutputFrameSend | traceDone | safetyInputChange | discrepancyFault | resetButtonRelease | resetStuck
    | outputEnergiseHs | outputReadbackCheck | testPulseStart | testPulseEnd | readbackMismatch | consumePduReceive
    | consumeWatchdogExpiry | producePduSend | sf5CauseDetect | berylSelfTestComplete | berylSessionTimeout | clockFault
    | avsStep | avsMarginFault | tjFault | timeStrobe | strobeLost | strobeRecovered | timeWrap | timeStnNsRead
    | timeOptimeRead | canSyncLaunch | canBusJoin | canRecoveryComplete | canDetectDwell | canDetectEnd | canTxComplete
    | canTxError | canFrameReceive | canRxError | tileRunTimeout | resetStuckClear | blockPowerCycle | beaconSend =>
    unfold exec
    exact onTile_lawful _
  | load | vlds | vldg | rwait | bduty | dqueue | restRequestExpiry =>
    unfold exec
    exact onTileR_lawful _
  | taskStart | taskStop | taskTrigger | taskCfgWrite | coreHalt | coreResume | wdogEnable | wdogKick | casdaTimerWrite
    | mboxPost | mboxPop | mboxCfgWrite | irqRouteWrite | framePeriodNextWrite | burstListCommit | limitCommitWrite
    | limitRingSelWrite | estStaleClear | loopCommitWrite | loopShadowStore | loopInputSoftWrite | gainTableWrite | traceArm
    | traceStop | traceForce | berylParamWrite | followupSend | canInitSet | canInitClear | canRecoverWrite | canDetectStart
    | canAdopt | canTxreq | canTxcancel | canRxPop | twbJobGo | evtRptrWrite | evtClassWrite | codeTableWrite
    | carryReadyWrite =>
    unfold exec
    exact onAccess_lawful _
  | blockConversion | blockAuthReady | openTestSinkDone | shipStateExit | bleedCycleStart | bleedOnTimeEnd
    | bleedWatchdogExpiry | blockComparatorTrip | blockComparatorClear =>
    unfold exec
    exact onBlk_lawful _
  | setpointAgeExpiry | wakeComparatorArm | chrysalisWake | ptpAnnounceReceive | ptpSyncReceive | ptpPdelayExchange
    | ptpSyncTimeout | holdoverExpiry | supervisionSend | pathSupervisionLoss | pathResyncDone | pathCompatRevert
    | pathLinkUp | pathLinkDown | sfpInsert | sessionIdleTimeout | eventMessageSend | bulkHandleTimeout | netIpConfigApply
    | twbStatusRefresh | twbTargetTimeout | twbBusFree | twbJobStart | twbArbitrationLoss | twbJobEnd | rollingStepStart
    | rollingStepTimeout | confirmWindowExpiry | vin48Applied | prechargeComplete | powerFailWithdrawn | operatingTimeStore
    | announceReceiptTimeout | arpNdpEchoReceive =>
    unfold exec
    exact onModule_lawful _
  | telemCopy =>
    unfold exec
    exact onModuleR_lawful _
  | hostRead => exact hostRead_lawful
  | hostWrite => exact hostWrite_lawful
  | registerWrite => exact onAccessM_stores fun _ _ => regWrite_wf
  | tileReset | tileHold | tileHoldRelease => exact onAccessM_stores fun _ _ => tileCtrlWrite_wf
  | store => exact store_lawful
  | amo => exact amo_lawful
  | taskKill => exact onAccessM_stores fun _ _ => taskCmdM_wf
  | vsts => exact vsts_lawful
  | vstx => exact vstx_lawful
  | veccTrap => exact veccTrap_lawful
  | rpost => exact rpost_lawful
  | sfetchDone => exact sfetchDone_lawful
  | emit => exact emit_lawful
  | ringCtrlEnum => exact onAccessM_stores fun _ _ => ringCtrlWrite_wf
  | ringSmapCommit => exact onAccessM_stores fun _ _ => smapCommit_wf
  | ringLinkLock => exact ringLinkLock_lawful
  | ringLinkLoss => exact ringLinkLoss_lawful
  | assignAtTail => exact assignAtTail_lawful
  | enumStepTimeout => exact enumStepTimeout_lawful
  | breakLocated => exact breakLocated_lawful
  | carriedBreakLocate => exact carriedBreakLocate_lawful
  | missingCountReenum => exact missingCountReenum_lawful
  | sampleResponseReceive => exact sampleResponseReceive_lawful
  | ringSweepEnd => exact ringSweepEnd_lawful
  | ringTxLaunch => exact ringTxLaunch_lawful
  | ringTxResponse => exact ringTxResponse_lawful
  | ringTxRetryTimeout => exact ringTxRetryTimeout_lawful
  | blockSyncReceive | collect | retry | assign | openTest =>
    unfold exec
    exact onFrame_lawful _ _ _ _
  | readId | setThr | lockThr | readThr | challenge | authRead | setRole | setPos | burst | ping =>
    unfold exec
    exact onCmd_lawful _ _ _ _
  | setDuty | quiet | ship =>
    unfold exec
    exact onPost_lawful _ _ _ _
  | frameInstant => exact frameInstant_lawful
  | frameComplete => exact frameComplete_lawful
  | burstEntryComplete => exact burstEntryComplete_lawful
  | smpOwTest => exact smpOwTest_lawful
  | estimatorPass => exact estimatorPass_lawful
  | restFit => exact restFit_lawful
  | lvCommitComplete => exact lvCommitComplete_lawful
  | estAnchorRequest => exact estAnchorRequest_lawful
  | estProfile => exact estProfile_lawful
  | estCellInit => exact estCellInit_lawful
  | lvBackup => exact lvBackup_lawful
  | lvRestore => exact lvRestore_lawful
  | balancingPlannerRun => exact balancingPlannerRun_lawful
  | manualTimeout => exact manualTimeout_lawful
  | balMode => exact balMode_lawful
  | balManual => exact balManual_lawful
  | balWireTest => exact balWireTest_lawful
  | dispatchCycle => exact dispatchCycle_lawful
  | bankSetpoint => exact bankSetpoint_lawful
  | dispMode => exact dispMode_lawful
  | dispSchedule => exact dispSchedule_lawful
  | dispPerturb | dispPerturbStop => exact dispPerturb_lawful
  | loopSampleBoundary => exact loopSampleBoundary_lawful
  | loopHoldTimeExpiry => exact loopHoldTimeExpiry_lawful
  | loopMode => exact loopMode_lawful
  | berylReset => exact berylReset_lawful
  | berylParamOpen | berylParamConfirm | berylParamAbort => exact berylParam_lawful
  | modeStandby => exact modeStandby_lawful
  | standbyPowerOff => exact standbyPowerOff_lawful
  | modeChrysalis => exact modeChrysalis_lawful
  | chrysalisInputSwitchOpen => exact chrysalisInputSwitchOpen_lawful
  | modeRun => exact modeRun_lawful
  | standbyWakeTime => exact standbyWakeTime_lawful
  | governorTick => exact governorTick_lawful
  | chpBulkReceive => exact chpBulkReceive_lawful
  | supervisionReceive => exact supervisionReceive_lawful
  | safetyMessageReceive => exact safetyMessageReceive_lawful
  | netOpen => exact netOpen_lawful
  | netClose => exact netClose_lawful
  | netSubscribe => exact netSubscribe_lawful
  | netUnsubscribe => exact netUnsubscribe_lawful
  | netBulkOpen => exact netBulkOpen_lawful
  | netSupervise | netSuperviseRelease => exact netSupervise_lawful
  | netKey => exact netKey_lawful
  | ringEnumerate => exact ringEnumerate_lawful
  | ringMode => exact ringMode_lawful
  | ringInventoryWrite | ringInventoryAdopt | ringInventoryClear => exact ringInventory_lawful
  | ringTrust => exact ringTrust_lawful
  | twbTargetWrite | sidebandGo => exact onModuleM_stores fun _ _ => targetWrite_wf
  | twbTargetRead => exact twbTargetRead_lawful
  | sbIp4 | sbModuleReset => exact onModuleM_stores fun _ _ => sideCommand_wf
  | dmaJobComplete => exact dmaJobComplete_lawful
  | dmaBusError => exact dmaBusError_lawful
  | dmaAutoResume => exact dmaAutoResume_lawful
  | dmaRecover => exact onAccessM_stores fun _ _ => dmaCtrlWrite_wf
  | dmaChannelDisable | dmaChannelEnable => exact onAccessM_stores fun _ _ => dmaChWrite_wf
  | eventRecordAccept => exact eventRecordAccept_lawful
  | eventTailWriteDone => exact eventTailWriteDone_lawful
  | imgBegin => exact imgBegin_lawful
  | imgChunk => exact imgChunk_lawful
  | imgVerify => exact imgVerify_lawful
  | imgVerifyDone => exact imgVerifyDone_lawful
  | imgActivate => exact imgActivate_lawful
  | activationCommitsDone => exact activationCommitsDone_lawful
  | imageRestartDone => exact imageRestartDone_lawful
  | imgConfirm => exact imgConfirm_lawful
  | imgCtrlConfirm => exact onAccessM_stores fun _ _ => imgCtrlWrite_wf
  | selfcheckPass | selfcheckFail => exact onAccessM_stores fun _ _ => selfcheckWrite_wf
  | modulePowerUp => exact modulePowerUp_lawful
  | inputPowerGood => exact inputPowerGood_lawful
  | tileEnterRun => exact tileEnterRun_lawful
  | estimationReady => exact estimationReady_lawful
  | mrstAssert => exact mrstAssert_lawful
  | mrstRelease => exact mrstRelease_lawful
  | ejectAssert => exact ejectAssert_lawful
  | shutdownCommitDone => exact shutdownCommitDone_lawful
  | ejectReleaseRestart => exact ejectReleaseRestart_lawful
  | powerFailWarning => exact powerFailWarning_lawful
  | loopOffChannelTransfer => exact loopOffChannelTransfer_lawful
  | vin48Dip => exact vin48Dip_lawful

/-- Settles O37: a meaning answers on a fitted tile and stops on an absent one. -/
theorem commandsStopOnlyForAnAbsentTile : Obligations.CommandsStopOnlyForAnAbsentTile :=
  ⟨fun i => (exec_lawful i).answers, fun i => (exec_lawful i).absent⟩

/-- Settles O39: a meaning that may not store hands the memories back. -/
theorem otherCommandsLeaveMemory : Obligations.OtherCommandsLeaveMemory := fun i s u hi => (exec_lawful i).keepsBytes hi s u

/-- Settles O40: an idle step touches no memory, and a command's meaning keeps the canonical form. -/
theorem stepKeepsMemoryForm : Obligations.StepKeepsMemoryForm := by
  intro s u hs h
  unfold step at h
  split at h
  · cases h
    exact hs
  · next i rest _ => exact (exec_lawful i).keepsForm { s with pending := rest } u hs h

end Sys2Proof.Machine

/-! ## Bytes that loads and stores touch (O48 to O50)

The module address of byte `j` behind an address is the address plus `j`; a store writes its bytes there and no others. -/
namespace Sys2Proof.Machine

/-- The bytes of a number, one by one. -/
theorem getElem_leBytes {n v j : Nat} (h : j < (leBytes n v).length) : (leBytes n v)[j] = BitVec.ofNat 8 (v / 256 ^ j) := by
  induction n generalizing v j with
  | zero => simp [leBytes] at h
  | succ n ih =>
    cases j with
    | zero => simp [leBytes]
    | succ j =>
      simp only [leBytes, List.getElem_cons_succ, ih]
      rw [Nat.div_div_eq_div_mul, pow_succ']

/-- A number cut to `n` bytes keeps its lower bytes. -/
theorem ofNat_byte_mod {n v j : Nat} (h : j < n) : BitVec.ofNat 8 (v % 256 ^ n / 256 ^ j) = BitVec.ofNat 8 (v / 256 ^ j) := by
  apply BitVec.eq_of_toNat_eq
  obtain ⟨k, rfl⟩ := Nat.exists_eq_add_of_lt h
  simp only [BitVec.toNat_ofNat]
  rw [show j + k + 1 = j + (k + 1) by omega, pow_add, Nat.mod_mul_right_div_self, pow_succ', Nat.mod_mul_right_mod]

theorem modAddr_split (a : Nat) : modAddr (a / 2 ^ 36) (a % 2 ^ 36) = a := by
  unfold modAddr; omega

theorem modAddr_succ (u off : Nat) : modAddr u (off + 1) = modAddr u off + 1 := by
  unfold modAddr; omega

/-- A store to a tile leaves every byte outside its bytes alone. -/
theorem memRead_storeAt_out (l : List Byte) (m : Mem) {u off x : Nat}
    (h : x < modAddr u off ∨ modAddr u off + l.length ≤ x) : memRead (storeAt m u off l) x = memRead m x := by
  induction l generalizing m off with
  | nil => rfl
  | cons b r ih =>
    simp only [List.length_cons] at h
    rw [storeAt, ih _ (by rw [modAddr_succ]; omega)]
    split
    · exact memRead_memWrite_ne _ _ (by omega)
    · rfl

/-- A byte stored to memory reads back. -/
theorem memRead_storeAt_in (l : List Byte) (m : Mem) {u off j : Nat} (hj : j < l.length)
    (hm : ∀ k < l.length, (regionOf (off + k)).isMem = true) :
    memRead (storeAt m u off l) (modAddr u off + j) = l[j] := by
  induction l generalizing m off j with
  | nil => simp at hj
  | cons b r ih =>
    have h0 : (regionOf off).isMem = true := hm 0 (by simp)
    rw [storeAt, if_pos h0]
    cases j with
    | zero =>
      rw [memRead_storeAt_out _ _ (.inl (by rw [modAddr_succ]; omega))]
      simp
    | succ j =>
      have hr : ∀ k < r.length, (regionOf (off + 1 + k)).isMem = true := fun k hk => by
        rw [Nat.add_assoc, Nat.add_comm 1]
        exact hm (k + 1) (by simpa using hk)
      have := ih (memWrite m (modAddr u off) b) (off := off + 1) (j := j) (by simpa using hj) hr
      rw [modAddr_succ] at this
      rw [show modAddr u off + (j + 1) = modAddr u off + 1 + j by omega, this]
      rfl

/-- The core of a RUNNING task is the one its index names. -/
theorem core_of_runningTask {c : Ctl} {t k i : Nat} (h : c.runningTask t k = some i) : i / 64 = k := by
  obtain ⟨n, hn, rfl⟩ := List.mem_map.mp (List.mem_of_find?_eq_some h)
  rw [List.mem_range] at hn
  omega

/-! ### Loads -/

/-- Settles O48: the branches of a load, in the order of its checks. -/
theorem loadsOfATask : Obligations.LoadsOfATask := by
  have granted {l : List Region} {p : Region → Bool} (h : l.all p = true) : l.any (fun r => !p r) = false := by
    simpa [List.any_eq_false, List.all_eq_true] using h
  refine ⟨?_, ?_, ?_, ?_⟩
  · intro m c t i a n hb hg hr hs
    simp only [casdaLoad, hb, granted hg, hr, hs, Bool.false_eq_true, if_false, Bool.not_true]
  · intro m c t i a n hb hd
    simp only [casdaLoad, hb, hd, Bool.false_eq_true, if_false, if_true]
  · intro m c t i a n hb hw hv
    have hw' : n ≠ 4 ∨ a % 2 ^ 36 % 4 ≠ 0 := by omega
    simp only [casdaLoad, hb, hv, if_true, Bool.false_eq_true, if_false, if_pos hw']
  · intro m c t i a n hb hg hr
    simp only [casdaLoad, hb, granted hg, hr, Bool.false_eq_true, if_false, Bool.not_false, if_true]

/-! ### Scalar stores and AMOs -/

/-- A store that meets no register block stores at its address or nowhere. -/
theorem casdaStore_mem {m : Mem} {c : Ctl} {t : TileId} {i a n v : Nat}
    (hb : (regionsOf (a % 2 ^ 36) n).contains .blocks = false) :
    (casdaStore m c t i a n v).1 = m ∨
      (casdaStore m c t i a n v).1 = storeAt m (a / 2 ^ 36) (a % 2 ^ 36) (leBytes n v) := by
  unfold casdaStore
  simp only [hb, Bool.false_eq_true, if_false]
  split
  · exact .inl rfl
  · split
    · exact .inl rfl
    · exact .inr rfl

theorem memRead_casdaStore_out {m : Mem} {c : Ctl} {t : TileId} {i a n v x : Nat}
    (hb : (regionsOf (a % 2 ^ 36) n).contains .blocks = false) (hx : x < a ∨ a + n ≤ x) :
    memRead (casdaStore m c t i a n v).1 x = memRead m x := by
  rcases casdaStore_mem hb with h | h <;> rw [h]
  exact memRead_storeAt_out _ _ (by rwa [modAddr_split, leBytes_length])

/-- A store of bytes that the task may write, on a tile it reaches, leaves them. -/
theorem memRead_casdaStore_in {m : Mem} {c : Ctl} {t : TileId} {i a n v j : Nat}
    (hg : (regionsOf (a % 2 ^ 36) n).all (fun r => r.isMem &&
      memGrant (c.level t (i / 64) == 1) (ownCore t i (a / 2 ^ 36)) true r) = true)
    (hr : c.reaches t a = true) (hj : j < n) :
    memRead (casdaStore m c t i a n v).1 (a + j) = BitVec.ofNat 8 (v / 256 ^ j) := by
  simp only [List.all_eq_true, Bool.and_eq_true] at hg
  have hb : (regionsOf (a % 2 ^ 36) n).contains .blocks = false := by
    rw [List.contains_eq_mem, decide_eq_false_iff_not]
    exact fun h => absurd (hg _ h).1 (by decide)
  have hd : (regionsOf (a % 2 ^ 36) n).any (fun r => !memGrant (c.level t (i / 64) == 1) (ownCore t i (a / 2 ^ 36)) true r)
      = false := List.any_eq_false.mpr fun r h => by rw [(hg r h).2]; decide
  have hs : (casdaStore m c t i a n v).1 = storeAt m (a / 2 ^ 36) (a % 2 ^ 36) (leBytes n v) := by
    simp only [casdaStore, hb, hd, hr, Bool.false_eq_true, if_false, Bool.not_true]
  have hm : ∀ k < (leBytes n v).length, (regionOf (a % 2 ^ 36 + k)).isMem = true := fun k hk =>
    (hg _ (List.mem_map.mpr ⟨k, List.mem_range.mpr (by simpa using hk), rfl⟩)).1
  have := memRead_storeAt_in (leBytes n v) m (u := a / 2 ^ 36) (j := j) (by simpa using hj) hm
  rw [modAddr_split, getElem_leBytes] at this
  rw [hs, this]

theorem memRead_casdaAmo_out {m : Mem} {c : Ctl} {t : TileId} {i a x : Nat} {f : Word → Word} (hx : x < a ∨ a + 4 ≤ x) :
    memRead (casdaAmo m c t i a f).1 x = memRead m x := by
  unfold casdaAmo
  extract_lets o u off sys r deny blk w y
  split
  · rfl
  split
  · rfl
  split
  · rfl
  split
  · rfl
  split
  · rfl
  · exact memRead_storeAt_out _ _ (by rwa [modAddr_split, leBytes_length])

/-- A store of the task that a core executes, with the DMA writes of the tile landed and the PC moved first. -/
theorem store_executes {s : State} {t : TileId} {k : CoreId} {op : StoreOp} {d a : Fin 32} {imm : BitVec 16} {i : Nat}
    (h : Executes s.ctl t k i) (hd : op = .sdp → d.val % 2 = 0) :
    exec (.store t k op d a imm) s = .next (s.allTo
      (casdaStore (s.ctl.landed s.mem t) (dmaLand t (s.mem, (s.ctl.memOrder t i).next t i)).2 t i
        (s.ctl.dataAddr t i ((s.ctl.task t i).reg a + imm.signExtend 32)) (storeCode op).2
        ((((s.ctl.task t i).reg d).toNat + (if op = .sdp then ((s.ctl.task t i).reg (d.val + 1)).toNat * 2 ^ 32 else 0))
          % 256 ^ (storeCode op).2))) := by
  have hl : (decide (op = .sdp) && d.val % 2 == 1) = false := by
    cases hop : decide (op = .sdp)
    · rfl
    · simp [hd (of_decide_eq_true hop)]
  have hm : (dmaLand t (s.mem, (s.ctl.memOrder t i).next t i)).1 = s.ctl.landed s.mem t := memOrder_landed _ _ _ _ _
  change execStore t k op d a imm s = _
  unfold execStore
  rw [onTileM_fitted h.1, hl, instrM_executes h]
  simp only [hm, memOrder_task, memOrder_dataAddr]

/-- The checks of an access see the state as it was before the instruction. -/
theorem dmaLand_next_level (m : Mem) (c : Ctl) (t i u k : Nat) :
    (dmaLand t (m, (c.memOrder t i).next t i)).2.level u k = c.level u k := by
  unfold Ctl.memOrder; split <;> rfl

theorem dmaLand_next_reaches (m : Mem) (c : Ctl) (t i u a : Nat) :
    (dmaLand t (m, (c.memOrder t i).next t i)).2.reaches u a = c.reaches u a := by
  unfold Ctl.memOrder; split <;> rfl

theorem either_memRead {p : Prop} [Decidable p] {m n : Mem} {c e : Ctl} {x : Nat} {b : Byte} (hm : memRead m x = b)
    (hn : memRead n x = b) : memRead (if p then (m, c) else (n, e)).1 x = b := by
  split
  · exact hm
  · exact hn

/-- An AMO of the task that a core executes leaves every byte outside its word. -/
theorem amo_executes_out {s : State} {t : TileId} {k : CoreId} {d a b : Fin 32} {func : Fin 2048} {ecc : Bool} {i x : Nat}
    (h : Executes s.ctl t k i) (hf : func.val < 8)
    (hx : x < s.ctl.dataAddr t i ((s.ctl.task t i).reg a) ∨ s.ctl.dataAddr t i ((s.ctl.task t i).reg a) + 4 ≤ x) :
    ∃ u, exec (.amo t k d a b func ecc) s = .next u ∧ memRead u.mem x = memRead (s.ctl.landed s.mem t) x := by
  have hm : (dmaLand t (s.mem, s.ctl.memOrder t i)).1 = s.ctl.landed s.mem t := memOrder_landed _ _ _ _ _
  have hl : decide (8 ≤ func.val) = false := by simpa using hf
  change ∃ u, execAmo t k d a b func ecc s = .next u ∧ _
  unfold execAmo
  rw [onTileM_fitted h.1, hl, instrM_executes h]
  refine ⟨_, rfl, ?_⟩
  simp only [allTo_mem, memOrder_task, memOrder_dataAddr, hm]
  exact either_memRead rfl (memRead_casdaAmo_out hx)

/-- Settles O49: the frame and the bytes of a store and the frame of an AMO, through the access each makes. -/
theorem scalarStoresWriteTheirBytes : Obligations.ScalarStoresWriteTheirBytes := by
  refine ⟨?_, ?_, ?_⟩
  · intro s t k op d a imm i x he hd hb hx
    exact ⟨_, store_executes he hd, memRead_casdaStore_out hb hx⟩
  · intro s t k op d a imm i j he hop hg hr hj
    refine ⟨_, store_executes he (fun h => absurd h hop), ?_⟩
    have hk := core_of_runningTask he.2.1
    simp only [allTo_mem, if_neg hop, Nat.add_zero]
    rw [memRead_casdaStore_in (by rwa [dmaLand_next_level, hk]) (by rwa [dmaLand_next_reaches]) hj, ofNat_byte_mod hj]
  · intro s t k d a b func ecc i x he hf hx
    exact amo_executes_out he hf hx

/-! ### Vector stores -/

theorem memRead_stores_out {v : VecArray} {t r p e x : Nat} {addr : Nat → Nat} (m : Mem)
    (h : ∀ l < 32, v.active p l = true → x < modAddr t (addr l) ∨ modAddr t (addr l) + elemSize e ≤ x) :
    memRead (v.stores t r p e addr m) x = memRead m x := by
  unfold VecArray.stores
  suffices hn : ∀ n ≤ 32, memRead (forN n (fun l m => if v.active p l then
      memPut m (modAddr t (addr l)) (elemSize e) (elemStore e (v.lane r l)).1 else m) m) x = memRead m x from hn 32 le_rfl
  intro n hn
  induction n with
  | zero => rfl
  | succ n ih =>
    rw [forN]
    split
    · rw [memRead_memPut_out _ _ (h n (by omega) ‹_›), ih (by omega)]
    · exact ih (by omega)

/-- Settles O50: lane by lane, each active lane writes its element alone. -/
theorem vectorStoresWriteTheirLanes : Obligations.VectorStoresWriteTheirLanes :=
  fun s t _ _ _ _ _ _ h => memRead_stores_out (s.ctl.landed s.mem t) h

end Sys2Proof.Machine

/-! ## Commands above the role (O55)

A CMD of a role that may not send it stops at the first check of its effect, whatever follows it. -/
namespace Sys2Proof.Machine

/-- The effect of a CMD denies every role outside `roles` and does nothing else than name its handle. -/
def Denies (roles : List Role) (f : Req → Mem → Ctl → Eff) : Prop :=
  ∀ q m c, roles.contains q.role = false → ∃ h, f q m c = { Eff.deny m c q.origin 0 true with handle := h }

theorem guarded_denies {roles : List Role} {len : Req → Nat} {k : Req → Mem → Ctl → Eff} :
    Denies roles (fun q m c => guarded q roles (len q) m c (k q m c)) := fun q m c hr =>
  ⟨none, by simp only [guarded, hr]; rfl⟩

theorem names_denies {roles : List Role} {f : Req → Mem → Ctl → Eff} {pos : Nat} (hf : Denies roles f) :
    Denies roles (fun q m c => (f q m c).names q pos) := fun q m c hr => by
  obtain ⟨h, he⟩ := hf q m c hr
  exact ⟨if pos < q.args.length then some (q.arg pos 1) else none, (congrArg (fun e => e.names q pos) he).trans rfl⟩

/-- A denied image command fails no check, so it leaves LAST_CODE. -/
theorem imaged_denies {roles : List Role} {f : Req → Mem → Ctl → Eff} (hf : Denies roles f) :
    Denies roles (fun q m c => (f q m c).imaged) := fun q m c hr => by
  obtain ⟨h, he⟩ := hf q m c hr
  exact ⟨h, congrArg Eff.imaged he⟩

theorem ringInventory_denies : Denies engRoles ringInventory := fun q m c hr =>
  ⟨none, by simp only [ringInventory, hr]; rfl⟩

theorem berylParamSession_denies : Denies [.safety] berylParamSession := fun q m c hr => by
  have hq : q.role ≠ .safety := fun h => by simp [h] at hr
  exact ⟨none, by simp only [berylParamSession, if_pos hq]; rfl⟩

/-- Both forms of `disp.perturb` check the role first. -/
theorem dispPerturb_denies : Denies engRoles dispPerturb := fun q m c hr => by
  unfold dispPerturb
  dsimp only
  split <;> exact guarded_denies (len := fun _ => _) (k := fun _ _ _ => _) q m c hr

/-- A delivered CMD whose effect is denied is answered OK with an empty result, the violation counted, its handle kept. -/
theorem cmd_denied {s : State} {c' : Ctl} {code : Nat} {roles : List Role} {d : Datagram} {q : Req}
    {f : Req → Mem → Ctl → Eff} (hf : Denies roles f) (h : Delivered s.ctl code d q c')
    (hr : roles.contains q.role = false) :
    s.cmd code d f = .next (s.repliedOk d q (c'.violate q.origin 0 true)) := by
  obtain ⟨n, he⟩ := hf q s.mem c' hr
  unfold State.cmd
  rw [onModuleM_next, chpCmd_delivered h, he]
  rfl

/-- A row, its code and its roles: the row is silent for every other role. -/
def SilentAbove (d : Datagram) (e : Instr × Nat × List Role) : Prop :=
  ∀ (s : State) (q : Req) (c' : Ctl), Delivered s.ctl e.2.1 d q c' → e.2.2.contains q.role = false →
    exec e.1 s = .next (s.repliedOk d q (c'.violate q.origin 0 true))

theorem silentAbove {d : Datagram} {i : Instr} {code : Nat} {roles : List Role} {f : Req → Mem → Ctl → Eff}
    {F : State → Host.Outcome State Fault Refusal} (hi : ∀ s, exec i s = F s) (hF : ∀ s, F s = s.cmd code d f)
    (hf : Denies roles f) : SilentAbove d (i, code, roles) := fun s _ _ h hr =>
  ((hi s).trans (hF s)).trans (cmd_denied hf h hr)

/-- Settles O55: each of these rows is a CMD whose effect begins with the check of its roles. -/
theorem commandsAboveTheRoleAreSilent : Obligations.CommandsAboveTheRoleAreSilent := by
  intro s d i code roles q c' hi
  refine (show ∀ e ∈ _, SilentAbove d e from ?_) (i, code, roles) hi s q c'
  simp only [List.forall_mem_cons, List.not_mem_nil, false_imp_iff, implies_true, and_true]
  exact ⟨
    silentAbove (F := execRingEnumerate d) (fun _ => rfl) (fun _ => rfl) guarded_denies,
    silentAbove (F := execRingMode d) (fun _ => rfl) (fun _ => rfl) guarded_denies,
    silentAbove (F := execRingInventoryWrite d) (fun _ => rfl) (fun _ => rfl) ringInventory_denies,
    silentAbove (F := execRingInventoryAdopt d) (fun _ => rfl) (fun _ => rfl) ringInventory_denies,
    silentAbove (F := execRingInventoryClear d) (fun _ => rfl) (fun _ => rfl) ringInventory_denies,
    silentAbove (F := execRingTrust d) (fun _ => rfl) (fun _ => rfl) guarded_denies,
    silentAbove (F := execSmpOwTest d) (fun _ => rfl) (fun _ => rfl) guarded_denies,
    silentAbove (F := execEstAnchorRequest d) (fun _ => rfl) (fun _ => rfl) guarded_denies,
    silentAbove (F := execEstProfile d) (fun _ => rfl) (fun _ => rfl) (names_denies guarded_denies),
    silentAbove (F := execEstCellInit d) (fun _ => rfl) (fun _ => rfl) guarded_denies,
    silentAbove (F := execLvBackup d) (fun _ => rfl) (fun _ => rfl) guarded_denies,
    silentAbove (F := execLvRestore d) (fun _ => rfl) (fun _ => rfl) guarded_denies,
    silentAbove (F := execBalMode d) (fun _ => rfl) (fun _ => rfl) guarded_denies,
    silentAbove (F := execBalManual d) (fun _ => rfl) (fun _ => rfl) guarded_denies,
    silentAbove (F := execBalWireTest d) (fun _ => rfl) (fun _ => rfl) guarded_denies,
    silentAbove (F := execBankSetpoint d) (fun _ => rfl) (fun _ => rfl) guarded_denies,
    silentAbove (F := execDispMode d) (fun _ => rfl) (fun _ => rfl) guarded_denies,
    silentAbove (F := execDispSchedule d) (fun _ => rfl) (fun _ => rfl) (names_denies guarded_denies),
    silentAbove (F := execDispPerturb d) (fun _ => rfl) (fun _ => rfl) dispPerturb_denies,
    silentAbove (F := execDispPerturbStop d) (fun _ => rfl) (fun _ => rfl) dispPerturb_denies,
    silentAbove (F := execLoopMode d) (fun _ => rfl) (fun _ => rfl) guarded_denies,
    silentAbove (F := execBerylParamOpen d) (fun _ => rfl) (fun _ => rfl) berylParamSession_denies,
    silentAbove (F := execBerylParamConfirm d) (fun _ => rfl) (fun _ => rfl) berylParamSession_denies,
    silentAbove (F := execBerylParamAbort d) (fun _ => rfl) (fun _ => rfl) berylParamSession_denies,
    silentAbove (F := execModeStandby d) (fun _ => rfl) (fun _ => rfl) guarded_denies,
    silentAbove (F := execModeChrysalis d) (fun _ => rfl) (fun _ => rfl) guarded_denies,
    silentAbove (F := execModeRun d) (fun _ => rfl) (fun _ => rfl) guarded_denies,
    silentAbove (F := execImgBegin d) (fun _ => rfl) (fun _ => rfl) (imaged_denies guarded_denies),
    silentAbove (F := execImgChunk d) (fun _ => rfl) (fun _ => rfl) (names_denies (imaged_denies guarded_denies)),
    silentAbove (F := execImgVerify d) (fun _ => rfl) (fun _ => rfl) (imaged_denies guarded_denies),
    silentAbove (F := execImgActivate d) (fun _ => rfl) (fun _ => rfl) (imaged_denies guarded_denies),
    silentAbove (F := execImgConfirm d) (fun _ => rfl) (fun _ => rfl) (imaged_denies guarded_denies),
    silentAbove (F := execNetBulkOpen d) (fun _ => rfl) (fun _ => rfl) guarded_denies,
    silentAbove (F := execNetSupervise d) (fun _ => rfl) (fun _ => rfl) guarded_denies,
    silentAbove (F := execNetSuperviseRelease d) (fun _ => rfl) (fun _ => rfl) guarded_denies⟩

end Sys2Proof.Machine

/-! ## Right after reset (O41) -/
namespace Sys2Proof.Machine

/-- A read of the TILE block shows what the block keeps elsewhere, else its fields. -/
theorem regRead_tileBlock (c : Ctl) (m : Mem) (o : Origin) (t off : Nat) :
    (c.regRead m o t 0x00 off).1 = (c.shown m 0x00 t off).getD (c.fieldWord 0x00 t off) := by
  have hs : systemRead t 0x00 off = false := by simp [systemRead]
  have hu : shownTile 0x00 t off = t := by simp [shownTile]
  simp only [Ctl.regRead, hs, hu, Nat.reduceLeDiff, Nat.reduceEqDiff, Bool.false_eq_true, false_and, if_false]
  cases c.shown m 0x00 t off <;> rfl

/-- A register field that nothing has written holds its reset value. -/
theorem get_reset (t : Nat) (F : Field) (i j : Nat) : State.reset.ctl.get t F i j = F.reset := rfl

/-- TILE_ID at reset: the partner, the mark of tile 0 and the tile's own number. -/
theorem reset_tileId (o : Origin) (t : Nat) :
    (State.reset.ctl.regRead [] o t 0x00 0x000).1 = partner t * 16 + b2n (decide (t = 0)) * 8 + t :=
  regRead_tileBlock _ _ _ _ _

/-- TILE_STATUS at reset: no tile is carried, each is in BOOT. -/
theorem reset_tileStatus (o : Origin) (t : Nat) : (State.reset.ctl.regRead [] o t 0x00 0x004).1 = t * 16 + 1 :=
  regRead_tileBlock _ _ _ _ _

theorem reset_cause (o : Origin) (t : Nat) : (State.reset.ctl.regRead [] o t 0x00 0x008).1 = 1 :=
  regRead_tileBlock _ _ _ _ _

/-- Settles O41: the memories and the queue are empty, no field is written, and the TILE block of each tile is read. -/
theorem resetState : Obligations.ResetState := by
  refine ⟨⟨rfl, rfl, rfl⟩, get_reset, fun t ht o => ⟨?_, reset_tileStatus o t, reset_cause o t⟩, by decide⟩
  have hp : partner t = t + 1 - 2 * (t % 2) := by
    unfold partner
    split <;> omega
  have h0 : b2n (decide (t = 0)) * 8 = if t = 0 then 8 else 0 := by
    by_cases h : t = 0 <;> simp [h, b2n]
  rw [reset_tileId, hp, h0]

end Sys2Proof.Machine

/-! ## Power modes and MOD_TILE_CTRL (O29) -/
namespace Sys2Proof.Machine

/-! ### Bits of a register word -/

/-- A number read at bit `i`: what lies above it, the bit and what lies below. -/
theorem bit_split (v i : Nat) : v = 2 ^ (i + 1) * (v / 2 ^ (i + 1)) + ((v.testBit i).toNat * 2 ^ i + v % 2 ^ i) := by
  have h1 := Nat.div_add_mod v (2 ^ (i + 1))
  have h2 : v % 2 ^ (i + 1) = v % 2 ^ i + 2 ^ i * (v.testBit i).toNat := by
    rw [pow_succ, Nat.mod_mul, Nat.toNat_testBit]
  rw [Nat.mul_comm (Bool.toNat _), Nat.add_comm (2 ^ i * _), ← h2, h1]

theorem testBit_joined (q r i j : Nat) (b : Bool) (hr : r < 2 ^ i) :
    (2 ^ (i + 1) * q + (b.toNat * 2 ^ i + r)).testBit j = if j = i then b else (2 ^ (i + 1) * q + r).testBit j := by
  have hb : b.toNat * 2 ^ i + r < 2 ^ (i + 1) := by cases b <;> simp [pow_succ] <;> omega
  have hr' : r < 2 ^ (i + 1) := by rw [pow_succ]; omega
  rw [Nat.testBit_two_pow_mul_add _ hb, Nat.testBit_two_pow_mul_add _ hr']
  rcases Nat.lt_trichotomy j i with h | h | h
  · rw [if_pos (by omega), if_neg (by omega), if_pos (by omega)]
    cases b
    · simp
    · simpa using Nat.testBit_two_pow_add_gt h r
  · subst h
    cases b
    · simp [Nat.testBit_lt_two_pow hr]
    · simp [Nat.testBit_two_pow_add_eq, Nat.testBit_lt_two_pow hr]
  · rw [if_neg (by omega), if_neg (by omega), if_neg (by omega)]

/-- A word with a bit written reads there as written and elsewhere as it was. -/
theorem bit_setBit (v i j : Nat) (b : Bool) : bit (setBit v i b) j = if j = i then b else bit v j := by
  have hr := Nat.mod_lt v (Nat.two_pow_pos i)
  have hv := bit_split v i
  have hset : setBit v i b = 2 ^ (i + 1) * (v / 2 ^ (i + 1)) + (b.toNat * 2 ^ i + v % 2 ^ i) := by
    unfold setBit
    cases hi : v.testBit i <;> cases b <;> simp only [hi, Bool.toNat_true, Bool.toNat_false] at hv ⊢ <;> simp <;> omega
  unfold bit
  rw [hset, testBit_joined _ _ _ _ _ hr]
  split
  · rfl
  · next h => rw [show v.testBit j = _ from congrArg (Nat.testBit · j) hv, testBit_joined _ _ _ _ _ hr, if_neg h]

/-- RESET bits stand below the HOLD bits. -/
theorem bit_holdBits_low (c : Ctl) {j : Nat} (h : j < 9) : bit c.holdBits j = false := by
  unfold bit Ctl.holdBits
  rw [show (512 : Nat) = 2 ^ 9 by rfl, Nat.testBit_mul_two_pow, decide_eq_false (by omega), Bool.false_and]

/-! ### A write of MOD_TILE_CTRL that names one tile -/

/-- The tiles that MOD_TILE_CTRL can name. -/
abbrev namedTiles : List Nat := (List.range 8).drop 1

theorem mem_namedTiles {j : Nat} : j ∈ namedTiles ↔ 1 ≤ j ∧ j < 8 := by
  rw [show namedTiles = [1, 2, 3, 4, 5, 6, 7] from rfl]
  simp only [List.mem_cons, List.not_mem_nil, or_false]
  omega

theorem named_one {t : TileId} (h : 1 ≤ t.val) (b : Bool) :
    namedTiles.filter (fun j => b && decide (j = t.val)) = if b then [t.val] else [] := by
  revert t
  cases b <;> decide

/-- A loop of which one turn alone does something does what that turn does. -/
theorem foldl_one_turn {α β : Type} {l : List α} {f : β → α → β} {a : α} (hn : l.Nodup) (ha : a ∈ l)
    (h : ∀ x, ∀ b ∈ l, b ≠ a → f x b = x) (x : β) : l.foldl f x = f x a := by
  have idle (l : List α) (hl : ∀ b ∈ l, ∀ x, f x b = x) (x : β) : l.foldl f x = x := by
    induction l generalizing x with
    | nil => rfl
    | cons b l ih =>
      rw [List.foldl_cons, hl b (by simp)]
      exact ih (fun d hd => hl d (by simp [hd])) x
  induction l generalizing x with
  | nil => cases ha
  | cons b l ih =>
    obtain ⟨hb, hn⟩ := List.nodup_cons.mp hn
    rw [List.foldl_cons]
    by_cases hab : b = a
    · subst hab
      exact idle l (fun d hd y => h y d (by simp [hd]) (fun e => hb (e ▸ hd))) _
    · rw [h x b (by simp) hab]
      exact ih hn ((List.mem_cons.mp ha).resolve_left (Ne.symm hab)) (fun y d hd => h y d (by simp [hd])) x

/-- What a write does of the tile it names, on the state with HOLD written: down where it is reset or newly held, out of the
hold where the hold ends and nothing else holds it. -/
def tileCtrlTurn (t w : Nat) (reset change : Bool) (x : MC) : MC :=
  if reset || (change && bit w (8 + t)) then tileCtrlDown t (bit w (8 + t)) x
  else if change && x.2.tileState t == tsHeld && !x.2.pw.mrstLow && !x.2.pw.held then
    x.on (fun c => c.put t TILE_STATUS_STATE tsBoot)
  else x

theorem tileCtrlTurn_hold {t w : Nat} (h : bit w (8 + t) = true) (x : MC) :
    tileCtrlTurn t w false true x = tileCtrlDown t true x := by simp [tileCtrlTurn, h]

theorem tileCtrlTurn_release {t w : Nat} (h : bit w (8 + t) = false) (m : Mem) (c : Ctl) :
    tileCtrlTurn t w false true (m, c) = (m, if c.tileState t = tsHeld ∧ c.pw.mrstLow = false ∧ c.pw.held = false then
      c.put t TILE_STATUS_STATE tsBoot else c) := by
  simp [tileCtrlTurn, h, MC.on, apply_ite (Prod.mk m), and_assoc]

/-- A write by an accessor with the right that sets the RESET bit of tile `t` alone (`reset`), or changes its HOLD bit alone
(`change`), or both, and that no check refuses (R50). -/
theorem tileCtrlWrite_one {m : Mem} {c : Ctl} {o : Origin} {w : Nat} {t : TileId} {reset change : Bool} (ht : 1 ≤ t.val)
    (ho : c.isSystem o = true ∨ isRole o .engineer = true ∨ isRole o .management = true)
    (hr : ∀ j ∈ namedTiles, bit w j = (reset && decide (j = t.val)))
    (hc : ∀ j ∈ namedTiles, (bit w (8 + j) != bit c.holdBits (8 + j)) = (change && decide (j = t.val)))
    (he : c.tileCtrlCode w (if reset then [t.val] else []) (if change then [t.val] else [])
      (if change && bit w (8 + t.val) then [t.val] else []) = eOk) :
    tileCtrlWrite m c o w = (tileCtrlTurn t w reset change (m, c.put 0 MOD_TILE_CTRL_HOLD (bitsOf w 9 7)), eOk) := by
  have hmem : t.val ∈ namedTiles := mem_namedTiles.mpr ⟨ht, t.isLt⟩
  have hrs : namedTiles.filter (fun j => bit w j) = if reset then [t.val] else [] :=
    (List.filter_congr hr).trans (named_one ht reset)
  have hhs : namedTiles.filter (fun j => bit w (8 + j) != bit c.holdBits (8 + j)) = if change then [t.val] else [] :=
    (List.filter_congr hc).trans (named_one ht change)
  have hnew : (if change then [t.val] else []).filter (fun j => bit w (8 + j))
      = if change && bit w (8 + t.val) then [t.val] else [] := by
    cases change <;> cases hb : bit w (8 + t.val) <;> simp [hb]
  have hrole : (!(c.isSystem o || isRole o .engineer || isRole o .management)) = false := by
    rcases ho with h | h | h <;> simp [h]
  have hold : c.get 0 MOD_TILE_CTRL_HOLD * 512 = c.holdBits := rfl
  unfold tileCtrlWrite
  simp only [hrole, Bool.false_eq_true, if_false, hold, hrs, hhs, hnew, he, ne_eq, not_true_eq_false]
  refine congrArg (·, eOk) (foldl_one_turn (by decide) hmem (fun x j hj hne => ?_) _ |>.trans ?_)
  · cases reset <;> cases change <;> simp [hne]
  · cases reset <;> cases change <;> cases hb : bit w (8 + t.val) <;> simp [tileCtrlTurn, hb]

/-- A write that sets the RESET bit of a tile and leaves HOLD. -/
theorem tileCtrlWrite_reset {m : Mem} {c : Ctl} {o : Origin} {t : TileId} (ht : 1 ≤ t.val)
    (ho : c.isSystem o = true ∨ isRole o .engineer = true ∨ isRole o .management = true)
    (he : c.tileCtrlCode (setBit c.holdBits t true) [t.val] [] [] = eOk) :
    tileCtrlWrite m c o (setBit c.holdBits t true) = (tileCtrlDown t (bit (setBit c.holdBits t true) (8 + t))
      (m, c.put 0 MOD_TILE_CTRL_HOLD (bitsOf (setBit c.holdBits t true) 9 7)), eOk) :=
  tileCtrlWrite_one (reset := true) (change := false) ht ho
    (fun j hj => by
      rw [bit_setBit, bit_holdBits_low _ (by have := mem_namedTiles.mp hj; omega)]
      by_cases h : j = t.val <;> simp [h])
    (fun j hj => by rw [bit_setBit, if_neg (by omega), bne_self_eq_false, Bool.false_and])
    he

/-- A write that turns the HOLD bit of a tile to `b`. -/
theorem tileCtrlWrite_hold {m : Mem} {c : Ctl} {o : Origin} {t : TileId} {b : Bool} (ht : 1 ≤ t.val)
    (ho : c.isSystem o = true ∨ isRole o .engineer = true ∨ isRole o .management = true)
    (hb : bit c.holdBits (8 + t) = !b)
    (he : c.tileCtrlCode (setBit c.holdBits (8 + t) b) [] [t.val] (if b then [t.val] else []) = eOk) :
    tileCtrlWrite m c o (setBit c.holdBits (8 + t) b) = (tileCtrlTurn t (setBit c.holdBits (8 + t) b) false true
      (m, c.put 0 MOD_TILE_CTRL_HOLD (bitsOf (setBit c.holdBits (8 + t) b) 9 7)), eOk) := by
  have hv (j : Nat) : bit (setBit c.holdBits (8 + t) b) (8 + j) = if j = t.val then b else bit c.holdBits (8 + j) := by
    simp [bit_setBit]
  refine tileCtrlWrite_one ht ho (fun j hj => ?_) (fun j hj => ?_) (by simpa [hv] using he)
  · have := mem_namedTiles.mp hj
    rw [bit_setBit, if_neg (by omega), bit_holdBits_low _ (by omega), Bool.false_and]
  · rw [hv]
    by_cases h : j = t.val <;> simp [h, hb]

/-- The access that such a write makes, for a tile whose registers the accessor reaches. -/
theorem tileCtrl_accessed {s : State} {o : Origin} {w : Ctl → Nat} {x : MC} (hf : accessorFitted s.ctl o = true)
    (hr : s.ctl.reachedBy o 0 = true) (hx : tileCtrlWrite s.mem s.ctl o (w s.ctl) = (x, eOk)) :
    s.onAccessM o (fun m c => accessM m c o 0 0x13 (fun m c => tileCtrlWrite m c o (w c))) =
      .next (s.allTo (x.1, x.2.answer o 0x13 eOk)) := by
  rw [onAccessM_fitted hf, accessM_reached hr, hx]

/-! ### The mode commands and the entries -/

/-- A wake time that is 0 or in its range, and no reason against leaving Run: `mode.standby` is accepted. -/
theorem modeStandby_code {wake leave : Nat} (hw : wake = 0 ∨ (60 ≤ wake ∧ wake ≤ 604800)) (hc : leave = eOk) :
    firstErr [(wake != 0 && (decide (wake < 60) || decide (604800 < wake)), eRange), (leave != eOk, leave)] = eOk := by
  have hrange : (wake != 0 && (decide (wake < 60) || decide (604800 < wake))) = false := by
    rcases hw with hw | hw
    · simp [hw]
    · simp; omega
  simp [firstErr, hrange, hc]

/-- Settles O29: the mode commands pass their guards and answer, the events meet the conditions of their rows, and each write of
MOD_TILE_CTRL names one tile. -/
theorem powerModeCommandsComplete : Obligations.PowerModeCommandsComplete := by
  refine ⟨?standby, ?chrysalis, ?run, ?commitDone, ?powerOff, ?wakeTime, ?inputSwitch, ?arm, ?wake, ?reset, ?hold, ?release⟩
  case standby =>
    intro s d q c' wake x h hr hl hw hc
    refine cmd_answered h ?_ rfl rfl
    unfold modeStandby
    rw [guarded_pass hr hl]
    exact if_neg (not_not.mpr (modeStandby_code hw hc))
  case chrysalis =>
    intro s d q c' h hr hl hc
    refine cmd_answered h ?_ rfl rfl
    dsimp only
    rw [guarded_pass hr hl]
    exact if_neg (not_not.mpr hc)
  case run =>
    intro s d q c' h hr hl hm
    have hx : standbyExit 1 (s.mem, c') = (s.mem, c') := if_pos (.inl (by simp [hm]))
    refine cmd_answered h ?_ rfl rfl
    unfold modeRun
    rw [guarded_pass hr hl, hx]
  case commitDone =>
    intro s cause x y z hl hc
    change execShutdownCommitDone s = _
    unfold execShutdownCommitDone
    rw [onModuleM_next]
    rcases hl with hl | hl <;> simp [hl, hc, z, y, x, cause]
  case powerOff =>
    intro s wake x h
    exact congrArg (fun x => Host.Outcome.next (s.allTo x)) (if_neg (by simp [h.1, h.2]))
  case wakeTime =>
    intro s a ha hm
    change execStandbyWakeTime s = _
    unfold execStandbyWakeTime
    simp only [onModuleM_next, ha]
    exact congrArg (fun x => Host.Outcome.next (s.allTo x)) (if_neg (by simp [hm.1, hm.2]))
  case inputSwitch =>
    intro s x h
    change execChrysalisInputSwitchOpen s = _
    unfold execChrysalisInputSwitchOpen
    simp only [onModuleM_next, h, ne_eq, ite_not]
    rfl
  case arm | wake =>
    intro s h
    exact congrArg (fun c => Host.Outcome.next (s.ctlTo c)) (if_pos h)
  case reset =>
    intro s o t v x hf hr ho ht he
    exact tileCtrl_accessed (w := fun c => setBit c.holdBits t true) hf hr (tileCtrlWrite_reset ht ho he)
  case hold =>
    intro s o t v x hf hr ho ht hb he
    have hx := tileCtrlWrite_hold (m := s.mem) (b := true) ht ho hb he
    rw [tileCtrlTurn_hold (by simp [bit_setBit])] at hx
    exact tileCtrl_accessed (w := fun c => setBit c.holdBits (8 + t) true) hf hr hx
  case release =>
    intro s o t v c1 hf hr ho ht hb he
    have hx := tileCtrlWrite_hold (m := s.mem) (b := false) ht ho hb he
    rw [tileCtrlTurn_release (by simp [bit_setBit])] at hx
    exact tileCtrl_accessed (w := fun c => setBit c.holdBits (8 + t) false) hf hr hx

end Sys2Proof.Machine

/-! ## Scalar instructions (O1, O44 to O46)

Each instruction is a small effect inside `Ctl.instr`; what its word must not be illegal for is said once per instruction. -/
namespace Sys2Proof.Machine

/-- A word that is not illegal, met by the task a core executes, has its effect on that task. -/
theorem onTile_instr {s : State} {t : TileId} {k : CoreId} {i word : Nat} {illegal : Bool} {f : Nat → Ctl → Ctl}
    (h : Executes s.ctl t k i) (hl : illegal = false) :
    s.onTile t (fun c => c.instr t k word illegal f) = .next (s.ctlTo (f i s.ctl)) := by
  rw [onTile_fitted h.1, hl, instr_executes h]

/-- One that reads memory, and one that may write it. -/
theorem onTileR_instr {s : State} {t : TileId} {k : CoreId} {i word : Nat} {illegal : Bool} {f : Mem → Nat → Ctl → Ctl}
    (h : Executes s.ctl t k i) (hl : illegal = false) :
    s.onTileR t (fun m c => c.instr t k word illegal (f m)) = .next (s.ctlTo (f s.mem i s.ctl)) := by
  rw [onTileR_fitted h.1, hl, instr_executes h]

theorem onTileM_instr {s : State} {t : TileId} {k : CoreId} {i word : Nat} {illegal : Bool}
    {f : Mem → Nat → Ctl → Mem × Ctl} (h : Executes s.ctl t k i) (hl : illegal = false) :
    s.onTileM t (fun m c => instrM m c t k word illegal (f m)) = .next (s.allTo (f s.mem i s.ctl)) := by
  rw [onTileM_fitted h.1, hl, instrM_executes h]

/-- Whether a func of the ALU group is assigned does not depend on the operands. -/
theorem aluFn_isNone (func : Nat) (x y u v : Word) (b : Nat) : (aluFn func x y b).isNone = (aluFn func u v b).isNone := by
  unfold aluFn
  split <;> simp only [Option.isNone_some]

theorem aluOp_executes {s : State} {t : TileId} {k : CoreId} {d a b : Fin 32} {func : Fin 2048} {i : Nat} {y : Word}
    (h : Executes s.ctl t k i) (hy : aluFn func ((s.ctl.task t i).reg a) ((s.ctl.task t i).reg b) b = some y)
    (hb : aluUnary func = true → b.val = 0) : exec (.aluOp t k d a b func) s = .next (s.resulted t i d y) := by
  have hl : ((aluFn func 0 0 b).isNone || (aluUnary func && decide (b.val ≠ 0))) = false := by
    rw [aluFn_isNone func _ _ ((s.ctl.task t i).reg a) ((s.ctl.task t i).reg b), hy]
    simpa using hb
  refine (onTile_instr h hl).trans ?_
  rw [hy]
  rfl

/-- A func of two operands whose values are known. -/
theorem aluOp_of_operands {s : State} {t : TileId} {k : CoreId} {d a b : Fin 32} {func : Fin 2048} {i : Nat} {x y v : Word}
    (h : Executes s.ctl t k i) (hu : aluUnary func = false) (hx : (s.ctl.task t i).reg a = x)
    (hy : (s.ctl.task t i).reg b = y) (hv : aluFn func x y b = some v) :
    exec (.aluOp t k d a b func) s = .next (s.resulted t i d v) :=
  aluOp_executes h (by rw [hx, hy, hv]) (by simp [hu])

theorem branch_executes {s : State} {t : TileId} {k : CoreId} {i : Nat} (h : Executes s.ctl t k i) (op : BranchOp)
    (a b : Fin 32) (disp : BitVec 16) : exec (.branch t k op a b disp) s = .next
      (s.retired t i 0 0 (if branchTaken op ((s.ctl.task t i).reg a) ((s.ctl.task t i).reg b) then
        branchTarget (s.ctl.task t i).pc disp.toInt else (s.ctl.task t i).pc + 4)) := onTile_instr h rfl

theorem jump_executes {s : State} {t : TileId} {k : CoreId} {i : Nat} (h : Executes s.ctl t k i) (disp : BitVec 26) :
    exec (.jump t k disp) s = .next (s.retired t i 0 0 (branchTarget (s.ctl.task t i).pc disp.toInt)) := onTile_instr h rfl

theorem jal_executes {s : State} {t : TileId} {k : CoreId} {i : Nat} (h : Executes s.ctl t k i) (disp : BitVec 26) :
    exec (.jal t k disp) s = .next (s.retired t i 31 (BitVec.ofNat 32 ((s.ctl.task t i).pc + 4))
      (branchTarget (s.ctl.task t i).pc disp.toInt)) := onTile_instr h rfl

/-- MFS and MTS of a word whose unused field is zero, up to the branch of the selector (R56). -/
theorem mfs_executes {s : State} {t : TileId} {k : CoreId} {d a b : Fin 32} {i : Nat} (h : Executes s.ctl t k i)
    (ha : a.val = 0) : exec (.mfs t k d ⟨b, a⟩) s = .next (s.ctlTo (
      if b.val = 8 then s.ctl.free.2.retire t i d (BitVec.ofNat 32 s.ctl.free.1)
      else if 9 ≤ b.val ∧ b.val ≤ 12 ∧ s.ctl.level t k = 0 then
        (s.ctl.free.2.violate (taskOrigin t i) s.ctl.free.1 false).retire t i d 0
      else s.ctl.retire t i d (BitVec.ofNat 32 (s.ctl.special t i b)))) := onTile_instr h (by simp [ha])

theorem mts_executes {s : State} {t : TileId} {k : CoreId} {d a b : Fin 32} {i : Nat} (h : Executes s.ctl t k i)
    (hd : d.val = 0) : exec (.mts t k a ⟨b, d⟩) s = .next (s.ctlTo (
      if b.val = 1 then
        (s.ctl.setTask t i { s.ctl.task t i with addrExt := ((s.ctl.task t i).reg a).toNat % 256 }).next t i
      else if 9 ≤ b.val ∧ b.val ≤ 12 ∧ s.ctl.level t k = 0 then
        (s.ctl.free.2.violate (taskOrigin t i) s.ctl.free.1 true).next t i
      else s.ctl.next t i)) := onTile_instr h (by simp [hd])

/-- Settles O1: each word is legal under its hypothesis, and MFS and MTS take the branch their selector names. -/
theorem scalarInstructionsComplete : Obligations.ScalarInstructionsComplete := by
  refine ⟨?alu, ?immediate, ?branch, ?jump, ?jal, ?jalr, ?nop, ?mfsReg, ?mfsCycles, ?mfsTrap, ?mtsExt, ?mtsIgnored, ?mtsTrap⟩
  case alu =>
    intro s t k d a b func i y h hy hb
    exact aluOp_executes h hy hb
  case immediate =>
    intro s t k op d a imm i h hl
    exact onTile_instr h (by simpa using hl)
  case branch =>
    intro s t k op a b disp i h
    exact branch_executes h op a b disp
  case jump =>
    intro s t k disp i h
    exact jump_executes h disp
  case jal =>
    intro s t k disp i h
    exact jal_executes h disp
  case jalr =>
    intro s t k d a imm i h
    exact onTile_instr h rfl
  case nop =>
    intro s t k w i h hw
    exact onTile_instr h (by simp [hw])
  case mfsReg =>
    intro s t k d a b i h ha hb hs
    rw [mfs_executes h ha, if_neg hb, if_neg hs]
    rfl
  case mfsCycles =>
    intro s t k d a b i h ha hb
    rw [mfs_executes h ha, if_pos hb]
    rfl
  case mfsTrap =>
    intro s t k d a b i h ha hs
    rw [mfs_executes h ha, if_neg (by omega), if_pos hs]
    rfl
  case mtsExt =>
    intro s t k d a b i h hd hb
    rw [mts_executes h hd, if_pos hb]
    simp only [Ctl.next, task_setTask_same, setTask_setTask]
  case mtsIgnored =>
    intro s t k d a b i h hd hb hs
    rw [mts_executes h hd, if_neg hb, if_neg hs]
    rfl
  case mtsTrap =>
    intro s t k d a b i h hd hs
    rw [mts_executes h hd, if_neg (by omega), if_pos hs]
    rfl

/-! ### The statements about single rules -/

/-- Settles O44: the rules of the scalar registers, and the register result of JAL. -/
theorem scalarRegisterZero : Obligations.ScalarRegisterZero := by
  refine ⟨fun k v => ⟨reg_zero k, setReg_zero k v⟩,
    fun k n m v hn => ⟨reg_setReg_same k v hn, reg_setReg_ne k v⟩, ?_, ?_⟩
  · intro s t k a b i h
    rw [aluOp_of_operands h rfl rfl rfl rfl]
    rfl
  · intro s t k disp i h
    refine ⟨_, jal_executes h disp, ?_⟩
    simp only [State.retired, ctlTo_ctl, task_setTask_same]
    exact reg_setReg_same _ _ (by decide)

/-- The PC of an instruction retired. -/
@[simp] theorem retired_pc (s : State) (t i d : Nat) (v : Word) (pc : Nat) :
    ((s.retired t i d v pc).ctl.task t i).pc = pc := by simp [State.retired]

/-- A target as an integer (R59). -/
theorem branchTarget_cast (pc : Nat) (disp : Int) : (branchTarget pc disp : Int) = (pc + 4 + disp * 4) % 2 ^ 32 :=
  Int.toNat_of_nonneg (Int.emod_nonneg _ (by decide))

/-- Settles O45: each form leaves the PC at its branch target. -/
theorem branchTargets : Obligations.BranchTargets := by
  refine ⟨?_, ?_⟩
  · intro s t k op a b disp i h ht
    exact ⟨_, branch_executes h op a b disp, by rw [retired_pc, if_pos ht, branchTarget_cast]⟩
  · intro s t k disp i h
    exact ⟨⟨_, jump_executes h disp, by rw [retired_pc, branchTarget_cast]⟩,
      ⟨_, jal_executes h disp, by rw [retired_pc, branchTarget_cast]⟩⟩

/-- Settles O46: each corner is a value of the function of its func. -/
theorem divisionCorners : Obligations.DivisionCorners := by
  refine ⟨?byZero, ?overflow⟩
  case byZero =>
    intro s t k d a b i h hb
    exact ⟨aluOp_of_operands h rfl rfl hb rfl, aluOp_of_operands h rfl rfl hb rfl, aluOp_of_operands h rfl rfl hb rfl,
      aluOp_of_operands h rfl rfl hb rfl⟩
  case overflow =>
    intro s t k d a b i h ha hb
    exact ⟨aluOp_of_operands h rfl ha hb rfl, aluOp_of_operands h rfl ha hb rfl⟩

end Sys2Proof.Machine

/-! ## Task instructions (O2)

The operations on the task itself: what the updates of a slot leave of the bucket, and each branch of BUDGET and VCLAIM. -/
namespace Sys2Proof.Machine

/-- The core runs task 0 when it executes it, so TRET is legal there (R64). -/
theorem tret_executes {s : State} {t : TileId} {k : CoreId} (h : Executes s.ctl t k 0) (d a b : Fin 32) :
    exec (.tret t k d a b) s = .next (s.ctlTo (
      let j := ((s.ctl.task t 0).reg a).toNat % 256
      let c := s.ctl.retire t 0 d 0
      if s.ctl.tstate t j = kTrapped then
        ((c.setTask t j { c.task t j with pc := ((s.ctl.task t 0).reg b).toNat / 4 * 4, first := none }).makeReady t j
          ).sched t (j / 64)
      else s.ctl.retire t 0 d (BitVec.ofNat 32 eState))) := by
  have hl : (s.ctl.runningTask t k != some 0) = false := by simp [h.2.1]
  change execTret t k d a b s = _
  unfold execTret
  rw [onTile_fitted h.1, hl, instr_executes h]

/-- The end of a FENCE, for a task that waits for it: the vector accesses of the task have taken effect. -/
theorem fenceDone_waiting {s : State} {t : TileId} {i : TaskId} (ht : t.val < s.ctl.tiles)
    (hw : (s.ctl.task t i).wait = .fence) : exec (.fenceDone t i) s = .next (s.ctlTo (
      let c := ((s.ctl.setTask t i { (s.ctl.task t i) with wait := .none }).put t TASK_STATE_ACCESS 0 i).memOrder t i
      if (s.ctl.task t i).stopReq then c.stopNow t i else c.sched t (i.val / 64))) := by
  change execFenceDone t i s = _
  unfold execFenceDone
  rw [onTile_fitted ht]
  simp only [hw, if_true, memOrder_task, task_put, task_setTask_same]

/-- The bucket and a task slot are written independently. -/
theorem setBucket_setTask (c : Ctl) (t u i : Nat) (k : Task) (v : Int) :
    (c.setTask t i k).setBucket u v = (c.setBucket u v).setTask t i k := rfl

/-- BUDGET within its range (R111): a lowering returns the difference, a raise takes it or leaves the task gated. -/
theorem budget_executes {s : State} {t : TileId} {k : CoreId} {d a : Fin 32} {i : Nat} (h : Executes s.ctl t k i)
    (hr : ¬ (s.ctl.get t TASK_CFG_PRIO i = 0 ∧ 0 < ((s.ctl.task t i).reg a).toNat % 4)) :
    exec (.budget t k d a) s = .next (s.ctlTo (
      let cls := ((s.ctl.task t i).reg a).toNat % 4
      let past : Task := { (s.ctl.task t i).setReg d (BitVec.ofNat 32 eOk) with
        pc := (s.ctl.task t i).pc + 4, first := none, cost := cls }
      if classCost cls ≤ (s.ctl.task t i).paid then
        (s.ctl.setBucket t (s.ctl.getInt t PWR_BUCKET_B + ((s.ctl.task t i).paid - classCost cls : Nat))).setTask t i
          { past with paid := classCost cls }
      else if s.ctl.grants t (s.ctl.get t TASK_CFG_PRIO i) (classCost cls - (s.ctl.task t i).paid) then
        (s.ctl.setBucket t (s.ctl.getInt t PWR_BUCKET_B - (classCost cls - (s.ctl.task t i).paid : Nat))).setTask t i
          { past with paid := classCost cls }
      else (((s.ctl.setTask t i { past with granted := false }).makeReady t i).gate t i).sched t k)) := by
  refine (onTile_instr h rfl).trans ?_
  simp only [if_neg hr, Ctl.retireCode, Ctl.retire, Ctl.retireTo, task_setTask_same, setReg_paid, get_setTask,
    getInt_setTask, grants_setTask, setBucket_setTask, setTask_setTask]

theorem vclaim_executes {s : State} {t : TileId} {k : CoreId} {i : Nat} (h : Executes s.ctl t k i) (d a : Fin 32) :
    exec (.vclaim t k d a) s = .next (s.ctlTo (
      let v := s.ctl.vecOf t
      if v.holder = some i then s.ctl.retireCode t i d eOk
      else if v.holder = none ∧ v.waiters = [] then (s.ctl.grantClaim t i).retireCode t i d eOk
      else if ((s.ctl.task t i).reg a).toNat % 2 = 0 then s.ctl.retireCode t i d eBusy
      else (s.ctl.setVec t { v with waiters := v.waiters ++ [i] }).blockOn t i d .claim 2)) := onTile_instr h rfl

/-- The claim of an array that nobody waits for. -/
theorem grantClaim_unwaited {c : Ctl} {t : Nat} (h : (c.vecOf t).waiters = []) (i : Nat) :
    c.grantClaim t i = c.setVec t { c.vecOf t with v := [], p := [], holder := some i } := by
  simp only [Ctl.grantClaim, h, List.filter_nil]

theorem vrelease_executes {s : State} {t : TileId} {k : CoreId} {d a : Fin 32} {i : Nat} (h : Executes s.ctl t k i)
    (ha : a.val = 0) : exec (.vrelease t k d a) s = .next (s.ctlTo (
      if (s.ctl.vecOf t).holder = some i then (s.ctl.retireCode t i d eOk).releaseClaim t i
      else s.ctl.retireCode t i d eState)) := onTile_instr h (by simp [ha])

/-- Settles O2: each word is legal under its hypothesis, and each operation takes the branch its hypotheses name. -/
theorem taskInstructionsComplete : Obligations.TaskInstructionsComplete := by
  refine ⟨?tend, ?tretTrapped, ?tretState, ?trig, ?yield, ?trap, ?fence, ?fenceDone, ?fenceStop, ?budgetRange, ?budgetLower,
    ?budgetRaise, ?budgetGated, ?claimHeld, ?claimFree, ?claimBusy, ?claimWait, ?release, ?releaseState, ?vstat⟩
  case tend =>
    intro s t k d a b i h hz
    obtain ⟨hd, ha, hb⟩ := hz
    exact onTile_instr h (by simp [hd, ha, hb])
  case tretTrapped =>
    intro s t k d a b j h hj
    rw [tret_executes h]
    dsimp only
    rw [if_pos hj]
    rfl
  case tretState =>
    intro s t k d a b h hj
    rw [tret_executes h]
    dsimp only
    rw [if_neg hj]
    rfl
  case trig =>
    intro s t k d a b i j h hb
    exact onTile_instr h (by simp [hb])
  case yield =>
    intro s t k d a i h hd ha
    exact onTile_instr h (by simp [hd, ha])
  case trap =>
    intro s t k d a i h hd
    exact onTile_instr h (by simp [hd])
  case fence =>
    intro s t k d a i h hd ha
    exact onTile_instr h (by simp [hd, ha])
  case fenceDone =>
    intro s t i ht hw hs
    rw [fenceDone_waiting ht hw, hs]
    rfl
  case fenceStop =>
    intro s t i ht hw hs
    rw [fenceDone_waiting ht hw, hs]
    rfl
  case budgetRange =>
    intro s t k d a i h hp hc
    refine (onTile_instr h rfl).trans ?_
    rw [if_pos ⟨hp, hc⟩]
    rfl
  case budgetLower =>
    intro s t k d a i cls h hr hp
    rw [budget_executes h hr]
    dsimp only
    rw [if_pos hp]
  case budgetRaise =>
    intro s t k d a i cls h hr hp hg
    rw [budget_executes h hr]
    dsimp only
    rw [if_neg (Nat.not_le.mpr hp), if_pos hg]
  case budgetGated =>
    intro s t k d a i cls h hr hp hg
    rw [budget_executes h hr]
    dsimp only
    rw [if_neg (Nat.not_le.mpr hp), hg]
    rfl
  case claimHeld =>
    intro s t k d a i h hh
    rw [vclaim_executes h]
    dsimp only
    rw [if_pos hh]
    rfl
  case claimFree =>
    intro s t k d a i h hh hw
    rw [vclaim_executes h]
    dsimp only
    rw [if_neg (by simp [hh]), if_pos ⟨hh, hw⟩, grantClaim_unwaited hw]
    rfl
  case claimBusy =>
    intro s t k d a i h hh hw ha
    rw [vclaim_executes h]
    dsimp only
    rw [if_neg hh, if_neg hw, if_pos ha]
    rfl
  case claimWait =>
    intro s t k d a i h hh hw ha
    rw [vclaim_executes h]
    dsimp only
    rw [if_neg hh, if_neg hw, if_neg (by omega)]
  case release =>
    intro s t k d a i h ha hh
    rw [vrelease_executes h ha, if_pos hh]
    rfl
  case releaseState =>
    intro s t k d a i h ha hh
    rw [vrelease_executes h ha, if_neg hh]
    rfl
  case vstat =>
    intro s t k d a i v keep kept v1 h
    exact onTile_instr h rfl

end Sys2Proof.Machine

/-! ## Scalar memory instructions (O4)

A load, store or AMO sees the task as it was and the vector accesses of the task in effect. -/
namespace Sys2Proof.Machine

/-- A load whose register is not odd in a pair, up to the branch of its access (R60, R65, R74). -/
theorem load_executes {s : State} {t : TileId} {k : CoreId} {op : LoadOp} {d : Fin 32} {i : Nat} (h : Executes s.ctl t k i)
    (hd : op = .ldp → d.val % 2 = 0) (a : Fin 32) (imm : BitVec 16) (ecc : Bool) :
    exec (.load t k op d a imm ecc) s = .next (s.ctlTo (
      let x := (s.ctl.task t i).reg a + imm.signExtend 32
      let p := s.ctl.dataAddr t i x
      if ecc && s.ctl.eccHits t i p (loadCode op).2 then (s.ctl.memOrder t i).takeTrap t i 0x04 x.toNat
      else
        let y := casdaLoad (s.ctl.landed s.mem t) (s.ctl.memOrder t i) t i p (loadCode op).2
        if op = .ldp then
          (y.1.setTask t i ((y.1.task t i).setReg (d.val + 1) (BitVec.ofNat 32 (y.2 / 2 ^ 32)))).retire t i d
            (BitVec.ofNat 32 y.2)
        else y.1.retire t i d (loadValue op y.2))) := by
  have hl : (decide (op = .ldp) && d.val % 2 == 1) = false := by
    rw [Bool.and_eq_false_imp, decide_eq_true_eq]
    intro hop
    simp [hd hop]
  change execLoad t k op d a imm ecc s = _
  refine (onTileR_instr h hl).trans ?_
  simp only [memOrder_task, memOrder_dataAddr, memOrder_eccHits, memOrder_landed]

/-- The upper word of a pair goes into its register before the instruction retires. -/
theorem retire_setReg (c : Ctl) (t i n d : Nat) (v w : Word) :
    (c.setTask t i ((c.task t i).setReg n w)).retire t i d v =
      c.setTask t i { ((c.task t i).setReg n w).setReg d v with pc := (c.task t i).pc + 4, first := none } := by
  simp only [Ctl.retire, Ctl.retireTo, task_setTask_same, setTask_setTask, setReg_pc]

/-- Settles O4: each instruction reaches its access, and the hypothesis on an uncorrectable error takes the branch. -/
theorem memoryInstructionsComplete : Obligations.MemoryInstructionsComplete := by
  refine ⟨?load, ?pair, ?loadTrap, ?store, ?amo, ?amoTrap⟩
  case load =>
    intro s t k op d a imm ecc i p y h hop he
    rw [load_executes h (fun hp => absurd hp hop)]
    dsimp only
    rw [if_neg (by simpa using he), if_neg hop]
    rfl
  case pair =>
    intro s t k op d a imm ecc i
    dsimp only
    intro h hop hd he
    have hn : (loadCode op).2 = 8 := by rw [hop]; rfl
    rw [load_executes h (fun _ => hd), hn]
    dsimp only
    rw [if_neg (by simpa using he), if_pos hop, retire_setReg]
  case loadTrap =>
    intro s t k op d a imm ecc i x h hd he hh
    rw [load_executes h hd]
    dsimp only
    rw [if_pos (by rw [he, hh]; rfl)]
  case store =>
    intro s t k op d a imm i n v c1 x h hd
    have hm : x.1 = s.ctl.landed s.mem t := memOrder_landed _ _ _ _ _
    have hc : c1 = (s.ctl.memOrder t i).next t i := rfl
    rw [store_executes h hd, hm]
    simp only [x, hc, n, v]
  case amo =>
    intro s t k d a b func ecc i
    dsimp only
    intro h hf he
    change execAmo t k d a b func ecc s = _
    refine (onTileM_instr h (decide_eq_false (Nat.not_le.mpr hf))).trans ?_
    simp only [memOrder_task, memOrder_dataAddr, he, Bool.false_and, Bool.false_eq_true, if_false]
  case amoTrap =>
    intro s t k d a b func ecc i p x h hf he hh hp hr
    change execAmo t k d a b func ecc s = _
    refine (onTileM_instr h (decide_eq_false (Nat.not_le.mpr hf))).trans ?_
    simp only [memOrder_task, memOrder_dataAddr, memOrder_eccHits]
    rw [if_pos]
    rw [he, hh, beq_iff_eq.mpr hp]
    change regionOf (p % 2 ^ 36) ∈ _ at hr
    generalize regionOf (p % 2 ^ 36) = r at hr ⊢
    revert r
    decide

end Sys2Proof.Machine

/-! ## Registers of the CASDA block (O5, O60)

A write by an accessor with the right and within the checks answers its effect with OK; the mailbox rules are those of R80. -/
namespace Sys2Proof.Machine

/-- An access to a block of a tile the accessor reaches, whose register accepts it. -/
theorem access_accepted {s : State} {o : Origin} {t blk : Nat} {f : Ctl → Ctl × Nat} {c : Ctl}
    (hf : accessorFitted s.ctl o = true) (hr : s.ctl.reachedBy o t = true) (he : f s.ctl = (c, eOk)) :
    s.onAccess o (fun c => c.access o t blk f) = .next (s.accessed o blk c) := by
  rw [onAccess_fitted hf, access_reached hr, he]
  rfl

/-! ### Task commands (R84, R85) -/

/-- Who may configure may issue every task command. -/
theorem mayTaskCmd_of_mayConfig {c : Ctl} {o : Origin} (h : c.mayConfig o = true) (cmd t i : Nat) :
    c.mayTaskCmd o cmd t i = true := by simp [Ctl.mayTaskCmd, h]

/-- START of a STOPPED task. -/
theorem taskCmd_start {c : Ctl} {o : Origin} {t i : Nat} (hm : c.mayConfig o = true) (hs : c.tstate t i = kStopped) :
    c.taskCmd o t 1 i = (c.taskStart t i, eOk) := by
  simp [Ctl.taskCmd, mayTaskCmd_of_mayConfig hm, Ctl.taskCmdCode, firstErr, hs]

/-- STOP and KILL end any task but the trap task, in any state but EMPTY. -/
theorem taskCmdCode_end {c : Ctl} {t cmd i : Nat} (hc : cmd = 2 ∨ cmd = 4) (hi : i ≠ 0) (hs : c.tstate t i ≠ kEmpty) :
    c.taskCmdCode t cmd i = eOk := by
  rcases hc with rfl | rfl <;> simp [Ctl.taskCmdCode, firstErr, hi, hs]

theorem taskCmd_stop {c : Ctl} {o : Origin} {t i : Nat} (hm : c.mayConfig o = true) (hi : i ≠ 0)
    (hs : c.tstate t i ≠ kEmpty) : c.taskCmd o t 2 i = (c.taskStop t i, eOk) := by
  simp [Ctl.taskCmd, mayTaskCmd_of_mayConfig hm, taskCmdCode_end (.inl rfl) hi hs]

theorem taskCmd_trigger {c : Ctl} {o : Origin} {t i : Nat} (hm : c.mayTaskCmd o 3 t i = true) (he : c.tstate t i ≠ kEmpty)
    (hs : c.tstate t i ≠ kStopped) : c.taskCmd o t 3 i = (c.trigger t i 0x80, eOk) := by
  simp [Ctl.taskCmd, hm, Ctl.taskCmdCode, firstErr, he, hs]

theorem taskCmd_kill {c : Ctl} {o : Origin} {t i : Nat} (hm : c.mayConfig o = true) (hi : i ≠ 0)
    (hs : c.tstate t i ≠ kEmpty) : c.taskCmd o t 4 i = (c.stopNow t i, eOk) := by
  simp [Ctl.taskCmd, mayTaskCmd_of_mayConfig hm, taskCmdCode_end (.inr rfl) hi hs]

/-- The discarded vector instructions of a KILL change no register. -/
theorem vecDiscard_regs (m : Mem) (c : Ctl) (t i : Nat) : (vecDiscard m c t i).2.regs = c.regs := by
  unfold vecDiscard
  split <;> rfl

/-- The rights of an accessor are read from the registers. -/
theorem mayConfig_congr {c d : Ctl} (h : d.regs = c.regs) (o : Origin) : d.mayConfig o = c.mayConfig o := by
  cases o <;> simp only [Ctl.mayConfig, Ctl.isSystem, Ctl.level, get_congr h]

theorem taskCmdM_kill {m : Mem} {c : Ctl} {o : Origin} {t i : Nat} (hm : c.mayConfig o = true) (hi : i ≠ 0)
    (hs : c.tstate t i ≠ kEmpty) :
    taskCmdM m c o t 4 i = (((vecDiscard m c t i).1, (vecDiscard m c t i).2.stopNow t i), eOk) := by
  have hreg := vecDiscard_regs m c t i
  have hk := taskCmd_kill (o := o) ((mayConfig_congr hreg o).trans hm) hi
    (show (vecDiscard m c t i).2.tstate t i ≠ kEmpty from (get_congr hreg _ _ _ _).trans_ne hs)
  unfold taskCmdM
  rw [if_pos ⟨rfl, mayTaskCmd_of_mayConfig hm 4 t i, taskCmdCode_end (.inr rfl) hi hs⟩]
  simp only [hk]

/-! ### Configuration registers -/

/-- TASK_CFG of a STOPPED task, its VALID unchanged and its fields a combination that R72 and R78 allow. -/
theorem taskCfgWrite_stopped {c : Ctl} {o : Origin} {t i n : Nat} (ho : c.isSystem o = true)
    (hp : ¬ (bitsOf n 24 4 = 0 ∧ bitsOf n 28 2 ≠ 0)) (hf : c.fixedBound t i = true → bitsOf n 24 4 = 0 ∧ bitsOf n 28 2 = 0)
    (hs : c.tstate t i = kStopped) (hv : bitsOf n 31 1 = c.get t TASK_CFG_VALID i) :
    c.taskCfgWrite o t i n = ((((c.put t TASK_CFG_VALID (bitsOf n 31 1) i).put t TASK_CFG_COST (bitsOf n 28 2) i).put t
      TASK_CFG_PRIO (bitsOf n 24 4) i).put t TASK_CFG_ONESHOT (bitsOf n 23 1) i, eOk) := by
  have hcost : (bitsOf n 24 4 == 0 && bitsOf n 28 2 != 0) = false := by simpa using hp
  have hbound : (c.fixedBound t i && (bitsOf n 24 4 != 0 || bitsOf n 28 2 != 0)) = false := by simpa using hf
  simp [Ctl.taskCfgWrite, ho, firstErr, hcost, hbound, hs, hv]

/-- A write of the core control by System is accepted (R83). -/
theorem coreCtrlWrite_system {c : Ctl} {o : Origin} {t w : Nat} (ho : c.isSystem o = true) :
    c.coreCtrlWrite o t w = ((c.coreCtrlWrite o t w).1, eOk) := by simp [Ctl.coreCtrlWrite, ho]

/-- EN of the watchdog stands apart from its PERIOD. -/
theorem wdogEn_put_period (c : Ctl) (t p : Nat) : (c.put t CASDA_WDOG_CFG_PERIOD p).flag t CASDA_WDOG_CFG_EN =
    c.flag t CASDA_WDOG_CFG_EN := by
  unfold Ctl.flag
  rw [get_put_ne]
  simp [Field.key, CASDA_WDOG_CFG_EN, CASDA_WDOG_CFG_PERIOD]

/-- The watchdog enabled with a period in its range (R82). -/
theorem wdogCfgWrite_enable {c : Ctl} {o : Origin} {t p : Nat} (ho : c.isSystem o = true) (h0 : 10 ≤ p) (h1 : p ≤ 10000)
    (he : c.flag t CASDA_WDOG_CFG_EN = false) : c.wdogCfgWrite o t (2 ^ 31 + p) =
      (((c.put t CASDA_WDOG_CFG_PERIOD p).put t CASDA_WDOG_CFG_EN 1).put t CASDA_WDOG_REMAIN_MS p, eOk) := by
  have hp : (2 ^ 31 + p) % 2 ^ 14 = p := by omega
  have hb : bit (2 ^ 31 + p) 31 = true := by
    unfold bit
    rw [Nat.testBit_two_pow_add_eq, Nat.testBit_lt_two_pow (by omega)]
    rfl
  have hr : (decide (p < 10) || decide (10000 < p)) = false := by simp [h0, h1]
  simp only [Ctl.wdogCfgWrite, ho, hp, hb, he, hr, wdogEn_put_period, firstErr, Bool.not_true, Bool.not_false, Bool.false_and,
    Bool.true_and, Bool.false_eq_true, if_false, if_true, ne_eq, not_true_eq_false]

theorem wdogKick_reload {c : Ctl} {o : Origin} {t w : Nat} (ho : c.isSystem o = true) (hw : w = 0x5A17)
    (he : c.flag t CASDA_WDOG_CFG_EN = true) : c.wdogKick o t w =
      (c.put t CASDA_WDOG_REMAIN_MS (c.get t CASDA_WDOG_CFG_PERIOD), eOk) := by
  simp [Ctl.wdogKick, ho, hw, he]

theorem timerWrite_inRange {c : Ctl} {o : Origin} {t n w : Nat} (ho : c.mayConfig o = true)
    (hw : w = 0 ∨ (10 ≤ w ∧ w ≤ 60000000)) : c.timerWrite o t n w = (c.put t CASDA_TIMER_PERIOD_PERIOD w n, eOk) := by
  have hr : ¬ (w ≠ 0 ∧ (w < 10 ∨ 60000000 < w)) := by omega
  simp only [Ctl.timerWrite, ho, Bool.not_true, Bool.false_eq_true, if_false, if_neg hr]

theorem mboxCfgWrite_system {c : Ctl} {o : Origin} {t m w : Nat} (ho : c.isSystem o = true) :
    c.mboxCfgWrite o t m w =
      (let d := (c.put t CASDA_MBOX_CFG_EN (bitsOf w 31 1) m).put t CASDA_MBOX_CFG_TASK (w % 256) m
       if bit w 31 then d else d.setMailbox t m [], eOk) := by simp [Ctl.mboxCfgWrite, ho]

theorem irqRouteWrite_system {c : Ctl} {o : Origin} {t r w : Nat} (ho : c.isSystem o = true)
    (hw : bit w 30 = true → c.get t TASK_CFG_PRIO (w % 256) = 0 ∧ c.get t TASK_CFG_COST (w % 256) = 0) :
    c.irqRouteWrite o t r w = (((c.put t CASDA_IRQ_ROUTE_EN (bitsOf w 31 1) r).put t CASDA_IRQ_ROUTE_FIXED
      (bitsOf w 30 1) r).put t CASDA_IRQ_ROUTE_TASK (w % 256) r, eOk) := by
  have hfix : ¬ (bit w 30 = true ∧ (c.get t TASK_CFG_PRIO (w % 256) ≠ 0 ∨ c.get t TASK_CFG_COST (w % 256) ≠ 0)) := by
    rintro ⟨hb, hne⟩
    obtain ⟨hprio, hcost⟩ := hw hb
    exact hne.elim (absurd hprio) (absurd hcost)
  simp only [Ctl.irqRouteWrite, ho, Bool.true_or, Bool.not_true, Bool.false_eq_true, if_false, if_neg hfix]

/-! ### Mailboxes (R80) -/

/-- An accessor that R84 lets post to a mailbox. -/
abbrev Ctl.mayPost (c : Ctl) (o : Origin) (t m : Nat) : Prop :=
  c.isSystem o = true ∨ (c.isApp o = true ∧ c.mboxApp t m = true) ∨ isRole o .operator = true ∨
    isRole o .engineer = true ∨ isRole o .management = true

/-- What its post does, by the state of the mailbox. -/
theorem mboxPost_permitted {c : Ctl} {o : Origin} {t m : Nat} (ho : c.mayPost o t m) (w : Nat) :
    c.mboxPost o t m w = if ¬ c.flag t CASDA_MBOX_CFG_EN m ∨ 16 ≤ (c.mailbox t m).length then (c, eBusy)
      else ((c.setMailbox t m (c.mailbox t m ++ [w % 2 ^ 31])).trigger t (c.get t CASDA_MBOX_CFG_TASK m) (0x40 + m), eOk) := by
  have hr : (!(c.isSystem o || (c.isApp o && c.mboxApp t m) || isRole o .operator || isRole o .engineer
      || isRole o .management)) = false := by
    rcases ho with h | h | h | h | h <;> simp [h]
  unfold Ctl.mboxPost
  rw [hr]
  rfl

theorem mboxPost_room {c : Ctl} {o : Origin} {t m : Nat} (ho : c.mayPost o t m) (he : c.flag t CASDA_MBOX_CFG_EN m = true)
    (hl : (c.mailbox t m).length < 16) (w : Nat) : c.mboxPost o t m w =
      ((c.setMailbox t m (c.mailbox t m ++ [w % 2 ^ 31])).trigger t (c.get t CASDA_MBOX_CFG_TASK m) (0x40 + m), eOk) := by
  rw [mboxPost_permitted ho, if_neg (by simp [he, hl])]

theorem mboxPost_busy {c : Ctl} {o : Origin} {t m : Nat} (ho : c.mayPost o t m)
    (hb : c.flag t CASDA_MBOX_CFG_EN m = false ∨ 16 ≤ (c.mailbox t m).length) (w : Nat) :
    c.mboxPost o t m w = (c, eBusy) := by
  rw [mboxPost_permitted ho, if_pos (by simpa using hb)]

/-- A pop by a task that may take the words of the mailbox: nothing from an empty one, else the oldest. -/
theorem mboxPop_empty {c : Ctl} {u : TileId} {i : TaskId} {t m : Nat}
    (h : (c.isSystem (.casda u i) || c.mboxApp t m) = true) (hl : c.mailbox t m = []) :
    c.mboxPop (.casda u i) t m = (c, 0) := by simp [Ctl.mboxPop, h, hl]

theorem mboxPop_oldest {c : Ctl} {u : TileId} {i : TaskId} {t m w : Nat} {l : List Nat}
    (h : (c.isSystem (.casda u i) || c.mboxApp t m) = true) (hl : c.mailbox t m = w :: l) :
    c.mboxPop (.casda u i) t m = (c.setMailbox t m l, 2 ^ 31 + w) := by simp [Ctl.mboxPop, h, hl]

@[simp] theorem mailbox_setMailbox (c : Ctl) (t m : Nat) (l : List Nat) : (c.setMailbox t m l).mailbox t m = l := by
  simp [Ctl.mailbox, Ctl.setMailbox]

/-- COUNT of a mailbox is kept apart from the levels of the cores. -/
theorem isSystem_setMailbox (c : Ctl) (o : Origin) (t m : Nat) (l : List Nat) (_ : m < 16) :
    (c.setMailbox t m l).isSystem o = c.isSystem o := by
  have hl (u k : Nat) : (c.setMailbox t m l).level u k = c.level u k := by
    unfold Ctl.level Ctl.setMailbox
    rw [get_put_ne]
    · rfl
    · simp only [Field.key, CASDA_CORE_LEVEL_SYSTEM, CASDA_MBOX_CFG_COUNT]
      omega
  cases o <;> simp only [Ctl.isSystem, hl]

/-- Settles O60: System may post to and pop from every mailbox, and what a mailbox then holds is what was set. -/
theorem mailboxesAreFifos : Obligations.MailboxesAreFifos := by
  refine ⟨?post, ?busy, ?pop⟩
  case post =>
    intro c o t m w ho he hl
    exact mboxPost_room (.inl ho) he hl w
  case busy =>
    intro c o t m w ho hb
    exact mboxPost_busy (.inl ho) hb w
  case pop =>
    intro c t i m l hm ho
    have hr : ((c.setMailbox t m l).isSystem (.casda t i) || (c.setMailbox t m l).mboxApp t m) = true := by
      rw [isSystem_setMailbox c _ t m l hm, ho, Bool.true_or]
    cases l with
    | nil =>
      rw [mboxPop_empty hr (mailbox_setMailbox c t m [])]
      exact ⟨rfl, mailbox_setMailbox c t m []⟩
    | cons w l =>
      rw [mboxPop_oldest hr (mailbox_setMailbox c t m (w :: l))]
      exact ⟨rfl, mailbox_setMailbox _ t m l⟩

/-- A pop that takes the oldest word leaves it as the data of the access. -/
theorem mboxPop_executes {s : State} {t : TileId} {o : Origin} {m : Fin 16} {n : Nat} {l : List Nat}
    (hf : accessorFitted s.ctl o = true) (hr : s.ctl.reachedBy o t = true)
    (ho : s.ctl.isSystem o = true ∨ (s.ctl.isApp o = true ∧ s.ctl.mboxApp t m = true)) (hl : s.ctl.mailbox t m = n :: l) :
    exec (.mboxPop t o m) s = .next (s.ctlTo { s.ctl.setMailbox t m l with data := 2 ^ 31 + n }) := by
  have hp : s.ctl.mboxPop o t m = (s.ctl.setMailbox t m l, 2 ^ 31 + n) := by
    cases o with
    | casda u i => exact mboxPop_oldest (Bool.or_eq_true_iff.mpr (ho.imp_right And.right)) hl
    | host r q => simp [Ctl.isSystem, Ctl.isApp] at ho
  change execMboxPop t o m s = _
  unfold execMboxPop
  rw [onAccess_fitted hf]
  simp only [hr, if_true, hp]

/-- Settles O5: each write meets the rights and the checks of its register. -/
theorem taskAndTimerWritesComplete : Obligations.TaskAndTimerWritesComplete := by
  refine ⟨?start, ?stopLater, ?stop, ?trigger, ?kill, ?cfg, ?halt, ?halted, ?resume, ?wdogEnable, ?wdogKick, ?wdogExpiry,
    ?timerWrite, ?timerExpiry, ?post, ?pop, ?mboxOn, ?mboxOff, ?route⟩
  case start =>
    intro s t o i hf hr ho hs
    exact access_accepted hf hr (taskCmd_start ho hs)
  case stopLater =>
    intro s t o i hf hr ho hi hs hw
    have hstop : s.ctl.taskStop t i = s.ctl.setTask t i { s.ctl.task t i with stopReq := true } := if_pos ⟨hs, hw⟩
    exact hstop ▸ access_accepted hf hr (taskCmd_stop ho hi (by simp [hs]))
  case stop =>
    intro s t o i hf hr ho hi hs hw
    have hstop : s.ctl.taskStop t i = s.ctl.stopNow t i := if_neg hw
    exact hstop ▸ access_accepted hf hr (taskCmd_stop ho hi hs)
  case trigger =>
    intro s t o i hf hr ho he hs
    exact access_accepted hf hr (taskCmd_trigger ho he hs)
  case kill =>
    intro s t o i x hf hr ho hi hs
    change execTaskKill t o i s = _
    unfold execTaskKill
    rw [onAccessM_fitted hf, accessM_reached hr, taskCmdM_kill ho hi hs]
  case cfg =>
    intro s t o i w n hf hr ho hp hb hs hv
    exact access_accepted hf hr (taskCfgWrite_stopped ho hp hb hs hv)
  case halt =>
    intro s t o k hf hr ho
    exact access_accepted hf hr (coreCtrlWrite_system ho)
  case halted =>
    intro s t k ht hh hw
    change execCoreHalted t k s = _
    unfold execCoreHalted
    rw [onTile_fitted ht, hh, hw]
    rfl
  case resume =>
    intro s t o k hf hr ho
    exact access_accepted hf hr (coreCtrlWrite_system ho)
  case wdogEnable =>
    intro s t o period hf hr ho h0 h1 he
    exact access_accepted hf hr (wdogCfgWrite_enable ho h0 h1 he)
  case wdogKick =>
    intro s t o w hf hr ho hw he
    exact access_accepted hf hr (wdogKick_reload ho hw he)
  case wdogExpiry =>
    intro s t ht he
    change execWdogExpiry t s = _
    unfold execWdogExpiry
    rw [onTile_fitted ht, if_pos he]
  case timerWrite =>
    intro s t o n w hf hr ho hw
    exact access_accepted hf hr (timerWrite_inRange ho hw)
  case timerExpiry =>
    intro s t n ht hn
    change execCasdaTimerExpiry t n s = _
    unfold execCasdaTimerExpiry
    rw [onTile_fitted ht, if_neg hn]
  case post =>
    intro s t o m w hf hr ho he hl
    exact access_accepted hf hr (mboxPost_room ho he hl w.toNat)
  case pop =>
    intro s t o m n l hf hr ho hl
    exact mboxPop_executes hf hr ho hl
  case mboxOn =>
    intro s t o m w hf hr ho hb
    refine access_accepted hf hr (f := fun c => c.mboxCfgWrite o t m w.toNat) ((mboxCfgWrite_system ho).trans ?_)
    rw [hb]
    rfl
  case mboxOff =>
    intro s t o m w hf hr ho hb
    refine access_accepted hf hr (f := fun c => c.mboxCfgWrite o t m w.toNat) ((mboxCfgWrite_system ho).trans ?_)
    rw [hb]
    rfl
  case route =>
    intro s t o r w hf hr ho hw
    exact access_accepted hf hr (irqRouteWrite_system ho hw)

end Sys2Proof.Machine

/-! ## The vector array (O6 to O8, O47)

A predicate reads as written, p0 apart. A vector instruction acts when the task its core executes holds the claim; what it does
is then its own effect, said once for the arithmetic ones, for loads and for stores. -/
namespace Sys2Proof.Machine

/-! ### Predicates (R86) -/

@[simp] theorem pred_zero (v : VecArray) : v.pred 0 = BitVec.allOnes 32 := rfl
@[simp] theorem setPred_zero (v : VecArray) (x : Word) : v.setPred 0 x = v := rfl

theorem pred_setPred {v : VecArray} {p q : Nat} (hp : p ≠ 0) (hq : q ≠ 0) (x : Word) :
    (v.setPred p x).pred q = if q = p then x else v.pred q := by
  simp only [VecArray.pred, VecArray.setPred, if_neg hp, if_neg hq, tabGet_tabSet]

theorem active_zero (v : VecArray) {l : Nat} (h : l < 32) : v.active 0 l = true := by
  rw [VecArray.active, pred_zero, BitVec.toNat_allOnes, Nat.testBit_two_pow_sub_one]
  exact decide_eq_true h

/-- Settles O47: the rules of the predicates. -/
theorem predicateZero : Obligations.PredicateZero := by
  refine ⟨fun v x => ⟨pred_zero v, setPred_zero v x⟩, fun v l hl => active_zero v hl, fun v p q x hp hq => ⟨?_, fun hne => ?_⟩⟩
  · rw [pred_setPred hp hp, if_pos rfl]
  · rw [pred_setPred hp hq, if_neg hne]

/-! ### Instructions of the holder of the claim -/

section Holder

variable {s : State} {t : TileId} {k : CoreId} {i word : Nat} {illegal : Bool}

/-- A vector instruction that is not illegal, of the task that executes and holds the claim, has its effect on that task. -/
theorem onTile_vinstr {f : Nat → Ctl → Ctl} (h : ExecutesVector s.ctl t k i) (hl : illegal = false) :
    s.onTile t (fun c => c.vinstr t k word illegal f) = .next (s.ctlTo (f i s.ctl)) := by
  refine (onTile_instr h.1 hl).trans ?_
  rw [if_pos h.2]

/-- One that only changes the array. -/
theorem onTile_vop {f : VecArray → VecArray} (h : ExecutesVector s.ctl t k i) (hl : illegal = false) :
    s.onTile t (fun c => c.vop t k word illegal f) = .next (s.vretired t i (f (s.ctl.vecOf t))) := onTile_vinstr h hl

end Holder

/-! ### Arithmetic, compares, predicates, moves and reductions (R86 to R91) -/

/-- An assigned vfunc, with vb = 0 where it is unary, makes a legal word (R91). -/
theorem vectorArith_legal {vfunc : Fin 2048} {vb : Fin 16} (hf : (vectorFn vfunc 0 0 0).isNone = false)
    (hu : vectorUnary vfunc = true → vb.val = 0) :
    ((vectorFn vfunc 0 0 0).isNone || (vectorUnary vfunc && decide (vb.val ≠ 0))) = false := by
  rw [hf]
  simpa using hu

/-- Settles O6: each word is legal under its hypotheses, and the effect is that of the instruction. -/
theorem vectorInstructionsComplete : Obligations.VectorInstructionsComplete := by
  refine ⟨?arith, ?convert, ?compare, ?logic, ?vsel, ?vbcast, ?vext, ?vlane, ?pfroms, ?ptos, ?reduce⟩
  case arith =>
    intro s t k vfunc vd va vb p i v h hf hu
    exact onTile_vop h (vectorArith_legal hf hu)
  case convert =>
    intro s t k op vd va vb p i v h hb
    exact onTile_vop h (by simp [hb])
  case compare =>
    intro s t k op vd va vb p i v h hd
    exact onTile_vop h (by simpa using hd)
  case logic =>
    intro s t k op vd va vb p i v h hp hd ha hb
    have hvb : (if op = .pnot then decide (vb.val ≠ 0) else decide (7 < vb.val)) = false := by
      split_ifs at hb ⊢ <;> simp [hb]
    exact onTile_vop h (by rw [hvb]; simp [hp, hd, ha])
  case vsel =>
    intro s t k vd va vb p i v h
    exact onTile_vop h rfl
  case vbcast =>
    intro s t k vd va vb p i h hb
    exact onTile_vinstr h (by simp [hb])
  case vext =>
    intro s t k vd va vb p i h hp
    exact onTile_vinstr h (by simp [hp])
  case vlane =>
    intro s t k vd va vb p i h ha hb
    exact onTile_vop h (by simp [ha, hb])
  case pfroms =>
    intro s t k vd va vb p i h hp hb hd
    exact onTile_vinstr h (by simp [hp, hb, hd])
  case ptos =>
    intro s t k vd va vb p i h hp hb ha
    exact onTile_vinstr h (by simp [hp, hb, ha])
  case reduce =>
    intro s t k op vd va vb p i v r h hb
    exact onTile_vop h (by simp [hb])

/-! ### Memory accesses (R92 to R95, R112) -/

/-- Element types 0 to 4 are assigned (R91). -/
theorem elemType_legal {e : ElemType} (h : e.val ≤ 4) : decide (4 < e.val) = false := decide_eq_false (Nat.not_lt.mpr h)

section Memory

variable {s : State} {t : TileId} {k : CoreId} {i word : Nat} {illegal : Bool} {vd p e : Nat} {addr : Ctl → Nat → Nat → Nat}

/-- A load of which no active lane breaks R93. -/
theorem vload_loads (h : ExecutesVector s.ctl t k i) (hl : illegal = false)
    (hb : vecBad (s.ctl.vecOf t) p t (s.ctl.task t i).addrExt (elemSize e) (addr s.ctl i) = none) :
    s.onTileR t (fun m c => c.vload m t k word illegal vd p e addr) = .next (s.vretired t i ((s.ctl.vecOf t).map p vd (fun l =>
      elemLoad e (memNat (s.ctl.landed s.mem t) (modAddr t (addr s.ctl i l)) (elemSize e)))) true) := by
  refine (onTileR_instr h.1 hl).trans ?_
  rw [if_pos h.2]
  dsimp only
  rw [hb]
  rfl

/-- A load of which a lane breaks it. -/
theorem vload_traps {l : Nat} (h : ExecutesVector s.ctl t k i) (hl : illegal = false)
    (hb : vecBad (s.ctl.vecOf t) p t (s.ctl.task t i).addrExt (elemSize e) (addr s.ctl i) = some l) :
    s.onTileR t (fun m c => c.vload m t k word illegal vd p e addr) =
      .next (s.ctlTo (s.ctl.takeTrap t i 0x10 (addr s.ctl i l))) := by
  refine (onTileR_instr h.1 hl).trans ?_
  rw [if_pos h.2]
  dsimp only
  rw [hb]

/-- A store of which a lane breaks R93. -/
theorem vstore_traps {l : Nat} (h : ExecutesVector s.ctl t k i) (hl : illegal = false)
    (hb : vecBad (s.ctl.vecOf t) p t (s.ctl.task t i).addrExt (elemSize e) (addr s.ctl i) = some l) :
    s.onTileM t (fun m c => vstore m c t k word illegal vd p e addr) =
      .next (s.ctlTo (s.ctl.takeTrap t i 0x10 (addr s.ctl i l))) := by
  refine (onTileM_instr h.1 hl).trans ?_
  rw [if_neg (not_not.mpr h.2)]
  dsimp only
  rw [hb]
  rfl

/-- One of which no active lane does, up to the lanes below 0x8000_0000 on an Application core (R94). -/
theorem vstore_checked (h : ExecutesVector s.ctl t k i) (hl : illegal = false)
    (hb : vecBad (s.ctl.vecOf t) p t (s.ctl.task t i).addrExt (elemSize e) (addr s.ctl i) = none) :
    s.onTileM t (fun m c => vstore m c t k word illegal vd p e addr) = .next (
      if s.ctl.level t (i / 64) = 0 ∧
          anyN 32 (fun l => (s.ctl.vecOf t).active p l && decide (addr s.ctl i l < 0x80000000)) = true then
        (s.ctlTo (s.ctl.violate (taskOrigin t i) (modAddr 15 (addr s.ctl i
          (((List.range 32).find? (fun l => (s.ctl.vecOf t).active p l)).getD 0))) true)).stepped t i
      else s.vstored t i vd p e (addr s.ctl i)) := by
  refine (onTileM_instr h.1 hl).trans ?_
  rw [if_neg (not_not.mpr h.2)]
  dsimp only
  rw [hb]
  simp only [Bool.and_eq_true, beq_iff_eq]
  split <;> rfl

/-- A store on a System core, or with no active lane below 0x8000_0000. -/
theorem vstore_stores (h : ExecutesVector s.ctl t k i) (hl : illegal = false)
    (hb : vecBad (s.ctl.vecOf t) p t (s.ctl.task t i).addrExt (elemSize e) (addr s.ctl i) = none)
    (hg : s.ctl.level t (i / 64) = 0 →
      anyN 32 (fun l => (s.ctl.vecOf t).active p l && decide (addr s.ctl i l < 0x80000000)) = false) :
    s.onTileM t (fun m c => vstore m c t k word illegal vd p e addr) = .next (s.vstored t i vd p e (addr s.ctl i)) := by
  rw [vstore_checked h hl hb, if_neg fun hc => Bool.false_ne_true ((hg hc.1).symm.trans hc.2)]

/-- One on an Application core with such a lane. -/
theorem vstore_violates (h : ExecutesVector s.ctl t k i) (hl : illegal = false)
    (hb : vecBad (s.ctl.vecOf t) p t (s.ctl.task t i).addrExt (elemSize e) (addr s.ctl i) = none)
    (h0 : s.ctl.level t (i / 64) = 0)
    (ha : anyN 32 (fun l => (s.ctl.vecOf t).active p l && decide (addr s.ctl i l < 0x80000000)) = true) :
    s.onTileM t (fun m c => vstore m c t k word illegal vd p e addr) = .next
      ((s.ctlTo (s.ctl.violate (taskOrigin t i) (modAddr 15 (addr s.ctl i
        (((List.range 32).find? (fun l => (s.ctl.vecOf t).active p l)).getD 0))) true)).stepped t i) := by
  rw [vstore_checked h hl hb, if_pos ⟨h0, ha⟩]

end Memory

/-- Settles O7: no lane breaks R93, and the level of the core and the lanes' addresses decide what a store does. -/
theorem vectorMemoryComplete : Obligations.VectorMemoryComplete := by
  refine ⟨?vlds, ?vldg, ?vstsSystem, ?vstsGranted, ?vstsDenied, ?vstxSystem, ?vstxGranted, ?vstxDenied⟩
  case vlds =>
    intro s t k e vd va vb p i v addr h he hb
    exact vload_loads h (elemType_legal he) hb
  case vldg =>
    intro s t k vd va vb p i v addr h hb
    exact vload_loads h rfl hb
  case vstsSystem =>
    intro s t k e vd va vb p i v addr h he hb h0
    exact vstore_stores h (elemType_legal he) hb fun hc => absurd hc h0
  case vstsGranted =>
    intro s t k e vd va vb p i v addr h he hb _ ha
    exact vstore_stores h (elemType_legal he) hb fun _ => ha
  case vstsDenied =>
    intro s t k e vd va vb p i v addr h he hb h0 ha
    exact vstore_violates h (elemType_legal he) hb h0 ha
  case vstxSystem =>
    intro s t k vd va vb p i v addr h hb h0
    exact vstore_stores h rfl hb fun hc => absurd hc h0
  case vstxGranted =>
    intro s t k vd va vb p i v addr h hb _ ha
    exact vstore_stores h rfl hb fun _ => ha
  case vstxDenied =>
    intro s t k vd va vb p i v addr h hb h0 ha
    exact vstore_violates h rfl hb h0 ha

/-- What VECC_TRAP does, by the holder of the claim. -/
theorem veccTrap_next {s : State} {t : TileId} (ht : t.val < s.ctl.tiles) (addr : Word) :
    exec (.veccTrap t addr) s = .next (match (s.ctl.vecOf t).holder with
      | none => s
      | some i =>
        let x := veccDiscard s.mem s.ctl t
        s.allTo (x.1, ((x.2.setTask t i { x.2.task t i with wait := .none }).put t TASK_STATE_WAIT_ON 0 i).takeTrap t i 0x12
          addr.toNat)) := by
  change execVeccTrap t addr s = _
  unfold execVeccTrap
  rw [onTileM_fitted ht]
  cases (s.ctl.vecOf t).holder <;> rfl

/-- Settles O8: the holder of the claim decides what VECC_TRAP does, the lowest lane that breaks R93 what an access does. -/
theorem vectorErrorsTrap : Obligations.VectorErrorsTrap := by
  refine ⟨?held, ?free, ?vlds, ?vldg, ?vsts, ?vstx⟩
  case held =>
    intro s t addr i x c1 c2 ht hh
    rw [veccTrap_next ht, hh]
  case free =>
    intro s t addr ht hh
    rw [veccTrap_next ht, hh]
  case vlds =>
    intro s t k e vd va vb p i l addr h he hb
    exact vload_traps h (elemType_legal he) hb
  case vldg =>
    intro s t k vd va vb p i l addr h hb
    exact vload_traps h rfl hb
  case vsts =>
    intro s t k e vd va vb p i l addr h he hb
    exact vstore_traps h (elemType_legal he) hb
  case vstx =>
    intro s t k vd va vb p i l addr h hb
    exact vstore_traps h rfl hb

end Sys2Proof.Machine

/-! ## Time and frame operations (O3) -/
namespace Sys2Proof.Machine

/-- A result pair of an instruction, discarded whole with d = 0 (R97). -/
theorem ctlTo_retirePair (s : State) (t i d : Nat) (v w : Word) :
    s.ctlTo (s.ctl.retirePair t i d v w) = s.paired t i d v w := by
  unfold Ctl.retirePair State.paired
  split
  · rfl
  · rw [retire_setReg]

/-- What a TIME operation reads is the moment's, where the instruction is not the first of a fixed-latency entry (R353). -/
theorem taskTime_now {c : Ctl} {t i : Nat} (h : (c.task t i).first = none) : c.taskTime t i = c.timeSnap t 0 := by
  rw [Ctl.taskTime, h]

theorem taskTime_entry {c : Ctl} {t i : Nat} {x : TimeSnap} (h : (c.task t i).first = some x)
    (hp : (c.task t i).pc = c.get t TASK_ENTRY_ENTRY i * 4) : c.taskTime t i = x := by
  rw [Ctl.taskTime, h]
  exact if_pos hp

/-- The sample of an entry that is fixed-latency (R79, R353). -/
theorem enter_first {c : Ctl} {t i : Nat} (he : (c.task t i).entered = false) (hl : (c.task t i).late = false) :
    ((c.enter t i).task t i).first = some (c.timeSnap t 20) := by
  simp only [Ctl.enter, task_setTask_same, he, hl, Bool.false_eq_true, if_false]

/-- FWAIT and IWAIT on the frame number they compare with, up to the comparison (R110). -/
theorem fwait_executes {s : State} {t : TileId} {k : CoreId} {d a : Fin 32} {i : Nat} (h : Executes s.ctl t k i) :
    exec (.fwait t k d a) s = .next (s.ctlTo (
      let n := ((s.ctl.task t i).reg a).toNat
      let last := s.ctl.get t SMP_LAST_COMPLETE_FRAME
      if 0 ≤ frameDiff last n then s.ctl.retire t i d (BitVec.ofNat 32 last)
      else s.ctl.blockOn t i d (.frame n) 1)) := onTile_instr h rfl

theorem iwait_executes {s : State} {t : TileId} {k : CoreId} {d a : Fin 32} {i : Nat} (h : Executes s.ctl t k i) :
    exec (.iwait t k d a) s = .next (s.ctlTo (
      let n := ((s.ctl.task t i).reg a).toNat
      let last := s.ctl.get t SMP_FRAME_NUM_FRAME
      if 0 ≤ frameDiff last n then s.ctl.retire t i d (BitVec.ofNat 32 last)
      else s.ctl.blockOn t i d (.instant n) 1)) := onTile_instr h rfl

/-- Settles O3: each word is legal under its hypotheses and reads what its task's time gives; a wait takes the branch of its
comparison. -/
theorem timeAndFrameOperationsComplete : Obligations.TimeAndFrameOperationsComplete := by
  refine ⟨?ns32, ?station, ?frame, ?optime, ?now, ?entry, ?sample, ?slast, ?fwaitHere, ?fwaitAhead, ?iwaitHere, ?iwaitAhead⟩
  case ns32 =>
    intro s t k d a i x h ha
    exact onTile_instr h (by simp [ha])
  case station | frame | optime =>
    intro s t k d a i x h ha hd
    rw [← ctlTo_retirePair]
    exact onTile_instr h (by simp [ha, hd])
  case now =>
    intro c t i hf
    rw [taskTime_now hf, Ctl.timeSnap, Nat.add_zero, Nat.add_zero]
  case entry =>
    intro c t i x hf hp
    exact taskTime_entry hf hp
  case sample =>
    intro c t i he hl
    exact enter_first he hl
  case slast =>
    intro s t k d a i h ha
    exact onTile_instr h (by simp [ha])
  case fwaitHere =>
    intro s t k d a i h hn
    rw [fwait_executes h]
    dsimp only
    rw [if_pos hn]
    rfl
  case fwaitAhead =>
    intro s t k d a i h hn
    rw [fwait_executes h]
    dsimp only
    rw [if_neg (Int.not_le.mpr hn)]
  case iwaitHere =>
    intro s t k d a i h hn
    rw [iwait_executes h]
    dsimp only
    rw [if_pos hn]
    rfl
  case iwaitAhead =>
    intro s t k d a i h hn
    rw [iwait_executes h]
    dsimp only
    rw [if_neg (Int.not_le.mpr hn)]

end Sys2Proof.Machine

/-! ## Ring commands and ring operations (O11)

A command whose checks all pass has its effect; a ring operation of a core is an instruction with the queue of the ring behind
it. -/
namespace Sys2Proof.Machine

/-- A list of checks of which none fails. -/
theorem firstErr_ok {l : List (Bool × Nat)} (h : ∀ x ∈ l, x.1 = false) : firstErr l = eOk := by
  induction l with
  | nil => rfl
  | cons x l ih =>
    obtain ⟨hx, hl⟩ := List.forall_mem_cons.mp h
    obtain ⟨b, e⟩ := x
    subst hx
    exact ih hl

/-! ### `ring.enumerate`, `ring.mode`, `ring.inventory` and `ring.trust` (R154) -/

/-- What operation `op` of `ring.inventory` does with entry `i` of its range: 0 stores an identity of the request, 1 one found,
any other erases. -/
def inventoryEntry (op : Nat) (q : Req) (i : Nat) (c : Ctl) : Ctl :=
  let key := blkKey (q.arg 0 1) (q.arg 1 1) (q.arg 3 2) + i
  let v := match op with | 0 => q.arg (6 + 8 * i) 8 | 1 => tabGet 0 c.found key | _ => 0
  { c with inventory := if v = 0 then tabErase c.inventory key else tabSet c.inventory key v }

theorem ringInventory_accepted {q : Req} {c : Ctl} {op : Nat} (hr : engRoles.contains q.role = true)
    (he : c.inventoryCode q = eOk) (ho : q.arg 2 1 = op) (m : Mem) :
    ringInventory q m c = { mem := m, ctl := forN (q.arg 5 1) (inventoryEntry op q) c } := by
  unfold ringInventory
  subst ho
  rw [hr, if_neg (by decide)]
  dsimp only
  rw [if_neg (not_not.mpr he)]
  rfl

/-- A delivered `ring.inventory` with its operation, `f` on each entry. -/
theorem ringInventory_answered {s : State} {d : Datagram} {q : Req} {c' : Ctl} {op : Nat} {f : Nat → Ctl → Ctl}
    (h : Delivered s.ctl 0x1003 d q c') (hr : engRoles.contains q.role = true) (he : c'.inventoryCode q = eOk)
    (ho : q.arg 2 1 = op) (hf : inventoryEntry op q = f) :
    s.cmd 0x1003 d ringInventory = .next (s.repliedOk d q (forN (q.arg 5 1) f c')) :=
  hf ▸ cmd_answered h (ringInventory_accepted hr he ho s.mem) rfl rfl

/-! ### RPOST, RWAIT and BDUTY (R104, R106) -/

@[simp] theorem rng_setRng_same (c : Ctl) (t r : Nat) (x : Rng) : (c.setRng t r x).rng t r = x := by
  simp [Ctl.rng, Ctl.setRng]

@[simp] theorem rng_retireCode (c : Ctl) (t i d code u r : Nat) : (c.retireCode t i d code).rng u r = c.rng u r := rfl

/-- RPOST of a descriptor that is refused. -/
theorem rpost_refused {s : State} {t : TileId} {k : CoreId} {d a : Fin 32} {i p e : Nat} (h : Executes s.ctl t k i)
    (hp : ((s.ctl.task t i).reg a).toNat = p)
    (hc : (if localOk p 16 16 then s.ctl.rpostCode t p (memBytes s.mem (localAddr t k p) 16) else eFormat) = e)
    (he : e ≠ eOk) : exec (.rpost t k d a) s = .next (s.resulted t i d (BitVec.ofNat 32 e)) := by
  have hne : (e == eOk) = false := by simpa using he
  change execRpost t k d a s = _
  unfold execRpost
  rw [onTileM_fitted h.1]
  simp only [h.2.1, Option.getD_some, hp, hc, instr_executes h, if_neg he, hne, Bool.false_and, Bool.false_eq_true, if_false]
  rfl

/-- The transaction that the descriptor bytes `ds` at `p` ask for (R104). -/
def postedTx (m : Mem) (t k p : Nat) (ds : List Byte) : Tx :=
  { addr := leNat (ds.take 2) % 512, cmd := leNat ((ds.drop 2).take 1)
    req := memBytes m (localAddr t k (leNat ((ds.drop 8).take 4))) (leNat ((ds.drop 4).take 1))
    desc := some (t, k, p), rsp := leNat ((ds.drop 12).take 4), cap := leNat ((ds.drop 5).take 1) }

/-- RPOST of one that is accepted: the transaction joins the queue of its ring, STATUS becomes 0xFF, and on a ring outside ENUM,
RUN and SPLIT it completes at once (R104, R132). -/
theorem rpost_accepted {s : State} {t : TileId} {k : CoreId} {d a : Fin 32} {i p g r : Nat} {ds : List Byte}
    (h : Executes s.ctl t k i) (hp : ((s.ctl.task t i).reg a).toNat = p) (hd : memBytes s.mem (localAddr t k p) 16 = ds)
    (hr : leNat (ds.take 2) / 512 % 32 = r) (hl : localOk p 16 16 = true) (hc : s.ctl.rpostCode t p ds = eOk)
    (hg : s.ctl.targetTile t (leNat (ds.take 2)) = some g) :
    exec (.rpost t k d a) s = .next (s.allTo (
      let tx := postedTx s.mem t k p ds
      let c := (s.ctl.setRng g r { s.ctl.rng g r with posted := (s.ctl.rng g r).posted ++ [tx] }).retireCode t i d eOk
      let m := memWrite s.mem (localAddr t k (p + 3)) 0xFF
      if s.ctl.rstate g r != rgEnum && !s.ctl.ringUp g r then
        completeTx (m, c.setRng g r { c.rng g r with posted := (s.ctl.rng g r).posted }) tx eAbsent 0 []
      else (m, c))) := by
  change execRpost t k d a s = _
  unfold execRpost
  rw [onTileM_fitted h.1]
  have hq (tx : Tx) : ((s.ctl.rng g r).posted ++ [tx] != (s.ctl.rng g r).posted) = true := by simp
  simp only [h.2.1, Option.getD_some, hp, hd, hr, hg, hl, hc, instr_executes h, rng_retireCode, rng_setRng_same, hq,
    beq_self_eq_true, Bool.true_and, if_true, MC.on]
  rfl

/-- RWAIT on a descriptor in local memory. -/
theorem rwait_executes {s : State} {t : TileId} {k : CoreId} {d a : Fin 32} {i p : Nat} (h : Executes s.ctl t k i)
    (hp : ((s.ctl.task t i).reg a).toNat = p) (hl : localOk p 16 16 = true) :
    exec (.rwait t k d a) s = .next (s.ctlTo (
      let st := (memRead s.mem (localAddr t k (p + 3))).toNat
      if st = 0xFF then s.ctl.blockOn t i d (.ring p) 2 else s.ctl.retireCode t i d st)) := by
  change execRwait t k d a s = _
  refine (onTileR_instr h rfl).trans ?_
  simp only [hp, hl, Bool.not_true, Bool.false_eq_true, if_false]

/-- In MANUAL a duty of BDUTY is a manual duty of its block (R240). -/
def manualDuty (c : Ctl) (t r b map duty : Nat) : Ctl :=
  let n := blkKey t r b
  let man := if map = 0 then tabErase c.manual n else tabSet c.manual n { map := map, duty := duty }
  if c.get t BAL_CTRL_MODE ≠ 2 then c else { c with manual := man }

theorem flag_manualDuty (c : Ctl) (t r b map duty u : Nat) (F : Field) (p q : Nat) :
    (manualDuty c t r b map duty).flag u F p q = c.flag u F p q := by
  unfold manualDuty
  dsimp only
  split_ifs <;> rfl

/-- BDUTY past its checks (R46, R106): the duty, cut to the cap of the die, goes into the slot of its block and is returned. -/
theorem bduty_accepted {s : State} {t : TileId} {k : CoreId} {d a : Fin 32} {i w v r b g : Nat} (h : Executes s.ctl t k i)
    (ha : a.val % 2 = 0) (hw : ((s.ctl.task t i).reg a).toNat = w) (hv : ((s.ctl.task t i).reg (a.val + 1)).toNat = v)
    (hr : w % 16384 / 512 = r) (hb : w % 512 = b) (hf : bitsOf v 7 9 = 0) (hg : s.ctl.targetTile t w = some g)
    (hp : s.ctl.present? g r b = true) (hd : v % 128 ≤ 100) (hn : bit w 14 = false)
    (hl : ¬ (s.ctl.level t k = 0 ∧ s.ctl.get t BAL_CTRL_MODE ≠ 2)) (hq : s.ctl.flag t RING_BLK_QUAR r b = false)
    (hj : ¬ (adjacent (v / 65536) = true ∧ s.ctl.flag t BAL_RING_CFG_ADJACENT_PERMIT r = false)) :
    exec (.bduty t k d a) s = .next (s.ctlTo (
      let cap := dieCap s.mem s.ctl t r b
      let duty := if cap < v % 128 then cap else v % 128
      ((manualDuty s.ctl t r b (v / 65536) (v % 128)).dutySlot t r b
        { map := v / 65536, duty := duty, alt := !s.ctl.flag t BAL_RING_CFG_ADJACENT_PERMIT r }).retire t i d
        (BitVec.ofNat 32 (duty * 256)))) := by
  have hrange : decide (100 < v % 128) = false := decide_eq_false (Nat.not_lt.mpr hd)
  have hstate : (bit w 14 || (s.ctl.level t k == 0 && s.ctl.get t BAL_CTRL_MODE != 2)) = false := by
    rw [hn]
    simpa using hl
  have hadj : (adjacent (v / 65536) && !s.ctl.flag t BAL_RING_CFG_ADJACENT_PERMIT r) = false := by simpa using hj
  change execBduty t k d a s = _
  refine (onTileR_instr h (by simp [ha])).trans ?_
  simp only [hw, hv, hr, hb, hg, hp, hf, hrange, hstate, hq, hadj, firstErr, bne_self_eq_false, Bool.not_true,
    Bool.false_eq_true, if_false, ne_eq, not_true_eq_false]
  rw [← flag_manualDuty s.ctl t r b (v / 65536) (v % 128)]
  rfl

/-- Settles O11: each command passes its guards, and each operation takes the branch its hypotheses name. -/
theorem ringRequestsComplete : Obligations.RingRequestsComplete := by
  refine ⟨?enumerate, ?mode, ?ctrlEnum, ?write, ?adopt, ?clear, ?trust, ?refused, ?posted, ?unreachable, ?bduty, ?rwait, ?pending⟩
  case enumerate =>
    intro s d q c' x h hr hl ht hc
    refine cmd_answered h ?_ rfl rfl
    dsimp only
    rw [guarded_pass hr hl, ht, Bool.not_true, if_neg Bool.false_ne_true, if_neg (not_not.mpr hc)]
  case mode =>
    intro s d q c'
    dsimp only
    intro h hr hl ht ha hm he
    have hmap : (q.arg 2 1 == 0 && c'.mapValid (q.arg 0 1) (q.arg 1 1)) = false := by simpa using hm
    refine cmd_answered h ?_ rfl rfl
    rw [guarded_pass hr hl]
    exact if_neg (not_not.mpr (firstErr_ok (by simp [ht, ha, hmap, he])))
  case ctrlEnum =>
    intro s t o r keep x hf hr hx
    change execRingCtrlEnum t o r s = _
    unfold execRingCtrlEnum
    rw [onAccessM_fitted hf, accessM_reached hr, hx]
  case write =>
    intro s d q c' v key h hr he ho
    exact ringInventory_answered h hr he ho rfl
  case adopt =>
    intro s d q c' key v h hr he ho
    exact ringInventory_answered h hr he ho rfl
  case clear =>
    intro s d q c' key h hr he ho
    obtain ⟨n, hn⟩ := Nat.exists_eq_add_of_le' ho
    exact ringInventory_answered h hr he hn rfl
  case trust =>
    intro s d q c'
    dsimp only
    intro h hr hl ht hb hq
    refine cmd_answered h ?_ rfl rfl
    rw [guarded_pass hr hl]
    exact if_neg (not_not.mpr (firstErr_ok (by simp [ht, hb, hq])))
  case refused =>
    intro s t k d a i p e h he
    exact rpost_refused h rfl rfl he
  case posted =>
    intro s t k d a i g p ds r req tx h hl hc hg hu
    rw [rpost_accepted h rfl rfl rfl hl hc hg]
    dsimp only
    rw [if_neg (by rcases hu with hu | hu <;> simp [r, ds, p, hu])]
    rfl
  case unreachable =>
    intro s t k d a i g p ds r req tx c1 h hl hc hg hu
    rw [rpost_accepted h rfl rfl rfl hl hc hg]
    dsimp only
    rw [if_pos (by simp [r, ds, p, hu])]
    rfl
  case bduty =>
    intro s t k d a i w v r b duty x n man c1 h ha hv hb hd hw hq hj
    obtain ⟨g, hg, hp⟩ := (Option.any_eq_true _ _).mp hb
    obtain ⟨hn, hl⟩ := hw
    exact bduty_accepted h ha rfl rfl rfl rfl hv hg hp hd hn hl hq hj
  case rwait =>
    intro s t k d a i p h hl hn
    rw [rwait_executes h rfl hl]
    dsimp only
    rw [if_neg hn]
    rfl
  case pending =>
    intro s t k d a i p h hl hn
    rw [rwait_executes h rfl hl]
    dsimp only
    rw [if_pos hn]

end Sys2Proof.Machine

/-! ## Loop operations (O19)

The register writes of the LOOP block by an accessor with the right, and the instructions, events and the command of the loop
engine. -/
namespace Sys2Proof.Machine

/-! ### Parameters (R107, R270, R271, R278) -/

/-- A value in its parameter's range is written; whether a write that follows a transfer meets it, and so leaves COMMIT_PENDING
set, is a free value (R278; assumption 81). -/
theorem shadowPut_ok {c : Ctl} {p w : Nat} (h : paramCode p w = eOk) (t ch : Nat) :
    c.shadowPut t ch p w =
      (let c1 := c.put t (LOOP_SHADOW p) w ch
       if (c1.chan t ch).moving then (if c1.free.1 % 2 = 1 then c1.free.2.put t LOOP_CH_COMMIT_PENDING 1 ch else c1.free.2, eOk)
       else (c1, eOk)) := if_neg (not_not.mpr h)

/-- A shadow write by an accessor with the right is that of its parameter. -/
theorem shadowWrite_granted {c : Ctl} {o : Origin} (h : c.mayLoop o = true) (t ch p w : Nat) :
    c.shadowWrite o t ch p w = c.shadowPut t ch p w := by
  simp only [Ctl.shadowWrite, h, Bool.not_true, Bool.false_eq_true, if_false]

theorem loopCommitWrite_granted {c : Ctl} {o : Origin} (h : c.mayLoop o = true) (t w : Nat) :
    c.loopCommitWrite o t w = (c.put t LOOP_CH_COMMIT_PENDING 1 (w % 64), eOk) := by
  simp only [Ctl.loopCommitWrite, h, Bool.not_true, Bool.false_eq_true, if_false, Ctl.loopCommit]

/-- An input value whose source is SOFT (R268). -/
theorem softWrite_soft {c : Ctl} {o : Origin} {t i : Nat} (h : c.mayLoop o = true) (hs : c.get t LOOP_IN_MAP_SRC i = 0)
    (w : Nat) : c.softWrite o t i w = (c.putInput t i (toSigned 32 w), eOk) := by
  simp only [Ctl.softWrite, h, hs, Bool.not_true, Bool.false_eq_true, if_false, ne_eq, not_true_eq_false]

/-- A gain table that no channel in use names (R271). -/
theorem gainWrite_unused {c : Ctl} {o : Origin} {t tab : Nat} (h : c.mayConfig o = true) (hu : c.tableUsed t tab = false)
    (j : Nat) (gain : Bool) (w : Nat) :
    c.gainWrite o t tab j gain w = (c.put t (if gain then LOOP_GAIN_G else LOOP_GAIN_E) w tab j, eOk) := by
  simp only [Ctl.gainWrite, h, hu, Bool.not_true, Bool.false_eq_true, if_false]

theorem lshw_executes {s : State} {t : TileId} {k : CoreId} {d a : Fin 32} {i : Nat} (h : Executes s.ctl t k i)
    (ha : a.val % 2 = 0) : exec (.lshw t k d a) s = .next (s.ctlTo (
      let w := ((s.ctl.task t i).reg a).toNat
      if bitsOf w 14 18 ≠ 0 ∨ bitsOf w 6 2 ≠ 0 then s.ctl.retireCode t i d eFormat
      else
        let x := s.ctl.shadowPut t (w % 64) (bitsOf w 8 6) ((s.ctl.task t i).reg (a.val + 1)).toNat
        x.1.retireCode t i d x.2)) := onTile_instr h (by simp [ha])

/-! ### Trace units (R280) -/

/-- The control word of a unit with its fields written. -/
def traceFields (c : Ctl) (t u w : Nat) : Ctl :=
  c.put t LOOP_TRACE_COND (bitsOf w 24 3) u |>.put t LOOP_TRACE_TRIG_NODE (bitsOf w 22 2) u
    |>.put t LOOP_TRACE_TIMEBASE (bitsOf w 16 6) u |>.put t LOOP_TRACE_PRE (w % 4096) u

/-- Whether a unit is ARMED or TRIGGERED. -/
def traceBusy (c : Ctl) (t u : Nat) : Bool := c.get t LOOP_TRACE_STATE u == 1 || c.get t LOOP_TRACE_STATE u == 2

/-- A control word that is accepted: one with a known condition, taken by the unit as it stands. -/
theorem traceWrite_accepted {c : Ctl} {o : Origin} {t u w : Nat} (h : c.mayConfig o = true) (hw : bitsOf w 24 3 ≤ 4)
    (hb : (traceBusy c t u && !(c.traceSame t u w && !bit w 31 &&
      (if bit w 30 then !bit w 29 else bit w 29 && c.get t LOOP_TRACE_STATE u == 1))) = false) :
    c.traceWrite o t u 0 w =
      (if bit w 30 then ((traceFields c t u w).put t LOOP_TRACE_STATE 0 u, eOk)
       else
        let x := if bit w 31 then (traceFields c t u w).traceArm t u else traceFields c t u w
        (if bit w 29 && (bit w 31 || c.get t LOOP_TRACE_STATE u == 1) then x.traceTrigger t u else x, eOk)) := by
  have hr : decide (4 < bitsOf w 24 3) = false := decide_eq_false (Nat.not_lt.mpr hw)
  unfold Ctl.traceWrite
  unfold traceBusy at hb
  simp only [h, hr, hb, firstErr, Bool.not_true, Bool.false_eq_true, if_false, if_true, ne_eq, not_true_eq_false]
  rfl

/-- Settles O19: each write passes its checks, and each operation and event takes the branch its hypotheses name. -/
theorem loopOperationsComplete : Obligations.LoopOperationsComplete := by
  refine ⟨?shadow, ?shadowFormat, ?commit, ?boundary, ?holdTime, ?offTransfer, ?commitWrite, ?store, ?storeMoving, ?soft, ?gain,
    ?frame, ?arm, ?stop, ?force, ?traceDone, ?mode⟩
  case shadow =>
    intro s t k d a i w x h ha hw
    rw [lshw_executes h ha]
    dsimp only
    rw [if_neg (by simpa using hw)]
  case shadowFormat =>
    intro s t k d a i w h ha hw
    rw [lshw_executes h ha]
    dsimp only
    rw [if_pos (by simpa only [not_and_or] using hw)]
  case commit =>
    intro s t k d a i h
    exact onTile_instr h rfl
  case boundary =>
    intro s t ch ht hm
    change execLoopSampleBoundary t ch s = _
    unfold execLoopSampleBoundary
    rw [onTileM_fitted ht, if_neg hm]
  case holdTime =>
    intro s t ch ht hm hf
    change execLoopHoldTimeExpiry t ch s = _
    unfold execLoopHoldTimeExpiry
    rw [onTileM_fitted ht, if_pos ⟨hm, hf⟩]
  case offTransfer =>
    intro s t ch ht hm hf
    change execLoopOffChannelTransfer t ch s = _
    unfold execLoopOffChannelTransfer
    rw [onTileM_fitted ht, if_pos ⟨hm, hf⟩]
  case commitWrite =>
    intro s t o w hf hr ho
    exact access_accepted hf hr (loopCommitWrite_granted ho t w.toNat)
  case store =>
    intro s t o ch p w hf hr ho hc hm
    refine access_accepted hf hr ((shadowWrite_granted ho t ch p w.toNat).trans ((shadowPut_ok hc t ch).trans ?_))
    exact if_neg (by simp [hm])
  case storeMoving =>
    intro s t o ch p w c1 hf hr ho hc hm
    refine access_accepted hf hr ((shadowWrite_granted ho t ch p w.toNat).trans ((shadowPut_ok hc t ch).trans ?_))
    exact if_pos hm
  case soft =>
    intro s t o i w hf hr ho hs
    exact access_accepted hf hr (softWrite_soft ho hs w.toNat)
  case gain =>
    intro s t o tab j gain w hf hr ho hu
    exact access_accepted hf hr (gainWrite_unused ho hu j gain w.toNat)
  case frame =>
    intro s t f ht he ho
    change execLoopOutputFrameSend t f s = _
    unfold execLoopOutputFrameSend
    rw [onTile_fitted ht]
    dsimp only
    rw [if_neg (by simp [he, ho])]
  case arm =>
    intro s t o u w c1 c2 c3 hf hr ho hs hw hc
    obtain ⟨h30, h29, h31⟩ := hw
    have hfree : traceBusy s.ctl t u = false := by simpa [traceBusy] using hs
    refine access_accepted hf hr ((traceWrite_accepted ho hc (by rw [hfree]; rfl)).trans ?_)
    rw [h30, h29, h31]
    rfl
  case stop =>
    intro s t o u w c1 c2 busy hf hr ho hc hw hb
    refine access_accepted hf hr ((traceWrite_accepted ho hc ?_).trans (if_pos hw))
    rcases hb with hb | ⟨hsame, h31, h29⟩
    · exact Bool.and_eq_false_imp.mpr fun h => absurd (h.symm.trans hb) (by decide)
    · simp [hw, hsame, h31, h29]
  case force =>
    intro s t o u w c1 c2 hf hr ho hs hw hc
    obtain ⟨h30, h29, h31⟩ := hw
    obtain ⟨hcond, hsame⟩ := hc
    refine access_accepted hf hr ((traceWrite_accepted ho hcond (by simp [h30, h29, h31, hsame, hs])).trans ?_)
    rw [h30, h29, h31, hs]
    rfl
  case traceDone =>
    intro s t u ht hs ho
    change execTraceDone t u s = _
    unfold execTraceDone
    rw [onTile_fitted ht, if_pos ⟨hs, by simp [ho]⟩]
  case mode =>
    intro s d q c'
    dsimp only
    intro h hr hl ht ha
    refine cmd_answered h ?_ rfl rfl
    rw [guarded_pass hr hl]
    exact if_neg (not_not.mpr (firstErr_ok (by simp [ht, ha])))

end Sys2Proof.Machine

/-! ## Frames at a block (O15, O51, O16)

What a whole frame does at a block is said once for the frames a block takes and once for those it has taken before; each
command and event is then its own effect on the block. -/
namespace Sys2Proof.Machine

/-! ### A whole frame -/

/-- A whole frame of its row reaches the effect of the row (R121, R122). -/
theorem receive_whole {x : Blk} {fr : RingFrame} {type cmd : Nat} (hs : x.ship = false) (hw : Whole fr)
    (hn : fr.names type cmd = true) (f : Blk → Blk) : x.receive fr type cmd f = f { x with aborts := false } := by
  obtain ⟨ha, hc⟩ := hw
  simp [Blk.receive, hs, ha, hc, hn]

section Frame

variable {s : State} {t : TileId} {r : RingId} {b : BlockId} {fr : RingFrame} {type cmd len : Nat}

/-- A whole frame at a block that is not in ship state: `y` is what its row makes of the block. -/
theorem onFrame_whole (ht : t.val < s.ctl.tiles) (hs : (s.ctl.blk t r b).ship = false)
    (hw : Whole fr ∧ fr.names type cmd = true) {f : Blk → Blk} {y : Blk}
    (hy : f { s.ctl.blk t r b with aborts := false } = y) :
    s.onFrame t r b fr type cmd f = .next (s.blkTo t r b y) := by
  unfold State.onFrame
  rw [onTile_fitted ht, frameAt_whole hw.1, receive_whole hs hw.1 hw.2, hy]
  rfl

/-- A command the block takes: `y` is what executing it makes of the block, with its RCODE and response data. -/
theorem onFrame_takes (ht : t.val < s.ctl.tiles) (h : (s.ctl.blk t r b).Takes fr type cmd len) {f : Blk → BlkResult}
    {code : Nat} {data : List Byte} {y : Blk}
    (hf : f { s.ctl.blk t r b with aborts := false } = (code, data, { y with aborts := false })) :
    s.onFrame t r b fr type cmd (fun y => y.command fr len f) = .next (s.blkTo t r b (y.took fr code data)) := by
  obtain ⟨hs, hw, hn, haddr, hseq, hlen⟩ := h
  refine onFrame_whole ht hs ⟨hw, hn⟩ ?_
  rw [command_takes (x := { s.ctl.blk t r b with aborts := false }) haddr hseq hlen, hf]
  rfl

/-- An event of a block on a fitted tile: `y` is what it makes of the block. -/
theorem onBlk_fitted (ht : t.val < s.ctl.tiles) {f : Blk → Blk} {y : Blk} (hy : f (s.ctl.blk t r b) = y) :
    s.onBlk t r b f = .next (s.blkTo t r b y) := by
  rw [State.onBlk, onTile_fitted ht, hy]
  rfl

end Frame

/-! ### Commands (R126 to R128, R142, R147, R164, R169, R228) -/

/-- OPEN_TEST of a wire that exists, unicast, starts the test; its answer follows (R169). -/
theorem openTestStart_takes {x : Blk} {fr : RingFrame} (h : x.Takes fr 5 0x9 2) (hb : fr.broadcast = false)
    (hn : reqArg fr.req 0 1 ≤ 16) : Blk.openTestStart { x with aborts := false } fr =
      { x with aborts := false, openTest := some (reqArg fr.req 0 1, fr.seq.toNat), suspended := wireMask (reqArg fr.req 0 1)
               lastUni := some fr.seq.toNat, response := [], sent := [] } := by
  obtain ⟨_, _, _, haddr, hseq, hlen⟩ := h
  simp only [hb, Bool.false_eq_true, false_or, if_false] at haddr hseq
  exact if_pos ⟨hlen, hn, by simp [hb], haddr, hseq⟩

/-- READ_STATUS is the command of its code on the state whose measured die temperature it takes. -/
theorem readStatus_measures (s : State) (t : TileId) (r : RingId) (b : BlockId) (fr : RingFrame) :
    exec (.readStatus t r b fr) s = (s.ctlTo s.ctl.measure.2).onCmd t r b fr 0x0C 0 (fun k =>
      (eOk, beBytes 2 k.crcUp ++ beBytes 2 k.crcDown ++ beBytes 2 s.ctl.measure.1 ++ beBytes 2 k.resets, k)) := rfl

/-- Settles O15: each command is one that the block takes, and its effect takes the branch its hypotheses name. -/
theorem blockCommandsComplete : Obligations.BlockCommandsComplete := by
  refine ⟨?readId, ?setThr, ?setThrLocked, ?lockThr, ?readThr, ?challenge, ?authRead, ?authBusy, ?setRole, ?setPos, ?burst,
    ?ping, ?readStatus, ?zeroDuty, ?setDuty, ?quiet, ?ship, ?openTest, ?openTestSinkDone⟩
  case readId =>
    intro s t r b fr x ht h
    exact onFrame_takes ht h rfl
  case setThr =>
    intro s t r b fr x ht h hl
    refine onFrame_takes ht h ?_
    exact if_neg (Bool.eq_false_iff.mp hl)
  case setThrLocked =>
    intro s t r b fr x ht h hl
    refine onFrame_takes ht h ?_
    exact if_pos hl
  case lockThr =>
    intro s t r b fr x ht h
    exact onFrame_takes ht h rfl
  case readThr =>
    intro s t r b fr x ht h
    exact onFrame_takes ht h rfl
  case challenge =>
    intro s t r b fr x ht h
    exact onFrame_takes ht h rfl
  case authRead =>
    intro s t r b fr x ht h ha
    refine onFrame_takes ht h ?_
    exact if_pos ha
  case authBusy =>
    intro s t r b fr x ht h ha
    refine onFrame_takes ht h ?_
    exact if_neg (Bool.eq_false_iff.mp ha)
  case setRole =>
    intro s t r b fr x ht h
    exact onFrame_takes ht h rfl
  case setPos =>
    intro s t r b fr x ht h
    exact onFrame_takes ht h rfl
  case burst =>
    intro s t r b fr x ht h
    exact onFrame_takes ht h rfl
  case ping =>
    intro s t r b fr x ht h
    exact onFrame_takes ht h rfl
  case readStatus =>
    intro s t r b fr x ht h
    rw [readStatus_measures]
    exact onFrame_takes (s := s.ctlTo s.ctl.measure.2) ht h rfl
  case zeroDuty =>
    intro s t r b fr x ht h hm
    refine onFrame_takes ht h ?_
    exact (if_pos hm).trans (by rw [hm])
  case setDuty =>
    intro s t r b fr x ht h hm
    refine onFrame_takes ht h ?_
    exact if_neg hm
  case quiet =>
    intro s t r b fr x ht h
    refine onFrame_takes ht h ?_
    dsimp only
    split <;> rfl
  case ship =>
    intro s t r b fr x ht h
    exact onFrame_takes ht h rfl
  case openTest =>
    intro s t r b fr x n ht h hb hn
    have hy := openTestStart_takes h hb hn
    obtain ⟨hs, hw, hn, _⟩ := h
    exact onFrame_whole ht hs ⟨hw, hn⟩ hy
  case openTestSinkDone =>
    intro s t r b below above n q x y z ht ho
    change execOpenTestSinkDone t r b below above s = _
    refine onBlk_fitted ht ?_
    rw [show (s.ctl.blk t r b).openTest = some (n, q) from ho]

/-! ### A frame whose SEQ the block remembers (R126) -/

/-- The frame names the block or is for all, and has the SEQ of the last of its kind that the block accepted. -/
abbrev Blk.Remembers (x : Blk) (fr : RingFrame) : Prop :=
  (fr.broadcast = true ∨ x.addr = some (fr.addr.toNat % 1024)) ∧
    (if fr.broadcast then x.lastBc else x.lastUni) = some fr.seq.toNat

/-- What a block does with it: a unicast CMD is answered with the stored response. -/
def Blk.repeated (x : Blk) (fr : RingFrame) : Blk :=
  if fr.broadcast ∨ fr.post = true then x else { x with sent := x.response }

theorem command_repeated {x : Blk} {fr : RingFrame} (h : x.Remembers fr) (len : Nat) (f : Blk → BlkResult) :
    x.command fr len f = x.repeated fr := by
  obtain ⟨haddr, hseq⟩ := h
  unfold Blk.command Blk.repeated
  cases hb : fr.broadcast
  · simp only [hb, Bool.false_eq_true, false_or, if_false] at haddr hseq
    simp [haddr, hseq]
  · simp only [hb, if_true] at hseq
    simp [hseq]

theorem openTestStart_repeated {x : Blk} {fr : RingFrame} (h : x.Remembers fr) : x.openTestStart fr = x.repeated fr := by
  unfold Blk.openTestStart
  rw [if_neg, command_repeated h]
  rintro ⟨_, _, hb, _, hseq⟩
  exact hseq (by simpa [hb] using h.2)

/-- A frame of a command a block executes at once reaches the block as its command's effect, which a repeated frame does not
have. -/
theorem exec_blockFrame {i : Instr} {t : TileId} {r : RingId} {b : BlockId} {fr : RingFrame} {ty cmd : Nat}
    (h : blockFrame i = some (t, r, b, fr, ty, cmd)) :
    ∃ g : Blk → Blk, (∀ s, exec i s = s.onFrame t r b fr ty cmd g) ∧ ∀ x : Blk, x.Remembers fr → g x = x.repeated fr := by
  unfold blockFrame at h
  split at h
  case h_9 =>
    cases h
    exact ⟨_, fun _ => rfl, fun _ hx => openTestStart_repeated hx⟩
  case h_15 => cases h
  all_goals
    cases h
    exact ⟨_, fun _ => rfl, fun _ hx => command_repeated hx _ _⟩

/-- What is remembered after a frame is accepted: its SEQ for its own kind. -/
theorem answers_lastBc (y : Blk) (fr : RingFrame) (code : Nat) (data : List Byte) :
    (y.answers fr code data).lastBc = if fr.broadcast then some fr.seq.toNat else y.lastBc := by
  unfold Blk.answers
  dsimp only
  split_ifs <;> rfl

theorem answers_lastUni (y : Blk) (fr : RingFrame) (code : Nat) (data : List Byte) :
    (y.answers fr code data).lastUni = if fr.broadcast then y.lastUni else some fr.seq.toNat := by
  unfold Blk.answers
  dsimp only
  split_ifs <;> rfl

/-- Settles O51: a remembered frame stops before its command, and an accepted one leaves its SEQ. -/
theorem repeatedBlockFrames : Obligations.RepeatedBlockFrames := by
  refine ⟨?command, ?readStatus, ?remembered⟩
  case command =>
    intro s i t r b fr ty cmd hi ht hs hw hn haddr hseq
    obtain ⟨g, hg, hrep⟩ := exec_blockFrame hi
    rw [hg]
    exact onFrame_whole ht hs ⟨hw, hn⟩ (hrep _ ⟨haddr, hseq⟩)
  case readStatus =>
    intro s t r b fr ht hs hw hn haddr hseq
    have hpost : fr.post = false := by
      simp only [RingFrame.names, Bool.and_eq_true, beq_iff_eq] at hn
      simp [RingFrame.post, hn.1]
    have hrem : Blk.Remembers { s.ctl.blk t r b with aborts := false } fr := ⟨haddr, hseq⟩
    rw [readStatus_measures]
    refine onFrame_whole (s := s.ctlTo s.ctl.measure.2) ht hs ⟨hw, hn⟩ ((command_repeated hrem _ _).trans ?_)
    exact if_congr (by simp [hpost]) rfl rfl
  case remembered =>
    intro x fr ty cmd len f h hf
    obtain ⟨hs, hw, hn, haddr, hseq, hlen⟩ := h
    obtain ⟨huni, hbc⟩ := hf { x with aborts := false }
    rw [receive_whole hs hw hn, command_takes (x := { x with aborts := false }) haddr hseq hlen, answers_lastBc,
      answers_lastUni, huni, hbc]
    exact ⟨rfl, rfl⟩

/-! ### Events of a block (O16) -/

/-- What SYNC, found whole, changes in a block that is not in ship state (R130, R164). -/
theorem blockSync_whole {s : State} {t : TileId} {r : RingId} {b : BlockId} {fr : RingFrame} (ht : t.val < s.ctl.tiles)
    (hs : (s.ctl.blk t r b).ship = false) (hw : Whole fr ∧ fr.names 1 0 = true) (interval : Word) :
    exec (.blockSyncReceive t r b fr.toRingHeader fr.req fr.toRingEnd interval) s = .next (s.blkTo t r b (
      let x : Blk := { s.ctl.blk t r b with aborts := false }
      let frame := reqArg fr.req 0 4
      let align := reqArg fr.req 4 2
      let burst := reqArg fr.req 6 1
      if fr.req.length ≠ 8 ∨ x.addr = none ∨ (burst ≠ 0 ∧ x.burst = 0) then x
      else if burst = 0 then { x with sync := some (frame, 0, align), frame := frame, interval := interval.toNat }
      else { x with sync := some (frame, burst, align) })) := onFrame_whole ht hs hw rfl

/-- A conversion of a SYNC that waits for it. -/
theorem blockConversion_waiting {s : State} {t : TileId} {r : RingId} {b : BlockId} {a : Analog} {f n g : Nat}
    (ht : t.val < s.ctl.tiles) (hs : (s.ctl.blk t r b).ship = false) (hy : (s.ctl.blk t r b).sync = some (f, n, g)) :
    exec (.blockConversion t r b a) s = .next (s.blkTo t r b
      (if n = 0 then (s.ctl.blk t r b).convertFrame a else (s.ctl.blk t r b).convertBurst a)) := by
  change execBlockConversion t r b a s = _
  refine onBlk_fitted ht ?_
  simp only [hy, hs, Bool.false_eq_true, if_false]

/-- The sample response of a block with an address: built once for a conversion, then the one kept (R133). -/
theorem sendSample_first {x : Blk} (h : x.addr ≠ none ∧ x.kept = []) :
    x.sendSample = { x with sent := element (x.head2 ++ leBytes 1 x.counter ++ x.sample)
                            kept := element (x.head2 ++ leBytes 1 x.counter ++ x.sample), wdogStop := false } := by
  simp only [Blk.sendSample, if_neg h.1, if_pos h.2]

theorem sendSample_again {x : Blk} (h : x.addr ≠ none ∧ x.kept ≠ []) : x.sendSample = { x with sent := x.kept } := by
  simp only [Blk.sendSample, if_neg h.1, if_neg h.2]

/-- COLLECT, found whole. -/
theorem collect_whole {s : State} {t : TileId} {r : RingId} {b : BlockId} {fr : RingFrame} (ht : t.val < s.ctl.tiles)
    (hs : (s.ctl.blk t r b).ship = false) (hw : Whole fr ∧ fr.names 2 0 = true) :
    exec (.collect t r ⟨b, fr⟩) s = .next (s.blkTo t r b (Blk.sendSample { s.ctl.blk t r b with aborts := false })) :=
  onFrame_whole ht hs hw rfl

/-- RETRY, found whole (R120, R133). -/
theorem retry_whole {s : State} {t : TileId} {r : RingId} {b : BlockId} {fr : RingFrame} (ht : t.val < s.ctl.tiles)
    (hs : (s.ctl.blk t r b).ship = false) (hw : Whole fr ∧ fr.names 3 0 = true) :
    exec (.retry t r b fr) s = .next (s.blkTo t r b (
      let x : Blk := { s.ctl.blk t r b with aborts := false }
      if fr.listed.any (fun a => x.addr == some a) then x.sendSample else x)) := onFrame_whole ht hs hw rfl

/-- ASSIGN, found whole and of its length (R137, R150). -/
theorem assign_whole {s : State} {t : TileId} {r : RingId} {b : BlockId} {fr : RingFrame} (ht : t.val < s.ctl.tiles)
    (hs : (s.ctl.blk t r b).ship = false) (hw : Whole fr ∧ fr.names 4 0 = true) (hl : fr.req.length = 7)
    (upstream retime : BitVec 16) :
    exec (.assign t r b fr.toRingHeader fr.req fr.crc fr.abort upstream retime) s = .next (s.blkTo t r b (
      let n := reqArg fr.req 0 2
      let a := reqArg fr.req 2 4 + upstream.toNat
      let flags := reqArg fr.req 6 1
      let count := (if bit flags 1 then n + 65535 else n + 1) % 65536
      let acc := (a + retime.toNat) % 2 ^ 32
      let y : Blk := { s.ctl.blk t r b with
        aborts := false, arrival := a
        assignOut := (count, acc, crc16 (fr.header ++ beBytes 2 count ++ beBytes 4 acc ++ leBytes 1 flags)) }
      if bit flags 0 then y
      else { y with addr := some n, counter := 0, pending := none, cmd := {}, conduct := 0, fromTail := false, segEnd := false }
      )) := by
  refine onFrame_whole (fr := fr) ht hs hw ?_
  exact if_neg (not_not.mpr hl)

/-- Settles O16: each frame is whole, and each event takes the branch its hypotheses name. -/
theorem blockEventsComplete : Obligations.BlockEventsComplete := by
  refine ⟨?sync, ?syncBurst, ?syncIgnored, ?conversion, ?burstConversion, ?collect, ?collectAgain, ?retry, ?retryAgain,
    ?retryOther, ?assignMeasure, ?assign, ?authReady, ?shipExit, ?cycleStart, ?onTimeEnd, ?watchdog, ?watchdogIdle, ?trip,
    ?clear, ?beacon, ?powerCycle⟩
  case sync =>
    intro s t r b fr interval x frame align burst ht hs hw hl hb
    rw [blockSync_whole ht hs hw]
    dsimp only
    rw [if_neg (not_or.mpr ⟨not_not.mpr hl.1, not_or.mpr ⟨hl.2, fun h => h.1 hb⟩⟩), if_pos hb]
  case syncBurst =>
    intro s t r b fr interval x frame align burst ht hs hw hl hb
    rw [blockSync_whole ht hs hw]
    dsimp only
    rw [if_neg (not_or.mpr ⟨not_not.mpr hl.1, not_or.mpr ⟨hl.2, fun h => hb.2 h.2⟩⟩), if_neg hb.1]
  case syncIgnored =>
    intro s t r b fr interval x burst ht hs hw hi
    rw [blockSync_whole ht hs hw]
    exact congrArg (fun y => Host.Outcome.next (s.blkTo t r b y)) (if_pos hi)
  case conversion =>
    intro s t r b a f g x ht hs hy
    rw [blockConversion_waiting ht hs hy, if_pos rfl]
  case burstConversion =>
    intro s t r b a f n g x ht hs hy hn
    rw [blockConversion_waiting ht hs hy, if_neg hn]
  case collect =>
    intro s t r b fr x el ht hs hw hk
    rw [collect_whole ht hs hw, sendSample_first hk]
  case collectAgain =>
    intro s t r b fr x ht hs hw hk
    rw [collect_whole ht hs hw, sendSample_again hk]
  case retry =>
    intro s t r b fr x el ht hs hw hl hk
    rw [retry_whole ht hs hw]
    dsimp only
    rw [if_pos hl, sendSample_first hk]
  case retryAgain =>
    intro s t r b fr x ht hs hw hl hk
    rw [retry_whole ht hs hw]
    dsimp only
    rw [if_pos hl, sendSample_again hk]
  case retryOther =>
    intro s t r b fr x ht hs hw hl
    rw [retry_whole ht hs hw]
    dsimp only
    rw [if_neg (Bool.eq_false_iff.mp hl)]
  case assignMeasure =>
    intro s t r b fr upstream retime x n a flags count acc y ht hs hw hl hf
    rw [assign_whole ht hs hw hl]
    dsimp only
    rw [if_pos hf]
  case assign =>
    intro s t r b fr upstream retime x n a flags count acc y ht hs hw hl hf
    rw [assign_whole ht hs hw hl]
    dsimp only
    rw [if_neg (Bool.eq_false_iff.mp hf)]
  case authReady =>
    intro s t r b x ht hc
    change execBlockAuthReady t r b s = _
    exact onBlk_fitted ht (if_neg hc)
  case shipExit =>
    intro s t r b x ht hs
    change execShipStateExit t r b s = _
    exact onBlk_fitted ht (if_pos hs)
  case cycleStart =>
    intro s t r b x d ht
    change execBleedCycleStart t r b s = _
    exact onBlk_fitted ht rfl
  case onTimeEnd =>
    intro s t r b x ht
    change execBleedOnTimeEnd t r b s = _
    exact onBlk_fitted ht rfl
  case watchdog =>
    intro s t r b x ht hm
    change execBleedWatchdogExpiry t r b s = _
    exact onBlk_fitted ht (if_neg hm)
  case watchdogIdle =>
    intro s t r b x ht hm
    change execBleedWatchdogExpiry t r b s = _
    exact onBlk_fitted ht (if_pos hm)
  case trip =>
    intro s t r b which x ht
    change execBlockComparatorTrip t r b which s = _
    refine onBlk_fitted ht ?_
    match which with
    | 0 => rfl
    | 1 => rfl
    | 2 => rfl
  case clear =>
    intro s t r b which x ht
    change execBlockComparatorClear t r ⟨b, which⟩ s = _
    exact onBlk_fitted ht rfl
  case beacon =>
    intro s t r b tone x sends way ht
    change execBeaconSend t r b tone s = _
    exact onTile_fitted ht _
  case powerCycle =>
    intro s t r b u ht
    change execBlockPowerCycle t r b s = _
    exact onTile_fitted ht _

end Sys2Proof.Machine

/-! ## Events of a ring (O9, O10)

Lock and loss of lock are judged on the state that the link's change leaves; a launch, a response and a time-out act on the
transactions of the ring; enumeration, breaks and rejoining go by the state of the ring. -/
namespace Sys2Proof.Machine

/-- A ring in one state is not in another. -/
theorem not_in_state {c : Ctl} {t r a b : Nat} {p : Prop} (h : c.rstate t r = a) (hab : a ≠ b) : ¬ (c.rstate t r = b ∧ p) :=
  fun hb => hab (h.symm.trans hb.1)

section Ring

variable {s : State} {t : TileId} {r : RingId}

/-! ### Lock and loss of lock (R117, R149, R528) -/

/-- An end's receiver locks, with its equaliser setting in `c1`: the driving end of a ring in IDLE with AUTO_ENUM starts
enumeration, an end that gains lock starts one under way again. -/
theorem ringLinkLock_end {rx : RingReceiver} {eq : Byte} {tail : Bool} {c1 : Ctl} (ht : t.val < s.ctl.tiles)
    (hp : portEnd rx = some tail)
    (hc : (s.ctl.linkAt t r rx true).put t (if tail then RING_LINK_EQ_TAIL else RING_LINK_EQ_HEAD) eq.toNat r = c1) :
    exec (.ringLinkLock t r rx eq) s = .next (s.allTo (
      if (decide (c1.rstate t r = rgIdle) && (tail == decide (c1.get t RING_CTRL_MODE r = 2))
            && c1.flag t RING_CTRL_AUTO_ENUM r
          || decide (c1.rstate t r = rgEnum) && decide ((c1.rng t r).step < 8) && !s.ctl.endLock t r tail) = true then
        enumStart (s.mem, c1) t r
      else (s.mem, c1))) := by
  change execRingLinkLock t r rx eq s = _
  refine (onTileM_fitted ht _).trans ?_
  rw [hp]
  dsimp only
  rw [hc, ← ite_or]
  simp only [Bool.or_eq_true, Bool.and_eq_true, decide_eq_true_eq, Bool.not_eq_true', Bool.not_eq_true, and_assoc]

/-- A receiver of a block, or one that held no lock at its end, loses none at an end: the links are no longer said to have
stayed locked, and no more. -/
theorem ringLinkLoss_none {rx : RingReceiver} {c1 : Ctl} (ht : t.val < s.ctl.tiles)
    (hh : (portEnd rx).any (fun tail => s.ctl.endLock t r tail) = false)
    (hc : (s.ctl.linkAt t r rx false).setRng t r { (s.ctl.linkAt t r rx false).rng t r with missRun := [] } = c1) :
    exec (.ringLinkLoss t r rx) s = .next (s.ctlTo c1) := by
  change execRingLinkLoss t r rx s = _
  refine (onTileM_fitted ht _).trans ?_
  cases hp : portEnd rx with
  | none =>
    rw [← hc]
    rfl
  | some tail =>
    rw [hp, Option.any_some] at hh
    simp only [hh, hc, Bool.not_false, if_true]
    rfl

/-- An end that held lock loses it, which leaves `c1`. -/
theorem ringLinkLoss_end {rx : RingReceiver} {c1 : Ctl} (ht : t.val < s.ctl.tiles)
    (hh : (portEnd rx).any (fun tail => s.ctl.endLock t r tail) = true)
    (hc : (s.ctl.linkAt t r rx false).setRng t r { (s.ctl.linkAt t r rx false).rng t r with missRun := [] } = c1) :
    exec (.ringLinkLoss t r rx) s = .next (s.allTo (
      if (!(c1.endLock t r false || c1.endLock t r true)
          && (c1.rstate t r == rgEnum || c1.rstate t r == rgRun || c1.rstate t r == rgSplit)) = true then
        ringIdle (s.mem, c1) t r
      else if c1.rstate t r = rgEnum ∧ (c1.rng t r).step < 8 then enumStart (s.mem, c1) t r
      else if c1.rstate t r = rgRun ∧ rx = .tail then (s.mem, c1.setRng t r { c1.rng t r with suspect := true })
      else (s.mem, c1))) := by
  change execRingLinkLoss t r rx s = _
  refine (onTileM_fitted ht _).trans ?_
  cases hp : portEnd rx with
  | none => simp [hp] at hh
  | some tail =>
    rw [hp, Option.any_some] at hh
    simp only [hh, hc, Bool.not_true, Bool.false_eq_true, if_false]

/-! ### Launch (R129, R132) -/

/-- A ring in ENUM, or up, launches. -/
theorem not_down {c : Ctl} {t r : Nat} (hu : c.rstate t r = rgEnum ∨ c.ringUp t r = true) :
    ¬ (c.rstate t r ≠ rgEnum ∧ ¬ c.ringUp t r = true) := fun h => hu.elim h.1 h.2

/-- With no retry and no controller frame to launch, the first posted transaction goes, where it may be launched; one
whose block cannot be reached completes with E_ABSENT. -/
theorem ringTxLaunch_posted {tx : Tx} {rest : List Tx} (ht : t.val < s.ctl.tiles)
    (hu : s.ctl.rstate t r = rgEnum ∨ s.ctl.ringUp t r = true)
    (ha : (s.ctl.rng t r).flight.any (fun y => y.again && s.ctl.launchable t r y) = false)
    (hc : (s.ctl.rng t r).ctl.find? (s.ctl.launchable t r) = none) (hp : (s.ctl.rng t r).posted = tx :: rest) :
    exec (.ringTxLaunch t r) s = .next (s.allTo (
      if s.ctl.launchable t r tx = false then (s.mem, s.ctl)
      else
        let c := s.ctl.setRng t r { s.ctl.rng t r with posted := rest }
        if c.reachable t r tx.addr = true then (s.mem, c.launch t r tx) else completeTx (s.mem, c) tx eAbsent 0 [])) := by
  change execRingTxLaunch t r s = _
  refine (onTileM_fitted ht _).trans ?_
  dsimp only
  rw [if_neg (not_down hu), if_neg (Bool.eq_false_iff.mp ha), hc, hp]
  simp only [Bool.not_eq_true']

/-! ### Response and time-out (R123, R128, R132) -/

/-- A response to a transaction under way. -/
theorem ringTxResponse_known {seq : Byte} {tx : Tx} (ht : t.val < s.ctl.tiles)
    (hf : (s.ctl.rng t r).flight.find? (fun y => y.seq == seq.toNat) = some tx) (el : List Byte) :
    exec (.ringTxResponse t r seq el) s = .next (s.allTo (
      let g := s.ctl.rng t r
      if (!elementOk el || beNat (el.take 2) / 128 != tx.addr || beNat ((el.drop 3).take 1) != seq.toNat) = true then
        (s.mem, (s.ctl.setRng t r { g with
          flight := g.flight.map (fun y => if y.seq = tx.seq then { y with corrupt := true } else y) }).inc t RING_ERR_CRC r)
      else
        let count := beNat ((el.drop 2).take 1)
        let rcode := beNat ((el.drop 4).take 1)
        let c1 := if rcode = eOk then s.ctl
          else s.ctl.put t RING_BLK_EXP_COUNTER (s.ctl.get t RING_BLK_EXP_COUNTER r tx.addr + 255) r tx.addr
        txOutcome (s.mem, c1.counterCheck t r tx.addr count) t r tx rcode count
          ((el.drop 6).take (beNat ((el.drop 5).take 1))))) := by
  change execRingTxResponse t r seq el s = _
  refine (onTileM_fitted ht _).trans ?_
  dsimp only
  rw [hf]

/-- A time-out of a transaction under way. -/
theorem ringTxRetryTimeout_known {seq : Byte} {tx : Tx} (ht : t.val < s.ctl.tiles)
    (hf : (s.ctl.rng t r).flight.find? (fun y => y.seq == seq.toNat) = some tx) :
    exec (.ringTxRetryTimeout t r seq) s = .next (s.allTo (
      let g := s.ctl.rng t r
      if tx.again = true then (s.mem, s.ctl)
      else if tx.tries < s.ctl.get t RING_CTRL_RETRIES r then
        (s.mem, s.ctl.setRng t r { g with flight := g.flight.map (fun y =>
          if y.seq = tx.seq then { y with tries := y.tries + 1, again := !s.ctl.launchable t r tx } else y) })
      else txOutcome (s.mem, s.ctl) t r tx (if tx.corrupt then eIntegrity else eTimeout) 0 [])) := by
  change execRingTxRetryTimeout t r seq s = _
  refine (onTileM_fitted ht _).trans ?_
  dsimp only
  rw [hf]

end Ring

/-- Settles O9: each event of a ring takes the branch its hypotheses name. -/
theorem ringEventsComplete : Obligations.RingEventsComplete := by
  refine ⟨?lockBlock, ?lockEnumerates, ?lock, ?lossNone, ?lossDark, ?lossEnum, ?lossSuspect, ?loss, ?launchDown, ?launchRetry,
    ?launchController, ?launchNone, ?launchPosted, ?launchAbsent, ?responseUnknown, ?responseCorrupt, ?response, ?timeoutUnknown,
    ?timeoutRetry, ?timeoutWaits, ?timeout, ?duty, ?dutyNone, ?quiet, ?quietNone⟩
  case lockBlock =>
    intro s t r rx eq ht hp
    change execRingLinkLock t r rx eq s = _
    unfold execRingLinkLock
    rw [onTileM_fitted ht, hp]
    rfl
  case lockEnumerates =>
    intro s t r rx eq tail c1 idle again ht hp he
    rw [ringLinkLock_end ht hp (c1 := c1) rfl, if_pos he]
  case lock =>
    intro s t r rx eq tail c1 idle again ht hp he
    rw [ringLinkLock_end ht hp (c1 := c1) rfl, if_neg (Bool.eq_false_iff.mp he)]
    rfl
  case lossNone =>
    intro s t r rx had c0 c1 ht hh
    exact ringLinkLoss_none ht hh rfl
  case lossDark =>
    intro s t r rx had c0 c1 st dark ht hh hd
    rw [ringLinkLoss_end ht hh (c1 := c1) rfl, if_pos hd]
  case lossEnum =>
    intro s t r rx had c0 c1 st dark ht hh hd he
    rw [ringLinkLoss_end ht hh (c1 := c1) rfl, if_neg (Bool.eq_false_iff.mp hd), if_pos he]
  case lossSuspect =>
    intro s t r rx had c0 c1 st dark ht hh hd hr
    rw [ringLinkLoss_end ht hh (c1 := c1) rfl, if_neg (Bool.eq_false_iff.mp hd), if_neg (not_in_state hr.1 (by decide)),
      if_pos hr]
    rfl
  case loss =>
    intro s t r rx had c0 c1 st dark ht hh hd he hr
    rw [ringLinkLoss_end ht hh (c1 := c1) rfl, if_neg (Bool.eq_false_iff.mp hd), if_neg he, if_neg hr]
    rfl
  case launchDown =>
    intro s t r ht hd
    change execRingTxLaunch t r s = _
    refine (onTileM_fitted ht _).trans ?_
    dsimp only
    rw [if_pos ⟨hd.1, Bool.eq_false_iff.mp hd.2⟩]
    rfl
  case launchRetry =>
    intro s t r g ht hu ha
    change execRingTxLaunch t r s = _
    refine (onTileM_fitted ht _).trans ?_
    dsimp only
    rw [if_neg (not_down hu), if_pos ha]
    rfl
  case launchController =>
    intro s t r tx g ht hu ha hc
    change execRingTxLaunch t r s = _
    refine (onTileM_fitted ht _).trans ?_
    dsimp only
    rw [if_neg (not_down hu), if_neg (Bool.eq_false_iff.mp ha), hc]
  case launchNone =>
    intro s t r g ht hu ha hc hp
    cases hq : g.posted with
    | nil =>
      change execRingTxLaunch t r s = _
      refine (onTileM_fitted ht _).trans ?_
      dsimp only
      rw [if_neg (not_down hu), if_neg (Bool.eq_false_iff.mp ha), hc, hq]
      rfl
    | cons tx rest =>
      rw [ringTxLaunch_posted ht hu ha hc hq, if_pos (by simpa [hq] using hp)]
      rfl
  case launchPosted =>
    intro s t r tx rest g ht hu ha hc hp hl hr
    rw [ringTxLaunch_posted ht hu ha hc hp, if_neg (by simp [hl])]
    dsimp only
    rw [if_pos hr]
    rfl
  case launchAbsent =>
    intro s t r tx rest g ht hu ha hc hp hl hr
    rw [ringTxLaunch_posted ht hu ha hc hp, if_neg (by simp [hl])]
    dsimp only
    rw [if_neg (Bool.eq_false_iff.mp hr)]
  case responseUnknown =>
    intro s t r seq el ht hf
    change execRingTxResponse t r seq el s = _
    refine (onTileM_fitted ht _).trans ?_
    dsimp only
    rw [hf]
    rfl
  case responseCorrupt =>
    intro s t r seq el tx g ht hf hc
    rw [ringTxResponse_known ht hf]
    dsimp only
    rw [if_pos hc]
    rfl
  case response =>
    intro s t r seq el tx count rcode data c1 ht hf hc
    rw [ringTxResponse_known ht hf]
    dsimp only
    rw [if_neg (Bool.eq_false_iff.mp hc)]
  case timeoutUnknown =>
    intro s t r seq ht hf
    change execRingTxRetryTimeout t r seq s = _
    refine (onTileM_fitted ht _).trans ?_
    dsimp only
    rw [hf]
    rfl
  case timeoutRetry =>
    intro s t r seq tx g ht hf ha hn
    rw [ringTxRetryTimeout_known ht hf]
    dsimp only
    rw [if_neg (by simp [ha]), if_pos hn]
    rfl
  case timeoutWaits =>
    intro s t r seq tx ht hf ha
    rw [ringTxRetryTimeout_known ht hf]
    dsimp only
    rw [if_pos ha]
    rfl
  case timeout =>
    intro s t r seq tx ht hf ha hn
    rw [ringTxRetryTimeout_known ht hf]
    dsimp only
    rw [if_neg (by simp [ha]), if_neg (Nat.not_lt.mpr hn)]
  case duty =>
    intro s t r b x g f g1 c1 ht hu hd
    change execDutySlotSend t r s = _
    unfold execDutySlotSend
    rw [onTile_fitted ht, hu, hd]
    rfl
  case dutyNone =>
    intro s t r ht hn
    have hnone : (if s.ctl.ringUp t r = true then s.ctl.dutyReady t r else none) = none := by
      split
      · next hu => exact hn.resolve_left (by simp [hu])
      · rfl
    change execDutySlotSend t r s = _
    unfold execDutySlotSend
    rw [onTile_fitted ht]
    dsimp only
    rw [hnone]
    rfl
  case quiet =>
    intro s t r ht hu hq
    change execQuietLaunch t r s = _
    unfold execQuietLaunch
    rw [onTile_fitted ht, if_neg (by simp [hu, hq])]
  case quietNone =>
    intro s t r ht hn
    change execQuietLaunch t r s = _
    unfold execQuietLaunch
    rw [onTile_fitted ht, if_pos (by simpa using hn)]
    rfl

/-! ### Enumeration, breaks and rejoining (R137, R138, R149 to R151, R528, R529) -/

/-- Settles O10: each event of a ring takes the branch of its state. -/
theorem ringEnumerationComplete : Obligations.RingEnumerationComplete := by
  refine ⟨?assignCounts, ?assignRejoins, ?assignDiffers, ?assignIdle, ?assignMeasures, ?assignTimeout, ?passTimeout, ?stepTimeout,
    ?stepIdle, ?enumTwoBreaks, ?enumBreak, ?splitBreak, ?runTwoBreaks, ?runBreak, ?breakIdle, ?carriedSplit, ?carriedRun,
    ?carriedIdle, ?rejoin, ?rejoinIdle, ?missing, ?missingIdle⟩
  case assignCounts =>
    intro s t r count acc ht h
    change execAssignAtTail t r count acc s = _
    refine (onTileM_fitted ht _).trans ?_
    dsimp only
    rw [if_pos h]
  case assignRejoins =>
    intro s t r count acc g k pos ht h hn
    change execAssignAtTail t r count acc s = _
    refine (onTileM_fitted ht _).trans ?_
    dsimp only
    rw [if_neg (not_in_state h.1 (by decide)), if_pos h, if_pos hn]
    rfl
  case assignDiffers =>
    intro s t r count acc g ht h hn
    change execAssignAtTail t r count acc s = _
    refine (onTileM_fitted ht _).trans ?_
    dsimp only
    rw [if_neg (not_in_state h.1 (by decide)), if_pos h, if_neg hn]
    rfl
  case assignIdle =>
    intro s t r count acc ht he hs hr
    change execAssignAtTail t r count acc s = _
    refine (onTileM_fitted ht _).trans ?_
    dsimp only
    rw [if_neg he, if_neg hs, if_neg hr]
    rfl
  case assignMeasures =>
    intro s t r count acc c1 ht h
    change execAssignAtTail t r count acc s = _
    refine (onTileM_fitted ht _).trans ?_
    dsimp only
    rw [if_neg (not_in_state h.1 (by decide)), if_neg (not_in_state h.1 (by decide)), if_pos h]
    rfl
  case assignTimeout =>
    intro s t r ht h
    change execAssignTimeout t r s = _
    refine (onTile_fitted ht _).trans ?_
    dsimp only
    rw [if_pos h]
  case passTimeout =>
    intro s t r ht h
    change execAssignTimeout t r s = _
    refine (onTile_fitted ht _).trans ?_
    dsimp only
    rw [if_neg h]
  case stepTimeout =>
    intro s t r ht h
    change execEnumStepTimeout t r s = _
    refine (onTileM_fitted ht _).trans ?_
    rw [if_pos h]
  case stepIdle =>
    intro s t r ht h
    change execEnumStepTimeout t r s = _
    refine (onTileM_fitted ht _).trans ?_
    rw [if_neg h]
    rfl
  case enumTwoBreaks =>
    intro s t r k n twoBreaks ht h hb
    change execBreakLocated t r k n twoBreaks s = _
    refine (onTileM_fitted ht _).trans ?_
    dsimp only
    rw [if_pos h, if_pos hb]
  case enumBreak =>
    intro s t r k n twoBreaks x ht h hb
    change execBreakLocated t r k n twoBreaks s = _
    refine (onTileM_fitted ht _).trans ?_
    dsimp only
    rw [if_pos h, if_neg (Bool.eq_false_iff.mp hb)]
  case splitBreak =>
    intro s t r k n twoBreaks ht h
    change execBreakLocated t r k n twoBreaks s = _
    refine (onTileM_fitted ht _).trans ?_
    dsimp only
    rw [if_neg (not_in_state h (by decide)), if_pos h]
  case runTwoBreaks =>
    intro s t r k n twoBreaks ht h hb
    change execBreakLocated t r k n twoBreaks s = _
    refine (onTileM_fitted ht _).trans ?_
    dsimp only
    rw [if_neg (not_in_state h.1 (by decide)), if_neg (by rw [h.1]; decide), if_pos h, if_pos hb]
  case runBreak =>
    intro s t r k n twoBreaks g ht h hb
    change execBreakLocated t r k n twoBreaks s = _
    refine (onTileM_fitted ht _).trans ?_
    dsimp only
    rw [if_neg (not_in_state h.1 (by decide)), if_neg (by rw [h.1]; decide), if_pos h, if_neg (Bool.eq_false_iff.mp hb)]
    rfl
  case breakIdle =>
    intro s t r k n twoBreaks ht he hs hr
    change execBreakLocated t r k n twoBreaks s = _
    refine (onTileM_fitted ht _).trans ?_
    dsimp only
    rw [if_neg he, if_neg hs, if_neg hr]
    rfl
  case carriedSplit =>
    intro s t r k ht hc h
    change execCarriedBreakLocate t r k s = _
    refine (onTileM_fitted ht _).trans ?_
    dsimp only
    rw [if_neg (by simp [hc]), if_pos h]
  case carriedRun =>
    intro s t r k g ht hc h
    change execCarriedBreakLocate t r k s = _
    refine (onTileM_fitted ht _).trans ?_
    dsimp only
    rw [if_neg (by simp [hc]), if_neg (by rw [h.1]; decide), if_pos h]
    rfl
  case carriedIdle =>
    intro s t r k ht hi
    change execCarriedBreakLocate t r k s = _
    refine (onTileM_fitted ht _).trans ?_
    dsimp only
    by_cases hc : s.ctl.tileState t = tsCarried ∧ s.ctl.get t RING_CTRL_MODE r = 2
    · obtain ⟨hs, hr⟩ := hi.resolve_left (not_not.mpr hc)
      rw [if_neg (by simp [hc]), if_neg hs, if_neg hr]
      rfl
    · rw [if_pos (not_and_or.mp hc)]
      rfl
  case rejoin =>
    intro s t r ht h
    change execRejoinAttempt t r s = _
    refine (onTile_fitted ht _).trans ?_
    rw [if_pos h]
  case rejoinIdle =>
    intro s t r ht h
    change execRejoinAttempt t r s = _
    refine (onTile_fitted ht _).trans ?_
    rw [if_neg h]
    rfl
  case missing =>
    intro s t r ht h
    change execMissingCountReenum t r s = _
    refine (onTileM_fitted ht _).trans ?_
    rw [if_pos h]
  case missingIdle =>
    intro s t r ht h
    change execMissingCountReenum t r s = _
    refine (onTileM_fitted ht _).trans ?_
    rw [if_neg (Bool.eq_false_iff.mp h)]
    rfl

end Sys2Proof.Machine

/-! ## Frames, sweeps, tones and fetches (O12)

A record and a sweep's end count only while tile, ring and frame are open; each event acts on that condition. -/
namespace Sys2Proof.Machine

/-- A write of the next period that R157 allows. -/
theorem frameNextWrite_allowed {c : Ctl} {o : Origin} {next : Nat} (ho : c.mayConfig o = true)
    (hn : next = 0 ∨ (4 ≤ frameDiff (c.get 0 SMP_FRAME_SWITCH_AT) (c.get 0 SMP_FRAME_NUM_FRAME) ∧
      frameDiff (c.get 0 SMP_FRAME_SWITCH_AT) (c.get 0 SMP_FRAME_NUM_FRAME) ≤ 65536 ∧ c.activating = false ∧
      c.carryUnderWay = false)) : c.frameNextWrite o next = (c.put 0 SMP_FRAME_CFG_NEXT next, eOk) := by
  have he : (if next = 0 then eOk else firstErr
      [(decide (frameDiff (c.get 0 SMP_FRAME_SWITCH_AT) (c.get 0 SMP_FRAME_NUM_FRAME) < 4)
        || decide (65536 < frameDiff (c.get 0 SMP_FRAME_SWITCH_AT) (c.get 0 SMP_FRAME_NUM_FRAME)), eRange),
       (c.activating || c.carryUnderWay, eBusy)]) = eOk := by
    rcases hn with h0 | ⟨hlow, hhigh, ha, hc⟩
    · exact if_pos h0
    · rw [firstErr_ok (by simp [hlow, hhigh, ha, hc]), ite_self]
  unfold Ctl.frameNextWrite
  simp only [ho, he, Bool.not_true, Bool.false_eq_true, if_false, ne_eq, not_true_eq_false]

/-! ### Samples and sweeps (R123 to R125, R133, R150, R162)

The conditions under which an event acts, as its meaning tests their negation. -/

theorem shut_eq_not_open (a b d e : Bool) : (!a || !b || d || e) = !(a && b && !d && !e) := by
  simp only [Bool.not_and, Bool.not_not]

theorem not_frameUp_iff {c : Ctl} {t : TileId} {r : RingId} {p : Bool} :
    (!c.live t || !c.ringUp t r || !c.frameOpen.contains t.val || p) = true ↔
      ¬ (c.live t = true ∧ c.ringUp t r = true ∧ c.frameOpen.contains t.val = true ∧ p = false) := by
  generalize c.live t = a, c.ringUp t r = b, c.frameOpen.contains t.val = d
  revert a b d p
  decide

theorem not_sampling_iff {c : Ctl} {t : TileId} {r : RingId} :
    (!c.live t || !c.ringUp t r || !c.frameOpen.contains t.val || !(c.rng t r).collecting || (c.rng t r).swept) = true ↔
      ¬ (c.live t = true ∧ c.ringUp t r = true ∧ c.frameOpen.contains t.val = true ∧ (c.rng t r).collecting = true ∧
        (c.rng t r).swept = false) := by
  generalize c.live t = a, c.ringUp t r = b, c.frameOpen.contains t.val = d, (c.rng t r).collecting = e,
    (c.rng t r).swept = f
  revert a b d e f
  decide

/-- A response element while the ring is sampling. -/
theorem sampleResponse_sampling {s : State} {t : TileId} {r : RingId} (ht : t.val < s.ctl.tiles)
    (ho : s.ctl.live t = true ∧ s.ctl.ringUp t r = true ∧ s.ctl.frameOpen.contains t.val = true)
    (hg : (s.ctl.rng t r).collecting = true ∧ (s.ctl.rng t r).swept = false) (el : List Byte) :
    exec (.sampleResponseReceive t r el) s = .next (s.allTo (
      let b := beNat (el.take 2) / 128
      let c1 := s.ctl.counterCheck t r b (parseSample el).counter
      if (el.length ≠ 54 ∧ el.length ≠ 60) ∨ ¬ elementOk el = true then (s.mem, s.ctl.inc t RING_ERR_CRC r)
      else if (!s.ctl.present? t r b || (s.ctl.rng t r).got.contains b) = true then (s.mem, s.ctl)
      else takeRecord s.mem (if bit (parseSample el).status 2 then c1.wdogSeen t r b (s.ctl.rng t r) else c1) t r b
        (parseSample el) (s.ctl.freshIn t r b (s.ctl.get t SMP_FRAME_NUM_FRAME) el))) := by
  obtain ⟨hl, hu, hf⟩ := ho
  change execSampleResponseReceive t r el s = _
  refine (onTileM_fitted ht _).trans ?_
  dsimp only
  rw [if_neg (mt not_sampling_iff.mp (not_not.mpr ⟨hl, hu, hf, hg⟩))]

/-- Settles O12: each event takes the branch its hypotheses name. -/
theorem frameAndSamplingComplete : Obligations.FrameAndSamplingComplete := by
  refine ⟨?instant, ?instantOff, ?complete, ?completeIdle, ?period, ?collect, ?collectIdle, ?sampleIdle, ?sampleCorrupt,
    ?sampleUnknown, ?sample, ?retry, ?retryIdle, ?sweepIdle, ?sweep, ?sweepSuspect, ?toneLoss, ?tone, ?toneSplit, ?beacon,
    ?beaconIdle, ?beaconLost, ?beaconLostIdle, ?sfetch, ?sfetchRefused, ?sfetchDone, ?sfetchDoneIdle⟩
  case instant =>
    intro s n ht hm
    change execFrameInstant s = _
    refine (onModuleM_next s _).trans ?_
    rw [if_neg (by simp [ht, hm])]
  case instantOff =>
    intro s h
    change execFrameInstant s = _
    refine (onModuleM_next s _).trans ?_
    rw [if_pos h]
    rfl
  case complete =>
    intro s t ht h
    change execFrameComplete t s = _
    refine (onTileM_fitted ht _).trans ?_
    rw [shut_eq_not_open, h]
    rfl
  case completeIdle =>
    intro s t ht h
    change execFrameComplete t s = _
    refine (onTileM_fitted ht _).trans ?_
    rw [shut_eq_not_open, h]
    rfl
  case period =>
    intro s o next ahead hf hr ho hn
    exact access_accepted hf hr (frameNextWrite_allowed ho hn)
  case collect =>
    intro s t r ht h
    change execCollectLaunch t r s = _
    refine (onTile_fitted ht _).trans ?_
    rw [if_pos (by simpa [and_assoc] using h)]
  case collectIdle =>
    intro s t r ht h
    change execCollectLaunch t r s = _
    refine (onTile_fitted ht _).trans ?_
    rw [if_neg (by simpa [and_assoc] using h)]
    rfl
  case sampleIdle =>
    intro s t r el g ht h
    change execSampleResponseReceive t r el s = _
    refine (onTileM_fitted ht _).trans ?_
    dsimp only
    rw [if_pos (not_sampling_iff.mpr h)]
    rfl
  case sampleCorrupt =>
    intro s t r el g ht ho hg he
    rw [sampleResponse_sampling ht ho hg]
    dsimp only
    rw [if_pos (he.imp_right Bool.eq_false_iff.mp)]
    rfl
  case sampleUnknown =>
    intro s t r el g b ht ho hg he hb
    rw [sampleResponse_sampling ht ho hg]
    dsimp only
    rw [if_neg (not_or.mpr ⟨he.1, not_not.mpr he.2⟩), if_pos (by simpa using hb)]
    rfl
  case sample =>
    intro s t r el g b x c1 ht ho hg he hb
    rw [sampleResponse_sampling ht ho hg]
    dsimp only
    rw [if_neg (not_or.mpr ⟨he.1, not_not.mpr he.2⟩), if_neg (by simpa using hb)]
  case retry =>
    intro s t r g missing ht h
    change execRetryPassLaunch t r s = _
    refine (onTile_fitted ht _).trans ?_
    dsimp only
    rw [if_pos h]
  case retryIdle =>
    intro s t r g missing ht h
    change execRetryPassLaunch t r s = _
    refine (onTile_fitted ht _).trans ?_
    dsimp only
    rw [if_neg (Bool.eq_false_iff.mp h)]
    rfl
  case sweepIdle =>
    intro s t r reached ht h
    change execRingSweepEnd t r reached s = _
    refine (onTileM_fitted ht _).trans ?_
    dsimp only
    rw [if_pos (not_frameUp_iff.mpr h)]
    rfl
  case sweep =>
    intro s t r reached x ht ho hs
    change execRingSweepEnd t r reached s = _
    refine (onTileM_fitted ht _).trans ?_
    dsimp only
    rw [if_neg (mt not_frameUp_iff.mp (not_not.mpr ho)), if_neg (Bool.eq_false_iff.mp hs)]
  case sweepSuspect =>
    intro s t r reached x ht ho hs
    change execRingSweepEnd t r reached s = _
    refine (onTileM_fitted ht _).trans ?_
    dsimp only
    rw [if_neg (mt not_frameUp_iff.mp (not_not.mpr ho)), if_pos hs]
  case toneLoss =>
    intro s t r tail ht
    change execToneLossReport t r tail s = _
    exact onTile_fitted ht _
  case tone =>
    intro s t r tail ht h
    change execToneRestored t r tail s = _
    refine (onTile_fitted ht _).trans ?_
    rw [if_neg h]
  case toneSplit =>
    intro s t r tail ht h
    change execToneRestored t r tail s = _
    refine (onTile_fitted ht _).trans ?_
    rw [if_pos h]
    rfl
  case beacon =>
    intro s t r tail ht h
    change execBeaconReceive t r tail s = _
    refine (onTile_fitted ht _).trans ?_
    rw [if_pos h]
  case beaconIdle =>
    intro s t r tail ht h
    change execBeaconReceive t r tail s = _
    refine (onTile_fitted ht _).trans ?_
    rw [if_neg h]
    rfl
  case beaconLost =>
    intro s t r tail ht h
    change execBeaconTimeout t r tail s = _
    refine (onTile_fitted ht _).trans ?_
    rw [if_pos h]
  case beaconLostIdle =>
    intro s t r tail ht h
    change execBeaconTimeout t r tail s = _
    refine (onTile_fitted ht _).trans ?_
    rw [if_neg h]
    rfl
  case sfetch =>
    intro s t k d a i f w h ha he
    change execSfetch t k d a s = _
    refine (onTile_instr h (by simp [ha])).trans ?_
    dsimp only
    rw [if_neg (not_not.mpr he)]
  case sfetchRefused =>
    intro s t k d a i e h ha he
    change execSfetch t k d a s = _
    refine (onTile_instr h (by simp [ha])).trans ?_
    dsimp only
    rw [if_pos he]
    rfl
  case sfetchDone =>
    intro s t i f w dst g ht hw
    change execSfetchDone t i s = _
    refine (onTileM_fitted ht _).trans ?_
    rw [hw]
  case sfetchDoneIdle =>
    intro s t i ht hw
    change execSfetchDone t i s = _
    refine (onTileM_fitted ht _).trans ?_
    split
    · next f w dst h => exact absurd h (hw f w dst)
    · rfl

end Sys2Proof.Machine

/-! ## The lower median (O52)

The model's sort is the library's insertion sort, so the median is the value at the middle place of an ascending rearrangement. -/
namespace Sys2Proof.Machine

/-- Insertion is the library's insertion into a list ordered by `≤`. -/
theorem insertAsc_eq_orderedInsert (v : Int) (l : List Int) : insertAsc v l = l.orderedInsert (· ≤ ·) v := by
  induction l with
  | nil => rfl
  | cons w l ih => simp only [insertAsc, List.orderedInsert_cons, ih]

/-- Sorting is the library's insertion sort. -/
theorem sortAsc_eq_insertionSort (l : List Int) : sortAsc l = l.insertionSort (· ≤ ·) := by
  induction l with
  | nil => rfl
  | cons v l ih => rw [List.insertionSort_cons, ← ih, ← insertAsc_eq_orderedInsert, sortAsc, List.foldr_cons, ← sortAsc]

theorem sortAsc_perm (l : List Int) : (sortAsc l).Perm l := by
  rw [sortAsc_eq_insertionSort]
  exact List.perm_insertionSort _ l

theorem sortAsc_ascending (l : List Int) : (sortAsc l).Pairwise (· ≤ ·) := by
  rw [sortAsc_eq_insertionSort]
  exact List.pairwise_insertionSort _ l

/-- The middle place of a list that is not empty, in its ascending order. -/
theorem middle_lt_length_sortAsc {l : List Int} (h : l ≠ []) : (l.length - 1) / 2 < (sortAsc l).length := by
  have hpos := List.length_pos_of_ne_nil h
  rw [(sortAsc_perm l).length_eq]
  omega

/-- The median is the value at the middle place of the ascending order. -/
theorem median_eq_getElem {l : List Int} (h : l ≠ []) :
    median l = (sortAsc l)[(l.length - 1) / 2]'(middle_lt_length_sortAsc h) := List.getD_eq_getElem _ _ _

theorem median_mem {l : List Int} (h : l ≠ []) : median l ∈ l := by
  rw [median_eq_getElem h]
  exact (sortAsc_perm l).subset (List.getElem_mem _)

/-- In an ascending list only values before place `i` lie below the value there. -/
theorem countP_lt_getElem_le {s : List Int} (hs : s.Pairwise (· ≤ ·)) {i : Nat} (hi : i < s.length) :
    s.countP (fun v => decide (v < s[i])) ≤ i := by
  have hdrop : (s.drop i).countP (fun v => decide (v < s[i])) = 0 := by
    rw [List.countP_eq_zero]
    intro v hv
    obtain ⟨j, hj, rfl⟩ := List.mem_drop_iff_getElem.mp hv
    simpa using hs.rel_get_of_le (a := ⟨i, hi⟩) (b := ⟨i + j, by omega⟩) (by simp)
  have hsplit := List.countP_append (l₁ := s.take i) (l₂ := s.drop i) (p := fun v => decide (v < s[i]))
  rw [List.take_append_drop, hdrop, Nat.add_zero] at hsplit
  exact hsplit.trans_le (List.countP_le_length.trans (List.length_take_le i s))

/-- In an ascending list every value up to place `i` is not above the value there. -/
theorem lt_countP_le_getElem {s : List Int} (hs : s.Pairwise (· ≤ ·)) {i : Nat} (hi : i < s.length) :
    i < s.countP (fun v => decide (v ≤ s[i])) := by
  have htake : (s.take (i + 1)).countP (fun v => decide (v ≤ s[i])) = (s.take (i + 1)).length := by
    rw [List.countP_eq_length]
    intro v hv
    obtain ⟨j, hj, rfl⟩ := List.mem_take_iff_getElem.mp hv
    simpa using hs.rel_get_of_le (a := ⟨j, by omega⟩) (b := ⟨i, hi⟩) (by simp; omega)
  calc i < (s.take (i + 1)).length := by simp; omega
    _ = (s.take (i + 1)).countP (fun v => decide (v ≤ s[i])) := htake.symm
    _ ≤ s.countP (fun v => decide (v ≤ s[i])) := (List.take_sublist _ s).countP_le

/-- The median of values none of which is negative is not negative. -/
theorem median_nonneg {l : List Int} (h : ∀ v ∈ l, 0 ≤ v) : 0 ≤ median l := by
  by_cases hl : l = []
  · subst hl
    decide
  · exact h _ (median_mem hl)

/-- Settles O52: the median stands at the middle place of the ascending order, and no deviation is negative. -/
theorem lowerMedianAndMad : Obligations.LowerMedianAndMad := by
  refine ⟨fun l hl => ⟨median_mem hl, ?below, ?notAbove⟩, fun l => ?mad⟩
  case below =>
    rw [← List.countP_eq_length_filter, ← (sortAsc_perm l).countP_eq, median_eq_getElem hl]
    exact countP_lt_getElem_le (sortAsc_ascending l) _
  case notAbove =>
    rw [← List.countP_eq_length_filter, ← (sortAsc_perm l).countP_eq, median_eq_getElem hl]
    exact lt_countP_le_getElem (sortAsc_ascending l) _
  case mad =>
    exact Int.toNat_of_nonneg (median_nonneg (by simp))

end Sys2Proof.Machine

/-! ## Burst sampling (O13)

A committed list, a sub-instant, a collection and an entry's end each act under the condition of their row. -/
namespace Sys2Proof.Machine

/-- A commit of a list within the checks of R161. -/
theorem burstCtrlWrite_commit {c : Ctl} {o : Origin} {t count : Nat} (ho : c.mayConfig o = true) (hn : count < 2048)
    (he : c.burstCode t count = eOk) :
    c.burstCtrlWrite o t (2 ^ 31 + count) = (
      let cells := (List.range count).map (fun i => c.get t SMP_BURST_LIST_CELL i)
      let c1 := c.put t SMP_BURST_CTRL_COUNT count
      { c1 with bursts := tabSet c1.bursts t { tabGet {} c1.bursts t with committed := some cells } }, eOk) := by
  have hcommit : bit (2 ^ 31 + count) 31 = true := by
    rw [bit, Nat.testBit_two_pow_add_eq, Nat.testBit_lt_two_pow (by omega), Bool.not_false]
  have hcount : (2 ^ 31 + count) % 2048 = count := by omega
  unfold Ctl.burstCtrlWrite
  simp only [ho, hcommit, hcount, he, Bool.not_true, Bool.false_eq_true, if_false, ne_eq, not_true_eq_false]

/-- The condition under which a ring is not asked for an entry, as its event tests it. -/
theorem not_asked_iff {c : Ctl} {t : Nat} {r : RingId} {e : BurstEntry} :
    (e.j = 0 ∨ e.skipped.contains r.val = true ∨ ¬ c.ringUp t r = true) ↔
      (e.j == 0 || e.skipped.contains r.val || !c.ringUp t r) = true := by
  simp [or_assoc]

/-- Settles O13: each event takes the branch its hypotheses name. -/
theorem burstSamplingComplete : Obligations.BurstSamplingComplete := by
  refine ⟨?commit, ?idle, ?subInstant, ?notAsked, ?asked, ?noEntry, ?stored⟩
  case commit =>
    intro s t o count cells c1 hf hr ho he
    exact access_accepted hf hr (burstCtrlWrite_commit ho count.isLt he)
  case idle =>
    intro s t j x ht h
    change execBurstSubInstant t j s = _
    refine (onTile_fitted ht _).trans ?_
    dsimp only
    rw [if_pos (by simpa using h)]
    rfl
  case subInstant =>
    intro s t j x late c1 y c2 ht h
    change execBurstSubInstant t j s = _
    refine (onTile_fitted ht _).trans ?_
    dsimp only
    rw [if_neg (by simpa using h)]
  case notAsked =>
    intro s t r els ht h
    change execBurstCollect t r els s = _
    refine (onTile_fitted ht _).trans ?_
    dsimp only
    split
    · rfl
    · next e hx =>
      rw [hx, Option.all_some] at h
      rw [if_pos (not_asked_iff.mpr h)]
      rfl
  case asked =>
    intro s t r els e x asked e1 ht hx h
    change execBurstCollect t r els s = _
    refine (onTile_fitted ht _).trans ?_
    dsimp only
    rw [hx]
    dsimp only
    rw [if_neg (mt not_asked_iff.mp (Bool.eq_false_iff.mp h))]
  case noEntry =>
    intro s t ht hx
    change execBurstEntryComplete t s = _
    refine (onTileM_fitted ht _).trans ?_
    dsimp only
    rw [hx]
    rfl
  case stored =>
    intro s t e x a c1 ht hx
    change execBurstEntryComplete t s = _
    refine (onTileM_fitted ht _).trans ?_
    dsimp only
    rw [hx]

end Sys2Proof.Machine

/-! ## Limits, open-wire tests, the estimator, learned values and balancing (O14)

A register write within its checks, a request past its guards and an event under its condition each have the effect of their
row. -/
namespace Sys2Proof.Machine

/-! ### Limit settings and stale blocks (R175, R220) -/

/-- A commit of limit sets none of which fails its checks. -/
theorem limitCommit_accepted {c : Ctl} {o : Origin} {t w : Nat} (ho : c.mayConfig o = true)
    (hw : anyN 8 (fun k => bit w k && c.limitRange t k) = false) :
    c.limitCommit o t w = (forN 8 (fun k (c : Ctl) => if bit w k then
      { c with limCommit := tabSet c.limCommit (t * 8 + k) ((List.range 8).map (fun j => c.rawWord 5 t (0x100 + k * 0x40 + 4 * j))) }
      else c) c, eOk) := by
  unfold Ctl.limitCommit
  rw [ho, hw]
  rfl

theorem limitSelWrite_accepted {c : Ctl} {o : Origin} (ho : c.mayConfig o = true) (t r w : Nat) :
    c.limitSelWrite o t r w =
      ((c.put t LIMIT_RING_SEL_TEMP_MASK (bitsOf w 16 6) r).put t LIMIT_RING_SEL_SET (w % 8) r, eOk) := by
  unfold Ctl.limitSelWrite
  rw [ho]
  rfl

theorem staleClearWrite_accepted {c : Ctl} {o : Origin} {t w b : Nat} (hb : w % 16384 = b) (ho : c.isSystem o = true)
    (hs : c.flag t RING_BLK_STALE (b / 512) (b % 512) = true) :
    c.staleClearWrite o t w =
      ({ c with staleDue := (t * 16384 + b) :: c.staleDue.filter (fun k => k != t * 16384 + b) }, eOk) := by
  subst hb
  unfold Ctl.staleClearWrite
  dsimp only
  rw [ho, hs]
  rfl

/-! ### The pass of the estimator (R184, R185) -/

/-- The pass of a tile that runs and whose System tasks are not held, up to the age of its frame. -/
theorem estimatorPass_due {s : State} {t : TileId} {n : Nat} (ht : t.val < s.ctl.tiles)
    (hu : s.ctl.running t = true ∧ s.ctl.systemHeld t = false) (hn : (s.ctl.estOf t).next = some n)
    (hb : 0 ≤ frameDiff (s.ctl.get t SMP_LAST_COMPLETE_FRAME) n) :
    exec (.estimatorPass t) s = .next (s.allTo (
      let last := s.ctl.get t SMP_LAST_COMPLETE_FRAME
      let back := frameDiff last n
      if 1198 < back then
        estimatorRun t ((last + 2 ^ 32 - 1198) % 2 ^ 32) last (skipFrames t n ((last + 2 ^ 32 - 1199) % 2 ^ 32)
          (s.mem, s.ctl.event t 0x06 0x2002 0 (leBytes 4 (back - 1198).toNat)))
      else estimatorRun t n last (s.mem, s.ctl))) := by
  change execEstimatorPass t s = _
  refine (onTileM_fitted ht _).trans ?_
  dsimp only
  rw [hn]
  dsimp only
  rw [if_neg (by simp [hu, hb])]

/-! ### `est.profile` (R224, R370) -/

/-- The profile of number `n` taken for a tile: its bytes, and the pass that is to take them over. -/
def profileTo (n : Nat) (b : List Byte) (c : Ctl) (t : Nat) : Ctl :=
  { c with profiles := tabSet c.profiles (t * 8 + n) b
           profDue := (t * 8 + n) :: c.profDue.filter (fun k => k != t * 8 + n) }

theorem profiles_net (n : Nat) (b : List Byte) (tiles : List Nat) (c : Ctl) :
    (tiles.foldl (profileTo n b) c).net = c.net :=
  foldl_keeps (fun x : Ctl => x.net = c.net) (profileTo n b) (fun _ _ h => h) tiles c rfl

/-! ### The commits of learned values (R216, R217) -/

/-- The end of a commit that is under way. -/
theorem lvCommitComplete_committing {s : State} {t : TileId} {cause : Nat} {rest : Option (List Nat)}
    (ht : t.val < s.ctl.tiles) (hc : (s.ctl.estOf t).commit = some (cause, rest)) (failAt : Option (BitVec 32)) (reach : Bool) :
    exec (.lvCommitComplete t failAt reach) s = .next (s.allTo (
      let x : MC := lvCommit s.mem s.ctl t (failAt.map (fun a => a.toNat)) reach
      let y : MC := if s.ctl.img.stage = .activating && formatsDiffer s.mem 0x20 then (legacyCopy t x.1, x.2) else x
      let c0 := if cause = 4 ∨ cause = 7 then forN 4 (fun k (c : Ctl) => c.sched t k) (y.2.backupDone t) else y.2.backupDone t
      let c1 := if cause = 3 ∨ cause = 4 ∨ cause = 6 ∨ cause = 7 then c0.storeOptime else c0
      warnStep (chrysalisStep (y.1, c1)))) := by
  change execLvCommitComplete t failAt reach s = _
  refine (onTileM_fitted ht _).trans ?_
  dsimp only
  rw [hc]
  rfl

/-- Settles O14: each write, request and event passes its checks and takes the branch its hypotheses name. -/
theorem limitsAndEstimationComplete : Obligations.LimitsAndEstimationComplete := by
  refine ⟨?limitCommit, ?limitSel, ?owScheduled, ?owRetest, ?owTest, ?pass, ?passLate, ?fit, ?expiry, ?stale, ?anchor, ?profile,
    ?cellInit, ?backup, ?restore, ?interval, ?noCommit, ?commit, ?heat, ?planner, ?mode, ?manualTimeout, ?manual, ?wireTest⟩
  case limitCommit =>
    intro s t o w hf hr ho hw
    exact access_accepted hf hr (limitCommit_accepted ho hw)
  case limitSel =>
    intro s t o r w hf hr ho
    exact access_accepted hf hr (limitSelWrite_accepted ho t r w.toNat)
  case owScheduled =>
    intro s t r b w ht h
    change execOwScheduledTest t r b w s = _
    refine (onTile_fitted ht _).trans ?_
    rw [if_pos (by simp [h])]
  case owRetest =>
    intro s t r b w ht h
    obtain ⟨hc, hu, hp⟩ := h
    change execOwRetestTimer t r b w s = _
    refine (onTile_fitted ht _).trans ?_
    rw [hc, hu, hp]
    rfl
  case owTest =>
    intro s d q c'
    dsimp only
    intro h hr hl hb hp
    refine cmd_answered h ?_ rfl rfl
    rw [guarded_pass hr hl]
    exact if_neg (not_not.mpr (firstErr_ok (by simp [hb, hp])))
  case pass =>
    intro s t n last ht hu hn hb
    rw [estimatorPass_due ht hu hn hb.1]
    dsimp only
    rw [if_neg (Int.not_lt.mpr hb.2)]
  case passLate =>
    intro s t n last back z ht hu hn hb
    rw [estimatorPass_due ht hu hn (le_of_lt ((by decide : (0 : Int) < 1198).trans hb))]
    dsimp only
    rw [if_pos hb]
  case fit =>
    intro s t r str p x ht h
    obtain ⟨hu, hh, hd⟩ := h
    change execRestFit t r str s = _
    refine (onTileM_fitted ht _).trans ?_
    dsimp only
    rw [hu, hh, hd]
    rfl
  case expiry =>
    intro s t r str p x c1 ht hh hq hg
    change execRestRequestExpiry t r str s = _
    refine (onTileR_fitted ht _).trans ?_
    dsimp only
    rw [hh, hq, hg]
    rfl
  case stale =>
    intro s t o w b hf hr ho hs
    exact access_accepted hf hr (staleClearWrite_accepted rfl ho hs)
  case anchor =>
    intro s d q c'
    dsimp only
    intro h hr hl ha hv
    refine cmd_answered h ?_ rfl rfl
    rw [guarded_pass hr hl]
    exact if_neg (by simp [ha, hv])
  case profile =>
    intro s d q c' c1 b
    dsimp only
    intro h hr hl ht hb ha hp hn hv
    refine cmd_bulk (n := q.arg 2 1) h ?_ rfl ((congrArg (tabFind ·.bulks _) (profiles_net ..)).trans (takeBulk_gone ht))
    rw [guarded_pass hr hl, ht]
    dsimp only
    rw [if_neg (not_not.mpr (firstErr_ok (by simp [hb, ha, hp, hn, hv])))]
    simp only [Eff.names, hl]
    rfl
  case cellInit =>
    intro s d q c'
    dsimp only
    intro h hr hl hb
    refine cmd_answered h ?_ rfl rfl
    rw [guarded_pass hr hl]
    exact if_neg (by simp [hb])
  case backup =>
    intro s d q c'
    dsimp only
    intro h hr hl ha hc
    refine cmd_answered h ?_ rfl rfl
    unfold lvBackup
    rw [guarded_pass hr hl]
    exact if_neg (not_not.mpr (firstErr_ok (by simp [ha, hc])))
  case restore =>
    intro s d q c'
    dsimp only
    intro h hr hl ha hn hs hm
    refine cmd_answered h ?_ rfl rfl
    rw [guarded_pass hr hl]
    have hmode : (c'.get 0 DISP_CTRL_MODE != 1 && c'.get 0 DISP_CTRL_MODE != 2) = false := by
      rcases hm with hm | hm <;> simp [hm]
    exact if_neg (not_not.mpr (firstErr_ok (by simpa [ha, hs, hmode] using hn)))
  case interval =>
    intro s t ht h
    change execLvCommitInterval t s = _
    refine (onTile_fitted ht _).trans ?_
    rw [if_pos (by simp [h])]
  case noCommit =>
    intro s t failAt reach ht hc
    change execLvCommitComplete t failAt reach s = _
    refine (onTileM_fitted ht _).trans ?_
    rw [hc]
    rfl
  case commit =>
    intro s t failAt reach cause rest x y c0 c1 ht hc
    rw [lvCommitComplete_committing ht hc]
    simp only [y, c0, c1, Bool.and_eq_true, decide_eq_true_eq]
    rfl
  case heat =>
    intro s t k n c1 ht h
    obtain ⟨hu, hv, hn⟩ := h
    change execHeatBudgetStale t k s = _
    refine (onTile_fitted ht _).trans ?_
    dsimp only
    rw [hu, hv, hn]
    rfl
  case planner =>
    intro s t f ht h
    obtain ⟨hu, hh, hd⟩ := h
    change execBalancingPlannerRun t s = _
    refine (onTileM_fitted ht _).trans ?_
    rw [if_neg (by simpa [hu, hh] using hd)]
  case mode =>
    intro s d q c'
    dsimp only
    intro h hr hl ha hm hs
    refine cmd_answered h ?_ rfl rfl
    rw [guarded_pass hr hl]
    have hpassed : (q.arg 1 1 != 0 && (c'.named (q.arg 0 1)).any
        (fun t => c'.get t BAL_CTRL_MODE != q.arg 1 1 && !(c'.estOf t).passed)) = false := by
      rcases hs with hs | hs <;> simp [hs]
    exact if_neg (not_not.mpr (firstErr_ok (by simp [ha, hm, hpassed])))
  case manualTimeout =>
    intro s t z ht h
    change execManualTimeout t s = _
    refine (onTileM_fitted ht _).trans ?_
    rw [if_neg (by simp [h])]
    rfl
  case manual =>
    intro s d q c'
    dsimp only
    intro h hr hl hb hd hm hq hj
    refine cmd_answered h ?_ rfl rfl
    rw [guarded_pass hr hl]
    exact if_neg (not_not.mpr (firstErr_ok (by simpa [hb, hd, hm, hq] using hj)))
  case wireTest =>
    intro s d q c'
    dsimp only
    intro h hr hl hb hm hw
    refine cmd_answered h ?_ rfl rfl
    rw [guarded_pass hr hl]
    exact if_neg (not_not.mpr (firstErr_ok (by simp [hb, hm, hw])))

end Sys2Proof.Machine

/-! ## Refused duties (O53)

The checks of BDUTY in their order (R46, R106): one that passes the format, the presence of its block and the range, and fails
the check of the mode, is answered with E_STATE. -/
namespace Sys2Proof.Machine

/-- The code of a list of checks is that of the first one that fails. -/
theorem firstErr_append_failed {l : List (Bool × Nat)} (h : ∀ x ∈ l, x.1 = false) (e : Nat) (l' : List (Bool × Nat)) :
    firstErr (l ++ (true, e) :: l') = e := by
  induction l with
  | nil => rfl
  | cons x l ih =>
    obtain ⟨hx, hl⟩ := List.forall_mem_cons.mp h
    obtain ⟨b, e'⟩ := x
    subst hx
    exact ih hl

/-- BDUTY to a block of the partner's section, or by an Application core outside MANUAL, once format, presence and range have
passed: its one effect is E_STATE in the result register, whatever the checks after it would say (R46, R106, R241). -/
theorem bduty_refused_state {s : State} {t : TileId} {k : CoreId} {d a : Fin 32} {i w v g : Nat} (h : Executes s.ctl t k i)
    (ha : a.val % 2 = 0) (hw : ((s.ctl.task t i).reg a).toNat = w) (hv : ((s.ctl.task t i).reg (a.val + 1)).toNat = v)
    (hf : bitsOf v 7 9 = 0) (hg : s.ctl.targetTile t w = some g)
    (hp : s.ctl.present? g (w % 16384 / 512) (w % 512) = true) (hd : v % 128 ≤ 100)
    (hm : bit w 14 = true ∨ s.ctl.level t k = 0 ∧ s.ctl.get t BAL_CTRL_MODE ≠ 2) :
    exec (.bduty t k d a) s = .next (s.ctlTo (s.ctl.retireCode t i d eState)) := by
  have hpassed : ∀ x ∈ [(bitsOf v 7 9 != 0, eFormat), (!s.ctl.present? g (w % 16384 / 512) (w % 512), eAbsent),
      (decide (100 < v % 128), eRange)], x.1 = false := by
    simp [hf, hp, hd]
  have hstate : (bit w 14 || (s.ctl.level t k == 0 && s.ctl.get t BAL_CTRL_MODE != 2)) = true := by simpa using hm
  have hcode := firstErr_append_failed hpassed eState
  change execBduty t k d a s = _
  refine (onTileR_instr h (by simp [ha])).trans ?_
  dsimp only [List.cons_append, List.nil_append] at hcode
  simp only [hw, hv, hg, hstate, hcode]
  rfl

/-- Settles O53: outside MANUAL the check of the mode refuses the duty of an Application core. -/
theorem applicationBalancingNeedsManual : Obligations.ApplicationBalancingNeedsManual := by
  intro s t k d a i g h ha hl hm hf hg hp hd
  exact bduty_refused_state h ha rfl rfl hf hg hp hd (.inr ⟨hl, hm⟩)

end Sys2Proof.Machine

/-! ## Bank dispatch (O17, O18)

A cycle instant and the events of bank dispatch under the conditions of their rows; then the commands, each past its checks. -/
namespace Sys2Proof.Machine

/-- A commit of a pending string map whose strings pass R15 and which adds to no port a frame above its eight (R15, R147,
R265). -/
theorem smapCommit_accepted {m : Mem} {c : Ctl} {o : Origin} {t r : Nat} (ho : c.mayConfig o = true)
    (hb : c.mapBad m t r = false)
    (hp : anyN 8 (fun p =>
      let has (q : Nat) : Bool := if q = r then anyN 8 (fun i => c.flag t RING_SMAP_PEND_VALID r (24 + i)) else c.has24 t q
      decide (8 < portFrames (c.contEntry t) has p) &&
      decide (portFrames (c.contEntry t) (fun q => c.has24 t q) p < portFrames (c.contEntry t) has p)) = false)
    (he : c.rstate t r ≠ rgEnum) :
    smapCommit m c o t r = ((m, c.setRng t r { c.rng t r with
      mapCommit := some ((List.range 32).map (fun i => c.rawWord 3 t (0x2000 + r * 0x80 + i * 4))) }), eOk) := by
  unfold smapCommit
  rw [ho, Bool.not_true, if_neg Bool.false_ne_true]
  exact if_neg (not_not.mpr (firstErr_ok (by simpa [hb, he] using hp)))

/-- Settles O17: a cycle instant is its meaning, and each event and the map's commit take the branch their hypotheses name. -/
theorem bankDispatchEventsComplete : Obligations.BankDispatchEventsComplete := by
  refine ⟨?cycle, ?ageExpiry, ?exchange, ?ramp, ?release, ?notStarted, ?repeatLimit, ?rest, ?session, ?mapCommit⟩
  case cycle =>
    intro s
    change execDispatchCycle s = _
    exact onModuleM_next s _
  case ageExpiry =>
    intro s hk hm
    change execSetpointAgeExpiry s = _
    refine (onModule_next s _).trans ?_
    rw [if_neg (by simp [hm, Option.isSome_iff_ne_none.mp hk])]
  case exchange =>
    intro s t ht hl
    change execAllocationExchangeTimeout t s = _
    refine (onTile_fitted ht _).trans ?_
    rw [if_neg (Bool.eq_false_iff.mp hl)]
  case ramp =>
    intro s t
    dsimp only
    intro ht hk hx hage
    change execCoordinationRamp t s = _
    refine (onTile_fitted ht _).trans ?_
    dsimp only
    rw [if_neg (by simpa [hk, hx.1, hx.2] using hage)]
  case release =>
    intro s t ht hs
    change execCyclicTxRelease t s = _
    refine (onTile_fitted ht _).trans ?_
    rw [if_pos hs]
  case notStarted =>
    intro s t ht hs
    change execCyclicTxRelease t s = _
    refine (onTile_fitted ht _).trans ?_
    rw [if_neg (Bool.eq_false_iff.mp hs)]
  case repeatLimit =>
    intro s t k
    dsimp only
    intro ht hx hl
    change execRepeatLimitStop t k s = _
    refine (onTile_fitted ht _).trans ?_
    dsimp only
    rw [if_neg (by simpa [hx] using hl)]
  case rest =>
    intro s t r str n at_ ht hf hd
    change execRestEnd t r str s = _
    refine (onTile_fitted ht _).trans ?_
    rw [hf]
    exact congrArg (fun c => Host.Outcome.next (s.ctlTo c)) (if_pos hd)
  case session =>
    intro s t i ht hb hc
    change execSessionEnd t i s = _
    refine (onTile_fitted ht _).trans ?_
    rw [if_pos (by simp [hb, hc])]
  case mapCommit =>
    intro s t o r c1 has n hf hr ho hb hp he
    change execRingSmapCommit t o r s = _
    unfold execRingSmapCommit
    rw [onAccessM_fitted hf, accessM_reached hr, smapCommit_accepted ho hb hp he]
    rfl

/-! ### `bank.setpoint`, `disp.mode`, `disp.schedule` and `disp.perturb` (R248, R251, R252, R264) -/

theorem powerOk_of_range {v : Int} (h : -8000000 ≤ v ∧ v ≤ 8000000) : powerOk v = true := by
  simpa [powerOk] using h

/-- A set-point in FOLLOW: its power in range and its SPSEQ newer than the last. -/
theorem bankSetpoint_follow {q : Req} {c : Ctl} (hr : opRoles.contains q.role = true) (hn : q.args.length = 8)
    (hv : powerOk (q.argInt 4 4) = true) (hm : c.dispModeNow = dmFollow) (hs : c.spNewer (q.arg 0 4) = true) (m : Mem) :
    bankSetpoint q m c = { mem := m, ctl := c.acceptPower (q.arg 0 4) (q.argInt 4 4) } := by
  have hresume : (c.dispModeNow == dmLocal && c.bank.aged && c.flag 0 DISP_CFG_AUTO_RESUME) = false := by simp [hm]
  unfold bankSetpoint
  rw [guarded_pass hr hn, hresume]
  exact if_neg (not_not.mpr (firstErr_ok (by simp [hv, hm, hs])))

/-- `disp.mode` with FOLLOW carries a set-point, checked as one of `bank.setpoint`. -/
theorem dispModeCmd_follow {q : Req} {c : Ctl} (hr : opRoles.contains q.role = true) (hn : q.args.length = 9)
    (hm : q.arg 0 1 = dmFollow) (hv : powerOk (q.argInt 5 4) = true) (hs : c.spNewer (q.arg 1 4) = true) (m : Mem) :
    dispModeCmd q m c =
      let c1 := c.acceptPower (q.arg 1 4) (q.argInt 5 4)
      { mem := m, ctl := Ctl.put { c1 with bank := { c1.bank with mode := some (dmFollow, 0) } } 0 DISP_CTRL_STARTED 1 } := by
  unfold dispModeCmd
  rw [hm, guarded_pass hr (hn.trans (if_pos rfl).symm)]
  exact if_neg (not_not.mpr (firstErr_ok (by simp [hv, hs])))

/-- `disp.mode` with another mode, which for LOCAL needs a schedule. -/
theorem dispModeCmd_other {q : Req} {c : Ctl} (hr : opRoles.contains q.role = true) (hn : q.args.length = 1)
    (hf : q.arg 0 1 ≠ dmFollow) (hm : q.arg 0 1 ≤ 3) (hl : q.arg 0 1 = dmLocal → c.schedule ≠ []) (m : Mem) :
    dispModeCmd q m c =
      { mem := m, ctl := Ctl.put { c with bank := { c.bank with mode := some (q.arg 0 1, 0) } } 0 DISP_CTRL_STARTED 1 } := by
  unfold dispModeCmd
  rw [guarded_pass hr (hn.trans (if_neg hf).symm)]
  dsimp only
  rw [decide_eq_false hf]
  exact if_neg (not_not.mpr (firstErr_ok (by simpa [hm] using hl)))

/-- `disp.perturb` with STOP on a session that is active. -/
theorem dispPerturb_stop {q : Req} {c : Ctl} (hr : engRoles.contains q.role = true) (hn : q.args.length = 2)
    (ht : c.running (q.arg 0 1) = true) (hi : q.arg 1 1 ≤ 3) (ha : c.flag (q.arg 0 1) DISP_PERT_ACTIVE (q.arg 1 1) = true)
    (m : Mem) : dispPerturb q m c = { mem := m, ctl := c.endPert (q.arg 0 1) (q.arg 1 1) true } := by
  unfold dispPerturb
  dsimp only
  rw [if_pos hn, guarded_pass hr hn]
  exact if_neg (not_not.mpr (firstErr_ok (by simp [ht, hi, ha])))

/-- Settles O18: each command is delivered, passes its guards and its checks, and is answered with its effect. -/
theorem bankDispatchCommandsComplete : Obligations.BankDispatchCommandsComplete := by
  refine ⟨?setpoint, ?mode, ?follow, ?schedule, ?stop, ?perturb⟩
  case setpoint =>
    intro s d q c' v h hr hn hv hm hs
    exact cmd_answered h (bankSetpoint_follow hr hn (powerOk_of_range hv) hm hs s.mem) rfl rfl
  case mode =>
    intro s d q c' mode h hr hn hm hl
    exact cmd_answered h (dispModeCmd_other hr hn hm.1 hm.2 hl s.mem) rfl rfl
  case follow =>
    intro s d q c' v c1 h hr hn hm hv hs
    exact cmd_answered h (dispModeCmd_follow hr hn hm (powerOk_of_range hv) hs s.mem) rfl rfl
  case schedule =>
    intro s d q c' b c1 h hr hn ht hb
    refine cmd_bulk (n := q.arg 0 1) h ?_ rfl (takeBulk_gone (c1 := c1) ht)
    dsimp only
    rw [guarded_pass hr hn, ht]
    simp only [Eff.names, hn, hb]
    rfl
  case stop =>
    intro s d q c' h hr hn ht hi
    exact cmd_answered h (dispPerturb_stop hr hn ht hi.1 hi.2 s.mem) rfl rfl
  case perturb =>
    intro s d q c' i
    dsimp only
    intro h hr hn hring hmap hf hrated hpart hfree hslot
    refine cmd_answered h ?_ rfl rfl
    obtain ⟨ha, hb, hva, hvb⟩ := hmap
    obtain ⟨hlow, hhigh, hperiod⟩ := hf
    obtain ⟨hza, hzb, hna, hnb⟩ := hrated
    obtain ⟨hm, hpa, hpb⟩ := hpart
    obtain ⟨hab, hua, hub⟩ := hfree
    unfold dispPerturb
    dsimp only
    rw [if_neg (by simp [hn]), guarded_pass hr hn, hslot]
    exact if_neg (not_not.mpr (firstErr_ok (by
      simp [hring, ha, hb, hva, hvb, hlow, hhigh, hperiod, hza, hzb, hna, hnb, hm, hpa, hpb, hab, hua, hub])))

end Sys2Proof.Machine

/-! ## The safety island (O22, O23)

The events of Beryl under the conditions of their rows; then its PDUs, commands and parameter sessions, each past its checks. -/
namespace Sys2Proof.Machine

/-- Settles O22: each event is its meaning on a fitted tile, in the branch that its hypotheses name. -/
theorem safetyInputsAndOutputsComplete : Obligations.SafetyInputsAndOutputsComplete := by
  refine ⟨?input, ?inputCleared, ?discrepancy, ?button, ?buttonIgnored, ?stuck, ?stuckClear, ?energise, ?readback,
    ?pulseStart, ?pulseEnd, ?mismatch, ?sf5, ?selfTest⟩
  case input =>
    intro s t i a b c1 c2 ht hd
    change execSafetyInputChange t i a b s = _
    refine (onTile_fitted ht _).trans ?_
    dsimp only
    rw [if_pos (by simpa using hd)]
  case inputCleared =>
    intro s t i a b c1 c2 x c3 ht hab hd ho
    obtain ⟨rfl, rfl⟩ := hab
    change execSafetyInputChange t i true true s = _
    refine (onTile_fitted ht _).trans ?_
    dsimp only
    rw [if_neg (by simpa using hd), if_neg (by decide), if_pos (by simpa using ho)]
  case discrepancy =>
    intro s t i x c1 c2 ht hu hx hd
    change execDiscrepancyFault t i s = _
    refine (onTile_fitted ht _).trans ?_
    dsimp only
    rw [if_neg (by simp [hu, hx, hd])]
  case button =>
    intro s t openMs pressMs skewMs gone c1 ht h
    change execResetButtonRelease t openMs pressMs skewMs gone s = _
    refine (onTile_fitted ht _).trans ?_
    dsimp only
    rw [if_pos h]
  case buttonIgnored =>
    intro s t openMs pressMs skewMs gone ht h
    change execResetButtonRelease t openMs pressMs skewMs gone s = _
    refine (onTile_fitted ht _).trans ?_
    dsimp only
    rw [if_neg h]
  case stuck =>
    intro s t a b c1 ht hab hs
    change execResetStuck t a b s = _
    refine (onTile_fitted ht _).trans ?_
    dsimp only
    rw [if_pos (by simp [hab, hs, c1])]
  case stuckClear =>
    intro s t ht
    change execResetStuckClear t s = _
    exact onTile_fitted ht _
  case energise =>
    intro s t o x c1 c2 ht h
    change execOutputEnergiseHs t o s = _
    refine (onTile_fitted ht _).trans ?_
    dsimp only
    rw [if_pos h]
  case readback =>
    intro s t o hs ls x c1 ht h
    change execOutputReadbackCheck t o hs ls s = _
    refine (onTile_fitted ht _).trans ?_
    dsimp only
    rw [if_neg (by simpa using h)]
    simp only [Bool.and_eq_true]
    rfl
  case pulseStart =>
    intro s t o
    dsimp only
    intro ht hon hp hr hd
    change execTestPulseStart t o s = _
    refine (onTile_fitted ht _).trans ?_
    dsimp only
    rw [if_pos (by simpa [hon.1, hon.2, hp, hd] using hr)]
  case pulseEnd =>
    intro s t o hs ls high x c1 badHs badLs ht hp
    change execTestPulseEnd t o hs ls s = _
    refine (onTile_fitted ht _).trans ?_
    dsimp only
    rw [hp]
  case mismatch =>
    intro s t o hs ls
    dsimp only
    intro ht hp hb
    change execReadbackMismatch t o hs ls s = _
    refine (onTile_fitted ht _).trans ?_
    dsimp only
    rw [if_pos (by simpa [hp] using hb)]
  case sf5 =>
    intro s t cause F c1 ht hf
    change execSf5CauseDetect t cause s = _
    refine (onTile_fitted ht _).trans ?_
    exact congrArg (fun c => Host.Outcome.next (s.ctlTo c)) (if_neg (Bool.eq_false_iff.mp hf))
  case selfTest =>
    intro s t copy1 copy2 bad c2 ht hs
    change execBerylSelfTestComplete t copy1 copy2 s = _
    refine (onTile_fitted ht _).trans ?_
    dsimp only
    rw [if_neg (not_not.mpr hs)]

/-! ### Parameter sessions (R314, R317) -/

/-- OPEN, with no session open: the active parameters are copied to the pending area and the CHP session is the owner. -/
theorem berylParamSession_open {q : Req} {c : Ctl} (hr : q.role = .safety) (hn : q.args.length = 2) (ho : q.arg 1 1 = 0)
    (ht : c.running (q.arg 0 1) = true) (hs : c.flag (q.arg 0 1) BERYL_SESSION_OPEN = false) (m : Mem) :
    let t := q.arg 0 1
    let c1 := (c.copyRegs t 0x0A 0x800 0x400 0x180).setBry t { c.bry t with owner := some q.id }
    berylParamSession q m c = { mem := m, ctl := (c1.putSession t true).event t 0x0A 0x6020 } := by
  unfold berylParamSession
  rw [if_neg (not_not.mpr hr)]
  dsimp only
  rw [if_neg (not_not.mpr (firstErr_ok (by simp [hn, ho, ht, hs]))), ho]
  rfl

/-- CONFIRM by the owner with the CRC of the pending area, which breaks no range and names no CONN_ID twice. -/
theorem berylParamSession_confirm {q : Req} {c : Ctl} {crc : Nat} (hr : q.role = .safety) (hn : q.args.length = 6)
    (ho : q.arg 1 1 = 1) (ht : c.running (q.arg 0 1) = true) (hs : c.flag (q.arg 0 1) BERYL_SESSION_OPEN = true)
    (hq : (c.bry (q.arg 0 1)).owner = some q.id) (hc : crc32c 0xFFFFFFFF (c.rawBytes 0x0A (q.arg 0 1) 0x400 96) = crc)
    (he : crc = q.arg 2 4) (hp : c.paramRange (q.arg 0 1) = false) (hd : c.paramConflict (q.arg 0 1) = false) (m : Mem) :
    berylParamSession q m c = { mem := m, ctl := c.confirmParams (q.arg 0 1) crc } := by
  unfold berylParamSession
  rw [if_neg (not_not.mpr hr)]
  dsimp only
  rw [if_neg (not_not.mpr (firstErr_ok (by simp [hn, ho, ht, hs, hq]))), ho]
  rw [hc, if_neg (not_not.mpr (firstErr_ok (by simp [he, hp, hd])))]
  rfl

/-- ABORT by the owner. -/
theorem berylParamSession_abort {q : Req} {c : Ctl} (hr : q.role = .safety) (hn : q.args.length = 2) (ho : q.arg 1 1 = 2)
    (ht : c.running (q.arg 0 1) = true) (hs : c.flag (q.arg 0 1) BERYL_SESSION_OPEN = true)
    (hq : (c.bry (q.arg 0 1)).owner = some q.id) (m : Mem) :
    berylParamSession q m c = { mem := m, ctl := (c.endSession (q.arg 0 1)).event (q.arg 0 1) 0x0A 0x6022 } := by
  unfold berylParamSession
  rw [if_neg (not_not.mpr hr)]
  dsimp only
  rw [if_neg (not_not.mpr (firstErr_ok (by simp [hn, ho, ht, hs, hq]))), ho]
  rfl

/-- The owner of the parameter session writes a word of the pending area, and the time-out starts anew. -/
theorem berylParamWrite_owner {c : Ctl} {q t : Nat} (ht : c.running t = true) (hs : c.flag t BERYL_SESSION_OPEN = true)
    (hq : (c.bry t).owner = some q) (k w : Nat) :
    let c1 := (fieldsAt 0x0A t (0x400 + 4 * k)).foldl (fun (c : Ctl) f => c.put t f.field (f.of w) f.i f.j) c
    c.berylParamWrite (.host .safety q) t k w = ((c1.rephase t 32).put t BERYL_SESSION_REMAIN 600, eOk) := by
  simp [Ctl.berylParamWrite, ht, hs, hq]

/-- Settles O23: the PDUs of a consume connection take the branch of their verdict, the commands pass their checks, and the
write is one of the session's owner. -/
theorem safetyConnectionsComplete : Obligations.SafetyConnectionsComplete := by
  refine ⟨?valid, ?invalid, ?watchdog, ?message, ?reset, ?openSession, ?confirm, ?abort, ?write, ?timeout⟩
  case valid =>
    intro s t n x y c1 c2 c3 ht hx hk hs hv
    change execConsumePduReceive t n s = _
    refine (onTile_fitted ht _).trans ?_
    dsimp only
    rw [hx]
    dsimp only
    rw [if_neg (by simpa [c1, y, hk.1, hk.2] using hs), hv]
    rfl
  case invalid =>
    intro s t n x y c1 ht hx hk hs hv
    change execConsumePduReceive t n s = _
    refine (onTile_fitted ht _).trans ?_
    dsimp only
    rw [hx]
    dsimp only
    rw [if_neg (by simpa [c1, y, hk.1, hk.2] using hs), if_neg hv.2, if_pos hv.1]
  case watchdog =>
    intro s t n x ht h
    obtain ⟨hu, hk, hw⟩ := h
    change execConsumeWatchdogExpiry t n s = _
    refine (onTile_fitted ht _).trans ?_
    dsimp only
    rw [if_pos (by simp [hu, hk, hw, x])]
  case message =>
    intro s d slot c' t n ha hr ho hd hc
    obtain ⟨hown, hv1⟩ := ho
    obtain ⟨hstatus, hlen, ht, hn⟩ := hd
    change execSafetyMessageReceive d s = _
    refine (onModuleM_next s _).trans ?_
    rw [if_neg (by simp [hown]), ha]
    dsimp only
    rw [if_pos ⟨hr, Bool.eq_false_iff.mp hv1, hstatus, hlen, ht, hn, hc⟩]
    rfl
  case reset =>
    intro s d gone q c' n t x c1 c2 y h hr hn ht hf hv
    refine cmd_answered h ?_ rfl rfl
    rw [guarded_pass (by simp [hr]) hn]
    dsimp only
    rw [if_neg (Nat.not_le.mpr ht.1), if_neg ht.2, hf]
    dsimp only
    rw [hv]
    rfl
  case openSession =>
    intro s d q c' t c1 h hr hn hs
    exact cmd_answered h (berylParamSession_open hr hn.1 hn.2 hs.1 hs.2 s.mem) rfl rfl
  case confirm =>
    intro s d q c' t crc h hr hn hs hc hp
    obtain ⟨ht, hu, hq⟩ := hs
    exact cmd_answered h (berylParamSession_confirm hr hn.1 hn.2 ht hu hq rfl hc hp.1 hp.2 s.mem) rfl rfl
  case abort =>
    intro s d q c' t h hr hn hs
    obtain ⟨ht, hu, hq⟩ := hs
    exact cmd_answered h (berylParamSession_abort hr hn.1 hn.2 ht hu hq s.mem) rfl rfl
  case write =>
    intro s t o k w role q c1 ho hr hs
    obtain ⟨rfl, rfl⟩ := ho
    exact access_accepted rfl hr.1 (berylParamWrite_owner hr.2 hs.1 hs.2 k w.toNat)
  case timeout =>
    intro s t ht h
    change execBerylSessionTimeout t s = _
    refine (onTile_fitted ht _).trans ?_
    rw [if_pos h]

end Sys2Proof.Machine

/-! ## Power inputs, lines, start-up and the governor (O30)

The events of the input supply, of MRST_N and EJECT_N, of power failure and of start-up, and those of a tile's power block, each
under the conditions of its row. -/
namespace Sys2Proof.Machine

/-! ### The regulator and the tick (R329 to R335) -/

/-- The regulator's step where a monitor shows too little margin; its top is code 40, 0.85 V. -/
theorem avsStep_tooSmall (c : Ctl) (t : Nat) :
    c.avsStep t .tooSmall =
      if c.get t PWR_AVS_CODE < 40 then c.put t PWR_AVS_CODE (c.get t PWR_AVS_CODE + 1)
      else if c.flag t PWR_STATUS_AVS_LIMIT = true then c
      else (c.put t PWR_STATUS_AVS_LIMIT 1).event t 0x01 0x0105 := rfl

/-- The regulator's step where no monitor shows too little margin, toward a fixed code or down. -/
theorem avsStep_enough {m : Margin} (hm : m ≠ .tooSmall) (c : Ctl) (t : Nat) :
    c.avsStep t m =
      let code := c.get t PWR_AVS_CODE
      let c1 := c.put t PWR_STATUS_AVS_LIMIT 0
      if c.flag t PWR_AVS_FIX_EN = true ∧ code < c.get t PWR_AVS_FIX then c1.put t PWR_AVS_CODE (code + 1)
      else if (c.flag t PWR_AVS_FIX_EN = true ∧ c.get t PWR_AVS_FIX < code) ∨ (c.flag t PWR_AVS_FIX_EN = false ∧ m = .spare) then
        c1.put t PWR_AVS_CODE (code - 1)
      else c1 := by
  unfold Ctl.avsStep
  cases hf : c.flag t PWR_AVS_FIX_EN <;> simp [hm]

/-- The tick of a tile that, after Beryl's part `c0`, is neither off nor held nor in fault. -/
theorem tick_counts {c c0 : Ctl} {t : Nat} (h0 : (if c.tileState t = tsOff then c else c.berylTick t) = c0)
    (h : c0.tileState t ≠ tsOff ∧ c0.tileState t ≠ tsHeld ∧ c0.tileState t ≠ tsFault) (eHw : Nat) (tj : Int) (mw : Nat) :
    c.tick t eHw tj mw =
      let cs := c0.loopSettled t
      let c1 := (Ctl.timelyLock { cs with ticks := tabSet cs.ticks t (tabGet 0 cs.ticks t + 1) } t).tileTimers t
      let c2 := if t = 0 ∧ c1.live 0 = true then c1.moduleTimers else c1
      ((c2.ageStep t).governorTick t eHw tj mw).judge t := by
  unfold Ctl.tick
  rw [h0]
  exact if_neg (by simpa using h)

/-- Settles O30: each event is its meaning on the module or on a fitted tile, in the branch that its hypotheses name. -/
theorem powerEventsComplete : Obligations.PowerEventsComplete := by
  refine ⟨?applied, ?precharge, ?good, ?powerUp, ?removed, ?dipOff, ?dipNone, ?reset, ?resetEject, ?resetNone, ?release,
    ?releaseStandby, ?eject, ?restart, ?warning, ?withdrawn, ?clock, ?avs, ?avsFault, ?tj, ?tick, ?enterRun, ?runTimeout,
    ?ready⟩
  case applied =>
    intro s h
    change execVin48Applied s = _
    refine (onModule_next s _).trans ?_
    rw [if_neg (Bool.eq_false_iff.mp h)]
  case precharge =>
    intro s h
    change execPrechargeComplete s = _
    refine (onModule_next s _).trans ?_
    rw [if_pos h]
  case good =>
    intro s h
    change execInputPowerGood s = _
    refine (onModuleM_next s _).trans ?_
    rw [if_pos (by simp [h])]
  case powerUp =>
    intro s
    change execModulePowerUp s = _
    exact onModuleM_next s _
  case removed =>
    intro s d h
    subst h
    change execVin48Dip .removed s = _
    exact onModuleM_next s _
  case dipOff =>
    intro s d h hm
    subst h
    change execVin48Dip .below30 s = _
    refine (onModuleM_next s _).trans ?_
    rw [if_pos hm]
    rfl
  case dipNone =>
    intro s d h
    change execVin48Dip d s = _
    refine (onModuleM_next s _).trans ?_
    rcases h with rfl | ⟨rfl, hm⟩
    · rfl
    · dsimp only
      rw [if_neg hm]
      rfl
  case reset =>
    intro s hl hm
    change execMrstAssert s = _
    refine (onModuleM_next s _).trans ?_
    rw [if_neg (Bool.eq_false_iff.mp hl), if_pos hm]
  case resetEject =>
    intro s hl hm
    change execMrstAssert s = _
    refine (onModuleM_next s _).trans ?_
    rw [if_neg (Bool.eq_false_iff.mp hl), if_neg (by simp [hm]), if_pos (by simp [hm])]
  case resetNone =>
    intro s hl hm
    change execMrstAssert s = _
    refine (onModuleM_next s _).trans ?_
    rw [if_neg (Bool.eq_false_iff.mp hl), if_neg hm.1, if_neg (by simpa using hm.2)]
    rfl
  case release =>
    intro s hl hm
    change execMrstRelease s = _
    refine (onModuleM_next s _).trans ?_
    rw [if_neg (by simp [hl]), if_pos hm]
  case releaseStandby =>
    intro s hl hm
    change execMrstRelease s = _
    refine (onModuleM_next s _).trans ?_
    rw [if_neg (by simp [hl]), if_neg (by simp [hm]), if_pos hm]
  case eject =>
    intro s hl hm
    change execEjectAssert s = _
    refine (onModuleM_next s _).trans ?_
    rw [if_neg (Bool.eq_false_iff.mp hl), if_pos hm]
  case restart =>
    intro s h
    change execEjectReleaseRestart s = _
    refine (onModuleM_next s _).trans ?_
    rw [if_pos h]
  case warning =>
    intro s c1 h
    change execPowerFailWarning s = _
    refine (onModuleM_next s _).trans ?_
    rw [if_neg (by simp [h])]
  case withdrawn =>
    intro s h
    change execPowerFailWithdrawn s = _
    refine (onModule_next s _).trans ?_
    rw [if_neg (by simp [h])]
  case clock =>
    intro s t clock ht
    change execClockFault t clock s = _
    exact onTile_fitted ht _
  case avs =>
    intro s t m code c1 ht
    change execAvsStep t m s = _
    refine (onTile_fitted ht _).trans (congrArg (fun c => Host.Outcome.next (s.ctlTo c)) ?_)
    by_cases hm : m = .tooSmall
    · subst hm
      rw [avsStep_tooSmall, if_pos rfl]
    · simp only [avsStep_enough hm, if_neg hm, c1, code]
  case avsFault =>
    intro s t ht h
    change execAvsMarginFault t s = _
    refine (onTile_fitted ht _).trans ?_
    rw [if_pos h]
  case tj =>
    intro s t ht
    change execTjFault t s = _
    exact onTile_fitted ht _
  case tick =>
    intro s t eHw tj mw z c0 cs ct c1 c2 ht h
    change execGovernorTick t eHw tj mw s = _
    refine (onTileM_fitted ht _).trans ?_
    exact congrArg (fun c => Host.Outcome.next (s.allTo (z.1, Ctl.sameCycle z.2 c))) (tick_counts rfl h _ _ _)
  case enterRun =>
    intro s t ht h
    change execTileEnterRun t s = _
    refine (onTileM_fitted ht _).trans ?_
    rw [if_pos h]
  case runTimeout =>
    intro s t c1 ht h
    change execTileRunTimeout t s = _
    refine (onTile_fitted ht _).trans ?_
    rw [if_neg (not_not.mpr h)]
  case ready =>
    intro s up z a b d e h hu
    obtain ⟨hd, hup⟩ := h
    have hwait : ¬ ((!s.ctl.pw.readyDue || up.isEmpty || up.any (fun t => !(s.ctl.estOf t).passed ||
        (s.ctl.estOf t).reload.isSome)) = true) := by
      rw [hd, hu, List.isEmpty_eq_false_iff.mpr hup]
      decide
    change execEstimationReady s = _
    exact (onModuleM_next s _).trans (congrArg (fun x => Host.Outcome.next (s.allTo x)) (if_neg hwait))

end Sys2Proof.Machine

/-! ## The time base (O26)

The events of network time, of the strobes and of the counters under the conditions of their rows. -/
namespace Sys2Proof.Machine

/-- In the cycle in which TIME_NS32 wraps, TIME_WRAP counts (R342). -/
theorem ns32Cycle_wraps {c : Ctl} {t : Nat} (h : 2 ^ 32 ≤ c.get t TIME_NS32_VALUE + 4) :
    c.ns32Cycle t = (c.put t TIME_NS32_VALUE (c.get t TIME_NS32_VALUE + 4)).incMod t TIME_WRAP_VALUE := if_pos h

/-- Settles O26: each event of network time is its meaning on the module, each of a strobe or a counter its meaning on a fitted
tile, in the branch that its hypotheses name. -/
theorem timeBaseEventsComplete : Obligations.TimeBaseEventsComplete := by
  refine ⟨?announce, ?sync, ?pdelay, ?syncTimeout, ?holdover, ?announceTimeout, ?strobeKept, ?strobeTaken, ?lost, ?recovered,
    ?wrap, ?noWrap, ?stnNs, ?optimeRead, ?optimeStore⟩
  case announce =>
    intro s path domain gm better c1 h
    change execPtpAnnounceReceive path domain gm better s = _
    refine (onModule_next s _).trans ?_
    rw [if_neg (by simp [h])]
    simp only [Bool.or_eq_true, Bool.not_eq_true']
    rfl
  case sync =>
    intro s path domain offset h hc
    change execPtpSyncReceive path domain offset s = _
    refine (onModule_next s _).trans ?_
    rw [if_pos (by simp [h, hc])]
  case pdelay =>
    intro s path delay hon hen
    change execPtpPdelayExchange path delay s = _
    refine (onModule_next s _).trans ?_
    rw [if_pos (by simp [hon, hen])]
  case syncTimeout =>
    intro s h
    change execPtpSyncTimeout s = _
    refine (onModule_next s _).trans ?_
    rw [if_pos h]
  case holdover =>
    intro s h
    change execHoldoverExpiry s = _
    refine (onModule_next s _).trans ?_
    rw [if_pos h]
  case announceTimeout =>
    intro s path c1 h
    have hmaster : (c1.ptp.chosen && c1.get 0 TIME_STATE_PATH == path.val) = true := by
      rw [Bool.and_eq_true, beq_iff_eq]
      exact h
    change execAnnounceReceiptTimeout path s = _
    exact (onModule_next s _).trans (congrArg (fun c => Host.Outcome.next (s.ctlTo c)) (if_pos hmaster))
  case strobeKept =>
    intro s t sec ms ht h
    change execTimeStrobe t sec ms s = _
    refine (onTile_fitted ht _).trans ?_
    dsimp only
    rcases h with h0 | hcopy
    · rw [if_neg (by simp [h0])]
      rfl
    · rw [if_neg (by simp [Option.isSome_iff_ne_none.mp hcopy])]
      rfl
  case strobeTaken =>
    intro s t sec ms ht hl h0 hnone hstrobe
    change execTimeStrobe t sec ms s = _
    refine (onTile_fitted ht _).trans ?_
    dsimp only
    rw [if_pos (by simp [hl, h0, hnone, hstrobe])]
  case lost =>
    intro s t c1 ht h
    obtain ⟨hl, hs⟩ := h
    change execStrobeLost t s = _
    refine (onTile_fitted ht _).trans ?_
    rw [if_neg (by simp [hl, hs])]
  case recovered =>
    intro s t c1 ht h
    change execStrobeRecovered t s = _
    refine (onTile_fitted ht _).trans ?_
    rw [if_neg (by simp [h])]
  case wrap =>
    intro s t n ht h
    obtain ⟨hc, hn⟩ := h
    change execTimeWrap t s = _
    refine (onTile_fitted ht _).trans ?_
    rw [if_pos (by rw [hc]; exact decide_eq_true hn), ns32Cycle_wraps hn]
  case noWrap =>
    intro s t ht h
    change execTimeWrap t s = _
    refine (onTile_fitted ht _).trans ?_
    rcases h with hc | hn
    · rw [hc, Bool.false_and, if_neg Bool.false_ne_true]
    · rw [decide_eq_false (Nat.not_le.mpr hn), Bool.and_false, if_neg Bool.false_ne_true]
  case stnNs =>
    intro s t ht
    change execTimeStnNsRead t s = _
    exact onTile_fitted ht _
  case optimeRead =>
    intro s t ht
    change execTimeOptimeRead t s = _
    exact onTile_fitted ht _
  case optimeStore =>
    intro s
    change execOperatingTimeStore s = _
    exact onModule_next s _

end Sys2Proof.Machine

/-! ## Datagrams that go no further than CHP (O57, O58)

A datagram that steps 1 to 3 of R360 end, whatever request it carries, has the effect of those steps alone. -/
namespace Sys2Proof.Machine

/-- A datagram of a session in its version whose MAC fails (R360, step 2). -/
theorem receive_authFailed {c : Ctl} {type slot : Nat} {d : Datagram} (ha : c.arrives type d = none)
    (hf : c.formatOk d = true) (hs : c.slotOf d.session.toNat = some slot)
    (hv : (c.session slot).v1 = decide (d.version = 1)) (hm : d.mac ≠ dgMac d type (c.session slot).key) :
    c.receive type d = .done c.authFailed := by
  simp [Ctl.receive, ha, hf, hs, hv, hm.symm]

/-- An authentic one comes to the sequence checks (R360, step 3). -/
theorem receive_sequence {c : Ctl} {type slot : Nat} {d : Datagram} (ha : c.arrives type d = none)
    (hf : c.formatOk d = true) (hs : c.slotOf d.session.toNat = some slot)
    (hv : (c.session slot).v1 = decide (d.version = 1)) (hm : d.mac = dgMac d type (c.session slot).key) :
    c.receive type d = c.sequence slot d := by
  simp [Ctl.receive, ha, hf, hs, hv, hm.symm]

/-- The address of the host noted, the duplicate counted and its stored response sent again (R362). -/
def Ctl.duplicate (c : Ctl) (slot : Nat) (d : Datagram) : Ctl :=
  let x := c.session slot
  let peers := tabSet x.peers d.path d.src
  let c1 := (c.setSession slot { x with peers := peers }).inc 0 NET_ERR_DUP
  match tabFind x.resps d.seq.toNat with
  | some r => c1.sendOn peers (c1.respPaths d.path) r
  | none => c1

/-- A SEQ that has been seen, in the window behind the highest one, is a duplicate (R362). -/
theorem sequence_duplicate {c : Ctl} {slot h : Nat} {d : Datagram} (hh : (c.session slot).high = some h)
    (hle : frameDiff d.seq.toNat h ≤ 0) (hlt : -64 < frameDiff d.seq.toNat h)
    (hs : d.seq.toNat ∈ (c.session slot).seen) : c.sequence slot d = .done (c.duplicate slot d) := by
  unfold Ctl.sequence Ctl.duplicate
  simp only [hh]
  rw [if_neg (Int.not_lt.mpr hle), if_neg (Int.not_le.mpr hlt), if_pos (by simpa using hs)]
  cases tabFind (c.session slot).resps d.seq.toNat <;> rfl

/-- The meaning `F` of a message of a type does nothing where steps 1 to 3 of R360 end the datagram but what they do. -/
def EndsWith (type : Nat) (d : Datagram) (F : State → Host.Outcome State Fault Refusal) : Prop :=
  ∀ s c, s.ctl.receive type d = .done c → F s = .next (s.ctlTo c)

section

variable {d : Datagram}

theorem chpRequest_done {c c1 : Ctl} {type : Nat} (h : c.receive type d = .done c1) (skip : Nat) (tileOk formOk : Bool)
    (f : Req → Mem → Ctl → Eff) (m : Mem) : chpRequest type skip d tileOk formOk f m c = (m, c1) := by
  simp only [chpRequest, h]

theorem request_ends {type skip : Nat} {tileOk formOk : Bool} {f : Req → Mem → Ctl → Eff} :
    EndsWith type d (fun s => s.onModuleM (fun m c => chpRequest type skip d tileOk formOk f m c)) := fun s c h => by
  refine (onModuleM_next s _).trans ?_
  rw [chpRequest_done h]
  rfl

theorem cmd_ends {code : Nat} {f : Req → Mem → Ctl → Eff} : EndsWith 0x03 d (fun s => s.cmd code d f) := request_ends

theorem supervisionReceive_ends : EndsWith 0x07 d (execSupervisionReceive d) := fun s c h => by
  unfold execSupervisionReceive
  rw [onModuleM_next, notHosts, chpRequest_done h]
  simp only [h, ite_self]
  rfl

theorem safetyMessageReceive_ends : EndsWith 0x08 d (execSafetyMessageReceive d) := fun s c h => by
  unfold execSafetyMessageReceive
  rw [onModuleM_next, notHosts, chpRequest_done h]
  simp only [h, ite_self]
  rfl

end

/-- Every message of a session passes steps 1 to 3 of R360 before its own meaning. -/
theorem sessionDatagram_ends {i : Instr} {type : Nat} {d : Datagram} (hi : sessionDatagram i = some (type, d)) :
    EndsWith type d (exec i) := by
  unfold sessionDatagram at hi
  split at hi <;> cases hi
  case h_1 | h_2 | h_3 => exact request_ends
  case h_4 => exact supervisionReceive_ends
  case h_5 => exact safetyMessageReceive_ends
  all_goals exact cmd_ends

/-- Settles O57: the MAC is checked before anything a message of a session asks for. -/
theorem unauthenticatedDatagramsHaveNoEffect : Obligations.UnauthenticatedDatagramsHaveNoEffect := by
  intro i type slot d s hi ha hf hs hv hm
  exact sessionDatagram_ends hi s _ (receive_authFailed ha hf hs hv hm)

/-- Settles O58: a duplicate ends at the sequence checks. -/
theorem repeatedDatagramsAreNotExecuted : Obligations.RepeatedDatagramsAreNotExecuted := by
  intro i type slot h d s hi ha hf hs hv hm hh hle hlt hseen
  exact sessionDatagram_ends hi s _
    ((receive_sequence ha hf hs hv hm).trans (sequence_duplicate hh hle hlt hseen))

end Sys2Proof.Machine

/-! ## Paths, supervision and address lookup of the station network (O27)

Every event of the station network is a change of the control state of the module: in each row it is the branch that the row's
hypotheses name. -/
namespace Sys2Proof.Machine

/-- A command of the module whose change is known. -/
theorem onModule_eq {s : State} {f : Ctl → Ctl} {c : Ctl} (h : f s.ctl = c) : s.onModule f = .next (s.ctlTo c) :=
  h ▸ onModule_next s f

/-! ### Links (R356, R372, R373) -/

/-- The registers of a path whose link has come up at a rate, with nothing sent yet. -/
def Ctl.linkedUp (c : Ctl) (p : Fin 2) (ten : Bool) : Ctl :=
  let c0 := c.put 0 NET_P_LINK 1 p |>.put 0 NET_P_LOS 0 p |>.put 0 NET_P_SPEED (if ten then 2 else 1) p
  { c0 with net := { c0.net with sent := [] } }

/-- A link that comes up at the rate of its medium. -/
theorem pathLinkUp_comesUp {s : State} {p : Fin 2} {ten : Bool} {c : Ctl}
    (h : s.ctl.flag 0 NET_P_SUPPORTED p = true ∧ s.ctl.linkUp p = false ∧ ten = tabGet false s.ctl.net.tenGig p)
    (hc : (let c1 := s.ctl.linkedUp p ten
      if c1.net.supervisor.isSome then c1.flushOut
      else if c1.activePath = 3 then c1.makeActive p
      else if p.val = 0 ∧ ¬ c1.net.bActive then (c1.putPath 1 paStandby).makeActive 0
      else c1.putPath p paStandby) = c) : execPathLinkUp p ten s = .next (s.ctlTo c) := by
  obtain ⟨hsup, hdown, hten⟩ := h
  refine onModule_eq (Eq.trans (if_neg ?_) hc)
  simp [hsup, hdown, hten]

/-- At another rate, on an unsupported medium or where it is up already, no link comes up. -/
theorem pathLinkUp_ignored {s : State} {p : Fin 2} {ten : Bool}
    (h : s.ctl.flag 0 NET_P_SUPPORTED p = false ∨ s.ctl.linkUp p = true ∨ ten ≠ tabGet false s.ctl.net.tenGig p) :
    execPathLinkUp p ten s = .next s := by
  refine onModule_eq (if_pos ?_)
  simpa [or_assoc] using h

/-! ### Address lookup (R357) -/

/-- A message on a path with link, while the module answers. -/
theorem arpNdpEchoReceive_heard {s : State} {p : Fin 2} {l : Lookup} (h : s.ctl.live 0 = true ∧ s.ctl.linkUp p = true) :
    execArpNdpEchoReceive p l s = .next (s.ctlTo (match l with
      | .arpRequest a b mac => if s.ctl.ip NET_P_IP4_EN p ≠ 0 ∧ a.toNat = s.ctl.ip NET_P_IP4_ADDR p then
          (s.ctl.learn p b.toNat mac.toNat).answerLookup p 0 else s.ctl
      | .arpReply a mac => if s.ctl.ip NET_P_IP4_EN p ≠ 0 then s.ctl.learn p a.toNat mac.toNat else s.ctl
      | .ndpSolicit a b mac => if s.ctl.ip NET_P_IP6_EN p ≠ 0 ∧ a.toNat = s.ctl.ip6 p then
          (s.ctl.learn p b.toNat mac.toNat).answerLookup p 1 else s.ctl
      | .ndpAdvert a mac => if s.ctl.ip NET_P_IP6_EN p ≠ 0 then s.ctl.learn p a.toNat mac.toNat else s.ctl
      | .routerAdvert a mac => if s.ctl.ip NET_P_IP6_EN p ≠ 0 then
          Ctl.learn { s.ctl with net := { s.ctl.net with routers := tabSet s.ctl.net.routers p a.toNat } } p a.toNat
            mac.toNat else s.ctl
      | .echo4 a => if s.ctl.ip NET_P_IP4_EN p ≠ 0 ∧ a.toNat = s.ctl.ip NET_P_IP4_ADDR p then s.ctl.answerLookup p 2
          else s.ctl
      | .echo6 a => if s.ctl.ip NET_P_IP6_EN p ≠ 0 ∧ a.toNat = s.ctl.ip6 p then s.ctl.answerLookup p 3 else s.ctl)) := by
  obtain ⟨hlive, hlink⟩ := h
  refine onModule_eq ((if_neg (by simp [hlive, hlink])).trans ?_)
  cases l <;> simp

/-- Settles O27: the links, the supervision of the paths, the timers of sessions and handles, and the address lookup, each in the
branch that its hypotheses name. -/
theorem networkEventsComplete : Obligations.NetworkEventsComplete := by
  refine ⟨?insert, ?upSupervised, ?upFirst, ?upBack, ?upSecond, ?upIgnored, ?linkDown, ?receive, ?send, ?loss, ?resync, ?revert,
    ?idle, ?message, ?handle, ?ipConfig, ?lookup⟩
  case insert =>
    intro s p medium rxPower ok ten c0 c1
    change execSfpInsert p medium rxPower s = _
    exact onModule_next s _
  case upSupervised =>
    intro s p ten c0 c1 h hs
    exact pathLinkUp_comesUp h (if_pos (Option.isSome_iff_ne_none.mpr hs))
  case upFirst =>
    intro s p ten c0 c1 h hs ha
    exact pathLinkUp_comesUp h ((if_neg (by simp [Ctl.linkedUp, hs])).trans (if_pos ha))
  case upBack =>
    intro s p ten c0 c1 h hs ha hp
    refine pathLinkUp_comesUp h ((if_neg (by simp [Ctl.linkedUp, hs])).trans ((if_neg ha).trans (if_pos ⟨hp.1, ?_⟩)))
    exact Bool.eq_false_iff.mp hp.2
  case upSecond =>
    intro s p ten c0 c1 h hs ha hp
    refine pathLinkUp_comesUp h ((if_neg (by simp [Ctl.linkedUp, hs])).trans ((if_neg ha).trans (if_neg ?_)))
    exact fun hb => hp ⟨hb.1, Bool.eq_false_iff.mpr hb.2⟩
  case upIgnored =>
    intro s p ten h
    exact pathLinkUp_ignored h
  case linkDown =>
    intro s p los c1
    change execPathLinkDown p los s = _
    exact onModule_next s _
  case receive =>
    intro s d slot c' ha ho h hs
    obtain ⟨hstatus, htile, hlen, hpath⟩ := h
    change execSupervisionReceive d s = _
    refine (onModuleM_next s _).trans ?_
    simp only [ha]
    rw [if_neg (by simp [ho]), if_neg (by simp [hstatus, htile, hlen]), if_neg (not_not.mpr hpath), if_pos hs]
    rfl
  case send =>
    intro s slot c1 hs
    change execSupervisionSend s = _
    refine onModule_eq ?_
    split
    · next hn => cases hs.symm.trans hn
    · next hn => cases hs.symm.trans hn; rfl
  case loss =>
    intro s p hs
    exact onModule_eq (if_pos (Option.isSome_iff_ne_none.mpr hs))
  case resync =>
    intro s p h
    exact onModule_eq (if_pos h)
  case revert =>
    intro s h
    obtain ⟨hs, hcompat, hpath⟩ := h
    refine onModule_eq (if_pos ?_)
    simp [Option.isSome_iff_ne_none.mpr hs, hcompat, hpath]
  case idle =>
    intro s slot
    change execSessionIdleTimeout slot s = _
    exact onModule_next s _
  case message =>
    intro s sub x t b rest y c1 hf hr
    change execEventMessageSend sub s = _
    refine onModule_eq ?_
    simp only [hf, hr]
    simp only [y, c1, hr]
  case handle =>
    intro s h
    change execBulkHandleTimeout h s = _
    exact onModule_next s _
  case ipConfig =>
    intro s
    change execNetIpConfigApply s = _
    exact onModule_next s _
  case lookup =>
    intro s p l h
    exact arpNdpEchoReceive_heard h

end Sys2Proof.Machine

/-! ## The end of a subscription (O28)

`net.unsubscribe` also takes back the messages of the subscription that still wait in the session's queue (R489). The statement
has the row erase the subscription alone, so a message that waits tells the two apart. -/
namespace Sys2Proof.Machine

/-- A delivered `net.unsubscribe` of a subscription of its own session. -/
theorem netUnsubscribe_answered {s : State} {d : Datagram} {q : Req} {c' : Ctl} {x : Sub} (h : Delivered s.ctl 0x7004 d q c')
    (hr : anyHost.contains q.role = true) (hn : q.args.length = 1) (hf : tabFind c'.net.subs (q.arg 0 1) = some x)
    (hx : x.slot = q.slot) : execNetUnsubscribe d s = .next (s.repliedOk d q (c'.dropSub q.slot (q.arg 0 1))) := by
  refine cmd_answered h ?_ rfl rfl
  simp only [guarded_pass hr hn, hf]
  exact if_neg (not_not.mpr hx)

@[simp] theorem session_setSession (c : Ctl) (slot : Nat) (x : Session) : (c.setSession slot x).session slot = x := by
  simp [Ctl.session, Ctl.setSession]

/-- The queue of the session keeps none of the subscription's messages (R489). -/
theorem dropSub_out (c : Ctl) (slot n : Nat) :
    ((c.dropSub slot n).session slot).out = (c.session slot).out.filter (fun m => m.sub != some n) := by
  simp only [Ctl.dropSub, session_setSession]
  rfl

/-- A RESP that can leave at once leaves the queue of its session as it was. -/
theorem respond_out {c : Ctl} {slot seq path status : Nat} {result : List Byte} (hp : c.respPaths path ≠ []) :
    ((c.respond slot seq path status result).session slot).out = (c.session slot).out := by
  unfold Ctl.respond
  rw [if_neg hp]
  simp only [Ctl.nextMsg, Ctl.sendOn, Ctl.session, Ctl.setSession, tabGet_tabSet_same]

/-- The queue of a session whose request has been answered at once. -/
theorem repliedOk_out {s : State} {d : Datagram} {q : Req} {c : Ctl} (hp : c.respPaths d.path ≠ []) :
    ((s.repliedOk d q c).ctl.session q.slot).out = (c.session q.slot).out := respond_out hp

/-! ### A session with a message of its subscription waiting -/

/-- Subscription 0, of the events of tile 0. -/
def eventSub : Sub := { slot := 0, kind := .event 1 0 0 }

/-- Session 0 of an Engineer, its subscription 0 and an EVENT message of it that waits: tile 0 in RUN, path A has link but is
ACTIVE no more. -/
def eventWaits : Ctl :=
  let c : Ctl := (Ctl.put {} 0 TILE_STATUS_STATE tsRun).put 0 NET_P_LINK 1
  { c with net := { c.net with
      ipActive := [(NET_P_IP4_EN.key 0, 1)]
      sessions := [(0, { open_ := true, role := .engineer, id := 1
                         out := [{ type := 0x05, seq := 0, tile := 0, sub := some 0 }] })]
      subs := [(0, eventSub)] } }

def eventWaitsState : State := { State.reset with ctl := eventWaits }

/-- `net.unsubscribe` of subscription 0, without and with its MAC. -/
def unsubscribeUnsigned : Datagram :=
  { path := 0, src := { ip := 0, port := 0 }, dst := 0, magic := 0x7A5C, version := 2, seq := 1, session := 1, len := 5,
    tile := 0xFF, status := 0, payload := [0x70, 0x04, 0, 0, 0], mac := [] }

def unsubscribe0 : Datagram := { unsubscribeUnsigned with mac := dgMac unsubscribeUnsigned 0x03 [] }

/-- The session once its SEQ is accepted, and the request it makes. -/
def eventWaitsHeard : Ctl :=
  eventWaits.setSession 0 { eventWaits.session 0 with peers := [(0, { ip := 0, port := 0 })], high := some 1, seen := [1] }

def unsubscribeRequest : Req := { role := .engineer, id := 1, slot := 0, seq := 1, v1 := false, args := [0] }

theorem unsubscribe0_formatOk : eventWaits.formatOk unsubscribe0 = true := by
  have hlen : unsubscribe0.mac.length = 16 := by simp [unsubscribe0, dgMac, Config.hmacSha256]
  unfold Ctl.formatOk
  rw [hlen]
  decide

theorem unsubscribe0_delivered : Delivered eventWaits 0x7004 unsubscribe0 unsubscribeRequest eventWaitsHeard where
  ownType := rfl
  accepted := (receive_sequence (slot := 0) (by decide) unsubscribe0_formatOk (by decide) (by decide) rfl).trans rfl
  request := rfl
  status := rfl
  tile := rfl
  long := by decide
  code := by decide
  room := by decide

/-- Refutes O28: of a session with an EVENT message of its subscription waiting, `net.unsubscribe` leaves an empty queue, where
the statement keeps the message. -/
theorem not_networkCommandsComplete : ¬ Obligations.NetworkCommandsComplete := by
  rintro ⟨-, -, -, hunsubscribe, -⟩
  have hsub : tabFind eventWaitsHeard.net.subs (unsubscribeRequest.arg 0 1) = some eventSub := by decide
  have hstated := hunsubscribe eventWaitsState _ _ _ _ unsubscribe0_delivered (by decide) rfl hsub rfl
  have hanswered := netUnsubscribe_answered (s := eventWaitsState) unsubscribe0_delivered (by decide) rfl hsub rfl
  have hstates := Host.Outcome.next.inj (hanswered.symm.trans hstated)
  have hout := congrArg (fun u : State => (u.ctl.session unsubscribeRequest.slot).out) hstates
  dsimp only at hout
  rw [repliedOk_out (by decide), repliedOk_out (by decide), dropSub_out] at hout
  exact absurd hout (by decide)

end Sys2Proof.Machine

/-! ## Register writes, host READ and WRITE, TELEM copies (O31)

A register write and a request of a session whose checks all pass have their effect; the marker of the recorder is the one
register whose word is a setting, so that the copy for the partner goes with it (R439, R453). -/
namespace Sys2Proof.Machine

/-! ### A register write (R42, R45, R439) -/

/-- A write of a register word by an accessor that reaches its tile, with the block's own code. -/
theorem registerWrite_reached {s : State} {t : TileId} {o : Origin} {k : Fin 20} {off : Fin 16384} {w : Word} {x : MC × Nat}
    (hf : accessorFitted s.ctl o = true) (hr : s.ctl.reachedBy o t = true)
    (hx : regWrite s.mem s.ctl o t k (4 * off.val) w.toNat = x) :
    execRegisterWrite t o k off w s = .next (s.allTo (x.1.1, x.1.2.answer o k x.2)) := by
  subst hx
  unfold execRegisterWrite
  rw [onAccessM_fitted hf, accessM_reached hr]

/-- The count of an accessor's violations set leaves its rights as they were. -/
theorem mayConfig_setViolations (c : Ctl) (o : Origin) (n : Nat) : (c.setViolations o n).mayConfig o = c.mayConfig o := by
  cases o with
  | host r q => rfl
  | casda t i =>
    simp only [Ctl.mayConfig, Ctl.isSystem, Ctl.level, Ctl.setViolations]
    rw [get_put_ne]
    simp only [Field.key, CASDA_CORE_LEVEL_SYSTEM, TILE_VIOL_COUNT_COUNT]
    omega

/-- EVT_MARK as a word of its block (R439), and as a setting (R453). -/
theorem fieldsAt_evtMark (t : Nat) :
    fieldsAt 0x0D t 12 = [⟨EVT_MARK_EN, .rw, 0, 0, 31⟩, ⟨EVT_MARK_COUNT, .rw, 0, 0, 0⟩] := rfl

theorem configWord_evtMark (t : TileId) : configWord 0x0D t 12 = true := by
  revert t
  decide

/-- EVT_MARK written: EN and COUNT as the word has them. -/
def Ctl.setEvtMark (c : Ctl) (t w : Nat) : Ctl := (c.put t EVT_MARK_EN (bitsOf w 31 1)).put t EVT_MARK_COUNT (bitsOf w 0 21)

/-- Its block accepts it from an accessor that may configure, with a COUNT in its range. -/
theorem blockWrite_evtMark {m : Mem} {c : Ctl} {o : Origin} {t w : Nat} (ho : c.mayConfig o = true)
    (hw : 1 ≤ bitsOf w 0 21 ∧ bitsOf w 0 21 ≤ 1048576) :
    blockWrite m c o t 0x0D 12 w = ((m, c.setEvtMark t w), eOk) := by
  have hrange : rangeIf (within 1 (bitsOf w 0 21) 1048576) = eOk := by simp [rangeIf, within, hw]
  have hplain : c.writeEvt o t 12 w = (c.setEvtMark t w, eOk) := by
    simp only [Ctl.writeEvt, Ctl.plain, Ctl.plainIf, ho, hrange, fieldsAt_evtMark, Ctl.applyWrite]
    rfl
  exact congrArg (fun x : Ctl × Nat => ((m, x.1), x.2)) hplain

theorem get_setEvtMark_ne (c : Ctl) {t u w i j : Nat} {F : Field} (he : F.key u i j ≠ EVT_MARK_EN.key t)
    (hc : F.key u i j ≠ EVT_MARK_COUNT.key t) : (c.setEvtMark t w).get u F i j = c.get u F i j :=
  (get_put_ne _ _ _ _ _ _ _ _ _ _ hc).trans (get_put_ne _ _ _ _ _ _ _ _ _ _ he)

/-- The marker lies apart from the counts of violations. -/
theorem violations_setEvtMark (c : Ctl) (o : Origin) (t w : Nat) : (c.setEvtMark t w).violations o = c.violations o := by
  cases o with
  | casda u i =>
    apply get_setEvtMark_ne
    · simp only [Field.key, EVT_MARK_EN, TILE_VIOL_COUNT_COUNT]; omega
    · simp only [Field.key, EVT_MARK_COUNT, TILE_VIOL_COUNT_COUNT]; omega
  | host r q =>
    apply get_setEvtMark_ne
    · simp only [Field.key, EVT_MARK_EN, MOD_HOST_VIOL_COUNT_COUNT]; omega
    · simp only [Field.key, EVT_MARK_COUNT, MOD_HOST_VIOL_COUNT_COUNT]; omega

theorem violations_setViolations_zero (c : Ctl) (o : Origin) : (c.setViolations o 0).violations o = 0 := by
  cases o <;> exact get_put_same _ _ _ _ _ _

/-- So a write of EVT_MARK counts no violation, and the setting is copied for the partner. -/
theorem regWrite_evtMark {m : Mem} {c : Ctl} {o : Origin} {t : TileId} {w : Nat} (ho : c.mayConfig o = true)
    (hw : 1 ≤ bitsOf w 0 21 ∧ bitsOf w 0 21 ≤ 1048576) :
    regWrite m c o t 0x0D 12 w = ((m, (c.setEvtMark t w).configCopied t), eOk) := by
  have hv : violates c o (fun c => (blockWrite m c o t 0x0D 12 w).1.2) = false := by
    simp only [violates, blockWrite_evtMark ((mayConfig_setViolations c o 0).trans ho) hw, violations_setEvtMark,
      violations_setViolations_zero]
    rfl
  unfold regWrite
  rw [if_neg (by simp), hv, configWord_evtMark, blockWrite_evtMark ho hw]
  cases hc : c.hasCarry with
  | true => rfl
  | false =>
    have hsame : (c.setEvtMark t w).configCopied t = c.setEvtMark t w := if_neg (by
      rw [show (c.setEvtMark t w).hasCarry = c.hasCarry from rfl, hc]; decide)
    rw [hsame]
    rfl

/-! ### Host READ and WRITE (R44 to R47, R365) -/

/-- A length from 1 to 1,024 bytes. -/
theorem length_inRange {n : Nat} (h : 1 ≤ n ∧ n ≤ 1024) : (n == 0 || decide (1024 < n)) = false := by
  obtain ⟨h1, h2⟩ := h
  simp
  omega

theorem hostCode_inRange {e n : Nat} (he : e = eOk) (hn : 1 ≤ n ∧ n ≤ 1024) :
    firstErr [(e != eOk, e), (n == 0 || decide (1024 < n), eRange)] = eOk :=
  firstErr_ok (by simp [he, length_inRange hn])

section

variable {q : Req} {m : Mem} {c : Ctl}

/-- A READ of memory. -/
theorem hostRead_memory (hg : (regionsOf (q.arg 0 5 % 2 ^ 36) (q.arg 6 2)).any (fun g => !hostGrant q.role false g) = false)
    (he : c.hostCode (q.arg 0 5) (q.arg 6 2) false = eOk) (hn : 1 ≤ q.arg 6 2 ∧ q.arg 6 2 ≤ 1024)
    (hr : rangeOf (q.arg 0 5 % 2 ^ 36) ≠ 2) : hostRead q m c =
      { mem := m, ctl := c, result := c.bytesAt m (q.arg 0 5 / 2 ^ 36) (q.arg 0 5 % 2 ^ 36) (q.arg 6 2) } := by
  unfold hostRead
  dsimp only
  rw [hg, beq_false_of_ne hr, if_neg (by simp), if_neg (not_not.mpr (hostCode_inRange he hn)), if_neg hr]

/-- A READ of registers that a host may read. -/
theorem hostRead_registers (hg : (regionsOf (q.arg 0 5 % 2 ^ 36) (q.arg 6 2)).any (fun g => !hostGrant q.role false g) = false)
    (he : c.hostCode (q.arg 0 5) (q.arg 6 2) false = eOk) (hn : 1 ≤ q.arg 6 2 ∧ q.arg 6 2 ≤ 1024)
    (hr : rangeOf (q.arg 0 5 % 2 ^ 36) = 2)
    (hs : (wordOffs (q.arg 0 5 % 2 ^ 36 / 4 * 4) (q.arg 0 5 % 2 ^ 36 % 4 + q.arg 6 2 + 3)).any
      (fun w => systemRead (q.arg 0 5 / 2 ^ 36) (blockOf w) (blockOff w)) = false) : hostRead q m c =
      let y := hostWords m q.origin (q.arg 0 5 / 2 ^ 36) (wordOffs (q.arg 0 5 % 2 ^ 36) (q.arg 6 2)) c
      { mem := m, ctl := y.2, result := y.1 } := by
  unfold hostRead
  dsimp only
  rw [hg, hs, if_neg (by simp), if_neg (not_not.mpr (hostCode_inRange he hn)), if_pos hr]

/-- A WRITE of memory. -/
theorem hostWrite_memory (hg : (regionsOf (q.arg 0 5 % 2 ^ 36) (q.arg 6 2)).any (fun g => !hostGrant q.role true g) = false)
    (he : c.hostCode (q.arg 0 5) (q.arg 6 2) true = eOk) (hn : 1 ≤ q.arg 6 2 ∧ q.arg 6 2 ≤ 1024)
    (hr : rangeOf (q.arg 0 5 % 2 ^ 36) ≠ 2) : hostWrite q m c =
      { mem := storeAt m (q.arg 0 5 / 2 ^ 36) (q.arg 0 5 % 2 ^ 36) (q.bytes 8 (q.arg 6 2)), ctl := c } := by
  unfold hostWrite
  dsimp only
  rw [hg, beq_false_of_ne hr, if_neg (by simp), if_neg (not_not.mpr (hostCode_inRange he hn)), if_neg (by decide)]

/-- The register words that a WRITE of `n` bytes meets, each with its new value. -/
def writtenWords (q : Req) (n : Nat) : List (Nat × Nat) :=
  (wordOffs (q.arg 0 5 % 2 ^ 36 / 4 * 4) n).map
    (fun v => (v, leNat (((q.bytes 8 (q.arg 6 2)).drop (v - q.arg 0 5 % 2 ^ 36 / 4 * 4)).take 4)))

/-- A WRITE of registers that take every word. -/
theorem hostWrite_registers {y : MC}
    (hg : (regionsOf (q.arg 0 5 % 2 ^ 36) (q.arg 6 2)).any (fun g => !hostGrant q.role true g) = false)
    (hv : (writtenWords q (q.arg 0 5 % 2 ^ 36 % 4 + q.arg 6 2 + 3)).any (fun v => violates c q.origin (fun c =>
      (regWrite m c q.origin (q.arg 0 5 / 2 ^ 36) (blockOf v.1) (blockOff v.1) v.2).1.2)) = false)
    (he : c.hostCode (q.arg 0 5) (q.arg 6 2) true = eOk) (hn : 1 ≤ q.arg 6 2 ∧ q.arg 6 2 ≤ 1024)
    (hr : rangeOf (q.arg 0 5 % 2 ^ 36) = 2)
    (hy : writeWords q.origin (q.arg 0 5 / 2 ^ 36) (writtenWords q (q.arg 6 2)) ((m, c), eOk) = (y, eOk)) :
    hostWrite q m c = { mem := y.1, ctl := y.2 } := by
  have hreg : (rangeOf (q.arg 0 5 % 2 ^ 36) == 2) = true := beq_iff_eq.mpr hr
  unfold writtenWords at hv hy
  unfold hostWrite
  dsimp only
  rw [hg, hv, hreg, if_neg (by decide), if_neg (not_not.mpr (hostCode_inRange he hn)), if_pos rfl, hy]
  rfl

end

/-- Settles O31: a register write reaches its block, a READ or WRITE passes its checks, and a TELEM copy finds its subscription
due. -/
theorem registerAndHostAccessComplete : Obligations.RegisterAndHostAccessComplete := by
  refine ⟨?write, ?evtMark, ?readMemory, ?readRegisters, ?writeMemory, ?writeRegisters, ?telem⟩
  case write =>
    intro s t o k off w x hf hr hx _
    have h := registerWrite_reached (k := k) (off := off) (w := w) hf hr rfl
    exact hx ▸ h
  case evtMark =>
    intro s t o k off w hf hr ho hk hw
    obtain ⟨hk, hoff⟩ := hk
    have hx : regWrite s.mem s.ctl o t k (4 * off.val) w.toNat
        = ((s.mem, (s.ctl.setEvtMark t w.toNat).configCopied t), eOk) := by
      rw [hk, hoff]
      exact regWrite_evtMark ho hw
    refine (registerWrite_reached hf hr hx).trans ?_
    rw [hk]
    rfl
  case readMemory =>
    intro s d slot c' x q a n off ha h hw hg he h1 hr
    obtain ⟨ho, hs, ht, hl⟩ := h
    exact request_answered ha ho hs ht (by simp [hl]) hw rfl (hostRead_memory hg he h1 hr) rfl rfl
  case readRegisters =>
    intro s d slot c' x q a n off y ha h hw hg he h1 hr hsys
    obtain ⟨ho, hs, ht, hl⟩ := h
    exact request_answered ha ho hs ht (by simp [hl]) hw rfl (hostRead_registers hg he h1 hr hsys) rfl rfl
  case writeMemory =>
    intro s d slot c' x q a n off ha h hw hg hr he h1
    obtain ⟨ho, hs, ht, h8, hl⟩ := h
    exact request_answered ha ho hs ht (by simp [h8, ← hl]) hw rfl (hostWrite_memory hg he h1 hr) rfl rfl
  case writeRegisters =>
    intro s d slot c' x q a n off data words y ha h hw hg hr hv he h1 hy
    obtain ⟨ho, hs, ht, h8, hl⟩ := h
    exact request_answered ha ho hs ht (by simp [h8, ← hl]) hw rfl
      (hostWrite_registers hg hv he h1 hr (Prod.ext rfl hy)) rfl rfl
  case telem =>
    intro s sub ⟨slot, kind, records, count, due, frame⟩ tile trigger decim ranges c1 y z c2 hf hk hd
    cases hk
    cases hd
    change execTelemCopy sub s = _
    refine (onModuleR_next s _).trans ?_
    simp only [hf]
    rfl

end Sys2Proof.Machine

/-! ## The queue of waiting commands (O35, O36, O38)

Every meaning is one of the shared outcomes of Ops.lean, and each of these replaces memories and control state alone. -/
namespace Sys2Proof.Machine

/-- The meaning `F` of a command hands the queue of waiting commands back as it was. -/
def KeepsQueue (F : State → Host.Outcome State Fault Refusal) : Prop := ∀ s u, F s = .next u → u.pending = s.pending

section

variable {t : Nat} {o : Origin}

theorem onTileM_keepsQueue {f : Mem → Ctl → Mem × Ctl} : KeepsQueue (fun s => s.onTileM t f) := fun s u h => by
  dsimp only [State.onTileM] at h
  split at h <;> cases h
  rfl

theorem onModuleM_keepsQueue {f : Mem → Ctl → Mem × Ctl} : KeepsQueue (fun s => s.onModuleM f) := fun _ _ h => by
  cases h
  rfl

theorem onAccessM_keepsQueue {f : Mem → Ctl → Mem × Ctl} : KeepsQueue (fun s => s.onAccessM o f) := by
  cases o with
  | casda u i => exact onTileM_keepsQueue
  | host r q => exact onModuleM_keepsQueue

/-! The outcomes that touch no memory are those with an effect that hands the memories back. -/

theorem onTileR_keepsQueue {f : Mem → Ctl → Ctl} : KeepsQueue (fun s => s.onTileR t f) :=
  onTileM_keepsQueue (f := fun m c => (m, f m c))

theorem onTile_keepsQueue {f : Ctl → Ctl} : KeepsQueue (fun s => s.onTile t f) := onTileR_keepsQueue (f := fun _ => f)

theorem onBlk_keepsQueue {r : RingId} {b : BlockId} {t : TileId} {f : Blk → Blk} : KeepsQueue (fun s => s.onBlk t r b f) :=
  onTile_keepsQueue

theorem onFrame_keepsQueue {r : RingId} {b : BlockId} {t : TileId} {fr : RingFrame} {type cmd : Nat} {f : Blk → Blk} :
    KeepsQueue (fun s => s.onFrame t r b fr type cmd f) := onTile_keepsQueue

theorem onModuleR_keepsQueue {f : Mem → Ctl → Ctl} : KeepsQueue (fun s => s.onModuleR f) :=
  onModuleM_keepsQueue (f := fun m c => (m, f m c))

theorem onModule_keepsQueue {f : Ctl → Ctl} : KeepsQueue (fun s => s.onModule f) := onModuleR_keepsQueue (f := fun _ => f)

theorem onAccess_keepsQueue {f : Ctl → Ctl} : KeepsQueue (fun s => s.onAccess o f) := by
  cases o with
  | casda u i => exact onTile_keepsQueue
  | host r q => exact onModule_keepsQueue

theorem cmd_keepsQueue {code : Nat} {d : Datagram} {f : Req → Mem → Ctl → Eff} : KeepsQueue (fun s => s.cmd code d f) :=
  onModuleM_keepsQueue

end

/-- `net.open` is a message of its own in no session, and a CMD of the wrong form in one. -/
theorem netOpen_keepsQueue {d : Datagram} : KeepsQueue (execNetOpen d) := fun s u h => by
  unfold execNetOpen at h
  split at h
  · exact onModule_keepsQueue s u h
  · exact cmd_keepsQueue s u h

/-! ### Requests held through an activation pause (R451) -/

/-- A held CMD is a CMD or `net.open`, whatever its CODE. -/
theorem heldCmd_keepsQueue {code : Nat} {d : Datagram} : KeepsQueue (heldCmd code d) := fun s u h => by
  unfold heldCmd at h
  split at h
  case h_22 => exact cmd_keepsQueue { s with ctl := s.ctl.free.2 } u h
  case h_24 => exact netOpen_keepsQueue s u h
  all_goals exact cmd_keepsQueue s u h

theorem heldOne_keepsQueue {type : Nat} {d : Datagram} : KeepsQueue (heldOne type d) := fun s u h => by
  unfold heldOne at h
  split at h
  case h_4 =>
    split at h
    · exact netOpen_keepsQueue s u h
    · exact heldCmd_keepsQueue s u h
  all_goals exact onModuleM_keepsQueue s u h

theorem heldNext_pending (x : State × List Sent) (e : Nat × Datagram) : (heldNext x e).1.pending = x.1.pending := by
  unfold heldNext
  split
  · next u h =>
    exact heldOne_keepsQueue { x.1 with ctl := { x.1.ctl with net := { x.1.ctl.net with sent := [] } } } u h
  · rfl

/-- The held requests are answered one after another, each on the queue as it is. -/
theorem answerHeld_pending (s : State) : (answerHeld s).pending = s.pending := by
  unfold answerHeld
  split
  · rfl
  · exact foldl_keeps (fun x : State × List Sent => x.1.pending = s.pending) heldNext
      (fun x e h => (heldNext_pending x e).trans h) _ _ rfl

theorem imageRestartDone_keepsQueue : KeepsQueue execImageRestartDone := fun s u h => by
  unfold execImageRestartDone at h
  split at h
  · cases h
    exact answerHeld_pending _
  · exact onModuleM_keepsQueue s u h

/-! ### Every command -/

theorem exec_keepsQueue (i : Instr) : KeepsQueue (exec i) := by
  cases i with
  | netOpen => exact netOpen_keepsQueue
  | imageRestartDone => exact imageRestartDone_keepsQueue
  | aluOp | aluImmediate | branch | jump | jal | jalr | nop | mfs | mts | tend | tret | trig | coreHalted | wdogExpiry |
    casdaTimerExpiry | vectorArith | vectorConvert | vectorCompare | predicateLogic | vsel | vbcast | vext | vlane |
    pfroms | ptos | vectorReduce | yield | trap | fence | fenceDone | budget | vclaim | vrelease | vstat | ns32 | station
    | frame | optime | sfetch | slast | lshw | lcommit | dwait | fwait | iwait | assignTimeout | rejoinAttempt |
    toneLossReport | toneRestored | beaconReceive | beaconTimeout | collectLaunch | retryPassLaunch | dutySlotSend |
    quietLaunch | readStatus | burstSubInstant | burstCollect | owScheduledTest | owRetestTimer | lvCommitInterval |
    heatBudgetStale | allocationExchangeTimeout | coordinationRamp | cyclicTxRelease | repeatLimitStop | restEnd |
    sessionEnd | loopOutputFrameSend | traceDone | safetyInputChange | discrepancyFault | resetButtonRelease | resetStuck
    | outputEnergiseHs | outputReadbackCheck | testPulseStart | testPulseEnd | readbackMismatch | consumePduReceive |
    consumeWatchdogExpiry | producePduSend | sf5CauseDetect | berylSelfTestComplete | berylSessionTimeout | clockFault |
    avsStep | avsMarginFault | tjFault | timeStrobe | strobeLost | strobeRecovered | timeWrap | timeStnNsRead |
    timeOptimeRead | canSyncLaunch | canBusJoin | canRecoveryComplete | canDetectDwell | canDetectEnd | canTxComplete |
    canTxError | canFrameReceive | canRxError | tileRunTimeout | resetStuckClear | blockPowerCycle | beaconSend =>
    unfold exec
    exact onTile_keepsQueue
  | blockConversion | blockAuthReady | openTestSinkDone | shipStateExit | bleedCycleStart | bleedOnTimeEnd |
    bleedWatchdogExpiry | blockComparatorTrip | blockComparatorClear =>
    unfold exec
    exact onBlk_keepsQueue
  | blockSyncReceive | assign | collect | retry | openTest | readId | setThr | lockThr | readThr | challenge | authRead
    | setRole | setPos | burst | ping | setDuty | quiet | ship =>
    unfold exec
    exact onFrame_keepsQueue
  | load | vlds | vldg | rwait | bduty | dqueue | restRequestExpiry =>
    unfold exec
    exact onTileR_keepsQueue
  | store | amo | vsts | vstx | veccTrap | rpost | sfetchDone | emit | ringLinkLock | ringLinkLoss | assignAtTail |
    enumStepTimeout | breakLocated | carriedBreakLocate | missingCountReenum | sampleResponseReceive | ringSweepEnd |
    ringTxLaunch | ringTxResponse | ringTxRetryTimeout | frameComplete | burstEntryComplete | estimatorPass | restFit |
    lvCommitComplete | balancingPlannerRun | manualTimeout | loopSampleBoundary | loopHoldTimeExpiry | governorTick |
    dmaJobComplete | dmaBusError | dmaAutoResume | eventRecordAccept | eventTailWriteDone | tileEnterRun |
    loopOffChannelTransfer =>
    unfold exec
    exact onTileM_keepsQueue
  | setpointAgeExpiry | wakeComparatorArm | chrysalisWake | ptpAnnounceReceive | ptpSyncReceive | ptpPdelayExchange |
    ptpSyncTimeout | holdoverExpiry | supervisionSend | pathSupervisionLoss | pathResyncDone | pathCompatRevert |
    pathLinkUp | pathLinkDown | sfpInsert | sessionIdleTimeout | eventMessageSend | bulkHandleTimeout | netIpConfigApply |
    twbStatusRefresh | twbTargetTimeout | twbBusFree | twbJobStart | twbArbitrationLoss | twbJobEnd | rollingStepStart |
    rollingStepTimeout | confirmWindowExpiry | vin48Applied | prechargeComplete | powerFailWithdrawn | operatingTimeStore
    | announceReceiptTimeout | arpNdpEchoReceive =>
    unfold exec
    exact onModule_keepsQueue
  | telemCopy =>
    unfold exec
    exact onModuleR_keepsQueue
  | hostRead | hostWrite | frameInstant | dispatchCycle | standbyPowerOff | chrysalisInputSwitchOpen | standbyWakeTime |
    chpBulkReceive | supervisionReceive | safetyMessageReceive | twbTargetWrite | twbTargetRead | sidebandGo | sbIp4 |
    sbModuleReset | imgVerifyDone | activationCommitsDone | modulePowerUp | inputPowerGood | estimationReady | mrstAssert
    | mrstRelease | ejectAssert | shutdownCommitDone | ejectReleaseRestart | powerFailWarning | vin48Dip | smpOwTest |
    estAnchorRequest | estProfile | estCellInit | lvBackup | lvRestore | balMode | balManual | balWireTest | bankSetpoint
    | dispMode | dispSchedule | dispPerturb | dispPerturbStop | loopMode | berylReset | berylParamOpen | berylParamConfirm
    | berylParamAbort | modeStandby | modeChrysalis | modeRun | netClose | netSubscribe | netUnsubscribe | netBulkOpen |
    netSupervise | netSuperviseRelease | netKey | ringEnumerate | ringMode | ringInventoryWrite | ringInventoryAdopt |
    ringInventoryClear | ringTrust | imgBegin | imgChunk | imgVerify | imgActivate | imgConfirm =>
    unfold exec
    exact onModuleM_keepsQueue
  | taskStart | taskStop | taskTrigger | taskCfgWrite | coreHalt | coreResume | wdogEnable | wdogKick | casdaTimerWrite
    | mboxPost | mboxPop | mboxCfgWrite | irqRouteWrite | framePeriodNextWrite | burstListCommit | limitCommitWrite |
    limitRingSelWrite | estStaleClear | loopCommitWrite | loopShadowStore | loopInputSoftWrite | gainTableWrite | traceArm
    | traceStop | traceForce | berylParamWrite | followupSend | canInitSet | canInitClear | canRecoverWrite |
    canDetectStart | canAdopt | canTxreq | canTxcancel | canRxPop | twbJobGo | evtRptrWrite | evtClassWrite |
    codeTableWrite | carryReadyWrite =>
    unfold exec
    exact onAccess_keepsQueue
  | registerWrite | tileReset | tileHold | tileHoldRelease | taskKill | ringCtrlEnum | ringSmapCommit | dmaRecover |
    dmaChannelDisable | dmaChannelEnable | imgCtrlConfirm | selfcheckPass | selfcheckFail =>
    unfold exec
    exact onAccessM_keepsQueue

/-- Settles O38: a meaning hands the queue back. -/
theorem commandsLeaveTheQueue : Obligations.CommandsLeaveTheQueue := exec_keepsQueue

/-- Settles O35: the front command leaves the queue as its meaning begins. -/
theorem stepRunsTheFrontCommand : Obligations.StepRunsTheFrontCommand := by
  intro i rest s
  rfl

/-- Settles O36: an empty queue holds no command, so a cycle passes. -/
theorem anIdleStepPassesTime : Obligations.AnIdleStepPassesTime := by
  intro s h
  unfold step
  rw [h]

end Sys2Proof.Machine

/-! ## A module whose tile 0 is down (O56)

The check of R469 comes before every other check of a datagram. -/
namespace Sys2Proof.Machine

theorem receive_deaf {c : Ctl} {type : Nat} {d : Datagram} (h : c.deaf type d = true) : c.receive type d = .done c := by
  have ha : c.arrives type d = some c := if_pos (by simp [h])
  simp only [Ctl.receive, ha]

theorem deaf_of_not_live {c : Ctl} (h : c.live 0 = false) (type : Nat) (d : Datagram) : c.deaf type d = true := by
  simp [Ctl.deaf, h]

/-- Settles O56: the datagram ends at the path, which changes nothing. -/
theorem deafModuleAnswersNothing : Obligations.DeafModuleAnswersNothing := by
  intro i type d s hi h
  exact sessionDatagram_ends hi s _ (receive_deaf (deaf_of_not_live h type d))

end Sys2Proof.Machine

/-! ## What an interrupt and an event leave alone

An interrupt triggers a task and may run the scheduler; an event is presented to the recorder. Both write task contexts, their own
fields and the recorder's queues; a reading of the control state that meets none of these is the same after them. -/
namespace Sys2Proof.Machine

/-- The bit of its word at which a field lies is read off its key. -/
theorem key_mod (F : Field) (t i j : Nat) : F.key t i j % 32 = F.lo % 32 := by
  unfold Field.key
  omega

/-- Fields that lie at different bits of their words are different fields. -/
theorem get_put_lo_ne {F G : Field} (h : F.lo % 32 ≠ G.lo % 32) (c : Ctl) (t u v i j p q : Nat) :
    (c.put t F v i j).get u G p q = c.get u G p q :=
  get_put_ne _ _ _ _ _ _ _ _ _ _ fun hk => h (by rw [← key_mod F t i j, ← key_mod G u p q, hk])

/-- A reading `φ` of the control state that sees no task context, no field but at bit 29 of its word, and none of the recorder's
queues. (The port state of CAN_STATUS lies at bit 29, and the scheduler writes no such field.) -/
structure Quiet {α : Type} (φ : Ctl → α) : Prop where
  put : ∀ c t F v i j, F.lo % 32 ≠ 29 → φ (c.put t F v i j) = φ c
  setTask : ∀ c t i k, φ (c.setTask t i k) = φ c
  stamp : ∀ c n, φ { c with stamp := n } = φ c
  estGated : ∀ c l, φ { c with estGated := l } = φ c
  presented : ∀ c l, φ { c with presented := l } = φ c
  withheld : ∀ c l, φ { c with withheld := l } = φ c

namespace Quiet

variable {α : Type} {φ : Ctl → α}

theorem present (h : Quiet φ) (c : Ctl) (t : Nat) (p : Presented) : φ (c.present t p) = φ c := by
  unfold Ctl.present
  split
  · rfl
  dsimp only
  split
  · exact (h.put _ _ EVT_COUNT_SUPPRESSED _ _ _ (by decide)).trans (h.withheld _ _)
  · exact h.presented _ _

theorem event (h : Quiet φ) (c : Ctl) (t k code cell : Nat) (payload : List Byte) : φ (c.event t k code cell payload) = φ c :=
  h.present c t _

theorem makeReady (h : Quiet φ) (c : Ctl) (t i : Nat) : φ (c.makeReady t i) = φ c :=
  (h.stamp _ _).trans ((h.setTask _ _ _ _).trans (h.put _ _ TASK_STATE_STATE _ _ _ (by decide)))

theorem activate (h : Quiet φ) (c : Ctl) (t i src : Nat) (late : Bool) : φ (c.activate t i src late) = φ c :=
  (h.makeReady _ _ _).trans ((h.put _ _ TASK_STAT_ACTIVATIONS _ _ _ (by decide)).trans
    ((h.put _ _ TASK_STATE_WAIT_ON _ _ _ (by decide)).trans (h.setTask _ _ _ _)))

theorem enter (h : Quiet φ) (c : Ctl) (t i : Nat) : φ (c.enter t i) = φ c :=
  (h.setTask _ _ _ _).trans ((h.put _ _ TASK_STATE_GATED _ _ _ (by decide)).trans
    (h.put _ _ TASK_STATE_STATE _ _ _ (by decide)))

theorem gate (h : Quiet φ) (c : Ctl) (t i : Nat) : φ (c.gate t i) = φ c := by
  have hg : φ ((c.put t TASK_STATE_GATED 1 i).inc t PWR_COUNT_GATED) = φ c :=
    (h.put _ _ PWR_COUNT_GATED _ _ _ (by decide)).trans (h.put _ _ TASK_STATE_GATED _ _ _ (by decide))
  unfold Ctl.gate
  dsimp only
  split
  · exact (h.estGated _ _).trans hg
  · exact hg

theorem preempt (h : Quiet φ) (c : Ctl) (t i : Nat) : φ (c.preempt t i) = φ c := by
  unfold Ctl.preempt
  dsimp only
  split
  · exact (h.put _ _ TASK_STATE_ACCESS _ _ _ (by decide)).trans (h.makeReady c t i)
  · exact h.makeReady c t i

theorem grantTask (h : Quiet φ) {c d : Ctl} {t i : Nat} (hd : c.grantTask t i = some d) : φ d = φ c := by
  unfold Ctl.grantTask at hd
  dsimp only at hd
  split at hd
  · cases hd
    rfl
  · split at hd <;> cases hd
    exact (h.setTask _ _ _ _).trans (h.put _ _ PWR_BUCKET_B _ _ _ (by decide))

theorem pick (h : Quiet φ) (c : Ctl) (t : Nat) (run : Option Nat) (l : List Nat) : φ (c.pick t run l) = φ c := by
  induction l generalizing c with
  | nil => rfl
  | cons i r ih =>
    unfold Ctl.pick
    split
    · split
      · next d hd =>
        refine (h.enter _ _ _).trans (Eq.trans ?_ (h.grantTask hd))
        cases run with
        | none => rfl
        | some j => exact h.preempt d t j
      · exact (ih _).trans (h.gate c t i)
    · rfl

theorem sched (h : Quiet φ) (c : Ctl) (t k : Nat) (again : Bool) : φ (c.sched t k again) = φ c := by
  unfold Ctl.sched
  split
  · rfl
  · exact h.pick c t _ _

theorem trigger (h : Quiet φ) (c : Ctl) (t i src : Nat) (fixed : Bool) : φ (c.trigger t i src fixed) = φ c := by
  have hlost : φ (c.inc t TASK_STAT_LOST_TRIG i) = φ c := h.put _ _ TASK_STAT_LOST_TRIG _ _ _ (by decide)
  unfold Ctl.trigger
  dsimp only
  split
  · rfl
  split
  · exact hlost
  split
  · exact (h.sched _ _ _ _).trans (h.activate c t i src _)
  split
  · exact hlost
  · exact (h.setTask _ _ _ _).trans (h.put _ _ TASK_STATE_PENDING _ _ _ (by decide))

theorem irq (h : Quiet φ) (c : Ctl) (t n : Nat) : φ (c.irq t n) = φ c := by
  unfold Ctl.irq
  split
  · exact h.trigger ..
  · rfl

theorem irqAll (h : Quiet φ) (c : Ctl) (n : Nat) : φ (c.irqAll n) = φ c :=
  forN_keeps (fun x : Ctl => φ x = φ c) _ (fun t x hx => (h.irq x t n).trans hx) _ _ rfl

end Quiet

end Sys2Proof.Machine

/-! ## A command whose change is known

As `onModule_eq` says of the module: the outcome of a command on a fitted tile, or of one that may store, once its change is known. -/
namespace Sys2Proof.Machine

theorem onTile_eq {s : State} {t : Nat} {f : Ctl → Ctl} {c : Ctl} (ht : t < s.ctl.tiles) (h : f s.ctl = c) :
    s.onTile t f = .next (s.ctlTo c) := h ▸ onTile_fitted ht f

theorem onTileM_eq {s : State} {t : Nat} {f : Mem → Ctl → Mem × Ctl} {x : Mem × Ctl} (ht : t < s.ctl.tiles)
    (h : f s.mem s.ctl = x) : s.onTileM t f = .next (s.allTo x) := h ▸ onTileM_fitted ht f

theorem onModuleM_eq {s : State} {f : Mem → Ctl → Mem × Ctl} {x : Mem × Ctl} (h : f s.mem s.ctl = x) :
    s.onModuleM f = .next (s.allTo x) := h ▸ onModuleM_next s f

/-- One that may store and hands the memories back. -/
theorem onTileM_ctl {s : State} {t : Nat} {f : Mem → Ctl → Mem × Ctl} {c : Ctl} (ht : t < s.ctl.tiles)
    (h : f s.mem s.ctl = (s.mem, c)) : s.onTileM t f = .next (s.ctlTo c) := onTileM_eq ht h

theorem onModuleM_ctl {s : State} {f : Mem → Ctl → Mem × Ctl} {c : Ctl} (h : f s.mem s.ctl = (s.mem, c)) :
    s.onModuleM f = .next (s.ctlTo c) := onModuleM_eq h

/-- An access that may write memory, to a block of a tile the accessor reaches, which its register accepts. -/
theorem accessM_accepted {s : State} {o : Origin} {t blk : Nat} {f : Mem → Ctl → MC × Nat} {x : MC}
    (hf : accessorFitted s.ctl o = true) (hr : s.ctl.reachedBy o t = true) (he : f s.mem s.ctl = (x, eOk)) :
    s.onAccessM o (fun m c => accessM m c o t blk f) = .next (s.allTo (x.1, x.2.answer o blk eOk)) := by
  rw [onAccessM_fitted hf, accessM_reached hr, he]

/-- One that hands the memories back. -/
theorem accessM_ctl {s : State} {o : Origin} {t blk : Nat} {f : Mem → Ctl → MC × Nat} {c : Ctl}
    (hf : accessorFitted s.ctl o = true) (hr : s.ctl.reachedBy o t = true) (he : f s.mem s.ctl = ((s.mem, c), eOk)) :
    s.onAccessM o (fun m c => accessM m c o t blk f) = .next (s.accessed o blk c) := accessM_accepted hf hr he

end Sys2Proof.Machine

/-! ## Confirmation of a trial (O54)

The confirmation writes the boot record once; the stage and the event that follow it leave the record alone. -/
namespace Sys2Proof.Machine

theorem quiet_img : Quiet Ctl.img where
  put _ _ _ _ _ _ _ := rfl
  setTask _ _ _ _ := rfl
  stamp _ _ := rfl
  estGated _ _ := rfl
  presented _ _ := rfl
  withheld _ _ := rfl

@[simp] theorem event_img (c : Ctl) (t k code cell : Nat) (payload : List Byte) :
    (c.event t k code cell payload).img = c.img := quiet_img.event ..

/-- A change of the stage changes nothing else of the images (R448). -/
@[simp] theorem setStage_img (c : Ctl) (st : Stage) : (c.setStage st).img = { c.img with stage := st } := by
  unfold Ctl.setStage
  split
  · next h => rw [← h]
  · exact quiet_img.irqAll _ _

/-! ### The states of the banks in the boot record (R446) -/

@[simp] theorem state_with_same (b : BootRecord) (bank : Bool) (st : BankState) : (b.with bank st).state bank = st := by
  cases bank <;> rfl

@[simp] theorem state_with_other (b : BootRecord) (bank : Bool) (st : BankState) :
    (b.with (!bank) st).state bank = b.state bank := by
  cases bank <;> rfl

/-! ### The confirmation -/

/-- The epoch of the image of a bank. -/
def epochOf (m : Mem) (bank : Bool) : Nat := mfField m (bankAddr 0 bank) 0x18 2

/-- The boot record that a confirmation of the bank under trial writes (R445, R460). -/
def Ctl.confirmedRecord (c : Ctl) (m : Mem) : BootRecord :=
  let low := max c.img.boot.epochMin (epochOf m c.inactive)
  { (c.img.boot.with c.inactive .confirmed).with (!c.inactive)
      (if epochOf m (!c.inactive) < low then .empty else .verified) with
    pending := false, legacyLv := false, legacyCfg := false, attempts := 0, epochMin := low
    gen := (c.img.boot.gen + 1) % 2 ^ 32 }

/-- What a confirmation leaves of the images: the record and the stage IDLE. -/
theorem confirm_img (c : Ctl) (m : Mem) : (c.confirm m).img =
    { c.img with bootPrev := c.img.boot, boot := c.confirmedRecord m, cfgTrial := [], stage := .idle } := by
  simp [Ctl.confirm, Ctl.confirmedRecord, epochOf, Ctl.writeBoot, max_def_lt]

@[simp] theorem confirmedRecord_state (c : Ctl) (m : Mem) : (c.confirmedRecord m).state c.inactive = .confirmed :=
  (state_with_other _ _ _).trans (state_with_same _ _ _)

theorem confirmedRecord_state_other (c : Ctl) (m : Mem) (h : epochOf m (!c.inactive) < (c.confirmedRecord m).epochMin) :
    (c.confirmedRecord m).state (!c.inactive) = .empty :=
  (state_with_same _ _ _).trans (if_pos h)

/-- Settles O54: the record that the confirmation writes says it. -/
theorem confirmationRaisesTheEpoch : Obligations.ConfirmationRaisesTheEpoch := by
  refine ⟨fun c m => ?epochMin, fun c m => ?banks, fun c m => ?stage⟩
  case epochMin => rw [confirm_img]; rfl
  case banks =>
    rw [confirm_img]
    exact ⟨confirmedRecord_state c m, confirmedRecord_state_other c m⟩
  case stage => rw [confirm_img]; exact ⟨rfl, rfl⟩

end Sys2Proof.Machine

/-! ## Control, transmission and detection of a CAN port (O24)

A write of CAN_CTRL within its checks sets the fields and starts what its one-shot bits ask (R379, R380); the other rows are the
branch that their hypotheses name. -/
namespace Sys2Proof.Machine

/-! ### The state of a port -/

/-- A field that lies at another bit than CAN_STATUS.STATE is not the state. -/
theorem canState_put (c : Ctl) (t u v i j p : Nat) {F : Field} (h : F.lo % 32 ≠ 29) :
    (c.put t F v i j).canState u p = c.canState u p := get_put_lo_ne (G := CAN_STATUS_STATE) h c t u v i j p 0

theorem quiet_canState (t p : Nat) : Quiet (fun c => c.canState t p) where
  put c u _ v i j h := canState_put c u t v i j p h
  setTask _ _ _ _ := rfl
  stamp _ _ := rfl
  estGated _ _ := rfl
  presented _ _ := rfl
  withheld _ _ := rfl

theorem canState_canFlag (c : Ctl) {t p u q : Nat} {F E : Field} (h : F.lo % 32 ≠ 29) :
    (c.canFlag t p F E).canState u q = c.canState u q := by
  unfold Ctl.canFlag
  split
  · rfl
  split
  · exact ((quiet_canState u q).irq _ _ _).trans (canState_put _ _ _ _ _ _ _ h)
  · exact canState_put _ _ _ _ _ _ _ h

/-- A port is in the state to which it has changed. -/
theorem canState_canTo (c : Ctl) (t p : Nat) {st : Nat} (h : st < 8) : (c.canTo t p st).canState t p = st := by
  unfold Ctl.canTo
  dsimp only
  split
  · assumption
  · exact ((quiet_canState t p).event _ _ _ _ _ _).trans ((canState_canFlag _ (by decide)).trans
      ((get_put_same _ _ _ _ _ _).trans (Nat.mod_eq_of_lt h)))

/-! ### A write of CAN_CTRL (R379, R380) -/

/-- The fields of CAN_CTRL as the word `w` of accessor `o` sets them; APP is System's. -/
def Ctl.setCanCtrl (c : Ctl) (o : Origin) (t p w : Nat) : Ctl :=
  c.put t CAN_CTRL_INIT (bitsOf w 31 1) p |>.put t CAN_CTRL_LISTEN (bitsOf w 30 1) p
    |>.put t CAN_CTRL_FD_EN (bitsOf w 29 1) p |>.put t CAN_CTRL_AUTO_RECOVER (bitsOf w 28 1) p
    |>.put t CAN_CTRL_TERM (bitsOf w 27 1) p |>.put t CAN_CTRL_APP (if c.isSystem o then bitsOf w 26 1 else c.get t CAN_CTRL_APP p) p

theorem canState_setCanCtrl (c : Ctl) (o : Origin) (t p w : Nat) : (c.setCanCtrl o t p w).canState t p = c.canState t p := by
  have hfd (d : Ctl) (v : Nat) : (d.put t CAN_CTRL_FD_EN v p).canState t p = d.canState t p :=
    get_put_ne _ _ _ _ CAN_STATUS_STATE _ _ _ _ _ (by simp only [Field.key, CAN_STATUS_STATE, CAN_CTRL_FD_EN]; omega)
  unfold Ctl.setCanCtrl
  iterate 3 rw [canState_put _ _ _ _ _ _ _ (by decide)]
  rw [hfd]
  iterate 2 rw [canState_put _ _ _ _ _ _ _ (by decide)]

/-- What an accepted write starts, one part after another: INIT set or clear, detection, recovery. -/
def Ctl.startCanCtrl (c : Ctl) (t p w : Nat) (was : Bool) : Ctl :=
  let c := if bit w 31 ∧ ¬ was then c.canInitSet t p else c
  let c := if was && !bit w 31 then c.canCounters t p 0 0 else c
  let c := if bit w 25 then Ctl.canTo { c with canDet := tabSet c.canDet (canKey t p) {} } t p cnDetect else c
  if c.canState t p = cnOff ∧ (bit w 24 ∨ bit w 28) then c.canTo t p cnRecovering else c

/-- The checks of R379 that a write passes. -/
structure CanCtrlOk (c : Ctl) (o : Origin) (t p w : Nat) : Prop where
  allowed : c.mayConfig o = true
  modes : c.get t CAN_CTRL_LISTEN p = bitsOf w 30 1 ∧ c.get t CAN_CTRL_FD_EN p = bitsOf w 29 1
  timing : (c.flag t CAN_CTRL_INIT p && !bit w 31) = true → (c.setCanCtrl o t p w).timingBad t p = false
  detect : bit w 25 = true → c.canState t p = cnInit ∧ (c.flag t CAN_CTRL_INIT p && !bit w 31) = false
  recover : bit w 24 = true → c.canState t p = cnOff

theorem canCtrlWrite_ok {c : Ctl} {o : Origin} {t p w : Nat} (h : CanCtrlOk c o t p w) :
    c.canCtrlWrite o t p w = ((c.setCanCtrl o t p w).startCanCtrl t p w (c.flag t CAN_CTRL_INIT p), eOk) := by
  obtain ⟨ho, ⟨hl, hf⟩, ht, hd, hr⟩ := h
  have hdet : (bit w 25 && (c.canState t p != cnInit || (c.flag t CAN_CTRL_INIT p && !bit w 31))) = false := by
    cases hb : bit w 25 with
    | false => rfl
    | true => rw [(hd hb).1, (hd hb).2]; rfl
  have hrec : (bit w 24 && c.canState t p != cnOff) = false := by
    cases hb : bit w 24 with
    | false => rfl
    | true => rw [hr hb]; rfl
  have htim : ((c.flag t CAN_CTRL_INIT p && !bit w 31) && (c.setCanCtrl o t p w).timingBad t p) = false := by
    cases hb : c.flag t CAN_CTRL_INIT p && !bit w 31 with
    | false => rfl
    | true => rw [ht hb]; rfl
  have hcode : firstErr [((c.flag t CAN_CTRL_INIT p && !bit w 31) && (c.setCanCtrl o t p w).timingBad t p, eRange),
      ((!c.flag t CAN_CTRL_INIT p && (c.get t CAN_CTRL_LISTEN p != bitsOf w 30 1 || c.get t CAN_CTRL_FD_EN p != bitsOf w 29 1))
        || (bit w 25 && (c.canState t p != cnInit || (c.flag t CAN_CTRL_INIT p && !bit w 31)))
        || (bit w 24 && c.canState t p != cnOff), eState)] = eOk :=
    firstErr_ok (by simp [htim, hdet, hrec, hl, hf])
  exact (if_neg (by simp [ho])).trans (if_neg (not_not.mpr hcode))

/-- A write of CAN_CTRL that passes the checks and starts `d` from the fields it sets. -/
theorem canCtrl_accessed {s : State} {o : Origin} {t p : Nat} {w : Ctl → Nat} {d : Ctl}
    (hf : accessorFitted s.ctl o = true) (hr : s.ctl.reachedBy o t = true) (h : CanCtrlOk s.ctl o t p (w s.ctl))
    (hd : (s.ctl.setCanCtrl o t p (w s.ctl)).startCanCtrl t p (w s.ctl) (s.ctl.flag t CAN_CTRL_INIT p) = d) :
    s.onAccess o (fun c => c.access o t 0x0C (fun c => c.canCtrlWrite o t p (w c))) = .next (s.accessed o 0x0C d) :=
  access_accepted hf hr (hd ▸ canCtrlWrite_ok h)

/-! ### Requests and cancellations (R382, R385) -/

/-- A request of software buffers with sound windows, on a port that can send them. -/
theorem txreqWrite_ok {c : Ctl} {o : Origin} {t p w : Nat} (ho : c.canMay o t p = true)
    (hb : ((List.range 32).filter (fun b => bit w b)).all (fun b => c.canSoft t p b && !c.windowBad t p b) = true)
    (hs : c.canState t p ≠ cnInit ∧ c.canState t p ≠ cnDetect ∧ c.canState t p ≠ cnOff ∧ c.flag t CAN_CTRL_LISTEN p = false)
    (hfd : c.flag t CAN_CTRL_FD_EN p = true ∨
      ((List.range 32).filter (fun b => bit w b)).any (fun b => c.flag t CAN_TXB_FDF p b) = false) :
    c.txreqWrite o t p w
      = (((List.range 32).filter (fun b => bit w b)).foldl (fun (c : Ctl) b => c.canRequest t p b) c, eOk) := by
  unfold Ctl.txreqWrite
  generalize (List.range 32).filter (fun b => bit w b) = l at hb hfd ⊢
  simp only [List.all_eq_true, Bool.and_eq_true, Bool.not_eq_true'] at hb
  have hmine : l.filter (fun b => c.canSoft t p b) = l := List.filter_eq_self.mpr fun b hl => (hb b hl).1
  have hwin : l.any (fun b => c.windowBad t p b) = false := List.any_eq_false.mpr fun b hl => by simp [(hb b hl).2]
  have hfdf : (!c.flag t CAN_CTRL_FD_EN p && l.any (fun b => c.flag t CAN_TXB_FDF p b)) = false := by
    rcases hfd with h | h <;> simp [h]
  obtain ⟨hi, hd, hoff, hl⟩ := hs
  dsimp only
  rw [hmine]
  exact (if_neg (by simp [ho])).trans (if_neg (not_not.mpr (firstErr_ok (by simp [hwin, hfdf, hi, hd, hoff, hl]))))

theorem txcancelWrite_ok {c : Ctl} {o : Origin} {t p w : Nat} (ho : c.canMay o t p = true)
    (hb : ((List.range 32).filter (fun b => bit w b)).any (fun b => !c.canSoft t p b) = false) :
    c.txcancelWrite o t p w = (((List.range 32).filter (fun b => bit w b)).foldl (fun (c : Ctl) b =>
      if !c.canPending t p b then c
      else if (tabFind c.canTry (canKey t p)).any (fun a => a.buf == b) then c.putTxBit t p b CAN_TXCANCEL true
      else c.canEnd t p b CAN_TXCAN) c, eOk) :=
  (if_neg (by simp [ho])).trans (if_neg (by simp only [hb]; decide))

/-! ### Adoption of a detected rate (R391) -/

/-- ADOPT of a valid rate in INIT passes its checks. -/
theorem canRateWrite_adopts {c : Ctl} {o : Origin} {t p : Nat} {d : Ctl} (ho : c.mayConfig o = true)
    (h : c.flag t CAN_RATE_VALID p = true ∧ c.flag t CAN_CTRL_INIT p = true)
    (hd : (let n := nominalTiming (c.get t CAN_RATE_NOMINAL p)
      let k := c.get t CAN_RATE_DATA p
      let d := dataTiming k
      let c := c.put t CAN_NBT_NBRP n.1 p |>.put t CAN_NBT_NTSEG1 n.2.1 p |>.put t CAN_NBT_NTSEG2 n.2.2 p
        |>.put t CAN_NBT_NSJW n.2.2 p
      if k = 0 then (c, eOk)
      else
        (c.put t CAN_DBT_DBRP d.1 p |>.put t CAN_DBT_DTSEG1 d.2.1 p |>.put t CAN_DBT_DTSEG2 d.2.2 p |>.put t CAN_DBT_DSJW d.2.2 p
          |>.put t CAN_DBT_TDCO (d.1 * (1 + d.2.1)) p |>.put t CAN_DBT_TDC_EN (b2n (decide (1 < k))) p, eOk)) = (d, eOk)) :
    c.canRateWrite o t p (2 ^ 31) = (d, eOk) :=
  (if_neg (by simp [ho])).trans ((if_neg (by decide)).trans ((if_neg (by simp [h])).trans hd))

/-! ### The end of an attempt (R383 to R386) -/

/-- The buffer of a successful attempt completes, with CANCEL_SENT where its cancellation came too late; one whose content was
replaced meanwhile stays pending. -/
def Ctl.txEnded (c : Ctl) (t p : Nat) (a : CanTry) : Ctl :=
  if a.again then c
  else
    let sent := bit (c.get t CAN_TXCANCEL p) a.buf
    let c := c.canEnd t p a.buf CAN_TXDONE
    if sent then c.putTxBit t p a.buf CAN_TXCSENT true else c

/-- The sync frame of the time unit has been sent: its instant is kept for the follow-up (R352). -/
def Ctl.txSynced (c : Ctl) (t p b : Nat) : Ctl :=
  if b = 15 ∧ c.flag t TIME_CAN_CFG_EN p then
    Ctl.put { c with syncRef := tabSet c.syncRef (canKey t p) (c.stn t)
                     followed := c.followed.filter (fun n => n != canKey t p) } t TIME_CAN_CFG_SYNC_DONE 1 p
  else c

/-- A transmission ends well: what its buffer, the time unit and the port make of it. -/
theorem canTxComplete_under {s : State} {t : TileId} {p : PortId} {a : CanTry} {c : Ctl} (ht : t.val < s.ctl.tiles)
    (ha : tabFind (s.ctl.canStart t p).canTry (canKey t p) = some a)
    (hc : ((s.ctl.canStart t p).txEnded t p a).txSynced t p a.buf = c) :
    execCanTxComplete t p s = .next (s.ctlTo ((c.canAcked t p).canAfter t p)) := by
  subst hc
  refine onTile_eq ht ?_
  dsimp only
  rw [ha]
  rfl

/-- Settles O24: a control write passes its checks and starts one thing; the other rows are the branch that the row names. -/
theorem canPortControlComplete : Obligations.CanPortControlComplete := by
  refine ⟨?initSet, ?initClear, ?recover, ?detectStart, ?busJoin, ?recovered, ?txreq, ?txcancel, ?txComplete, ?syncComplete,
    ?txError, ?dwell, ?detectEnd, ?adoptNominal, ?adoptData⟩
  case initSet =>
    intro s t o p v c0 c1 c2 hf hr ho hm hb hw hoff
    obtain ⟨h31, h25, h24⟩ := hb
    refine canCtrl_accessed (w := fun c => setBit (c.canCtrl t p) 31 true) hf hr
      { allowed := ho, modes := hm, timing := fun h => ?_, detect := fun h => ?_, recover := fun h => ?_ } ?_
    · simp [hw] at h
    · cases h25.symm.trans h
    · cases h24.symm.trans h
    · change c2.startCanCtrl t p v _ = _
      simp [Ctl.startCanCtrl, h31, h25, hw, hoff]
  case initClear =>
    intro s t o p v c0 c1 c2 hf hr ho hm hb hw ht hoff
    obtain ⟨h31, h25, h24⟩ := hb
    refine canCtrl_accessed (w := fun c => setBit (c.canCtrl t p) 31 false) hf hr
      { allowed := ho, modes := hm, timing := fun _ => ht, detect := fun h => ?_, recover := fun h => ?_ } ?_
    · cases h25.symm.trans h
    · cases h24.symm.trans h
    · change c2.startCanCtrl t p v _ = _
      simp [Ctl.startCanCtrl, h31, h25, hw, hoff]
  case recover =>
    intro s t o p v c0 c1 c2 hf hr ho hm hb hw hoff
    obtain ⟨h31, h25, h24⟩ := hb
    have hst : c2.canState t p = cnOff := (canState_setCanCtrl s.ctl o t p v).trans hoff
    refine canCtrl_accessed (w := fun c => setBit (c.canCtrl t p) 24 true) hf hr
      { allowed := ho, modes := hm, timing := fun h => ?_, detect := fun h => ?_, recover := fun _ => hoff } ?_
    · simp [hw] at h
    · cases h25.symm.trans h
    · change c2.startCanCtrl t p v _ = _
      simp [Ctl.startCanCtrl, h31, h25, h24, hw, hst]
  case detectStart =>
    intro s t o p v c0 c1 c2 hf hr ho hm hb hw hst
    obtain ⟨h31, h25, h24⟩ := hb
    refine canCtrl_accessed (w := fun c => setBit (c.canCtrl t p) 25 true) hf hr
      { allowed := ho, modes := hm, timing := fun h => ?_, detect := fun _ => ⟨hst, ?_⟩, recover := fun h => ?_ } ?_
    · simp [show bit (setBit (s.ctl.canCtrl t p) 25 true) 31 = true from h31] at h
    · simp [show bit (setBit (s.ctl.canCtrl t p) 25 true) 31 = true from h31]
    · cases h24.symm.trans h
    · change c2.startCanCtrl t p v _ = _
      simp [Ctl.startCanCtrl, h31, h25, hw, canState_canTo]
  case busJoin =>
    intro s t p ht hst hi
    exact onTile_eq ht (if_pos ⟨hst, by simp [hi]⟩)
  case recovered =>
    intro s t p c1 ht hst
    change execCanRecoveryComplete t p s = _
    exact onTile_eq ht (if_neg (not_not.mpr hst))
  case txreq =>
    intro s t o p w bufs hf hr ho hb hst hfd
    exact access_accepted hf hr (txreqWrite_ok ho hb hst hfd)
  case txcancel =>
    intro s t o p w bufs hf hr ho hb
    exact access_accepted hf hr (txcancelWrite_ok ho hb)
  case txComplete =>
    intro s t p a c1 c2 c3 ht ha hagain hbuf
    have hend : c1.txEnded t p a = c3 := if_neg (by simp [hagain])
    exact canTxComplete_under ht ha (hend ▸ if_neg fun h => hbuf h.1)
  case syncComplete =>
    intro s t p a c1 c2 c3 c4 ht ha hb hen
    obtain ⟨hagain, hbuf⟩ := hb
    have hend : c1.txEnded t p a = c3 := (if_neg (by simp [hagain])).trans (by rw [hbuf])
    exact canTxComplete_under ht ha (hend ▸ if_pos ⟨hbuf, hen⟩)
  case txError =>
    intro s t p x a c1 last c2 c3 ht ha
    change execCanTxError t p x s = _
    refine onTile_eq ht ?_
    dsimp only
    rw [ha]
  case dwell =>
    intro s t p x ht hst
    change execCanDetectDwell t p s = _
    refine onTile_eq ht ((if_neg (not_not.mpr hst)).trans ?_)
    exact (apply_ite (s.ctl.setDetect t p) _ _ _).symm
  case detectEnd =>
    intro s t p timeout x c1 c2 c3 c4 ht hst hend
    change execCanDetectEnd t p timeout s = _
    exact onTile_eq ht (if_neg (not_or.mpr ⟨not_not.mpr hst, not_not.mpr hend⟩))
  case adoptNominal =>
    intro s t o p n c1 hf hr ho h hk
    exact access_accepted hf hr (canRateWrite_adopts ho h (if_pos hk))
  case adoptData =>
    intro s t o p n k d c1 c2 hf hr ho h hk
    exact access_accepted hf hr (canRateWrite_adopts ho h (if_neg hk))

end Sys2Proof.Machine

/-! ## Reception of a CAN port, the frames of the time unit and the PDUs of Beryl (O25)

A frame of another node goes the way that R387 gives it; what a hardware owner sends stands in its transmit buffer. -/
namespace Sys2Proof.Machine

/-! ### Frames received (R378, R387 to R389) -/

section

variable {s : State} {t : TileId} {p : PortId} {frame : CanFrame}

/-- A frame on a port that takes part in the bus: its consumer, else the loop inputs, the containers and the filters. -/
theorem canFrameReceive_good (ht : t.val < s.ctl.tiles)
    (hst : s.ctl.canState t p ≠ cnDetect ∧ s.ctl.canOnBus t p = true) (hx : s.ctl.canExcepts t p frame = false) :
    execCanFrameReceive t p frame s = .next (s.ctlTo (
      let c := s.ctl.canRxGood t p
      match c.consumer t p frame with
      | some n => if c.flag t CAN_CTRL_LISTEN p then c else c.setConn t n { c.conn t n with slot := some frame.data }
      | none =>
        (forN 32 (fun k (c : Ctl) =>
          if c.flag t BAL_CONT_VALID k && c.get t BAL_CONT_PORT k == p.val && c.flag t BAL_CONT_EXT k == frame.ext
              && c.get t BAL_CONT_CAN_ID k == frame.id.toNat then c.heatFrame t k frame.data
          else c) (c.loopFrame t p frame)).canFile t p frame)) :=
  onTile_eq ht ((if_neg (by simp [hx])).trans ((if_neg hst.1).trans (if_neg (by simp [hst.2]))))

end

/-! ### Registers -/

theorem rxPopWrite_allowed {c : Ctl} {o : Origin} {t p : Nat} (ho : c.canMay o t p = true) (w : Nat) :
    c.rxPopWrite o t p w =
      (let c1 := if bit w 0 then c.fifoPop t p 0 else c
       if bit w 1 then c1.fifoPop t p 1 else c1, eOk) := if_neg (by simp [ho])

/-- The follow-up frame of a sync in time, once, of the SEQ sent last (R353). -/
theorem followWrite_sends {c : Ctl} {o : Origin} {t p w ref : Nat} (ho : c.isSystem o = true) (hw : bit w 31 = true)
    (href : tabFind c.syncRef (canKey t p) = some ref)
    (h : c.flag t TIME_CAN_CFG_EN p = true ∧ w % 256 = c.get t TIME_CAN_CFG_SEQ p ∧ c.followed.contains (canKey t p) = false)
    (htime : c.stn t ≤ ref + 8000000) (hcarry : c.tileState t ≠ tsCarried) :
    c.followWrite o t p w =
      (let c1 : Ctl := { c with followed := canKey t p :: c.followed.filter (fun n => n != canKey t p) }
       let hold := b2n (decide (c.get 0 TIME_STATE_STATE = tmHoldover))
       let data := leBytes 1 w ++ leBytes 1 hold ++ beBytes 2 (ref / 1000000000 / 2 ^ 32)
         ++ beBytes 4 (c.get t TIME_CAN_FU_SEC p) ++ beBytes 4 (c.get t TIME_CAN_FU_NS p)
       (c1.put t TIME_CAN_FU_SEQ w p).canOffer t p 14
         (hwFrame (c.flag t TIME_CAN_CFG_EXT p) true (c.get t TIME_CAN_CFG_SYNC_ID p + 1) data), eOk) := by
  obtain ⟨hen, hseq, hfollowed⟩ := h
  unfold Ctl.followWrite
  rw [if_neg (by simp [ho]), if_neg (by simp [hw])]
  dsimp only
  rw [href]
  dsimp only
  rw [hfollowed, if_neg (by simp [hcarry, hen, hseq]), if_neg (Nat.not_lt.mpr htime)]

theorem bit_seqWord (seq : Byte) : bit (2 ^ 31 + seq.toNat) 31 = true := by
  have h : seq.toNat < 2 ^ 31 := lt_trans seq.isLt (by decide)
  rw [bit, Nat.testBit_two_pow_add_eq, Nat.testBit_lt_two_pow h]
  rfl

/-! ### Produce PDUs (R311) -/

/-- A connection that produces sends its PDU on its medium. -/
theorem producePduSend_producing {s : State} {t : TileId} {n : Fin 16} (ht : t.val < s.ctl.tiles)
    (h : s.ctl.producing t n = true) : execProducePduSend t n s = .next (s.ctlTo (
      let x := s.ctl.producePdu t n
      if s.ctl.get t BERYL_PA_CONN_MEDIUM n == 0 then
        x.2.canOffer t (s.ctl.get t BERYL_PA_CONN_PORT n) (s.ctl.produceBuffer t n)
          (hwFrame (s.ctl.flag t BERYL_PA_CONN_EXT n) true (s.ctl.get t BERYL_PA_CONN_CAN_ID n) x.1)
      else x.2.sendSafety t n x.1)) := by
  refine onTile_eq ht ?_
  dsimp only
  rw [if_neg (by simp [h])]

/-- Settles O25: each reception is the branch of R387 that its hypotheses name, each launch passes its conditions. -/
theorem canReceptionComplete : Obligations.CanReceptionComplete := by
  refine ⟨?consumed, ?filed, ?excepted, ?detecting, ?error, ?pop, ?sync, ?followUp, ?pduCan, ?pduNet⟩
  case consumed =>
    intro s t p frame n c1 ht hst hx hn hl
    refine (canFrameReceive_good ht hst hx).trans ?_
    simp only [show (s.ctl.canRxGood t p).consumer t p frame = some n from hn]
    rw [if_neg (by simp [c1, hl])]
  case filed =>
    intro s t p frame c1 c2 ht hst hx hn
    refine (canFrameReceive_good ht hst hx).trans ?_
    simp only [show (s.ctl.canRxGood t p).consumer t p frame = none from hn]
    rfl
  case excepted =>
    intro s t p frame ht hx
    change execCanFrameReceive t p frame s = _
    exact onTile_eq ht (if_pos hx)
  case detecting =>
    intro s t p frame ht hx hst
    change execCanFrameReceive t p frame s = _
    exact onTile_eq ht ((if_neg (by simp [hx])).trans (if_pos hst))
  case error =>
    intro s t p kind eight inData ht hst hk
    change execCanRxError t p kind eight inData s = _
    exact onTile_eq ht ((if_neg hst.1).trans (if_neg (by simp [hst.2, hk])))
  case pop =>
    intro s t o p w c1 hf hr ho
    exact access_accepted hf hr (rxPopWrite_allowed ho _)
  case sync =>
    intro s t p seq f c1 ht h
    obtain ⟨hen, hlock, htake⟩ := h
    change execCanSyncLaunch t p s = _
    exact onTile_eq ht (if_neg (by simp [hen, hlock, htake]))
  case followUp =>
    intro s t o p seq ref q k hold c1 data hf hr ho href h htime hcarry
    exact access_accepted hf hr (followWrite_sends ho (bit_seqWord seq) href h htime hcarry)
  case pduCan =>
    intro s t n port x ht h hst hm
    obtain ⟨hen, hkind, hstop⟩ := h
    obtain ⟨hmedium, htake⟩ := hm
    refine (producePduSend_producing ht ?_).trans ?_
    · simp [Ctl.producing, hen, hkind, hstop, hst, show s.ctl.canTakes t (s.ctl.get t BERYL_PA_CONN_PORT n) true = true from htake]
    · rw [hmedium]
      rfl
  case pduNet =>
    intro s t n x ht h hst hm
    obtain ⟨hen, hkind, hstop⟩ := h
    refine (producePduSend_producing ht ?_).trans ?_
    · simp [Ctl.producing, hen, hkind, hstop, hst, hm]
    · simp only [beq_false_of_ne hm]
      rfl

end Sys2Proof.Machine

/-! ## The two-wire block (O32)

A transfer to the side-band space ends in the code of its page; the commands `sb.ip4` and `sb.module_reset` are two such transfers,
the request area and then GO. A job of the controller role is the branch that its row names. -/
namespace Sys2Proof.Machine

/-! ### Target transfers (R399, R400) -/

/-- A target write has ended: its code stands in LAST_WR and it counts (R404). -/
def Ctl.wrote (c : Ctl) (code : Nat) : Ctl :=
  { c with twb := { c.twb with lastWr := code, wrCount := (c.twb.wrCount + 1) % 65536 } }

/-- The pointer of the side-band space set. -/
def Ctl.pointAt (c : Ctl) (p : Nat) : Ctl := { c with twb := { c.twb with ptr := p } }

section

variable {m : Mem} {c : Ctl} {stop : Bool}

/-- A write of data from the pointer `p` on: the staged bytes are applied to its page. -/
theorem targetWrite_data {hi lo : Byte} {data : List Byte} {p : Nat} (hp : hi.toNat * 256 + lo.toNat = p) (hon : c.twbOn = true)
    (hd : data ≠ []) {y : MC × Nat}
    (hy : sideApply m ((c.busAfter stop).pointAt (p / 64 * 64 + (p + data.length) % 64)) (p / 64 * 64) (stageBytes p data []) = y) :
    targetWrite (hi :: lo :: data) stop m c = y.1.on (fun c => c.wrote y.2) := by
  unfold targetWrite
  rw [if_neg (by simp [hon])]
  dsimp only
  rw [if_neg (by simp [hd]), hp]
  subst hy
  rfl

/-- A write of the pointer alone. -/
theorem targetWrite_pointer {hi lo : Byte} (hon : c.twbOn = true) : targetWrite [hi, lo] stop m c =
    (m, (c.busAfter stop).pointAt ((hi.toNat * 256 + lo.toNat) / 64 * 64 + (hi.toNat * 256 + lo.toNat) % 64)) := by
  unfold targetWrite
  rw [if_neg (by simp [hon])]
  dsimp only
  rw [if_pos (by simp), List.length_nil, Nat.add_zero]
  rfl

/-- One of fewer than two bytes. -/
theorem targetWrite_short {l : List Byte} (hon : c.twbOn = true) (hl : l.length < 2) :
    targetWrite l stop m c = (m, c.busAfter stop) := by
  match l, hl with
  | [], _ => exact if_neg (by simp [hon])
  | [a], _ => exact if_neg (by simp [hon])

/-! ### The request area (R405) -/

/-- Bytes staged from `off` on leave every offset alone that they do not reach. -/
theorem tabFind_stageBytes {k : Nat} (l : List Byte) (off : Nat) (t : Tab Byte) (h : ∀ j < l.length, (off + j) % 64 ≠ k) :
    tabFind (stageBytes off l t) k = tabFind t k := by
  induction l generalizing off t with
  | nil => rfl
  | cons b r ih =>
    have h0 : k ≠ off % 64 := (h 0 (Nat.zero_lt_succ _)).symm
    refine (ih _ _ fun j hj => ?_).trans (tabFind_tabSet_ne _ _ h0)
    have := h (j + 1) (Nat.succ_lt_succ hj)
    omega

/-- Bytes of the request area that do not reach GO are stored while no command runs. -/
theorem sideApply_request {l : List Byte} (hs : c.twb.state ≠ 1) (hl : l.length ≤ 60) :
    sideApply m c 0x100 (stageBytes 0x104 l []) = ((m, c.putReq 0 (stageBytes 0x104 l [])), eOk) := by
  have hgo : tabFind (stageBytes 0x104 l []) 0 = none := tabFind_stageBytes l 0x104 [] fun j hj => by omega
  change sideRequest m c 0 _ = _
  unfold sideRequest
  rw [hgo, if_neg fun h => hs h.1]
  rfl

/-- GO while no command runs. -/
theorem sideApply_go (hs : c.twb.state ≠ 1) : sideApply m c 0x100 (stageBytes 0x100 [1] []) = (sideGo m c, eOk) :=
  if_neg fun h => hs h.1

theorem pointAt_busAfter_state (p : Nat) : ((c.busAfter stop).pointAt p).twb.state = c.twb.state := by cases stop <;> rfl

/-- The request area written from its CODE on. -/
theorem targetWrite_request {l : List Byte} (hon : c.twbOn = true) (hs : c.twb.state ≠ 1) (h0 : l ≠ []) (hl : l.length ≤ 60) :
    targetWrite (0x01 :: 0x04 :: l) stop m c = (m, (((c.busAfter stop).pointAt (0x100 + (0x104 + l.length) % 64)).putReq 0
      (stageBytes 0x104 l [])).wrote eOk) :=
  targetWrite_data (p := 0x104) rfl hon h0
    (sideApply_request (c := (c.busAfter stop).pointAt _) (by rw [pointAt_busAfter_state]; exact hs) hl)

theorem targetWrite_go (hon : c.twbOn = true) (hs : c.twb.state ≠ 1) :
    targetWrite [0x01, 0x00, 0x01] stop m c = (sideGo m ((c.busAfter stop).pointAt 0x101)).on (fun c => c.wrote eOk) :=
  targetWrite_data (p := 0x100) (data := [0x01]) rfl hon (by simp)
    (sideApply_go (c := (c.busAfter stop).pointAt _) (by rw [pointAt_busAfter_state]; exact hs))

/-- A command of the side-band space: its request area, then GO. -/
theorem sideCommand_goes {code : Nat} {args : List Byte} (hon : c.twbOn = true) (hs : c.twb.state ≠ 1) (hl : args.length ≤ 56)
    {d : Ctl} (hd : (((c.busAfter true).pointAt (0x100 + (0x108 + args.length) % 64)).putReq 0
      (stageBytes 0x104 (beBytes 2 code ++ beBytes 2 args.length ++ args) [])).wrote eOk = d) :
    sideCommand code args m c = (sideGo m ((d.busAfter true).pointAt 0x101)).on (fun c => c.wrote eOk) := by
  have hlen : (beBytes 2 code ++ beBytes 2 args.length ++ args).length = 4 + args.length := by
    simp [beBytes]
    omega
  have hne : beBytes 2 code ++ beBytes 2 args.length ++ args ≠ [] := fun h => by
    rw [h, List.length_nil] at hlen
    omega
  have hreq := targetWrite_request (m := m) (stop := true) hon hs hne (by omega)
  rw [hlen, ← Nat.add_assoc, hd] at hreq
  refine (congrArg (fun x : MC => targetWrite [0x01, 0x00, 0x01] true x.1 x.2) hreq).trans ?_
  subst hd
  exact targetWrite_go hon hs

end

/-! ### The controller role (R408 to R410) -/

/-- A job word within its limits, while no job runs. -/
theorem twbJobWrite_go {c : Ctl} {o : Origin} {w : Nat} (ho : c.isSystem o = true) (hgo : bit w 31 = true)
    (hj : jobAddr w ≠ c.twb.taddr ∧ 8 ≤ jobAddr w ∧ jobAddr w < 0x78 ∧ jobWlen w ≤ 64 ∧ jobRlen w ≤ 64)
    (hb : c.flag 0 TWB_RESULT_BUSY = false) : twbJobWrite c o w =
      (let c1 := c.put 0 TWB_JOB_RETRIES (bitsOf w 29 2) |>.put 0 TWB_JOB_ADDR (jobAddr w)
         |>.put 0 TWB_JOB_WLEN (jobWlen w) |>.put 0 TWB_JOB_RLEN (jobRlen w)
       Ctl.put { c1 with twb := { c1.twb with job := w, tries := bitsOf w 29 2, sending := false } } 0 TWB_RESULT_BUSY 1,
       eOk) := by
  obtain ⟨ha, h8, h78, hwl, hrl⟩ := hj
  have hcode : (if (!bit w 31) = true then eOk else firstErr [(jobAddr w == c.twb.taddr || decide (jobAddr w < 8)
      || decide (0x78 ≤ jobAddr w) || decide (64 < jobWlen w) || decide (64 < jobRlen w), eRange),
      (c.flag 0 TWB_RESULT_BUSY, eBusy)]) = eOk :=
    (if_neg (by simp [hgo])).trans (firstErr_ok (by simp [ha, hb]; omega))
  exact (if_neg (by simp [ho])).trans ((if_neg (not_not.mpr hcode)).trans (if_pos hgo))

/-- Settles O32: the target's transfers end in the code of their page, the commands are two transfers, and each row of the
controller role is the branch that its hypotheses name. -/
theorem twoWireBusComplete : Obligations.TwoWireBusComplete := by
  refine ⟨?read, ?write, ?pointer, ?short, ?go, ?ip4, ?reset, ?refresh, ?timeout, ?free, ?jobGo, ?jobStart, ?lost, ?jobEnd⟩
  case read =>
    intro s x c1 out hon
    change execTwbTargetRead x s = _
    exact onModuleM_ctl (if_neg (by simp [hon]))
  case write =>
    intro s x hi lo b rest p page c1 c2 y hon hx
    refine onModuleM_eq ?_
    rw [hx]
    exact targetWrite_data rfl hon (List.cons_ne_nil _ _) rfl
  case pointer =>
    intro s x hi lo p c1 hon hx
    refine onModuleM_ctl ?_
    rw [hx]
    exact targetWrite_pointer hon
  case short =>
    intro s x hon hl
    exact onModuleM_ctl (targetWrite_short hon hl)
  case go =>
    intro s c1 x hon hs
    exact onModuleM_eq (targetWrite_go hon hs)
  case ip4 =>
    intro s path addr pfx gw c1 args area c2 c3 c4 x hon hs
    have hlen : args.length = 10 := by simp [args, beBytes]
    have hd : (((s.ctl.busAfter true).pointAt (0x100 + (0x108 + args.length) % 64)).putReq 0
        (stageBytes 0x104 (beBytes 2 0x9001 ++ beBytes 2 args.length ++ args) [])).wrote eOk = c3 := by
      rw [hlen]
      rfl
    exact onModuleM_eq (sideCommand_goes (args := args) hon hs (by omega) hd)
  case reset =>
    intro s c1 area c2 c3 c4 x hon hs
    exact onModuleM_eq (sideCommand_goes hon hs (by simp) rfl)
  case refresh =>
    intro s ms aon c1 c2 hon
    change execTwbStatusRefresh s = _
    exact onModule_eq (if_neg (by simp [hon]))
  case timeout =>
    intro s hon
    exact onModule_eq (if_pos hon)
  case free =>
    intro s hon
    exact onModule_eq (if_pos hon)
  case jobGo =>
    intro s o w v a c1 hf hr ho hgo hj hb
    exact access_accepted hf hr (twbJobWrite_go ho hgo hj hb)
  case jobStart =>
    intro s b on c1 h hhigh
    obtain ⟨hbusy, hsend, hon⟩ := h
    change execTwbJobStart b s = _
    refine onModule_eq ((if_neg (by simp [hbusy, hsend, hon])).trans ?_)
    cases b with
    | high => exact if_neg (by simp [hhigh rfl])
    | freed => rfl
    | stuck => rfl
  case lost =>
    intro s c1 v hs
    change execTwbArbitrationLoss s = _
    exact onModule_eq (if_neg (by simp [hs]))
  case jobEnd =>
    intro s e v stop hs
    change execTwbJobEnd e s = _
    exact onModule_eq (if_neg (by simp [hs]))

end Sys2Proof.Machine

/-! ## The DMA engine (O21)

A job ends with the bursts the engine has served; halts, recovery and the registers of the channels are the branch that their row
names (R421 to R425). -/
namespace Sys2Proof.Machine

/-! ### Jobs and halts (R421 to R423) -/

/-- A channel in RUN ends the job it has under way. -/
theorem dmaJobComplete_running {s : State} {t : TileId} {ch : Fin 16} {j : Job} {rest : List Job} (ht : t.val < s.ctl.tiles)
    (hq : (s.ctl.chn t ch).queue = j :: rest) (hs : s.ctl.get t DMA_CH_STATE ch = dmRun) :
    execDmaJobComplete t ch s = .next (s.allTo (
      let x := dmaServe t ch (s.ctl.dmaWork t) (dmaLand t (s.mem, s.ctl))
      let y := jobEnds t j (j.parts j.rowCount 0) x.2
      lastOnWay t j (dmaLand t (s.mem, s.ctl)).1 (x.1, (y.1.jobEnd t ch y.2 true).dmaNext t ch))) := by
  refine onTileM_eq ht ?_
  dsimp only
  rw [hq]
  exact if_neg (not_not.mpr hs)

/-! ### Registers (R424, R425, R428) -/

theorem dmaCtrlWrite_recovers {m : Mem} {c : Ctl} {o : Origin} {t : Nat} (ho : c.isSystem o = true)
    (hh : ((List.range 16).drop 2).filter (fun ch => c.get t DMA_CH_STATE ch == dmHalted) ≠ []) :
    dmaCtrlWrite m c o t 1 =
      ((m,
        let halted := ((List.range 16).drop 2).filter (fun ch => c.get t DMA_CH_STATE ch == dmHalted)
        let cut := halted.filter (fun ch => (c.chn t ch).under)
        (halted.foldl (fun (c : Ctl) ch => c.dmaNext t ch)
          (cut.foldl (fun (c : Ctl) ch => (c.jobCut t ch).jobEnd t ch eIntegrity true) c)).event t 0x0B 0xA003 0
            (leBytes 2 (maskN 16 (fun ch => cut.contains ch)))), eOk) :=
  (if_neg (by simp [ho])).trans (if_neg (not_or.mpr ⟨by decide, hh⟩))

section

variable {m : Mem} {c : Ctl} {o : Origin} {t ch w : Nat}

/-- The channels of the block records are read-only. -/
theorem dmaChWrite_locked (ho : c.isSystem o = true) (hc : ch < 2) (w : Nat) : dmaChWrite m c o t ch w = ((m, c), eLocked) := by
  unfold dmaChWrite
  dsimp only
  rw [if_neg (by simp [ho]), if_pos hc, if_pos (by decide)]

/-- A write of EN and PRIO of another channel: what follows of a change of EN. -/
theorem dmaChWrite_ok (ho : c.isSystem o = true) (hc : 2 ≤ ch) (hw : w % 4 ≠ 0) : dmaChWrite m c o t ch w =
    (let d := (c.put t DMA_CH_EN (bitsOf w 31 1) ch).put t DMA_CH_PRIO w ch
     if c.get t DMA_CH_EN ch = 1 ∧ bitsOf w 31 1 = 0 then (dmaDisable t ch (m, d), eOk)
     else if c.get t DMA_CH_EN ch = 0 ∧ bitsOf w 31 1 = 1 then ((m, d.dmaState t ch dmIdle), eOk)
     else ((m, d), eOk)) := by
  have hcode : (if ch < 2 then eLocked else if w % 4 = 0 then eRange else eOk) = eOk :=
    (if_neg (Nat.not_lt.mpr hc)).trans (if_neg hw)
  exact (if_neg (by simp [ho])).trans (if_neg (not_not.mpr hcode))

theorem dmaChWrite_enables (ho : c.isSystem o = true) (hc : 2 ≤ ch) (hw : w % 4 ≠ 0 ∧ bitsOf w 31 1 = 1)
    (hen : c.get t DMA_CH_EN ch = 0) : dmaChWrite m c o t ch w =
      ((m, ((c.put t DMA_CH_EN 1 ch).put t DMA_CH_PRIO w ch).dmaState t ch dmIdle), eOk) := by
  rw [dmaChWrite_ok ho hc hw.1, hen, hw.2]
  rfl

theorem dmaChWrite_disables (ho : c.isSystem o = true) (hc : 2 ≤ ch) (hw : w % 4 ≠ 0 ∧ bitsOf w 31 1 = 0)
    (hen : c.get t DMA_CH_EN ch = 1) : dmaChWrite m c o t ch w =
      (dmaDisable t ch (m, (c.put t DMA_CH_EN 0 ch).put t DMA_CH_PRIO w ch), eOk) := by
  rw [dmaChWrite_ok ho hc hw.1, hen, hw.2]
  rfl

end

/-! ### DQUEUE and DWAIT (R109) -/

/-- The job of the descriptor that DQUEUE points to, under the next number of its channel. -/
def State.dqueueJob (s : State) (t : TileId) (k : CoreId) (i : Nat) (a : Fin 32) : Job :=
  jobOf t i ((s.ctl.get t DMA_CH_JOBS (((s.ctl.task t i).reg (a.val + 1)).toNat % 16) + 1) % 2 ^ 32) (s.ctl.level t k == 1)
    (memBytes s.mem (localAddr t k ((s.ctl.task t i).reg a).toNat) 32)

section

variable {s : State} {t : TileId} {k : CoreId} {d a : Fin 32} {i : Nat}

/-- DQUEUE of a descriptor that the queue takes. -/
theorem dqueue_accepted (h : Executes s.ctl t k i) (hpair : a.val % 2 = 0 ∧ d.val % 2 = 0)
    (hl : localOk ((s.ctl.task t i).reg a).toNat 32 32 = true)
    (he : s.ctl.dqueueCode t (((s.ctl.task t i).reg (a.val + 1)).toNat % 16)
      (memBytes s.mem (localAddr t k ((s.ctl.task t i).reg a).toNat) 32) (s.dqueueJob t k i a) = eOk) :
    execDqueue t k d a s = .next (s.ctlTo (
      let ch := ((s.ctl.task t i).reg (a.val + 1)).toNat % 16
      let j := s.dqueueJob t k i a
      let c := (s.ctl.setChn t ch { s.ctl.chn t ch with queue := (s.ctl.chn t ch).queue ++ [j] }).put t DMA_CH_JOBS j.num ch
      (if c.get t DMA_CH_STATE ch = dmIdle then c.dmaNext t ch else c).retirePair t i d (BitVec.ofNat 32 eOk)
        (BitVec.ofNat 32 j.num))) := by
  refine (onTileR_instr h (by simp [hpair.1, hpair.2])).trans ?_
  refine congrArg (fun c => Host.Outcome.next (s.ctlTo c)) (if_neg (not_not.mpr ?_))
  rw [hl]
  exact he

theorem dwait_executes (h : Executes s.ctl t k i) (ha : a.val % 2 = 0) : execDwait t k d a s = .next (s.ctlTo (
    let ch := ((s.ctl.task t i).reg a).toNat % 16
    let num := ((s.ctl.task t i).reg (a.val + 1)).toNat
    if (s.ctl.chn t ch).queue.any (fun j => j.num == num) then s.ctl.blockOn t i d (.dma ch num) 2
    else s.ctl.retireCode t i d ((tabFind (s.ctl.chn t ch).outcomes num).getD eAbsent))) := by
  refine (onTile_instr h (by simp [ha])).trans ?_
  congr 2
  dsimp only
  split
  · rfl
  · split
    · next hf => rw [hf]; rfl
    · next hf => rw [hf]; rfl

end

/-- Settles O21: each row is the branch of its meaning that the state of the channel names. -/
theorem dmaOperationsComplete : Obligations.DmaOperationsComplete := by
  refine ⟨?complete, ?busError, ?autoResume, ?recover, ?enable, ?locked, ?disable, ?dqueue, ?dwaits, ?dwaited⟩
  case complete =>
    intro s t ch j rest x0 x y ht hq hs
    exact dmaJobComplete_running ht hq hs
  case busError =>
    intro s t addr write a x c1 c2 c3 c4 c5 n c6 ht hl
    change execDmaBusError t addr write s = _
    exact onTileM_eq ht (if_neg (by simp [hl]))
  case autoResume =>
    intro s t ht hh
    change execDmaAutoResume t s = _
    exact onTileM_eq ht (if_neg (by simp [hh]))
  case recover =>
    intro s t o halted cut c0 c1 hf hr ho hh
    exact accessM_ctl hf hr (dmaCtrlWrite_recovers ho hh)
  case enable =>
    intro s t o ch w hf hr ho hc hw hen
    have hword : (2 ^ 31 + if ch.val < 2 then 3 else s.ctl.get t DMA_CH_PRIO ch) = w :=
      congrArg (2 ^ 31 + ·) (if_neg (Nat.not_lt.mpr hc))
    exact accessM_ctl hf hr ((congrArg (dmaChWrite s.mem s.ctl o t ch) hword).trans (dmaChWrite_enables ho hc hw hen))
  case locked =>
    intro s t o ch hf hr ho hc
    change execDmaChannelEnable t o ch s = _
    unfold execDmaChannelEnable
    rw [onAccessM_fitted hf, accessM_reached hr, dmaChWrite_locked ho hc]
    rfl
  case disable =>
    intro s t o ch w c1 code y c0 c2 hf hr ho hc hw hen
    have hword : (if ch.val < 2 then 3 else s.ctl.get t DMA_CH_PRIO ch) = w := if_neg (Nat.not_lt.mpr hc)
    have hwrite : dmaChWrite s.mem s.ctl o t ch (if ch.val < 2 then 3 else s.ctl.get t DMA_CH_PRIO ch) =
        ((y.1, c2), eOk) := by
      rw [hword, dmaChWrite_disables ho hc hw hen]
      rfl
    change execDmaChannelDisable t o ch s = _
    unfold execDmaChannelDisable
    rw [onAccessM_fitted hf, accessM_reached hr, hwrite]
  case dqueue =>
    intro s t k d a i x ch b num j y c1 c2 h hpair hl he
    exact dqueue_accepted h hpair hl he
  case dwaits =>
    intro s t k d a i ch num h ha hq
    refine (dwait_executes h ha).trans ?_
    dsimp only
    rw [if_pos hq]
  case dwaited =>
    intro s t k d a i ch num h ha hq
    refine (dwait_executes h ha).trans ?_
    dsimp only
    rw [if_neg (ne_true_of_eq_false hq)]

end Sys2Proof.Machine

/-! ## The event recorder (O20)

A presented record is numbered, written and queued for the tail, or withheld: which of the three is said by the tokens of its
bucket and its severity (R435 to R437). The registers and EMIT are one branch each. -/
namespace Sys2Proof.Machine

/-! ### A presented record (R432 to R437) -/

/-- An accepted record: its bytes take SEQ and the count of the withheld ones of its code, and join the queue of the tail. -/
def Ctl.numbered (c : Ctl) (t : Nat) (p : Presented) : Ctl × Nat × List Byte :=
  let q := c.get t EVT_SEQ_SEQ
  let bytes := recordBytes p q (tabGet 0 c.withheld (t * 65536 + p.code))
  let d := (Ctl.incMod { c with withheld := tabErase c.withheld (t * 65536 + p.code) } t EVT_SEQ_SEQ).feedSubs t p.code
    p.severity bytes
  ((d.queueTail t q bytes).fillMark t, q, bytes)

section

variable {c : Ctl} {t : Nat} {p : Presented}

theorem acceptOne_token (h : 1000 ≤ c.tokensOf t (c.bucketOf t p.code)) : c.acceptOne t p =
    (let x := (c.setTokens t (c.bucketOf t p.code) (c.tokensOf t (c.bucketOf t p.code) - 1000)).numbered t p
     (x.1, some x.2)) := by
  unfold Ctl.acceptOne
  dsimp only
  rw [if_neg (fun hno => absurd h (Nat.not_le.mpr hno.1)), if_pos h]
  rfl

theorem acceptOne_urgent (h : c.tokensOf t (c.bucketOf t p.code) < 1000) (hs : p.severity = 5) :
    c.acceptOne t p = ((c.numbered t p).1, some (c.numbered t p).2) := by
  unfold Ctl.acceptOne
  dsimp only
  rw [if_neg (fun hno => hno.2 hs), if_neg (Nat.not_le.mpr h)]
  rfl

theorem acceptOne_withheld (h : c.tokensOf t (c.bucketOf t p.code) < 1000) (hs : p.severity ≠ 5) :
    c.acceptOne t p = (c.withhold t p.code, none) := if_pos ⟨h, hs⟩

theorem recordOne_some {m : Mem} {d : Ctl} {e : Nat × List Byte} (h : c.acceptOne t p = (d, some e)) :
    recordOne m c t p = (recordSteps 3 m (ringAddr t e.1) e.2, d, true) := by
  unfold recordOne
  rw [h]

theorem recordOne_none {m : Mem} {d : Ctl} (h : c.acceptOne t p = (d, none)) : recordOne m c t p = (m, d, false) := by
  unfold recordOne
  rw [h]

end

/-- The oldest presented record of a tile is the one decided on. -/
theorem eventRecordAccept_eq {s : State} {t : TileId} {p : Presented} {rest : List Presented} {m : Mem} {c : Ctl} {b : Bool}
    (ht : t.val < s.ctl.tiles) (hp : tabGet [] s.ctl.presented t = p :: rest)
    (hr : recordOne s.mem { s.ctl with presented := tabSet s.ctl.presented t rest } t p = (m, c, b)) :
    execEventRecordAccept t s = .next (s.allTo (m, c)) := by
  refine onTileM_eq ht ?_
  dsimp only
  rw [hp]
  dsimp only
  rw [hr]

/-- With nothing presented nothing changes. -/
theorem eventRecordAccept_nil {s : State} {t : TileId} (ht : t.val < s.ctl.tiles) (hp : tabGet [] s.ctl.presented t = []) :
    execEventRecordAccept t s = .next s := by
  refine onTileM_ctl (c := s.ctl) ht ?_
  dsimp only
  rw [hp]

/-! ### The tail (R435) -/

theorem tailWrite_nil {m : Mem} {c : Ctl} {t : Nat} (h : tabGet [] c.tailQueue t = []) : tailWrite m c t = (m, c) := by
  unfold tailWrite
  rw [h]

theorem tailWrite_cons {m : Mem} {c : Ctl} {t q : Nat} {b : List Byte} {rest : List (Nat × List Byte)}
    (h : tabGet [] c.tailQueue t = (q, b) :: rest) : tailWrite m c t =
      (recordSteps 3 m (tailAddr t q) b, Ctl.put { c with tailQueue := tabSet c.tailQueue t rest } t EVT_TAIL_SEQ_SEQ q) := by
  unfold tailWrite
  rw [h]

/-! ### Registers (R436, R439) -/

section

variable {c : Ctl} {o : Origin}

theorem evtRptrWrite_accepted (h : c.isSystem o = true) (t w : Nat) : c.evtRptrWrite o t w =
    (Ctl.fillMark (Ctl.put { c with marked := c.marked.filter (fun x => x != t) } t EVT_RPTR_SEQ w) t, eOk) :=
  if_neg (by simp [h])

theorem evtClassWrite_accepted (h : c.mayConfig o = true) (t k w : Nat) : c.evtClassWrite o t k w =
    (((c.put t EVT_CLASS_RATE (bitsOf w 16 16) k).put t EVT_CLASS_BURST (w % 65536) k).setTokens t k (w % 65536 * 1000), eOk) :=
  if_neg (by simp [h])

/-- Word 0 of an entry: VALID and CODE, where no other valid entry has the code. -/
theorem codeTableWrite_code {t e w : Nat} (h : c.mayConfig o = true)
    (hfree : (bit w 31 && ((c.put t EVT_CODE_VALID 0 e).codeEntry t (w % 65536)).isSome) = false) :
    c.codeTableWrite o t e 0 w =
      (((c.put t EVT_CODE_VALID (bitsOf w 31 1) e).put t EVT_CODE_CODE (w % 65536) e).setTokens t (4096 + e)
        (c.get t EVT_CODE_BURST e * 1000), eOk) :=
  (if_neg (by simp [h])).trans ((if_pos rfl).trans (if_neg (ne_true_of_eq_false hfree)))

/-- Word 1 of an entry: RATE and BURST. -/
theorem codeTableWrite_rate (h : c.mayConfig o = true) (t e w : Nat) : c.codeTableWrite o t e 1 w =
    (((c.put t EVT_CODE_RATE (bitsOf w 16 16) e).put t EVT_CODE_BURST (w % 65536) e).setTokens t (4096 + e)
      (w % 65536 * 1000), eOk) :=
  (if_neg (by simp [h])).trans (if_neg (by decide))

end

/-! ### EMIT (R108) -/

section

variable {m : Mem} {c : Ctl} {t k i p : Nat} {d : Fin 32} {b : List Byte}

/-- A right argument passes both checks. -/
theorem emitAt_right (hl : localOk p 32 8 = true) (he : c.emitCode t k b = eOk) : emitAt m c t k i d p b =
    if 16 ≤ ((tabGet [] c.presented t).filter (fun z => z.source == 0x40 + k)).length then
      (m, (c.withhold t (leNat (b.take 2))).retire t i d 0x100)
    else
      let y := presentNow m c t (c.emitRecord t k b)
      (y.1, y.2.1.retire t i d (if y.2.2 then 0 else 0x100)) := by
  have hcode : (if (!localOk p 32 8) = true then eFormat else c.emitCode t k b) = eOk := by
    rw [hl]
    exact he
  exact if_neg (not_not.mpr hcode)

/-- EMIT, met by the task a core executes, on the 32 bytes at its pointer. -/
theorem emit_executes {s : State} {t : TileId} {k : CoreId} {a : Fin 32} {x : Mem × Ctl} (h : Executes s.ctl t k i)
    (he : emitAt s.mem s.ctl t k i d ((s.ctl.task t i).reg a).toNat
      (memBytes s.mem (localAddr t k ((s.ctl.task t i).reg a).toNat) 32) = x) : execEmit t k d a s = .next (s.allTo x) :=
  (onTileM_instr h rfl).trans (congrArg (fun x => Host.Outcome.next (s.allTo x)) he)

end

/-- Settles O20: the decision on a record is one of three, and each register write and EMIT has one branch. -/
theorem recorderOperationsComplete : Obligations.RecorderOperationsComplete := by
  refine ⟨?token, ?urgent, ?withheld, ?nonePresented, ?noTail, ?tail, ?rptr, ?classWrite, ?code, ?rate, ?emits, ?full⟩
  case token =>
    intro s t x rest c1 b q bytes c2 c3 ht hp hk
    change execEventRecordAccept t s = _
    exact (eventRecordAccept_eq ht hp (recordOne_some (acceptOne_token hk))).trans rfl
  case urgent =>
    intro s t x rest c1 q bytes c3 ht hp hk hs
    change execEventRecordAccept t s = _
    exact (eventRecordAccept_eq ht hp (recordOne_some (acceptOne_urgent hk hs))).trans rfl
  case withheld =>
    intro s t x rest c1 ht hp hk hs
    change execEventRecordAccept t s = _
    exact eventRecordAccept_eq ht hp (recordOne_none (acceptOne_withheld hk hs))
  case nonePresented =>
    intro s t ht hp
    change execEventRecordAccept t s = _
    exact eventRecordAccept_nil ht hp
  case noTail =>
    intro s t ht hq
    change execEventTailWriteDone t s = _
    exact onTileM_ctl (c := s.ctl) ht (tailWrite_nil hq)
  case tail =>
    intro s t q b rest ht hq
    change execEventTailWriteDone t s = _
    exact onTileM_eq ht (tailWrite_cons hq)
  case rptr =>
    intro s t o w hf hr ho
    exact access_accepted hf hr (evtRptrWrite_accepted ho t w.toNat)
  case classWrite =>
    intro s t o k w hf hr ho
    exact access_accepted hf hr (evtClassWrite_accepted ho t k w.toNat)
  case code =>
    intro s t o e hi w hf hr ho hi0 hfree
    subst hi0
    exact access_accepted hf hr (codeTableWrite_code ho hfree)
  case rate =>
    intro s t o e hi w hf hr ho hi1
    subst hi1
    exact access_accepted hf hr (codeTableWrite_rate ho t e w.toNat)
  case emits =>
    intro s t k d a i x b y h hl he hn
    exact emit_executes h ((emitAt_right hl he).trans (if_neg (Nat.not_le.mpr hn)))
  case full =>
    intro s t k d a i x b h hl he hn
    exact emit_executes (x := (s.mem, _)) h ((emitAt_right hl he).trans (if_pos hn))

end Sys2Proof.Machine

/-! ## The image commands (O33)

A delivered command that passes its checks of R449 or R460 has its effect, which leaves LAST_CODE as it is. -/
namespace Sys2Proof.Machine

/-! ### Commands that succeed (R448, R465) -/

/-- LAST_CODE is written by a command that fails only. -/
theorem imaged_ok {e : Eff} (h : e.status = eOk) : e.imaged = e := if_pos h

/-- An image command that succeeds is answered with its effect. -/
theorem imageCmd_answered {s : State} {c' : Ctl} {code len : Nat} {d : Datagram} {q : Req} {k : Req → Mem → Ctl → Eff} {e : Eff}
    (h : Delivered s.ctl code d q c') (hr : engRoles.contains q.role = true) (hl : q.args.length = len)
    (hk : k q s.mem c' = e) (hs : e.status = eOk) (hd : e.denied = false) (hh : e.handle = none) :
    s.cmd code d (fun q m c => (guarded q engRoles len m c (k q m c)).imaged) = .next (s.replied d q e.imaged) := by
  have himaged : e.imaged = e := imaged_ok hs
  rw [himaged]
  refine cmd_answered h ?_ hd (released_none hh)
  rw [guarded_pass hr hl, hk, himaged]

/-! ### Programming (R444, R445) -/

section

variable {s : State} {programOk : Bool}

/-- The first check that fails ends the verification. -/
theorem imgVerifyDone_fails (hs : s.ctl.img.stage = .verify) (hv : (verifyCode s.mem s.ctl).1 ≠ eOk) :
    execImgVerifyDone programOk s =
      .next (s.ctlTo (s.ctl.verifyFails (verifyCode s.mem s.ctl).1 (verifyCode s.mem s.ctl).2)) :=
  onModuleM_ctl ((if_neg (not_not.mpr hs)).trans (if_pos hv))

/-- An image that passes every check goes on to the programming. -/
theorem imgVerifyDone_passes {x : Mem × Ctl} (hs : s.ctl.img.stage = .verify)
    (hp : (verifyCode s.mem s.ctl).1 = eOk → execImgVerifyDone programOk s = .next (s.allTo x)) :
    execImgVerifyDone programOk s = .next (s.allTo (if (verifyCode s.mem s.ctl).1 = eOk then x
      else (s.mem, s.ctl.verifyFails (verifyCode s.mem s.ctl).1 (verifyCode s.mem s.ctl).2))) := by
  by_cases hv : (verifyCode s.mem s.ctl).1 = eOk
  · rw [if_pos hv, hp hv]
  · rw [if_neg hv, imgVerifyDone_fails hs hv]
    rfl

end

/-- Settles O33: each command passes its checks, and a verification fails, programs the banks or leaves them open. -/
theorem imageCommandsComplete : Obligations.ImageCommandsComplete := by
  refine ⟨?begins, ?chunk, ?verify, ?fails, ?programs, ?torn, ?activate, ?confirm⟩
  case begins =>
    intro s d q c' n c1 h hr hl hn hs
    obtain ⟨hlow, hhigh, hwhole⟩ := hn
    obtain ⟨hactivating, htrial, hfallback, hverify⟩ := hs
    refine imageCmd_answered h hr hl (if_neg (not_not.mpr (firstErr_ok ?_))) rfl rfl rfl
    simp [n, Nat.not_lt.mpr hlow, Nat.not_lt.mpr hhigh, hwhole, hactivating, htrial, hfallback, hverify]
  case chunk =>
    intro s d q c' b c1 off g h hr hl ht hs ho
    obtain ⟨halign, hend, hpart⟩ := ho
    refine cmd_bulk (n := q.arg 4 1) h ?_ rfl (takeBulk_gone (c1 := c1) ht)
    rw [guarded_pass hr hl]
    dsimp only
    rw [ht]
    dsimp only
    rw [if_neg (not_not.mpr rfl), if_neg (not_not.mpr (firstErr_ok ?_))]
    · simp only [Eff.names, hl]
      rfl
    · have hwhole : (b.length % 1024 != 0 && q.arg 0 4 + b.length != c1.img.len) = false := by
        simpa only [Bool.and_eq_false_iff, bne_eq_false_iff_eq] using hpart
      have hfits : decide (c1.img.len < q.arg 0 4 + b.length) = false := decide_eq_false (Nat.not_lt.mpr hend)
      have haligned : (q.arg 0 4 % 1024 != 0) = false := bne_eq_false_iff_eq.mpr halign
      simp [hwhole, hfits, haligned, hs]
  case verify =>
    intro s d q c' h hr hl hs
    refine imageCmd_answered h hr hl (if_neg ?_) rfl rfl rfl
    simp [hs.1, hs.2]
  case fails =>
    intro s programOk v hs hv
    change execImgVerifyDone programOk s = _
    exact imgVerifyDone_fails hs hv
  case programs =>
    intro s programOk b c1 m1 r c2 v hs hp
    change execImgVerifyDone programOk s = _
    subst hp
    exact imgVerifyDone_passes hs fun hv =>
      onModuleM_eq ((if_neg (not_not.mpr hs)).trans (if_neg (not_not.mpr hv)))
  case torn =>
    intro s programOk b c1 x m1 v hs hp
    change execImgVerifyDone programOk s = _
    subst hp
    exact imgVerifyDone_passes hs fun hv =>
      onModuleM_eq ((if_neg (not_not.mpr hs)).trans (if_neg (not_not.mpr hv)))
  case activate =>
    intro s d q c' mode pause c1 c2 h hr hl he
    exact imageCmd_answered h hr hl (if_neg (not_not.mpr he)) rfl rfl rfl
  case confirm =>
    intro s d q c' h hr hl he
    exact imageCmd_answered h hr hl (if_neg (not_not.mpr he)) rfl rfl rfl

end Sys2Proof.Machine

/-! ## The events of an activation (O34)

Each event is its effect in the stage that its row names; the register writes of the image block are those of System. -/
namespace Sys2Proof.Machine

/-! ### Restarts and rolling steps (R450, R456) -/

section

variable {s : State} {t : Nat}

/-- The restarts of a pause end it, and the requests held through it are answered. -/
theorem imageRestartDone_paused (h : s.ctl.img.paused = true) : execImageRestartDone s =
    .next (answerHeld { s with mem := (pauseEnd (s.mem, s.ctl)).1, ctl := (pauseEnd (s.mem, s.ctl)).2 }) := if_pos h

/-- The restart of the tile of a rolling step. -/
theorem stepRestarted_tile {x : MC} (ht : x.2.img.rollTile = some t) (hc : x.2.carry t = csCarried)
    (hb : x.2.img.onB.contains t ≠ x.2.targetBank) : stepRestarted x =
      (imageRestart t x.2.targetBank x).on (fun c =>
        if c.img.rollBack then c else c.event (c.recorderOf t) 0x0E 0xB005 0 (leBytes 1 t)) := by
  unfold stepRestarted
  rw [ht]
  exact if_neg (not_or.mpr ⟨not_not.mpr hc, hb⟩)

theorem imageRestartDone_rolling (h : s.ctl.img.paused = false) :
    execImageRestartDone s = .next (s.allTo (stepRestarted (s.mem, s.ctl))) :=
  (if_neg (ne_true_of_eq_false h)).trans (onModuleM_next s _)

/-- The next tile of a rolling activation starts its commit. -/
theorem rollingStepStart_commits (hr : s.ctl.rolling = true) (ht : s.ctl.img.rollTile = none) (hn : s.ctl.nextRoll = some t) :
    execRollingStepStart s =
      .next (s.ctlTo (Ctl.startCommit { s.ctl with img := { s.ctl.img with rollTile := some t } } t 5 none)) := by
  refine onModule_eq ?_
  dsimp only
  rw [if_neg (by simp [hr, ht]), hn]

end

/-! ### Registers (R459, R460, R465, R466) -/

section

variable {m : Mem} {c : Ctl} {o : Origin}

theorem imgCtrlWrite_confirms (ho : c.isSystem o = true) (he : c.confirmCode = eOk) :
    imgCtrlWrite m c o 1 = ((m, c.confirm m), eOk) :=
  (if_neg (by simp [ho])).trans ((if_neg (by decide)).trans (if_neg (not_not.mpr he)))

/-- A self-check of a trial that is still open takes its bits. -/
theorem selfcheckWrite_open {t : Nat} (ho : c.isSystem o = true) (hs : c.img.stage = .trial)
    (hok : c.flag t IMG_STATUS_SELF_OK = false) (hfail : c.flag t IMG_STATUS_SELF_FAIL = false) (w : Nat) :
    selfcheckWrite m c o t w =
      (let c := if bit w 0 then c.put t IMG_STATUS_SELF_OK 1 else c
       if bit w 1 then ((m, ((c.put t IMG_STATUS_SELF_FAIL 1).event t 0x0E 0xB006 0 (leBytes 1 t)).imgFallBack 1), eOk)
       else ((m, c.autoConfirm m), eOk)) :=
  (if_neg (by simp [ho])).trans (if_neg (by simp [hs, hok, hfail]))

theorem bit_zero_of_odd {v : Nat} (h : v % 2 = 1) : bit v 0 = true := by
  simp [bit, Nat.testBit_zero, h]

/-- READY of a tile that is CARRIED, set by System, with AUTO from bit 31. -/
theorem carryCtrlWrite_ready {t w : Nat} (ho : c.isSystem o = true) (hc : c.hasCarry = true)
    (ht : c.tileState t = tsCarried) (hw : bit w 0 = true) : carryCtrlWrite c o t w =
      (let d := c.put t CARRY_CTRL_AUTO (bitsOf w 31 1)
       if d.readySet.contains t then d else { d with readySet := t :: d.readySet }, eOk) := by
  have hm : c.mayConfig o = true := by simp [Ctl.mayConfig, ho]
  refine (if_neg (by simp [hc])).trans ((if_neg (by simp [hm])).trans
    ((if_neg (by simp [ho])).trans ((if_neg (by simp [ht])).trans ?_)))
  rw [hw]
  cases hset : (c.put t CARRY_CTRL_AUTO (bitsOf w 31 1)).readySet.contains t with
  | false => simp only [hset]; rfl
  | true => simp only [hset]; rfl

end

/-- Settles O34: each event is its meaning in the stage that it names, each write that of a register which accepts it. -/
theorem imageEventsComplete : Obligations.ImageEventsComplete := by
  refine ⟨?commitsDone, ?pauseEnds, ?stepRestarts, ?stepStarts, ?stepTimesOut, ?confirm, ?pass, ?fail, ?expiry, ?ready⟩
  case commitsDone =>
    intro s hs
    change execActivationCommitsDone s = _
    exact onModuleM_ctl (if_neg (by simp [hs.1, hs.2.1, hs.2.2]))
  case pauseEnds =>
    intro s x hp
    exact imageRestartDone_paused hp
  case stepRestarts =>
    intro s t x hp ht hc
    change execImageRestartDone s = _
    rw [imageRestartDone_rolling hp, stepRestarted_tile ht hc.1 hc.2]
  case stepStarts =>
    intro s t hr hn
    exact rollingStepStart_commits hr.1 hr.2 hn
  case stepTimesOut =>
    intro s ht
    change execRollingStepTimeout s = _
    exact onModule_eq (if_neg (by simpa using ht))
  case confirm =>
    intro s o hf hr ho he
    exact accessM_ctl hf hr (imgCtrlWrite_confirms ho he)
  case pass =>
    intro s t o hf hr ho hs
    obtain ⟨htrial, hok, hfail⟩ := hs
    exact accessM_ctl hf hr (selfcheckWrite_open ho htrial hok hfail 1)
  case fail =>
    intro s t o hf hr ho hs
    obtain ⟨htrial, hok, hfail⟩ := hs
    exact accessM_ctl hf hr (selfcheckWrite_open ho htrial hok hfail 2)
  case expiry =>
    intro s hs
    change execConfirmWindowExpiry s = _
    exact onModule_eq (if_pos hs)
  case ready =>
    intro s t o v c1 hf hr ho hs
    refine access_accepted hf hr (carryCtrlWrite_ready ho hs.1 hs.2 ?_)
    exact bit_zero_of_odd (by omega)

end Sys2Proof.Machine
